-- ==== Sys2Proof/Word.lean ====
section
/-! DEFINITION. The word types of the MZ4820: C-die and L-die registers are 32 bits wide, P-die
registers 16 bits (R2); memory is addressed by byte with 40-bit addresses (R15), kept as `Nat`. -/

namespace Sys2Proof

/-- A register value as the register file holds it; a P-die register uses the low 16 bits (R2). -/
abbrev Word := BitVec 32

/-- One byte of memory. -/
abbrev Byte := BitVec 8

/-- A fabric initiator ID of table R356. -/
abbrev InitId := BitVec 16

end Sys2Proof
end

