-- ==== Sys2Proof/Machine/Types.lean ====
section
/-! DEFINITION. The data that commands carry: far dies, frames and messages. -/

namespace Sys2Proof

/-- The two dies reached through a lath link (R11, R34). -/
inductive FarDie where
  | l | p
  deriving DecidableEq, Repr

/-- A pulsed block reset (R40, R127): of a client's unit or of the packet engines' tick work, of a die, or of an element of
a unit. -/
inductive Pulse where
  | client (c : Fin 6)
  | die (d : FarDie)
  | element (unit : Fin 24) (index : BitVec 16)
  deriving DecidableEq, Repr

/-- How the reception of a frame ends (R205): with a good FCS, a bad FCS, a symbol error, or a link loss. -/
inductive RxEnd where
  | good | badFcs | symbolError | linkLoss
  deriving DecidableEq, Repr

/-- The end of a reception: its local time, and whether on 10BASE-T1S further frames of the sender's burst follow (R224). -/
structure RxStop where
  lt : Nat
  more : Bool
  deriving DecidableEq, Repr

/-- A time spent at a load channel; `same`: in the supervisor cycle of another condition of the channel (R158). -/
structure ChanTime where
  ch : Fin 48
  same : Bool
  deriving DecidableEq, Repr

/-- What the eight converters hold (R178, R179): the samples of each of the 96 inputs, input 0 first, and the conducting flag
latched with the first sample of each load channel that has turned on or off during the conversions. -/
structure AdcCodes where
  samples : List (List (BitVec 12))
  flags : BitVec 48
  deriving DecidableEq, Repr

/-- A LIN header that starts: channel and local time (R284). -/
structure LinStart where
  ch : Fin 12
  lt : Nat
  deriving DecidableEq, Repr

/-- A LIN response on the bus: data bytes and checksum (R283). -/
structure LinResp where
  data : List Byte
  check : Byte
  deriving DecidableEq, Repr

/-- A MAC address (octet 0 in the low byte) and the local time at which its entry ages (R198). -/
structure MacAge where
  mac : BitVec 48
  lt : Nat
  deriving DecidableEq, Repr

/-- A frame on a CAN channel (R255, R262): format 0 classical, 1 FD, 2 XL; `id` is the base, extended or priority
identifier. -/
structure CanFrame where
  id : Nat
  ide : Bool := false
  rtr : Bool := false
  format : Nat := 0
  brs : Bool := false
  esi : Bool := false
  sec : Bool := false
  dlc : Nat := 0
  sdt : Nat := 0
  vcid : Nat := 0
  af : Nat := 0
  data : List Byte := []
  deriving DecidableEq, Repr

/-- What a debug write sets (R389): a general register, the program counter with its bits 39:32, a system register. -/
inductive DbgTarget where
  | g (i : Fin 32)
  | pc (hi : BitVec 8)
  | sys (n : Nat)
  deriving DecidableEq, Repr

end Sys2Proof
end

