-- ==== Sys2Proof/Syntax.lean ====
section
/-! DEFINITION. The commands and events of the MZ4820: one constructor for each row of the table of operations.
Operands carry what comes from outside the block: the initiator of an access (R356), a written value, a
frame, a level, a local time in nanoseconds. -/

namespace Sys2Proof

/-- The commands of the block. -/
inductive Instr where
  -- register access and the frame tick
  /-- REGISTER_WRITE (R4): initiator, byte address, access width in bytes, value. -/
  | registerWrite (init : InitId) (addr : Nat) (width : Nat) (value : Word)
  /-- RC_READ (R4): initiator, byte address, access width in bytes. -/
  | rcRead (init : InitId) (addr : Nat) (width : Nat)
  /-- TICK_EDGE (R28): local time of the edge in ns. -/
  | tickEdge (lt : Nat)
  /-- FAR_COMMIT_APPLY (R34): the far die that the strobe reaches. -/
  | farCommitApply (die : FarDie)
  /-- COMMIT_ACK (R34). -/
  | commitAck (die : FarDie)
  /-- COMMIT_FAULT (R34). -/
  | commitFault (die : FarDie)
  /-- KERF_START (R28, R380): the safe cores whose plumb test fails in this kerf, each with the lanes that did not give
  disagree (0: the parity injection did not fire). -/
  | kerfStart (plumb : List (Fin 6 × Word))
  /-- CLIENT_BUDGET_POINT (R37). -/
  | clientBudgetPoint (client : Fin 32)
  /-- BLOCK_RESET_PULSE_END (R40, R127). -/
  | blockResetPulseEnd (pulse : Pulse)
  /-- TICK_DONE (R38): initiator, written value, time since the edge in ns. -/
  | tickDone (init : InitId) (value : Word) (ns : Nat)
  /-- TICK_RUN_START (R112): local time in ns of the loader's write. -/
  | tickRunStart (lt : Nat)
  -- truss image
  /-- TRUSS_LIVE_START (R66): a write of TRUSS_LIVE_CMD. -/
  | trussLiveStart (init : InitId) (value : Word)
  /-- REST_PATTERN_WRITE (R71): whether the verification after the write succeeds. -/
  | restPatternWrite (verified : Bool)
  /-- TRUSS_OWNER_QUERY (R58): a write of TRUSS_OWNER_QUERY. -/
  | trussOwnerQuery (init : InitId) (resource : Word)
  -- supplies and clocks
  /-- KL30_LEVEL_CHANGE (R82): the higher of the two posts in mV. -/
  | kl30LevelChange (mv : Nat)
  /-- POST_LOW (R83): post 0 is VBAT_A, post 1 VBAT_B. -/
  | postLow (post : Fin 2)
  /-- POST_RECOVERY (R83). -/
  | postRecovery (post : Fin 2)
  /-- RAIL_OUT_OF_WINDOW (R84): rail in the order of table R84. -/
  | railOutOfWindow (rail : Fin 5)
  -- power modes
  /-- MODE_CMD_RUN (R89): initiator and the written force bit. -/
  | modeCmdRun (init : InitId) (force : Bool)
  /-- MODE_CMD_DOZE (R89). -/
  | modeCmdDoze (init : InitId) (force : Bool)
  /-- MODE_CMD_SLEEP (R89). -/
  | modeCmdSleep (init : InitId) (force : Bool)
  /-- MODE_CMD_DORMANT (R89). -/
  | modeCmdDormant (init : InitId) (force : Bool)
  /-- LOGIC_BIST_COMPLETE (R118): bit p set where partition p's signature differs; duration in ms. -/
  | logicBistComplete (failMask : BitVec 38) (ms : BitVec 8)
  /-- WAKE_PIN_EVENT (R93): pins with a rising and with a falling edge held for 4 sill cycles. -/
  | wakePinEvent (rising falling : BitVec 16)
  /-- LIN_SLEEP_WAKE (R93): LIN channels dominant for 150 µs. -/
  | linSleepWake (channels : BitVec 12)
  -- module reset
  /-- NRESET_FALL (R95): `ext` says that an external driver pulls the pin. -/
  | nresetFall (ext : Bool)
  /-- NRESET_RISE (R105): the low time of the pin in supervisor cycles and in µs. -/
  | nresetRise (cycles us : Nat)
  /-- LINK_TRAINED (R105): link 0 is CL, link 1 is CP. -/
  | linkTrained (link : Fin 2)
  /-- SW_RESET_WARM (R97): initiator and key of the RSTC_SW_RST write. -/
  | swResetWarm (init : InitId) (key : BitVec 16)
  /-- SW_RESET_COLD (R97). -/
  | swResetCold (init : InitId) (key : BitVec 16)
  /-- NRESET_DRIVE_END (R97): the internal request of this cause code lets go of the pin. -/
  | nresetDriveEnd (cause : Fin 16)
  -- die and block resets
  /-- DIE_RESET_ASSERT (R99). -/
  | dieResetAssert (init : InitId) (die : FarDie)
  /-- DIE_RESET_RELEASE (R99). -/
  | dieResetRelease (init : InitId) (die : FarDie)
  /-- UNIT_RESET_ASSERT (R100). -/
  | unitResetAssert (init : InitId) (unit : Fin 24)
  /-- UNIT_RESET_RELEASE (R100). -/
  | unitResetRelease (init : InitId) (unit : Fin 24)
  /-- GROUP_RESET_ASSERT (R100): bit of RSTC_GROUP_RST. -/
  | groupResetAssert (init : InitId) (group : Fin 28)
  /-- GROUP_RESET_RELEASE (R100). -/
  | groupResetRelease (init : InitId) (group : Fin 28)
  /-- ELEMENT_RESET_ASSERT (R100): unit number and element index. -/
  | elementResetAssert (init : InitId) (unit : Fin 32) (index : BitVec 16)
  /-- ELEMENT_RESET_RELEASE (R100). -/
  | elementResetRelease (init : InitId) (unit : Fin 32) (index : BitVec 16)
  /-- WATCHDOG_KICK (R110). -/
  | watchdogKick (init : InitId) (dog : Fin 16) (value : Word)
  /-- WATCHDOG_EXPIRY (R110). -/
  | watchdogExpiry (dog : Fin 16)
  -- start-up and self-test
  /-- LPDDR_TRAINING_DONE (R112): whether the training succeeded. -/
  | lpddrTrainingDone (ok : Bool)
  /-- BIST_CMD_RUN (R118): the written value. -/
  | bistCmdRun (init : InitId) (value : Word)
  /-- BIST_CONDITION_FAIL (R120): stop reason 1 CLOCK, 2 VOLTAGE, 3 TEMPERATURE, 4 SUPPLY; the partition under
  test; the failures among the partitions already tested; the duration in ms. -/
  | bistConditionFail (reason : Fin 5) (at' : Fin 38) (failMask : BitVec 38) (ms : BitVec 8)
  -- load channels
  /-- PWM_PERIOD_START (R138): channel. -/
  | pwmPeriodStart (ch : Fin 48)
  /-- PWM_ON_EDGE (R138). -/
  | pwmOnEdge (ch : Fin 48)
  /-- PWM_OFF_EDGE (R138). -/
  | pwmOffEdge (ch : Fin 48)
  /-- HOLD_LIMIT_EXPIRY (R142). -/
  | holdLimitExpiry (ch : Fin 48)
  /-- LOAD_FAULT_CLEAR (R165): a write of LOAD_FAULT at a channel or alias address. -/
  | loadFaultClear (init : InitId) (addr : Nat) (value : BitVec 16)
  /-- SYNC_PULSE_END (R149): sync timer. -/
  | syncPulseEnd (timer : Fin 8)
  /-- INRUSH_SETTLE (R154): current below the settle threshold for 50 µs. -/
  | inrushSettle (ch : Fin 48)
  /-- T_LIM_EXPIRY (R154): limiter active for t_lim of unfrozen time. -/
  | tLimExpiry (ch : Fin 48)
  /-- FAST_TRIP (R156). -/
  | fastTrip (ch : Fin 48)
  /-- INRUSH_WINDOW_EXPIRY (R154): the inrush window reaches 100 ms (R158). -/
  | inrushWindowExpiry (ch : ChanTime)
  /-- T_RETRY_EXPIRY (R154). -/
  | tRetryExpiry (ch : Fin 48)
  /-- DEMAG_END (R154): output above −0.3 V. -/
  | demagEnd (ch : Fin 48)
  /-- NO_FREEWHEEL (R154): output below −2 V for more than 20 µs (R158). -/
  | noFreewheel (ch : ChanTime)
  /-- CHANNEL_OVERTEMP (R157): channel Tj reaches 175 °C. -/
  | channelOvertemp (ch : Fin 48)
  /-- COOL_END (R154): channel Tj at or below 150 °C. -/
  | coolEnd (ch : Fin 48)
  /-- OFF_IDLE_RESET (R155): the channel has stayed in OFF for 100 ms. -/
  | offIdleReset (ch : Fin 48)
  /-- RESTART_COUNT_RESET (R157): 10 s in INRUSH or ON since the last over-temperature. -/
  | restartCountReset (ch : Fin 48)
  /-- SENSE_SAMPLE (R152): channel currents in mA, channel 0 first. -/
  | senseSample (mA : List Nat)
  /-- OPEN_LOAD_OFF (R162): in OFF for 1 ms and then above 3.0 V for 1 ms. -/
  | openLoadOff (ch : Fin 48)
  /-- OPEN_LOAD_OFF_END (R162): at or below 3.0 V for 1 ms. -/
  | openLoadOffEnd (ch : Fin 48)
  /-- BANK_DROOP_START (R168): node more than 1.5 V below the post. -/
  | bankDroopStart (bank : Fin 6)
  /-- BANK_DROOP_END (R168): node within 1.0 V of the post for 5 µs. -/
  | bankDroopEnd (bank : Fin 6)
  /-- FREEZE_ALLOWANCE_SPENT (R168). -/
  | freezeAllowanceSpent (ch : Fin 48)
  /-- BUDGET_EVALUATION (R169): channel temperatures in °C, channel 0 first. -/
  | budgetEvaluation (tj : List Int)
  /-- SHED_START (R173): the scope has stayed above 110 % of its limit for 100 ms. -/
  | shedStart (scope : Fin 3)
  /-- SHED_STEP (R173): 10 ms of shedding have passed; scope 0 post A, 1 post B, 2 heat. -/
  | shedStep (scope : Fin 3)
  /-- FALLBACK_TRIP (R175): the post's current has exceeded 75 A for 1 ms. -/
  | fallbackTrip (post : Fin 2)
  -- measurement
  /-- ADC_SAMPLES_HELD (R179). -/
  | adcSamplesHeld (samples : AdcCodes)
  /-- MEAS_PASS_DONE (R179): time since the edge in ns. -/
  | measPassDone (ns : Nat)
  /-- ADC_TIMEOUT (R182). -/
  | adcTimeout (adc : Fin 8)
  -- switch and ports
  /-- FRAME_INGRESS (R194): port, bytes from the destination address up to the FCS, local time in ns of the message
  timestamp point at the MAC. -/
  | frameIngress (port : Fin 22) (bytes : List Byte) (tmac : Nat)
  /-- FRAME_RECEIVE_END (R205): how the frame ends; symbol errors, and RS-FEC code words corrected and not;
  local time, and whether the sender's burst goes on (R224). -/
  | frameReceiveEnd (port : Fin 22) (how : RxEnd) (sym fecC fecU : Nat) (lt : RxStop)
  /-- MAC_LOOKUP (R198): initiator and the written value of SWC_MAC_CMD. -/
  | macLookup (init : InitId) (value : Word)
  /-- MAC_ADD (R198). -/
  | macAdd (init : InitId) (value : Word)
  /-- MAC_DELETE (R198). -/
  | macDelete (init : InitId) (value : Word)
  /-- FRAME_TRANSMIT_START (R199): port; local time of the message timestamp point at the MAC. -/
  | frameTransmitStart (port : Fin 22) (tmac : Nat)
  /-- FRAME_TRANSMIT_END (R203): port, collisions met on a T1S port, local time. -/
  | frameTransmitEnd (port : Fin 22) (collisions : Nat) (lt : Nat)
  /-- PORT_DOWN (R207). -/
  | portDown (port : Fin 22)
  /-- FLUSH_COMPLETE (R207). -/
  | flushComplete (port : Fin 22)
  /-- GATE_ENTRY_START (R209): port, local time; the next entry of the operating list starts. -/
  | gateEntryStart (port : Fin 22) (lt : Nat)
  /-- FRER_HISTORY_RESET (R214): context. -/
  | frerHistoryReset (frer : Fin 256)
  /-- PORT_LINK_UP (R222). -/
  | portLinkUp (port : Fin 22)
  /-- PORT_LINK_LOSS (R222). -/
  | portLinkLoss (port : Fin 22)
  /-- TRAINING_TIMEOUT (R223). -/
  | trainingTimeout (port : Fin 18)
  /-- PLCA_BEACON (R224): a BEACON received on a T1S port. -/
  | plcaBeacon (port : Fin 22)
  /-- PLCA_BEACON_TIMEOUT (R224): the invalid-beacon timer expires. -/
  | plcaBeaconTimeout (port : Fin 22)
  /-- PLCA_OPPORTUNITY_TIMEOUT (R224). -/
  | plcaOpportunityTimeout (port : Fin 22)
  /-- USX_AN_WORD (R226): link state and rate of the partner's word; whether it signals a remote fault. -/
  | usxAnWord (port : Fin 22) (linkUp : Bool) (rate : Fin 6) (remoteFault : Bool)
  /-- RING_TAIL_WRITE (R228): initiator, port, ring, direction (true is TX), written value, local time. -/
  | ringTailWrite (init : InitId) (port : Fin 22) (ring : Fin 8) (tx : Bool) (value : Word) (lt : Nat)
  /-- RX_RING_DELIVER (R229). -/
  | rxRingDeliver (port : Fin 22)
  /-- RX_NOBUF_TIMEOUT (R229): the ring has had no free descriptor for 100 µs. -/
  | rxNobufTimeout (port : Fin 22) (ring : Fin 8)
  /-- DIAG_START (R233): initiator, port, written value of EPORT_DIAG_CMD. -/
  | diagStart (init : InitId) (port : Fin 22) (value : Word)
  /-- DIAG_COMPLETE (R233): result code and measured echo in ns. -/
  | diagComplete (port : Fin 22) (code : Fin 5) (echo : BitVec 16)
  -- network time
  /-- PTP_SNAPSHOT (R238): initiator, value, local time. -/
  | ptpSnapshot (init : InitId) (value : Word) (lt : Nat)
  /-- DOMAIN_STEP (R237): a write of PTP_DOM_STEP_HI. -/
  | domainStep (init : InitId) (slot : Fin 2) (value : Word) (lt : Nat)
  /-- TXQ_POP (R246): queue of port 16 + q. -/
  | txqPop (init : InitId) (q : Fin 6) (value : Word)
  /-- SERVO_UNLOCK (R247). -/
  | servoUnlock (init : InitId) (slot : Fin 2) (lt : Nat)
  /-- SERVO_LOCK (R247). -/
  | servoLock (init : InitId) (slot : Fin 2) (lt : Nat)
  /-- SERVO_HOLD (R247). -/
  | servoHold (init : InitId) (slot : Fin 2) (lt : Nat)
  /-- SYNC_TIMEOUT (R247): sync_timeout_ms without a LOCK write. -/
  | syncTimeout (slot : Fin 2) (lt : Nat)
  /-- HOLDOVER_EXPIRY (R247). -/
  | holdoverExpiry (slot : Fin 2) (lt : Nat)
  /-- REVERT_CHECK (R248). -/
  | revertCheck (lt : Nat)
  /-- WT_JOIN (R249): a write of PTP_WT_CMD. -/
  | wtJoin (init : InitId) (value : Word) (lt : Nat)
  /-- SLEW_DONE (R249). -/
  | slewDone (lt : Nat)
  /-- TIME_OUT_PULSE_START (R250). -/
  | timeOutPulseStart (pin : Fin 8) (lt : Nat)
  /-- TIME_OUT_PULSE_END (R250). -/
  | timeOutPulseEnd (pin : Fin 8) (lt : Nat)
  /-- TIME_IN_CAPTURE (R252): pin, rising edge, local time. -/
  | timeInCapture (pin : Fin 8) (rising : Bool) (lt : Nat)
  /-- TIN_POP (R252). -/
  | tinPop (init : InitId) (pin : Fin 8) (value : Word)
  -- message bus channels
  /-- CAN_INTEGRATION_DONE (R258): 11 recessive bits seen. -/
  | canIntegrationDone (ch : Fin 12)
  /-- CAN_FRAME_RECEIVED (R259): channel, frame; whether its reception began before the commit that disabled the
  channel; local times in ns of the sample point of its start-of-frame bit and of its receiver-valid point. -/
  | canFrameReceived (ch : Fin 12) (f : CanFrame) (begun : Bool) (sof lt : Nat)
  /-- MBUS_RXQ_ACK (R263): initiator, channel, receive queue, written value. -/
  | mbusRxqAck (init : InitId) (ch : Fin 12) (q : Fin 8) (value : Word)
  /-- CAN_FRAME_START (R268): channel, local time. -/
  | canFrameStart (ch : Fin 12) (lt : Nat)
  /-- CAN_TX_COMPLETE (R266): the attempt ends without an error; false: it lost arbitration. -/
  | canTxComplete (ch : Fin 12) (sent : Bool)
  /-- MBUS_TXQ_ABORT (R269): initiator, channel, transmit queue, written value of MBUS_TXQ_CTRL. -/
  | mbusTxqAbort (init : InitId) (ch : Fin 12) (q : Fin 8) (value : Word)
  /-- CAN_ERROR (R270): channel; whether the channel is the transmitter; error type (lec); the increment that
  ISO 11898-1 gives the event. -/
  | canError (ch : Fin 12) (tx : Bool) (lec : Fin 7) (incr : Fin 9)
  /-- BUSOFF_RECOVERY_WAIT (R271): the automatic wait has passed. -/
  | busoffRecoveryWait (ch : Fin 12)
  /-- MBUS_RECOVER (R271): initiator, channel, written value of MBUS_CMD. -/
  | mbusRecover (init : InitId) (ch : Fin 12) (value : Word)
  /-- BUSOFF_RECOVERED (R271): 128 occurrences of 11 recessive bits. -/
  | busoffRecovered (ch : Fin 12)
  /-- XCVR_MODE_WRITE (R272): initiator, channel, written value of MBUS_XCVR_CTRL. -/
  | xcvrModeWrite (init : InitId) (ch : Fin 12) (value : Word)
  /-- XCVR_MODE_DONE (R272). -/
  | xcvrModeDone (ch : Fin 12)
  /-- TXD_TIMEOUT (R273): the transmit path has been dominant for 2.5 ms. -/
  | txdTimeout (ch : Fin 12)
  /-- XCVR_OVERTEMP (R273): the transceiver reaches 170 °C. -/
  | xcvrOvertemp (ch : Fin 12)
  /-- CAN_DOMINANT_WAKE (R274): a dominant phase longer than 1.8 µs. -/
  | canDominantWake (ch : Fin 12)
  /-- CAN_SELECTIVE_WAKE (R275): the frame that the decoder received, or none for its 32nd frame error. -/
  | canSelectiveWake (ch : Fin 12) (f : Option CanFrame)
  -- LIN and SENT
  /-- LIN_HEADER_START (R284). -/
  | linHeaderStart (ch : LinStart)
  /-- LIN_FRAME_COMPLETE (R285): error on the bus (0 none, 2 to 5 of R287), the received data bytes and checksum. -/
  | linFrameComplete (ch : Fin 12) (err : Fin 6) (data : LinResp)
  /-- LIN_RESPONSE_TIMEOUT (R287). -/
  | linResponseTimeout (ch : Fin 12)
  /-- LIN_HEADER_RECEIVED (R286): frame ID; break length in tenths of a bit time; bit rate measured in the sync
  field in b/s. -/
  | linHeaderReceived (ch : Fin 12) (id : Fin 64) (brk : Nat) (rate : Nat)
  /-- LIN_GOTO_SLEEP (R288): initiator, channel, written value of LIN_CMD. -/
  | linGotoSleep (init : InitId) (ch : Fin 12) (value : Word)
  /-- LIN_WAKE_PULSE (R288): initiator, channel, written value of LIN_CMD. -/
  | linWakePulse (init : InitId) (ch : Fin 12) (value : Word)
  /-- LIN_WAKE_PULSE_END (R288). -/
  | linWakePulseEnd (ch : Fin 12)
  /-- LIN_INACTIVITY_TIMEOUT (R288). -/
  | linInactivityTimeout (ch : Fin 12)
  /-- LIN_WAKE_DETECT (R288): length of the dominant phase in µs. -/
  | linWakeDetect (ch : Fin 12) (us : Nat)
  /-- LIN_DOMINANT_TIMEOUT (R287). -/
  | linDominantTimeout (ch : Fin 12)
  /-- SENT_MESSAGE (R290): input; measured clock tick in 12.5 ns units; lengths in clock ticks of the status, data and
  CRC nibbles; whether a pause pulse follows. -/
  | sentMessage (input : Fin 8) (tick : BitVec 16) (nibs : List Nat) (pause : Bool)
  -- network management
  /-- NM_AWAKE_REQ (R300): initiator, segment, written value of NM_SEG_CTRL. -/
  | nmAwakeReq (init : InitId) (seg : Fin 24) (value : Word)
  /-- NM_WAKE_REQUEST (R300): initiator, segment, written value of NM_SEG_CTRL. -/
  | nmWakeRequest (init : InitId) (seg : Fin 24) (value : Word)
  /-- SILENCE_WAIT_EXPIRY (R308). -/
  | silenceWaitExpiry (seg : Fin 24)
  /-- RING_TIMEOUT (R306). -/
  | ringTimeout (seg : Fin 24)
  /-- ALIVE_PHASE_END (R303). -/
  | alivePhaseEnd (seg : Fin 24)
  /-- RING_HOLD_EXPIRY (R304). -/
  | ringHoldExpiry (seg : Fin 24)
  /-- KEEPALIVE_DUE (R307). -/
  | keepaliveDue (seg : Fin 24)
  /-- WAKE_HOLD_EXPIRY (R300). -/
  | wakeHoldExpiry (seg : Fin 24)
  /-- PRESENCE_TIMEOUT (R307). -/
  | presenceTimeout (seg : Fin 24)
  /-- NM_LOG_CLEAR (R312): initiator, written value. -/
  | nmLogClear (init : InitId) (value : Word)
  -- signal gateway
  /-- PDU_TIMEOUT (R326). -/
  | pduTimeout (pdu : Fin 4096)
  /-- GATEWAY_LANES_DONE (R334): time since the edge in ns; fabric cycles that each lane used. -/
  | gatewayLanesDone (ns : Nat) (used : List Nat)
  /-- GWY_TBL_READ (R336): initiator, written value of GWY_TBL_CMD. -/
  | gwyTblRead (init : InitId) (value : Word)
  /-- GWY_TBL_WRITE (R336). -/
  | gwyTblWrite (init : InitId) (value : Word)
  /-- GWY_TBL_CLEAR (R336). -/
  | gwyTblClear (init : InitId) (value : Word)
  -- lath links
  /-- FAR_READ (R343): initiator, address of a far register, access width. -/
  | farRead (init : InitId) (addr : Nat) (width : Nat)
  /-- FAR_READ_REPLY (R343): lath channel whose oldest held read is answered. -/
  | farReadReply (ch : Fin 24)
  /-- FAR_READ_TIMEOUT (R343): lath channel whose oldest held read reaches 2 µs. -/
  | farReadTimeout (ch : Fin 24)
  /-- FAR_WRITE (R344): initiator, address of a far register, access width, value. -/
  | farWrite (init : InitId) (addr : Nat) (width : Nat) (value : Word)
  /-- FAR_WRITE_ENTRY_TIMEOUT (R344): lath channel whose oldest waiting write reaches 2 µs. -/
  | farWriteEntryTimeout (ch : Fin 24)
  /-- FAR_WRITE_APPLY (R345): lath channel. -/
  | farWriteApply (ch : Fin 24)
  /-- FAR_BURST (R346): initiator, first address, direction, one word per beat (a read takes their number). -/
  | farBurst (init : InitId) (addr : Nat) (write : Bool) (words : List Word)
  /-- READAHEAD_DISCARD (R349): lath channel whose buffer is 1 µs old. -/
  | readaheadDiscard (ch : Fin 24)
  /-- FAR_INITIATED_REQUEST (R350): link (0 CL, 1 CP), address, access width, direction, value. -/
  | farInitiatedRequest (link : Fin 2) (addr : Nat) (width : Nat) (write : Bool) (value : Word)
  /-- LOCKED_SEQUENCE (R351): initiator, address, access width; an atomic read-modify-write or an exclusive pair. -/
  | lockedSequence (init : InitId) (addr : Nat) (width : Nat) (rmw : Bool)
  /-- FLIT_CRC_ERROR (R353): link; whether the failing flit is a replay. -/
  | flitCrcError (link : Fin 2) (replay : Bool)
  /-- LINK_RETRAIN_DONE (R353): link; whether the retraining succeeded. -/
  | linkRetrainDone (link : Fin 2) (ok : Bool)
  -- fabric, interrupts and memories
  /-- PARTITION_RESTART (R359): a write of FAB_PART_CTRL. -/
  | partitionRestart (init : InitId) (value : Word)
  /-- PARTITION_RESTART_DONE (R359). -/
  | partitionRestartDone (p : Fin 16)
  /-- FABRIC_REQUEST (R360): initiator, memory address, bytes, kind (0 read, 1 write, 2 execute), written bytes. -/
  | fabricRequest (init : InitId) (addr : Nat) (bytes : Nat) (kind : Fin 3) (data : List Byte)
  /-- IRQ_ASSERT (R364): source. -/
  | irqAssert (src : Fin 1024)
  /-- IRQ_CLAIM (R364): a read of IRQ_CLAIM_t. -/
  | irqClaim (init : InitId) (target : Fin 16)
  /-- IRQ_EOI (R364): a write of IRQ_EOI_t. -/
  | irqEoi (init : InitId) (target : Fin 16) (value : Word)
  /-- ECC_CORRECTABLE (R365): memory index. -/
  | eccCorrectable (mem : Fin 7)
  /-- ECC_UNCORRECTABLE (R365): memory index and address. -/
  | eccUncorrectable (mem : Fin 7) (addr : BitVec 40)
  /-- MRAM_WRITE (R366): initiator, address, bytes. -/
  | mramWrite (init : InitId) (addr : Nat) (data : List Byte)
  /-- XSPI_CMD (R367): a write of MEM_XSPI_CMD. -/
  | xspiCmd (init : InitId) (value : Word)
  /-- XSPI_CMD_DONE (R367): the bytes that the device returned. -/
  | xspiCmdDone (data : List Byte)
  -- coded execution
  /-- MISMATCH (R379): safe core, lowest disagreeing group and its lanes, tenon program counter; whether an
  instruction between the committed point and this one issued a load under R374. -/
  | mismatch (core : Fin 6) (group : Fin 8) (lanes : Word) (pc : BitVec 40) (loads : Bool)
  /-- REPLAY_COMPARE (R382): the replayed instruction agrees; an owed plumb test then fails on the given lanes. -/
  | replayCompare (core : Fin 6) (plumb : Option Word)
  /-- CHECKER_FAULT (R379): safe core; 0 NONCODE, 1 PARITY, 2 PLUMB, 3 DEBUG_PATH; group, lanes, program counter;
  whether the comparator disagreed in the same cycle. -/
  | checkerFault (core : Fin 6) (kind : Fin 4) (group : Fin 8) (lanes : Word) (pc : BitVec 40) (both : Bool)
  /-- PLUMB_TIMER (R380): failing cores as in KERF_START. -/
  | plumbTimer (plumb : List (Fin 6 × Word))
  /-- CHK_RELEASE (R385): a write of CHK_CMD. -/
  | chkRelease (init : InitId) (core : Fin 6) (value : Word)
  /-- CSYNC (R386). -/
  | csync (init : InitId)
  /-- CTEST (R386): destination register; first failing group and its lanes. -/
  | ctest (init : InitId) (gd : Fin 32) (fail : Option (Fin 8 × Word))
  /-- CINJ (R386). -/
  | cinj (init : InitId)
  /-- DEBUG_HALT (R389): the core to halt. -/
  | debugHalt (core : InitId)
  /-- DEBUG_STEP (R389). -/
  | debugStep (core : InitId)
  /-- DEBUG_REGISTER_WRITE (R389): core, register, value; lanes of group 7 that fail on the replay path. -/
  | debugRegisterWrite (core : InitId) (reg : DbgTarget) (value : Word) (fail : Word)
  -- bents
  /-- BENT_FAILURE_SIGNAL (R396): bent, source of table R396, safe core (7 none). -/
  | bentFailureSignal (bent : Fin 2) (src : Fin 6) (core : Fin 8)
  /-- BENT_SWITCH (R400): a write of BENT_CMD. -/
  | bentSwitch (init : InitId) (value : Word)
  /-- BENT_REPAIR (R402): a write of BENT_CMD. -/
  | bentRepair (init : InitId) (value : Word)
  /-- REPAIR_TEST_DONE (R402): whether the comparator test passed on every core. -/
  | repairTestDone (ok : Bool)
  -- worlds
  /-- PEG (R407). -/
  | peg (init : InitId)
  /-- WCALL (R408): core, destination register, register that holds the target address. -/
  | wcall (init : InitId) (gd gs : Fin 32)
  /-- WRET (R409): core, register that holds the result. -/
  | wret (init : InitId) (gs : Fin 32)
  /-- VISIT_TIMEOUT (R411): core whose visit timer expires. -/
  | visitTimeout (init : InitId)
  /-- WORLD_HW_READY (R412): a write of WORLD_HW_READY. -/
  | worldHwReady (init : InitId) (p : Fin 16) (value : Word)
  /-- WORLD_CLAIM (R414): a write of WORLD_CLAIM_k. -/
  | worldClaim (init : InitId) (k : Fin 4) (value : Word)
  /-- WORLD_CLAIM_RELEASE (R414): a write of WORLD_CLAIM_k. -/
  | worldClaimRelease (init : InitId) (k : Fin 4) (value : Word)
  /-- LEASE_EXPIRY (R414). -/
  | leaseExpiry (k : Fin 4)
  /-- DBG_REQUEST (R418): a write of WORLD_DBG_REQ. -/
  | dbgRequest (init : InitId) (value : Word)
  /-- DBG_RESPONSE (R418): a write of WORLD_DBG_RESP_7. -/
  | dbgResponse (init : InitId) (value : Word)
  /-- DBG_LOCK (R418): a write of WORLD_DBG_LOCK. -/
  | dbgLock (init : InitId) (value : Word)
  /-- PEG_WINDOW_ENABLE (R421): a write of WORLD_PEG_LO_e. -/
  | pegWindowEnable (init : InitId) (e : Fin 32) (value : Word)
  -- virtual devices
  /-- VDEV_FREEZE (R434): a write of VDEV_INST_CMD, as for the next rows. -/
  | vdevFreeze (init : InitId) (i : Fin 128) (value : Word)
  /-- VDEV_FROZEN (R434): the freezing instance is quiet. -/
  | vdevFrozen (i : Fin 128)
  /-- VDEV_THAW (R434). -/
  | vdevThaw (init : InitId) (i : Fin 128) (value : Word)
  /-- VDEV_RESET (R430). -/
  | vdevReset (init : InitId) (i : Fin 128) (value : Word)
  /-- VDEV_RELEASE (R430). -/
  | vdevRelease (init : InitId) (i : Fin 128) (value : Word)
  /-- VDEV_SAVE (R437). -/
  | vdevSave (init : InitId) (i : Fin 128) (value : Word)
  /-- VDEV_SAVE_DONE (R437). -/
  | vdevSaveDone (i : Fin 128)
  /-- VDEV_RESTORE (R438). -/
  | vdevRestore (init : InitId) (i : Fin 128) (value : Word)
  /-- VDEV_RESTORE_DONE (R438). -/
  | vdevRestoreDone (i : Fin 128)
  /-- VDEV_GWY_WRITE (R425). -/
  | vdevGwyWrite (init : InitId) (i : Fin 128) (value : Word)
  /-- VDEV_GWY_CLEAR (R425). -/
  | vdevGwyClear (init : InitId) (i : Fin 128) (value : Word)
  /-- REDIV_SET (R433): a write of VDEV_REDIV. -/
  | redivSet (init : InitId) (value : Word)
  /-- REDIV_MOVE (R433). -/
  | redivMove (init : InitId) (value : Word)
  /-- REDIV_MOVE_ALL (R433). -/
  | redivMoveAll (init : InitId) (value : Word)
  /-- LATE_COMPLETION (R428): instance and the generation that the completion or event carries. -/
  | lateCompletion (i : Fin 128) (gen : BitVec 16)
  /-- VIRTUAL_EVENT (R429): instance, slot, bit of table R429. -/
  | virtualEvent (i : Fin 128) (e : Fin 16) (bit : Fin 4)
  -- security engine
  /-- KEY_SUBMIT (R453): a write of KEY_SUBMIT. -/
  | keySubmit (init : InitId) (value : Word)
  /-- BUILE_HELLO (R459): a whole Buile frame that reaches the engine, as for the next rows. -/
  | buileHello (frame : List Byte)
  /-- BUILE_OPEN (R459). -/
  | buileOpen (frame : List Byte)
  /-- BUILE_CLOSE (R460). -/
  | buileClose (frame : List Byte)
  /-- BUILE_PING (R461). -/
  | builePing (frame : List Byte)
  /-- BUILE_ATTEST (R457). -/
  | buileAttest (frame : List Byte)
  /-- BUILE_ATTEST_SIGNED (R457). -/
  | buileAttestSigned (frame : List Byte)
  /-- BUILE_READ_IDENTITY (R461). -/
  | buileReadIdentity (frame : List Byte)
  /-- BUILE_KEY_UPDATE (R448). -/
  | buileKeyUpdate (frame : List Byte)
  /-- BUILE_LIFECYCLE (R452). -/
  | buileLifecycle (frame : List Byte)
  /-- BUILE_CAL_WRITE (R461). -/
  | buileCalWrite (frame : List Byte)
  /-- BUILE_READ_JOURNAL (R461). -/
  | buileReadJournal (frame : List Byte)
  /-- BUILE_UPDATE_STATUS (R470). -/
  | buileUpdateStatus (frame : List Byte)
  /-- SESSION_IDLE_TIMEOUT (R460). -/
  | sessionIdleTimeout (s : Fin 8)
  /-- SERVICE_PORT_SEGMENT (R479): an Ethernet frame of the service EtherType, from the destination address on. -/
  | servicePortSegment (frame : List Byte)
  -- field update
  /-- UPD_BEGIN (R471): a write of UPD_CMD, as for the next rows. -/
  | updBegin (init : InitId) (value : Word)
  /-- UPD_WRITE (R471). -/
  | updWrite (init : InitId) (value : Word)
  /-- UPD_VERIFY (R471). -/
  | updVerify (init : InitId) (value : Word)
  /-- UPD_COMMIT (R472). -/
  | updCommit (init : InitId) (value : Word)
  /-- UPD_ABORT (R471). -/
  | updAbort (init : InitId) (value : Word)
  /-- UPD_END (R471). -/
  | updEnd (init : InitId) (value : Word)
  /-- UPD_CONFIRM (R475): a write of UPD_CONFIRM_p. -/
  | updConfirm (init : InitId) (p : Fin 16) (value : Word)
  /-- CONFIRM_TIMEOUT (R477). -/
  | confirmTimeout (p : Fin 16)
  -- further events
  /-- SWC_CNT_LO_READ (R217): initiator, port, counter index. -/
  | swcCntLoRead (init : InitId) (port : Fin 22) (counter : Fin 32)
  /-- DEBUG_RESET_REQUEST (R94): warm or cold. -/
  | debugResetRequest (warm : Bool)
  -- line, port and memory events that seldom occur
  /-- MAC_AGE_OUT (R198): address with local time, and VID, of an entry not refreshed for age_s. -/
  | macAgeOut (mac : MacAge) (vid : BitVec 12)
  /-- DOWN_PORT_MAC_PURGE (R207). -/
  | downPortMacPurge (port : Fin 22)
  /-- PLCA_DUP_END (R225): 1 s since the last BEACON that the coordinator did not send. -/
  | plcaDupEnd (port : Fin 22)
  /-- SQI_UPDATE (R232). -/
  | sqiUpdate (port : Fin 22) (sqi : Fin 8)
  /-- SCRUB_PASS (R365): correctable errors found in SRAM, TCM A and TCM B. -/
  | scrubPass (sram tcmA tcmB : Nat)
  /-- LPDDR_ECC_POLL (R365): correctable errors that the device reports. -/
  | lpddrEccPoll (errors : Nat)
  /-- PARTNER_ENERGY_CHANGE (R232). -/
  | partnerEnergyChange (port : Fin 22) (present : Bool)
  /-- XCVR_OVERTEMP_END (R273). -/
  | xcvrOvertempEnd (ch : Fin 12)
  /-- TXD_PATH_RECESSIVE (R273). -/
  | txdPathRecessive (ch : Fin 12)
  /-- LIN_BUS_RECESSIVE (R287). -/
  | linBusRecessive (ch : Fin 12)
  /-- DEBUG_RESUME (R389). -/
  | debugResume (core : InitId)
  /-- SELECTIVE_WAKE_DECODER_FRAME (R275): a frame received in error, or a good frame that does not match. -/
  | selectiveWakeDecoderFrame (ch : Fin 12) (err : Bool)
  -- commands and events without operands, of every group above
  /-- LIVE_VERIFY_DONE (R56). -/
  | liveVerifyDone
  /-- LIVE_STAGE (R68). -/
  | liveStage
  /-- OVERVOLTAGE_RECOVERY (R82): KL30 has stayed below 27 V for 1 ms. -/
  | overvoltageRecovery
  /-- RAIL_RECOVERY (R84): every monitored rail in window for 1 ms. -/
  | railRecovery
  /-- REF_CLK_ABSENT (R85). -/
  | refClkAbsent
  /-- REF_CLK_RESTORED (R85): present for 1 ms. -/
  | refClkRestored
  /-- CLOCK_MONITOR_FAULT (R85). -/
  | clockMonitorFault
  /-- HEARTBEAT_LOSS (R86). -/
  | heartbeatLoss
  /-- DIE_OVERTEMP (R87). -/
  | dieOvertemp
  /-- DIE_OVERTEMP_CLEAR (R87). -/
  | dieOvertempClear
  /-- DOZE_EXIT (R90). -/
  | dozeExit
  /-- SLEEP_TIMER_EXPIRY (R93). -/
  | sleepTimerExpiry
  /-- LATCHED_WAKE_START (R92). -/
  | latchedWakeStart
  /-- WARM_RESET_ASSERT (R95): the pin has been low for 100 supervisor cycles. -/
  | warmResetAssert
  /-- COLD_RESET_ASSERT (R95): the pin has been low for 3,000 supervisor cycles. -/
  | coldResetAssert
  /-- BOOT_ROM_START (R105). -/
  | bootRomStart
  /-- SUPERVISOR_READY (R99): the restarted supervisor runs again. -/
  | supervisorReady
  /-- COLD_START (R112): the P-die main domain has power with KL30 at 6.0 V or above. -/
  | coldStart
  /-- BOOT_PROGRESS_TIMEOUT (R113). -/
  | bootProgressTimeout
  /-- TRUSS_VERIFY_DONE (R56). -/
  | trussVerifyDone
  /-- DUTY_EPOCH_UPDATE (R147): the control lane delivers the waiting owners and epochs to the P-die. -/
  | dutyEpochUpdate
  /-- ADC_SAMPLE_START (R179). -/
  | adcSampleStart
  /-- LEARN_REQUEST (R197). -/
  | learnRequest
  /-- MAC_CMD_DONE (R198). -/
  | macCmdDone
  /-- GWY_ETH_RECEIVE (R333): the frame in transmission on port 21 reaches the gateway. -/
  | gwyEthReceive
  /-- GWY_TBL_DONE (R336). -/
  | gwyTblDone
  /-- TRANSPORT_ERROR (R365). -/
  | transportError
  /-- OVERLAP_WINDOW_END (R398). -/
  | overlapWindowEnd
  /-- TCM_COPY_DONE (R402). -/
  | tcmCopyDone
  /-- DBG_CHECK_DONE (R418). -/
  | dbgCheckDone
  /-- IDENTITY_READY (R443). -/
  | identityReady
  /-- KEY_OP_UPDATE (R449): the running operation completes, as for the next rows. -/
  | keyOpUpdate
  /-- KEY_OP_MAC (R454). -/
  | keyOpMac
  /-- KEY_OP_EXPORT_ID (R454). -/
  | keyOpExportId
  /-- KEY_OP_BUILE (R454). -/
  | keyOpBuile
  /-- NONCE_EXPIRY (R459): the oldest nonce is 1 s old. -/
  | nonceExpiry
  /-- OPEN_LOCKOUT_EXPIRY (R460). -/
  | openLockoutExpiry
  /-- SEGMENT_TIMEOUT (R479). -/
  | segmentTimeout
  /-- UPD_VERIFY_DONE (R468). -/
  | updVerifyDone
  /-- COMMIT_POINT (R473). -/
  | commitPoint
  /-- HANDOVER_PHASE2 (R474). -/
  | handoverPhase2
  /-- HANDOVER_PHASE3 (R474). -/
  | handoverPhase3
  /-- BOUNDARY_SCAN_EXTEST (R419). -/
  | boundaryScanExtest
  deriving DecidableEq, Repr

end Sys2Proof
end

