-- ==== Sys2Proof/Config.lean ====
section
/-! DEFINITION. What one device fixes at manufacture and what the manual leaves open: constants without a body, so
that no proof can see a value. -/

namespace Sys2Proof

/-- Free values: the `n`-th value drawn for something the manual leaves open; the low bits are used. -/
opaque Config.free : Nat → BitVec 64

/-- CRC-32 of a byte string; the manual names the check and gives no polynomial (R71, R74, R77, R121). -/
opaque Config.crc32 : List Byte → BitVec 32

/-- SHA3-256 of a byte string (FIPS 202). -/
opaque Config.sha3x256 : List Byte → BitVec 256

/-- SHA3-512 of a byte string (FIPS 202). -/
opaque Config.sha3x512 : List Byte → BitVec 512

/-- KMAC256 with key, customization string and input, output of the given number of bits (SP 800-185). -/
opaque Config.kmac256 : List Byte → List Byte → List Byte → Nat → Nat

/-- ML-DSA-87 verification in the pure form with an empty context: public key, message, signature (FIPS 204). -/
opaque Config.mldsaVerify : List Byte → List Byte → List Byte → Bool

/-- ML-DSA-87 signature under the key pair that a seed generates: seed, context string, message; the last argument
numbers the signature, because signing may be randomized (FIPS 204). -/
opaque Config.mldsaSign : List Byte → List Byte → List Byte → Nat → List Byte

/-- ML-DSA-87 public key that a seed generates (2,592 bytes). -/
opaque Config.mldsaPublic : List Byte → List Byte

/-- The Tolath manufacturing public key held in the boot ROM (R54). -/
opaque Config.romKey : List Byte

/-- Fused values: module stepping (R44), device UID (16 bytes), root secret. -/
opaque Config.stepping : BitVec 8
opaque Config.uid : BitVec 128
opaque Config.rootSecret : BitVec 256

/-- Result of a translated unit of table R372 (divider, remainder, floating point), by unit: the instruction set is not part of
the manual. -/
opaque Config.unitResult : Nat → BitVec 32 → BitVec 32 → BitVec 32

/-- The part of the heat filter's gain that the manual leaves open (R170): it gives the time constant of 100 ms and the
update every 1 ms, not the discrete form. -/
opaque Config.heatGain : BitVec 20

end Sys2Proof
end

