-- ==== Sys2Proof/Machine/Bits.lean ====
section
/-! DEFINITION. Bit fields of register values, written high:low as the manual writes them, byte order
(little-endian, R2 and R43) and the keyed lists that hold sparse tables. -/

namespace Sys2Proof.Machine

/-- Bits `hi:lo` of `v`. -/
def bitsOf (v hi lo : Nat) : Nat := (v >>> lo) % 2 ^ (hi + 1 - lo)

/-- Bit `i` of `v`. -/
def bitOf (v i : Nat) : Bool := bitsOf v i i == 1

/-- The mask that covers bits `hi:lo`. -/
def maskOf (hi lo : Nat) : Nat := (2 ^ (hi + 1 - lo) - 1) <<< lo

/-- The bits of `v` outside `mask` within 32 bits. -/
def bitsOutside (v mask : Nat) : Nat := v &&& (0xFFFFFFFF ^^^ (mask % 2 ^ 32))

/-- `old` with the bits of `mask` taken from `new`. -/
def mergeBits (old new mask : Nat) : Nat := bitsOutside old mask ||| (new &&& mask)

/-- `v` with bits `hi:lo` set to `x`. -/
def withBits (v hi lo x : Nat) : Nat := mergeBits v ((x % 2 ^ (hi + 1 - lo)) <<< lo) (maskOf hi lo)

/-- The number a Boolean flag reads as. -/
def flagNat (b : Bool) : Nat := if b then 1 else 0

/-- Number of ones among bits `n-1:0` of `v`. -/
def popCount : Nat → Nat → Nat
  | 0, _ => 0
  | n + 1, v => flagNat (bitOf v n) + popCount n v

/-- Indices of the ones among bits `n-1:0` of `v`, lowest first. -/
def onesOf (n v : Nat) : List Nat := (List.range n).filter (bitOf v)

/-- The value with a one at every listed index. -/
def maskOfList (is : List Nat) : Nat := is.foldl (fun v i => v ||| 2 ^ i) 0

/-- The low `n` bits of `v` read as a two's complement number. -/
def signedOf (n v : Nat) : Int :=
  if v % 2 ^ n < 2 ^ (n - 1) then (v % 2 ^ n : Nat) else ((v % 2 ^ n : Nat) : Int) - (2 ^ n : Nat)

/-- The two's complement code of `x` in `n` bits. -/
def unsignedOf (n : Nat) (x : Int) : Nat := (x % ((2 ^ n : Nat) : Int)).toNat

/-- The number that little-endian bytes spell (R43). -/
def leNat : List Byte → Nat
  | [] => 0
  | b :: bs => b.toNat + 256 * leNat bs

/-- `n` little-endian bytes of `v`. -/
def leBytes : Nat → Nat → List Byte
  | 0, _ => []
  | n + 1, v => BitVec.ofNat 8 v :: leBytes n (v / 256)

/-- The number that big-endian bytes spell (network order). -/
def beNat (bs : List Byte) : Nat := leNat bs.reverse

/-- `n` big-endian bytes of `v`. -/
def beBytes (n v : Nat) : List Byte := (leBytes n v).reverse

/-- `n` bytes from offset `o`, with zeros past the end. -/
def sliceBytes (bs : List Byte) (o n : Nat) : List Byte :=
  let got := (bs.drop o).take n
  got ++ List.replicate (n - got.length) 0

/-- Little-endian field of `n` bytes at offset `o`. -/
def leAt (bs : List Byte) (o n : Nat) : Nat := leNat (sliceBytes bs o n)

/-- `bs` with the bytes from offset `o` replaced by `new`, as far as `bs` reaches. -/
def patchBytes (bs : List Byte) (o : Nat) (new : List Byte) : List Byte :=
  ((bs.take o) ++ new ++ bs.drop (o + new.length)).take bs.length

/-- Entry of key `k` in a keyed list. -/
def kget {α : Type} (l : List (Nat × α)) (k : Nat) : Option α :=
  match l with
  | [] => none
  | (j, x) :: t => if j == k then some x else kget t k

/-- The keyed list without key `k`. -/
def kdel {α : Type} (l : List (Nat × α)) (k : Nat) : List (Nat × α) :=
  l.filter fun e => e.1 != k

/-- The keyed list with `k` bound to `x`, keys kept rising. -/
def kput {α : Type} (l : List (Nat × α)) (k : Nat) (x : α) : List (Nat × α) :=
  match l with
  | [] => [(k, x)]
  | (j, y) :: t =>
    if k < j then (k, x) :: (j, y) :: t
    else if k == j then (k, x) :: t
    else (j, y) :: kput t k x

/-- Entry of key `k`, or `d` where the list has none. -/
def kgetD {α : Type} (l : List (Nat × α)) (k : Nat) (d : α) : α := (kget l k).getD d

/-- The keyed list with the entry of `k` (or `d`) changed by `f`. -/
def kmod {α : Type} (l : List (Nat × α)) (k : Nat) (d : α) (f : α → α) : List (Nat × α) :=
  kput l k (f (kgetD l k d))

/-- Increment that stays at the largest `n`-bit value. -/
def satInc (n v : Nat) : Nat := if v + 1 < 2 ^ n then v + 1 else 2 ^ n - 1

/-- Sum of a list of numbers. -/
def sumNat (l : List Nat) : Nat := l.foldl (· + ·) 0

/-- Ceiling of a quotient. -/
def ceilDiv (a b : Nat) : Nat := (a + (b - 1)) / b

/-- Rounded-half-up quotient of naturals. -/
def roundDiv (a b : Nat) : Nat := (a + b / 2) / b

end Sys2Proof.Machine
end

