-- ==== Sys2Proof/Machine/RegMap.lean ====
section
/-! DEFINITION. The register map of the MZ4820: the address of every register (R2, R15, R17), its width, its
cold reset value and the access code of each field (R4, R5, R6), as the register blocks of the chapters give
them. Reserved fields are left out: they read 0 and ignore writes (R6). A cold reset value that a chapter gives
as "record", "fuses", "latch", "sill value" or "per reset" stands here as 0 and is written by the step that
knows it. -/

namespace Sys2Proof.Machine

/-- Access codes of table R4. -/
inductive Acc where
  | ro | rw | rwt | w1c | w1s | wo | rc
  deriving DecidableEq, Repr

/-- One field of a register: bits `hi:lo`, its access code, and whether the code carries -HW (R5). -/
structure Fld where
  hi : Nat
  lo : Nat
  acc : Acc
  hw : Bool
  deriving DecidableEq, Repr

/-- The register names of the manual. -/
inductive RegName where
  | TICK_CTRL | TICK_STATUS | TICK_PERIOD | TICK_PHASE | TICK_KERF
  | TICK_LOCK | TICK_COUNT_LO | TICK_COUNT_HI | TICK_EDGE_TIME_LO | TICK_EDGE_TIME_HI
  | TICK_ALIGN_ERR | TICK_LAST_LEN | TICK_IRQ_EN | TICK_IRQ_STATUS | TICK_LATE_CNT
  | TICK_STAGE_FULL_CNT | TICK_COMMIT_FAULT_CNT | TICK_DONE | TICK_OVR_MAP | TICK_CLIENT_CFG
  | TICK_CLIENT_BUDGET | TICK_CLIENT_OVR_CNT | TICK_CLIENT_USED | TRUSS_STATUS | TRUSS_RESULT
  | TRUSS_DETAIL | TRUSS_CONFLICT_A | TRUSS_CONFLICT_B | TRUSS_LIVE_CMD | TRUSS_OWNER_QUERY
  | TRUSS_OWNER_RESULT | TRUSS_VIOL_ADDR | TRUSS_VIOL_INIT | TRUSS_VIOL_CNT | TRUSS_DROP_CNT
  | TRUSS_STORE_STATUS | TRUSS_IRQ_EN | TRUSS_IRQ_STATUS | RSTC_MODE | RSTC_MODE_CMD
  | RSTC_CAUSE | RSTC_SW_RST | RSTC_DIE_RST | RSTC_UNIT_RST | RSTC_GROUP_RST
  | RSTC_ELEM_RST | RSTC_RETAIN | RSTC_DOZE_MASK | RSTC_WAKE_EN | RSTC_WAKE_POL
  | RSTC_SLEEP_TIMER | RSTC_WAKE_SRC_A | RSTC_WAKE_SRC_B | RSTC_SUPPLY_STATUS | RSTC_GONE_DROP_CNT
  | RSTC_IRQ_EN | RSTC_IRQ_STATUS | RSTC_RCNT | RSTC_WDT_CFG | RSTC_WDT_KICK
  | RSTC_SAFE_LAST | RSTC_SAFE_ARG | RSTC_SAFE_CNT | RSTC_SAFE_RESET | BIST_STATUS
  | BIST_RUN_INFO | BIST_RESULT_0 | BIST_RESULT_1 | BIST_RESULT_2 | BIST_HELD_LO
  | BIST_HELD_HI | BIST_START_STATUS | BIST_CMD | BIST_IRQ_EN | BIST_IRQ_STATUS
  | LOAD_CTRL | LOAD_DUTY | LOAD_PERIOD | LOAD_PHASE | LOAD_STATE
  | LOAD_APPLIED_DUTY | LOAD_CMD_EPOCH | LOAD_OWNER | LOAD_DISP | LOAD_REST_DUTY
  | LOAD_REST_PERIOD | LOAD_PROT_CFG | LOAD_T_LIM | LOAD_T_RETRY | LOAD_DERATE_CFG
  | LOAD_SENSE | LOAD_FAULT | LOAD_IRQ_EN | LOAD_IRQ_STATUS | LOAD_SYNC_CFG
  | LOAD_UNIT_STATUS | LOAD_STALE_CNT | LOAD_UNIT_IRQ_EN | LOAD_UNIT_IRQ_STATUS | LOAD_DUTY_OWNER
  | LOAD_DUTY_EPOCH | LOAD_SENSE_SEL | LOAD_BANK_LIMIT | LOAD_BANK_CURRENT | LOAD_BANK_STATUS
  | LOAD_BANK_IRQ_EN | LOAD_BANK_IRQ_STATUS | LOAD_BANK_DROOP_CNT | LOAD_MOD_LIMIT | LOAD_HEAT_LIMIT
  | LOAD_MOD_CURRENT | LOAD_POST_A_CURRENT | LOAD_POST_B_CURRENT | LOAD_HEAT | LOAD_BUDGET_STATUS
  | LOAD_BUDGET_IRQ_EN | LOAD_BUDGET_IRQ_STATUS | LOAD_SHED_CNT | MEAS_CTRL | MEAS_STATUS
  | MEAS_WAKE_LEVEL | MEAS_IRQ_EN | MEAS_IRQ_STATUS | MEAS_VALUE | MEAS_RAW
  | MEAS_LOW | MEAS_HIGH | MEAS_LIM_IRQ_EN | MEAS_LIM_IRQ_STATUS | MEAS_IN_CFG
  | MEAS_IN_LIMIT | SWC_CTRL | SWC_YELLOW_RESERVE | SWC_BUF_STATUS | SWC_SHARED_SIZE
  | SWC_MAC_COUNT | SWC_MAC_ADDR_LO | SWC_MAC_ADDR_HI | SWC_MAC_CMD | SWC_MAC_RESULT
  | SWC_LEARN_DROP_CNT | SWC_IRQ_EN | SWC_IRQ_STATUS | SWC_PORT_CFG | SWC_PORT_CEIL
  | SWC_PORT_STATUS | SWC_PORT_GATE | SWC_PORT_MIN | SWC_PORT_USED | SWC_PORT_SHAPER
  | SWC_GATE_STATES | SWC_GATE_DUR | SWC_CNT_LO | SWC_CNT_HI | SWC_VLAN_MEMBER
  | SWC_VLAN_UNTAG | SWC_STR_MATCH | SWC_STR_ADDR_LO | SWC_STR_ADDR_HI | SWC_STR_CIR
  | SWC_STR_CBS | SWC_STR_MATCH_CNT | SWC_STR_DROP_CNT | SWC_FRER_CFG | SWC_FRER_RESET
  | SWC_FRER_PASS_CNT | SWC_FRER_DISCARD_CNT | EPORT_CFG | EPORT_STATUS | EPORT_PLCA
  | EPORT_DIAG_CMD | EPORT_DIAG_RESULT | EPORT_IRQ_EN | EPORT_IRQ_STATUS | EPORT_LINK_DOWN_CNT
  | EPORT_TRAIN_FAIL_CNT | EPORT_FEC_CORR_CNT | EPORT_FEC_UNCORR_CNT | EPORT_SYMBOL_ERR_CNT | EPORT_COLLISION_CNT
  | EPORT_RX_NOBUF_CNT | EPORT_RING_ERR_CNT | EPORT_RING_CTRL | EPORT_TX_BASE_LO | EPORT_TX_BASE_HI
  | EPORT_RX_BASE_LO | EPORT_RX_BASE_HI | EPORT_TX_SIZE | EPORT_TX_HEAD | EPORT_TX_TAIL
  | EPORT_RX_SIZE | EPORT_RX_HEAD | EPORT_RX_TAIL | EPORT_RX_MAC_LO | EPORT_RX_MAC_HI
  | PTP_CTRL | PTP_CTRL2 | PTP_WT_STATUS | PTP_WT_OFFSET | PTP_WT_CMD
  | PTP_SNAP_CMD | PTP_SNAP_LT_LO | PTP_SNAP_LT_HI | PTP_SNAP_WT_LO | PTP_SNAP_WT_HI
  | PTP_SNAP_DT0_LO | PTP_SNAP_DT0_HI | PTP_SNAP_DT1_LO | PTP_SNAP_DT1_HI | PTP_IRQ_EN
  | PTP_IRQ_STATUS | PTP_TAG_DROP_CNT | PTP_RES_DROP_CNT | PTP_JOIN_CNT | PTP_DOM_CFG
  | PTP_DOM_PORTS | PTP_DOM_SERVO | PTP_DOM_STATE | PTP_DOM_RATE | PTP_DOM_RR
  | PTP_DOM_STEP_LO | PTP_DOM_STEP_HI | PTP_PORT_TRIM | PTP_PORT_LINK_DELAY | PTP_PORT_CONST
  | PTP_TXQ_STATUS | PTP_TXQ_ID | PTP_TXQ_TS_LO | PTP_TXQ_TS_HI | PTP_TXQ_POP
  | PTP_TXQ_IRQ_EN | PTP_TXQ_DROP_CNT | PTP_TOUT_CFG | PTP_TOUT_START_LO | PTP_TOUT_START_HI
  | PTP_TOUT_PERIOD | PTP_TOUT_WIDTH | PTP_TOUT_IRQ_EN | PTP_TOUT_IRQ_STATUS | PTP_TIN_CFG
  | PTP_TIN_LEVEL | PTP_TIN_TS_LO | PTP_TIN_TS_HI | PTP_TIN_POP | PTP_TIN_DROP_CNT
  | PTP_TIN_IRQ_EN | PTP_TIN_IRQ_STATUS | MBUS_CFG | MBUS_NBT | MBUS_DBT
  | MBUS_CTRL | MBUS_CMD | MBUS_STATUS | MBUS_ERR_CNT | MBUS_RX_FRAME_CNT
  | MBUS_TX_FRAME_CNT | MBUS_ERR_FRAME_CNT | MBUS_BUSOFF_CNT | MBUS_RX_NOMATCH_CNT | MBUS_H_DROP_CNT
  | MBUS_IRQ_EN | MBUS_IRQ_STATUS | MBUS_QUEUE_EVENT | MBUS_H_STATUS | MBUS_RXQ_BASE_LO
  | MBUS_RXQ_BASE_HI | MBUS_TXQ_BASE_LO | MBUS_TXQ_BASE_HI | MBUS_RXQ_SIZE | MBUS_TXQ_SIZE
  | MBUS_RXQ_CTRL | MBUS_RXQ_STATUS | MBUS_RXQ_ACK | MBUS_RXQ_DROP_CNT | MBUS_TXQ_HEAD
  | MBUS_TXQ_TAIL | MBUS_TXQ_CTRL | MBUS_TXQ_BUDGET | MBUS_XCVR_CTRL | MBUS_XCVR_STATUS
  | MBUS_WUF_ID | MBUS_WUF_ID_MASK | MBUS_WUF_DLC | MBUS_WUF_DATA_LO | MBUS_WUF_DATA_HI
  | MBUS_WUF_MASK_LO | MBUS_WUF_MASK_HI | MBUS_WUF_ERR | MBUS_FLT_CFG | MBUS_FLT_ID
  | MBUS_FLT_MASK | MBUS_FLT_HIT_CNT | LIN_CFG | LIN_CTRL | LIN_CMD
  | LIN_STATUS | LIN_IRQ_EN | LIN_IRQ_STATUS | LIN_ERR_CNT | LIN_SKIP_CNT
  | LIN_SLOT | LIN_FRAME_CFG | LIN_FRAME_STATUS | LIN_FRAME_DATA_LO | LIN_FRAME_DATA_HI
  | SENT_CFG | SENT_FAST | SENT_SLOW | SENT_STATUS | SENT_IRQ_EN
  | SENT_IRQ_STATUS | SENT_ERR_CNT | NM_STATUS | NM_LOG_STATUS | NM_LOG_DROP_CNT
  | NM_BAD_MSG_CNT | NM_IRQ_EN | NM_IRQ_STATUS | NM_LOG_CLEAR | NM_SEG_CFG
  | NM_SEG_TIMING | NM_SEG_MSG | NM_SEG_CTRL | NM_SEG_USER_LO | NM_SEG_USER_HI
  | NM_SEG_STATUS | NM_SEG_MAP_LO | NM_SEG_MAP_HI | NM_SEG_IRQ_EN | NM_SEG_IRQ_STATUS
  | NM_SEG_RESTART_CNT | NM_SEG_ISO_DROP_CNT | NM_LOG_HDR | NM_LOG_START | NM_LOG_DUR
  | NM_LOG_ID | NM_LOG_DATA_LO | NM_LOG_DATA_HI | GWY_STATUS | GWY_ETH_TYPE
  | GWY_ETH_SRC_LO | GWY_ETH_SRC_HI | GWY_TBL_CMD | GWY_TBL_RESULT | GWY_TBL_DATA
  | GWY_TBL_STAT | GWY_IRQ_EN | GWY_IRQ_STATUS | GWY_SAT_CNT | GWY_TIMEOUT_CNT
  | GWY_REL_DROP_CNT | GWY_RX_DROP_CNT | GWY_LANE_DUE | GWY_LANE_USED | GWY_LANE_PEAK
  | GWY_ETH_DST_LO | GWY_ETH_DST_HI | GWY_BOUT_A | GWY_BOUT_B | LATH_CTRL
  | LATH_STATUS | LATH_IRQ_EN | LATH_IRQ_STATUS | LATH_TIMEOUT_CNT | LATH_LATE_CNT
  | LATH_WR_ERR_CNT | LATH_GONE_CNT | LATH_REPLAY_CNT | LATH_SIDE_CNT | LATH_LOCK_CNT
  | LATH_XREJ_CNT | LATH_ERR_ADDR | LATH_SIDE_ADDR | LATH_SIDE_INIT | LATH_CHAN_OWNER
  | FAB_STATUS | FAB_VIOL_ADDR_LO | FAB_VIOL_ADDR_HI | FAB_VIOL_INIT | FAB_VIOL_CNT
  | FAB_IRQ_EN | FAB_IRQ_STATUS | FAB_INIT_GROUP | FAB_QOS_CFG | FAB_QOS_BW
  | FAB_PART_CTRL | FAB_PART_STATUS | IRQ_SRC_CFG | IRQ_PEND | IRQ_CLAIM
  | IRQ_EOI | MEM_STATUS | MEM_CE_CNT | MEM_UE_CNT | MEM_UE_ADDR_LO
  | MEM_UE_ADDR_HI | MEM_IRQ_EN | MEM_IRQ_STATUS | MEM_XSPI_CMD | MEM_XSPI_ADDR
  | MEM_XSPI_DATA | CHK_CFG | CHK_CTRL | CHK_CMD | CHK_STATUS
  | CHK_REACT | CHK_FAULT_INFO | CHK_FAULT_PC_LO | CHK_FAULT_PC_HI | CHK_LANES
  | CHK_PLUMB | CHK_MISMATCH_CNT | CHK_REPLAY_OK_CNT | CHK_CHECKER_CNT | CHK_PLUMB_SKIP_CNT
  | CHK_IRQ_EN | CHK_IRQ_STATUS | BENT_STATUS | BENT_CFG | BENT_CMD
  | BENT_FAIL_INFO | BENT_OWNER_LO | BENT_OWNER_HI | BENT_SWITCH_TICK | BENT_IRQ_EN
  | BENT_IRQ_STATUS | BENT_SWITCH_CNT | BENT_DROP_CNT | BENT_SHADOW_DROP_CNT | BENT_DIVERGE_CNT
  | BENT_DUTY | WORLD_STATUS | WORLD_IRQ_EN | WORLD_IRQ_STATUS | WORLD_VIOL_ADDR_LO
  | WORLD_VIOL_ADDR_HI | WORLD_VIOL_INIT | WORLD_VIOL_CNT | WORLD_PEG_FAULT_CNT | WORLD_TIMEOUT_CNT
  | WORLD_CLAIM | WORLD_CLAIM_LEFT | WORLD_HW_CFG | WORLD_HW_STATE | WORLD_HW_READY
  | WORLD_PEG_LO | WORLD_PEG_HI | WORLD_PEG_SIZE | WORLD_DBG_STATUS | WORLD_DBG_REQ
  | WORLD_DBG_LOCK | WORLD_DBG_NONCE | WORLD_DBG_RESP | VDEV_STATUS | VDEV_REDIV
  | VDEV_REDIV_AMOUNT | VDEV_REDIV_RESULT | VDEV_SCARF_KEY | VDEV_INST_CFG | VDEV_INST_STATE
  | VDEV_INST_CMD | VDEV_INST_RESULT | VDEV_INST_ADDR_LO | VDEV_INST_ADDR_HI | VDEV_LATE_CNT
  | VDEV_DRAIN_CNT | VDEV_GWY_DATA | VDEV_VEC_HELD | VDEV_RES_KIND | VDEV_RES_AMOUNT
  | VDEV_EVT | KEY_STATUS | KEY_UID | KEY_ID_HASH | KEY_COUNTER
  | KEY_TRUSS_FLOOR | KEY_SLOT_MAP_LO | KEY_SLOT_MAP_HI | KEY_SUBMIT | KEY_SVC_CFG
  | KEY_IRQ_EN | KEY_IRQ_STATUS | KEY_OPEN_FAIL_CNT | KEY_KU_REJECT_CNT | KEY_SLOT_INFO
  | KEY_SLOT_OWNER | KEY_SESSION | UPD_STATUS | UPD_CMD | UPD_SRC_LO
  | UPD_SRC_HI | UPD_OFFSET | UPD_LEN | UPD_RESULT | UPD_DETAIL
  | UPD_CFG | UPD_SVC_CFG | UPD_IRQ_EN | UPD_IRQ_STATUS | UPD_PART_STATUS
  | UPD_HANDOFF_LO | UPD_HANDOFF_HI | UPD_CONFIRM
  deriving DecidableEq, Repr

/-- One register block: first address, strides and counts of its indices (outermost first), width in bytes,
cold reset value and fields. -/
structure RegDesc where
  name : RegName
  base : Nat
  dims : List (Nat × Nat)
  width : Nat
  reset : Nat
  flds : List Fld
  deriving DecidableEq, Repr

/-- Register blocks of unit TICK. -/
def regsTick : List RegDesc := [
  ⟨.TICK_CTRL, 0x40010000, [], 4, 0x0,
    [⟨1, 1, .rwt, true⟩, ⟨0, 0, .ro, false⟩]⟩,
  ⟨.TICK_STATUS, 0x40010004, [], 4, 0x0,
    [⟨3, 3, .ro, false⟩, ⟨2, 2, .ro, false⟩, ⟨1, 1, .ro, false⟩, ⟨0, 0, .ro, false⟩]⟩,
  ⟨.TICK_PERIOD, 0x40010008, [], 4, 0xFA,
    [⟨13, 0, .rwt, true⟩]⟩,
  ⟨.TICK_PHASE, 0x4001000C, [], 4, 0x0,
    [⟨13, 0, .rwt, true⟩]⟩,
  ⟨.TICK_KERF, 0x40010010, [], 4, 0xA,
    [⟨11, 0, .rwt, true⟩]⟩,
  ⟨.TICK_LOCK, 0x40010014, [], 4, 0x64,
    [⟨15, 0, .rw, true⟩]⟩,
  ⟨.TICK_COUNT_LO, 0x40010018, [], 4, 0x0,
    [⟨31, 0, .ro, false⟩]⟩,
  ⟨.TICK_COUNT_HI, 0x4001001C, [], 4, 0x0,
    [⟨31, 0, .ro, false⟩]⟩,
  ⟨.TICK_EDGE_TIME_LO, 0x40010020, [], 4, 0x0,
    [⟨31, 0, .ro, false⟩]⟩,
  ⟨.TICK_EDGE_TIME_HI, 0x40010024, [], 4, 0x0,
    [⟨31, 0, .ro, false⟩]⟩,
  ⟨.TICK_ALIGN_ERR, 0x40010028, [], 4, 0x0,
    [⟨31, 0, .ro, false⟩]⟩,
  ⟨.TICK_LAST_LEN, 0x4001002C, [], 4, 0x0,
    [⟨23, 0, .ro, false⟩]⟩,
  ⟨.TICK_IRQ_EN, 0x40010030, [], 4, 0x0,
    [⟨7, 7, .rw, false⟩, ⟨6, 6, .rw, false⟩, ⟨5, 5, .rw, false⟩, ⟨4, 4, .rw, false⟩, ⟨3, 3, .rw, false⟩, ⟨2, 2, .rw, false⟩, ⟨1, 1, .rw, false⟩, ⟨0, 0, .rw, false⟩]⟩,
  ⟨.TICK_IRQ_STATUS, 0x40010034, [], 4, 0x0,
    [⟨7, 7, .w1c, false⟩, ⟨6, 6, .w1c, false⟩, ⟨5, 5, .w1c, false⟩, ⟨4, 4, .w1c, false⟩, ⟨3, 3, .w1c, false⟩, ⟨2, 2, .w1c, false⟩, ⟨1, 1, .w1c, false⟩, ⟨0, 0, .w1c, false⟩]⟩,
  ⟨.TICK_LATE_CNT, 0x40010038, [], 4, 0x0,
    [⟨31, 0, .rc, false⟩]⟩,
  ⟨.TICK_STAGE_FULL_CNT, 0x4001003C, [], 4, 0x0,
    [⟨31, 0, .rc, false⟩]⟩,
  ⟨.TICK_COMMIT_FAULT_CNT, 0x40010040, [], 4, 0x0,
    [⟨31, 0, .rc, false⟩]⟩,
  ⟨.TICK_DONE, 0x40010044, [], 4, 0x0,
    [⟨0, 0, .wo, false⟩]⟩,
  ⟨.TICK_OVR_MAP, 0x40010048, [], 4, 0x0,
    [⟨31, 0, .w1c, false⟩]⟩,
  ⟨.TICK_CLIENT_CFG, 0x40010100, [(0x10, 32)], 4, 0x0,
    [⟨23, 16, .rwt, true⟩, ⟨15, 14, .rwt, true⟩, ⟨13, 8, .rwt, true⟩, ⟨7, 2, .rwt, true⟩, ⟨0, 0, .rwt, true⟩]⟩,
  ⟨.TICK_CLIENT_BUDGET, 0x40010104, [(0x10, 32)], 4, 0x0,
    [⟨23, 0, .rwt, true⟩]⟩,
  ⟨.TICK_CLIENT_OVR_CNT, 0x40010108, [(0x10, 32)], 4, 0x0,
    [⟨31, 0, .rc, false⟩]⟩,
  ⟨.TICK_CLIENT_USED, 0x4001010C, [(0x10, 32)], 4, 0x0,
    [⟨31, 24, .ro, false⟩, ⟨23, 0, .ro, false⟩]⟩]

/-- Register blocks of unit TRUSS. -/
def regsTruss : List RegDesc := [
  ⟨.TRUSS_STATUS, 0x40020000, [], 4, 0x0,
    [⟨23, 16, .ro, false⟩, ⟨4, 4, .ro, false⟩, ⟨3, 3, .ro, false⟩, ⟨2, 0, .ro, false⟩]⟩,
  ⟨.TRUSS_RESULT, 0x40020004, [], 4, 0x0,
    [⟨7, 0, .ro, false⟩]⟩,
  ⟨.TRUSS_DETAIL, 0x40020008, [], 4, 0x0,
    [⟨31, 0, .ro, false⟩]⟩,
  ⟨.TRUSS_CONFLICT_A, 0x4002000C, [], 4, 0x0,
    [⟨31, 24, .ro, false⟩, ⟨23, 8, .ro, false⟩]⟩,
  ⟨.TRUSS_CONFLICT_B, 0x40020010, [], 4, 0x0,
    [⟨31, 24, .ro, false⟩, ⟨23, 8, .ro, false⟩]⟩,
  ⟨.TRUSS_LIVE_CMD, 0x40020014, [], 4, 0x0,
    [⟨31, 16, .wo, true⟩, ⟨1, 1, .wo, true⟩, ⟨0, 0, .wo, true⟩]⟩,
  ⟨.TRUSS_OWNER_QUERY, 0x40020018, [], 4, 0x0,
    [⟨31, 0, .rw, false⟩]⟩,
  ⟨.TRUSS_OWNER_RESULT, 0x4002001C, [], 4, 0x0,
    [⟨16, 16, .ro, false⟩, ⟨15, 0, .ro, false⟩]⟩,
  ⟨.TRUSS_VIOL_ADDR, 0x40020020, [], 4, 0x0,
    [⟨31, 0, .ro, false⟩]⟩,
  ⟨.TRUSS_VIOL_INIT, 0x40020024, [], 4, 0x0,
    [⟨15, 0, .ro, false⟩]⟩,
  ⟨.TRUSS_VIOL_CNT, 0x40020028, [], 4, 0x0,
    [⟨31, 0, .rc, false⟩]⟩,
  ⟨.TRUSS_DROP_CNT, 0x4002002C, [], 4, 0x0,
    [⟨31, 0, .rc, false⟩]⟩,
  ⟨.TRUSS_STORE_STATUS, 0x40020030, [], 4, 0x0,
    [⟨31, 16, .ro, false⟩, ⟨5, 4, .ro, false⟩, ⟨3, 3, .ro, false⟩, ⟨2, 2, .ro, false⟩, ⟨1, 0, .ro, false⟩]⟩,
  ⟨.TRUSS_IRQ_EN, 0x40020034, [], 4, 0x0,
    [⟨7, 7, .rw, false⟩, ⟨6, 6, .rw, false⟩, ⟨5, 5, .rw, false⟩, ⟨4, 4, .rw, false⟩, ⟨3, 3, .rw, false⟩, ⟨2, 2, .rw, false⟩, ⟨1, 1, .rw, false⟩, ⟨0, 0, .rw, false⟩]⟩,
  ⟨.TRUSS_IRQ_STATUS, 0x40020038, [], 4, 0x0,
    [⟨7, 7, .w1c, false⟩, ⟨6, 6, .w1c, false⟩, ⟨5, 5, .w1c, false⟩, ⟨4, 4, .w1c, false⟩, ⟨3, 3, .w1c, false⟩, ⟨2, 2, .w1c, false⟩, ⟨1, 1, .w1c, false⟩, ⟨0, 0, .w1c, false⟩]⟩]

/-- Register blocks of unit RSTC, part 0. -/
def regsRstc0 : List RegDesc := [
  ⟨.RSTC_MODE, 0x40000000, [], 4, 0x0,
    [⟨7, 7, .ro, false⟩, ⟨6, 6, .ro, false⟩, ⟨2, 2, .ro, false⟩, ⟨1, 0, .ro, false⟩]⟩,
  ⟨.RSTC_MODE_CMD, 0x40000004, [], 4, 0x0,
    [⟨8, 8, .wo, true⟩, ⟨2, 0, .wo, false⟩]⟩,
  ⟨.RSTC_CAUSE, 0x40000008, [], 4, 0x0,
    [⟨31, 16, .ro, false⟩, ⟨7, 7, .ro, false⟩, ⟨5, 4, .ro, false⟩, ⟨3, 0, .ro, false⟩]⟩,
  ⟨.RSTC_SW_RST, 0x4000000C, [], 4, 0x0,
    [⟨31, 16, .wo, true⟩, ⟨1, 0, .wo, true⟩]⟩,
  ⟨.RSTC_DIE_RST, 0x40000010, [], 4, 0x0,
    [⟨1, 1, .rw, true⟩, ⟨0, 0, .rw, true⟩]⟩,
  ⟨.RSTC_UNIT_RST, 0x40000014, [], 4, 0x0,
    [⟨23, 0, .rw, true⟩]⟩,
  ⟨.RSTC_GROUP_RST, 0x40000018, [], 4, 0x0,
    [⟨27, 27, .rw, true⟩, ⟨26, 25, .rw, true⟩, ⟨24, 17, .rw, true⟩, ⟨16, 16, .rw, true⟩, ⟨15, 15, .rw, true⟩, ⟨14, 12, .rw, true⟩, ⟨11, 6, .rw, true⟩, ⟨5, 0, .rw, true⟩]⟩,
  ⟨.RSTC_ELEM_RST, 0x4000001C, [], 4, 0x0,
    [⟨31, 31, .rw, false⟩, ⟨28, 24, .rw, false⟩, ⟨16, 16, .ro, false⟩, ⟨15, 0, .rw, false⟩]⟩,
  ⟨.RSTC_RETAIN, 0x40000020, [], 4, 0x0,
    [⟨23, 0, .rw, true⟩]⟩,
  ⟨.RSTC_DOZE_MASK, 0x40000024, [], 4, 0x0,
    [⟨3, 3, .rw, true⟩, ⟨2, 2, .rw, true⟩, ⟨1, 1, .rw, true⟩, ⟨0, 0, .rw, true⟩]⟩,
  ⟨.RSTC_WAKE_EN, 0x40000028, [], 4, 0x0,
    [⟨28, 28, .rw, true⟩, ⟨27, 16, .rw, true⟩, ⟨15, 0, .rw, true⟩]⟩,
  ⟨.RSTC_WAKE_POL, 0x4000002C, [], 4, 0x0,
    [⟨15, 0, .rw, true⟩]⟩,
  ⟨.RSTC_SLEEP_TIMER, 0x40000030, [], 4, 0x3C,
    [⟨15, 0, .rw, true⟩]⟩,
  ⟨.RSTC_WAKE_SRC_A, 0x40000034, [], 4, 0x0,
    [⟨28, 28, .ro, false⟩, ⟨27, 16, .ro, false⟩, ⟨15, 0, .ro, false⟩]⟩,
  ⟨.RSTC_WAKE_SRC_B, 0x40000038, [], 4, 0x0,
    [⟨11, 0, .ro, false⟩]⟩,
  ⟨.RSTC_SUPPLY_STATUS, 0x4000003C, [], 4, 0x0,
    [⟨10, 10, .ro, false⟩, ⟨9, 5, .ro, false⟩, ⟨4, 4, .ro, false⟩, ⟨3, 3, .ro, false⟩, ⟨1, 0, .ro, false⟩]⟩,
  ⟨.RSTC_GONE_DROP_CNT, 0x40000040, [], 4, 0x0,
    [⟨31, 0, .rc, false⟩]⟩,
  ⟨.RSTC_IRQ_EN, 0x40000044, [], 4, 0x0,
    [⟨8, 8, .rw, false⟩, ⟨7, 7, .rw, false⟩, ⟨6, 6, .rw, false⟩, ⟨5, 5, .rw, false⟩, ⟨4, 4, .rw, false⟩, ⟨3, 3, .rw, false⟩, ⟨2, 2, .rw, false⟩, ⟨1, 1, .rw, false⟩, ⟨0, 0, .rw, false⟩]⟩,
  ⟨.RSTC_IRQ_STATUS, 0x40000048, [], 4, 0x0,
    [⟨8, 8, .w1c, false⟩, ⟨7, 7, .w1c, false⟩, ⟨6, 6, .w1c, false⟩, ⟨5, 5, .w1c, false⟩, ⟨4, 4, .w1c, false⟩, ⟨3, 3, .w1c, false⟩, ⟨2, 2, .w1c, false⟩, ⟨1, 1, .w1c, false⟩, ⟨0, 0, .w1c, false⟩]⟩,
  ⟨.RSTC_RCNT, 0x40000100, [(0x4, 16)], 4, 0x0,
    [⟨15, 0, .ro, false⟩]⟩,
  ⟨.RSTC_WDT_CFG, 0x40000200, [(0x8, 16)], 4, 0x0,
    [⟨17, 16, .rw, true⟩, ⟨15, 0, .rw, true⟩]⟩,
  ⟨.RSTC_WDT_KICK, 0x40000204, [(0x8, 16)], 4, 0x0,
    [⟨0, 0, .wo, false⟩]⟩,
  ⟨.RSTC_SAFE_LAST, 0x40000300, [], 4, 0x0,
    [⟨31, 16, .ro, false⟩, ⟨2, 0, .ro, false⟩]⟩,
  ⟨.RSTC_SAFE_ARG, 0x40000304, [], 4, 0x0,
    [⟨31, 0, .ro, false⟩]⟩]

/-- Register blocks of unit RSTC, part 1. -/
def regsRstc1 : List RegDesc := [
  ⟨.RSTC_SAFE_CNT, 0x40000308, [], 4, 0x0,
    [⟨31, 0, .rc, false⟩]⟩,
  ⟨.RSTC_SAFE_RESET, 0x4000030C, [], 4, 0x0,
    [⟨31, 16, .ro, false⟩, ⟨15, 0, .ro, false⟩]⟩]

/-- Register blocks of unit RSTC. -/
def regsRstc : List RegDesc := regsRstc0 ++ regsRstc1

/-- Register blocks of unit BIST. -/
def regsBist : List RegDesc := [
  ⟨.BIST_STATUS, 0x40030000, [], 4, 0x0,
    [⟨31, 16, .ro, false⟩, ⟨11, 8, .ro, false⟩, ⟨1, 1, .ro, false⟩, ⟨0, 0, .ro, false⟩]⟩,
  ⟨.BIST_RUN_INFO, 0x40030004, [], 4, 0x0,
    [⟨31, 16, .ro, false⟩, ⟨7, 0, .ro, false⟩]⟩,
  ⟨.BIST_RESULT_0, 0x40030008, [], 4, 0x0,
    [⟨31, 0, .ro, false⟩]⟩,
  ⟨.BIST_RESULT_1, 0x4003000C, [], 4, 0x0,
    [⟨31, 0, .ro, false⟩]⟩,
  ⟨.BIST_RESULT_2, 0x40030010, [], 4, 0x0,
    [⟨31, 0, .ro, false⟩]⟩,
  ⟨.BIST_HELD_LO, 0x40030014, [], 4, 0x0,
    [⟨31, 0, .ro, false⟩]⟩,
  ⟨.BIST_HELD_HI, 0x40030018, [], 4, 0x0,
    [⟨31, 0, .ro, false⟩]⟩,
  ⟨.BIST_START_STATUS, 0x4003001C, [], 4, 0x0,
    [⟨7, 0, .ro, false⟩]⟩,
  ⟨.BIST_CMD, 0x40030020, [], 4, 0x0,
    [⟨31, 16, .wo, true⟩, ⟨0, 0, .wo, true⟩]⟩,
  ⟨.BIST_IRQ_EN, 0x40030024, [], 4, 0x0,
    [⟨4, 4, .rw, false⟩, ⟨3, 3, .rw, false⟩, ⟨2, 2, .rw, false⟩, ⟨1, 1, .rw, false⟩, ⟨0, 0, .rw, false⟩]⟩,
  ⟨.BIST_IRQ_STATUS, 0x40030028, [], 4, 0x0,
    [⟨4, 4, .w1c, false⟩, ⟨3, 3, .w1c, false⟩, ⟨2, 2, .w1c, false⟩, ⟨1, 1, .w1c, false⟩, ⟨0, 0, .w1c, false⟩]⟩]

/-- Register blocks of unit LOAD, part 0. -/
def regsLoad0 : List RegDesc := [
  ⟨.LOAD_CTRL, 0x42000000, [(0x100, 48)], 2, 0x0,
    [⟨1, 0, .rwt, false⟩]⟩,
  ⟨.LOAD_DUTY, 0x42000002, [(0x100, 48)], 2, 0x0,
    [⟨9, 0, .rwt, false⟩]⟩,
  ⟨.LOAD_PERIOD, 0x42000004, [(0x100, 48)], 2, 0x1,
    [⟨9, 0, .rwt, false⟩]⟩,
  ⟨.LOAD_PHASE, 0x42000006, [(0x100, 48)], 2, 0x0,
    [⟨15, 0, .rwt, false⟩]⟩,
  ⟨.LOAD_STATE, 0x42000008, [(0x100, 48)], 2, 0x0,
    [⟨15, 12, .ro, false⟩, ⟨11, 11, .ro, false⟩, ⟨7, 7, .ro, false⟩, ⟨6, 6, .ro, false⟩, ⟨5, 4, .ro, false⟩, ⟨3, 3, .ro, false⟩, ⟨2, 0, .ro, false⟩]⟩,
  ⟨.LOAD_APPLIED_DUTY, 0x4200000A, [(0x100, 48)], 2, 0x0,
    [⟨9, 0, .ro, false⟩]⟩,
  ⟨.LOAD_CMD_EPOCH, 0x4200000C, [(0x100, 48)], 2, 0x0,
    [⟨15, 0, .ro, false⟩]⟩,
  ⟨.LOAD_OWNER, 0x4200000E, [(0x100, 48)], 2, 0x1017,
    [⟨15, 0, .ro, false⟩]⟩,
  ⟨.LOAD_DISP, 0x42000010, [(0x100, 48)], 2, 0x0,
    [⟨11, 4, .ro, false⟩, ⟨3, 2, .ro, false⟩, ⟨1, 0, .ro, false⟩]⟩,
  ⟨.LOAD_REST_DUTY, 0x42000012, [(0x100, 48)], 2, 0x0,
    [⟨13, 0, .ro, false⟩]⟩,
  ⟨.LOAD_REST_PERIOD, 0x42000014, [(0x100, 48)], 2, 0x0,
    [⟨13, 0, .ro, false⟩]⟩,
  ⟨.LOAD_PROT_CFG, 0x42000016, [(0x100, 48)], 2, 0x800,
    [⟨11, 8, .rwt, true⟩, ⟨4, 4, .rwt, true⟩, ⟨3, 3, .rwt, true⟩, ⟨2, 2, .rwt, true⟩, ⟨1, 1, .rwt, true⟩, ⟨0, 0, .rwt, true⟩]⟩,
  ⟨.LOAD_T_LIM, 0x42000018, [(0x100, 48)], 2, 0x64,
    [⟨9, 0, .rwt, true⟩]⟩,
  ⟨.LOAD_T_RETRY, 0x4200001A, [(0x100, 48)], 2, 0x3E8,
    [⟨10, 0, .rwt, true⟩]⟩,
  ⟨.LOAD_DERATE_CFG, 0x4200001C, [(0x100, 48)], 2, 0x300,
    [⟨15, 8, .rwt, true⟩, ⟨7, 0, .rwt, true⟩]⟩,
  ⟨.LOAD_SENSE, 0x4200001E, [(0x100, 48)], 2, 0x0,
    [⟨11, 0, .ro, false⟩]⟩,
  ⟨.LOAD_FAULT, 0x42000020, [(0x100, 48)], 2, 0x0,
    [⟨15, 15, .wo, false⟩, ⟨7, 0, .ro, false⟩]⟩,
  ⟨.LOAD_IRQ_EN, 0x42000022, [(0x100, 48)], 2, 0x0,
    [⟨7, 7, .rw, false⟩, ⟨6, 6, .rw, false⟩, ⟨5, 5, .rw, false⟩, ⟨4, 4, .rw, false⟩, ⟨3, 3, .rw, false⟩, ⟨2, 2, .rw, false⟩, ⟨1, 1, .rw, false⟩, ⟨0, 0, .rw, false⟩]⟩,
  ⟨.LOAD_IRQ_STATUS, 0x42000024, [(0x100, 48)], 2, 0x0,
    [⟨7, 7, .w1c, false⟩, ⟨6, 6, .w1c, false⟩, ⟨5, 5, .w1c, false⟩, ⟨4, 4, .w1c, false⟩, ⟨3, 3, .w1c, false⟩, ⟨2, 2, .w1c, false⟩, ⟨1, 1, .w1c, false⟩, ⟨0, 0, .w1c, false⟩]⟩,
  ⟨.LOAD_SYNC_CFG, 0x4200B000, [(0x2, 8)], 2, 0x0,
    [⟨15, 8, .rwt, false⟩, ⟨7, 7, .rwt, false⟩, ⟨6, 6, .rwt, false⟩, ⟨5, 0, .rwt, false⟩]⟩,
  ⟨.LOAD_UNIT_STATUS, 0x4200C000, [], 2, 0x0,
    [⟨2, 2, .ro, false⟩, ⟨1, 1, .ro, false⟩, ⟨0, 0, .ro, false⟩]⟩,
  ⟨.LOAD_STALE_CNT, 0x4200C002, [], 2, 0x0,
    [⟨15, 0, .rc, false⟩]⟩,
  ⟨.LOAD_UNIT_IRQ_EN, 0x4200C004, [], 2, 0x0,
    [⟨3, 3, .rw, false⟩, ⟨2, 2, .rw, false⟩, ⟨1, 1, .rw, false⟩, ⟨0, 0, .rw, false⟩]⟩,
  ⟨.LOAD_UNIT_IRQ_STATUS, 0x4200C006, [], 2, 0x0,
    [⟨3, 3, .w1c, false⟩, ⟨2, 2, .w1c, false⟩, ⟨1, 1, .w1c, false⟩, ⟨0, 0, .w1c, false⟩]⟩]

/-- Register blocks of unit LOAD, part 1. -/
def regsLoad1 : List RegDesc := [
  ⟨.LOAD_DUTY_OWNER, 0x4200C010, [(0x2, 4)], 2, 0x0,
    [⟨15, 0, .ro, false⟩]⟩,
  ⟨.LOAD_DUTY_EPOCH, 0x4200C100, [(0x2, 64)], 2, 0x1,
    [⟨15, 0, .ro, false⟩]⟩,
  ⟨.LOAD_SENSE_SEL, 0x4200C008, [], 2, 0x0,
    [⟨7, 7, .rw, true⟩, ⟨5, 0, .rw, true⟩]⟩,
  ⟨.LOAD_BANK_LIMIT, 0x4200D000, [(0x20, 6)], 2, 0x2EE,
    [⟨15, 0, .rwt, true⟩]⟩,
  ⟨.LOAD_BANK_CURRENT, 0x4200D002, [(0x20, 6)], 2, 0x0,
    [⟨15, 0, .ro, false⟩]⟩,
  ⟨.LOAD_BANK_STATUS, 0x4200D004, [(0x20, 6)], 2, 0x0,
    [⟨3, 3, .ro, false⟩, ⟨2, 2, .ro, false⟩, ⟨1, 1, .ro, false⟩, ⟨0, 0, .ro, false⟩]⟩,
  ⟨.LOAD_BANK_IRQ_EN, 0x4200D006, [(0x20, 6)], 2, 0x0,
    [⟨2, 2, .rw, false⟩, ⟨1, 1, .rw, false⟩, ⟨0, 0, .rw, false⟩]⟩,
  ⟨.LOAD_BANK_IRQ_STATUS, 0x4200D008, [(0x20, 6)], 2, 0x0,
    [⟨2, 2, .w1c, false⟩, ⟨1, 1, .w1c, false⟩, ⟨0, 0, .w1c, false⟩]⟩,
  ⟨.LOAD_BANK_DROOP_CNT, 0x4200D00A, [(0x20, 6)], 2, 0x0,
    [⟨15, 0, .rc, false⟩]⟩,
  ⟨.LOAD_MOD_LIMIT, 0x4200D100, [], 2, 0x5DC,
    [⟨15, 0, .rwt, true⟩]⟩,
  ⟨.LOAD_HEAT_LIMIT, 0x4200D102, [], 2, 0x708,
    [⟨15, 0, .rwt, true⟩]⟩,
  ⟨.LOAD_MOD_CURRENT, 0x4200D104, [], 2, 0x0,
    [⟨15, 0, .ro, false⟩]⟩,
  ⟨.LOAD_POST_A_CURRENT, 0x4200D106, [], 2, 0x0,
    [⟨15, 0, .ro, false⟩]⟩,
  ⟨.LOAD_POST_B_CURRENT, 0x4200D108, [], 2, 0x0,
    [⟨15, 0, .ro, false⟩]⟩,
  ⟨.LOAD_HEAT, 0x4200D10A, [], 2, 0x0,
    [⟨15, 0, .ro, false⟩]⟩,
  ⟨.LOAD_BUDGET_STATUS, 0x4200D10C, [], 2, 0x0,
    [⟨6, 6, .ro, false⟩, ⟨5, 5, .ro, false⟩, ⟨4, 4, .ro, false⟩, ⟨3, 3, .ro, false⟩, ⟨2, 2, .ro, false⟩, ⟨1, 1, .ro, false⟩, ⟨0, 0, .ro, false⟩]⟩,
  ⟨.LOAD_BUDGET_IRQ_EN, 0x4200D10E, [], 2, 0x0,
    [⟨2, 2, .rw, false⟩, ⟨1, 1, .rw, false⟩, ⟨0, 0, .rw, false⟩]⟩,
  ⟨.LOAD_BUDGET_IRQ_STATUS, 0x4200D110, [], 2, 0x0,
    [⟨2, 2, .w1c, false⟩, ⟨1, 1, .w1c, false⟩, ⟨0, 0, .w1c, false⟩]⟩,
  ⟨.LOAD_SHED_CNT, 0x4200D112, [], 2, 0x0,
    [⟨15, 0, .rc, false⟩]⟩]

/-- Register blocks of unit LOAD. -/
def regsLoad : List RegDesc := regsLoad0 ++ regsLoad1

/-- Register blocks of unit MEAS. -/
def regsMeas : List RegDesc := [
  ⟨.MEAS_CTRL, 0x41700000, [], 4, 0x1402,
    [⟨21, 8, .rwt, true⟩, ⟨2, 0, .rwt, true⟩]⟩,
  ⟨.MEAS_STATUS, 0x41700004, [], 4, 0x0,
    [⟨15, 8, .ro, false⟩, ⟨1, 1, .ro, false⟩, ⟨0, 0, .ro, false⟩]⟩,
  ⟨.MEAS_WAKE_LEVEL, 0x41700008, [], 4, 0x0,
    [⟨15, 0, .ro, false⟩]⟩,
  ⟨.MEAS_IRQ_EN, 0x41700040, [], 4, 0x0,
    [⟨3, 3, .rw, false⟩, ⟨2, 2, .rw, false⟩, ⟨1, 1, .rw, false⟩, ⟨0, 0, .rw, false⟩]⟩,
  ⟨.MEAS_IRQ_STATUS, 0x41700044, [], 4, 0x0,
    [⟨3, 3, .w1c, false⟩, ⟨2, 2, .w1c, false⟩, ⟨1, 1, .w1c, false⟩, ⟨0, 0, .w1c, false⟩]⟩,
  ⟨.MEAS_VALUE, 0x41700100, [(0x4, 96)], 4, 0x0,
    [⟨31, 31, .ro, false⟩, ⟨30, 30, .ro, false⟩, ⟨29, 29, .ro, false⟩, ⟨28, 28, .ro, false⟩, ⟨27, 26, .ro, false⟩, ⟨25, 25, .ro, false⟩, ⟨15, 0, .ro, false⟩]⟩,
  ⟨.MEAS_RAW, 0x41700300, [(0x4, 96)], 4, 0x0,
    [⟨12, 12, .ro, false⟩, ⟨11, 0, .ro, false⟩]⟩,
  ⟨.MEAS_LOW, 0x41700500, [(0x4, 3)], 4, 0x0,
    [⟨31, 0, .ro, false⟩]⟩,
  ⟨.MEAS_HIGH, 0x41700510, [(0x4, 3)], 4, 0x0,
    [⟨31, 0, .ro, false⟩]⟩,
  ⟨.MEAS_LIM_IRQ_EN, 0x41700600, [(0x4, 3)], 4, 0x0,
    [⟨31, 0, .rw, false⟩]⟩,
  ⟨.MEAS_LIM_IRQ_STATUS, 0x41700610, [(0x4, 3)], 4, 0x0,
    [⟨31, 0, .w1c, false⟩]⟩,
  ⟨.MEAS_IN_CFG, 0x41700800, [(0x8, 96)], 4, 0x0,
    [⟨31, 16, .rwt, true⟩, ⟨15, 14, .rwt, true⟩, ⟨13, 8, .rwt, true⟩, ⟨7, 7, .rwt, true⟩, ⟨6, 4, .rwt, true⟩, ⟨3, 0, .rwt, true⟩]⟩,
  ⟨.MEAS_IN_LIMIT, 0x41700804, [(0x8, 96)], 4, 0xFFFF0000,
    [⟨31, 16, .rwt, true⟩, ⟨15, 0, .rwt, true⟩]⟩]

/-- Register blocks of unit SWC, part 0. -/
def regsSwc0 : List RegDesc := [
  ⟨.SWC_CTRL, 0x41000000, [], 4, 0x12012C,
    [⟨20, 16, .rwt, true⟩, ⟨15, 0, .rwt, true⟩]⟩,
  ⟨.SWC_YELLOW_RESERVE, 0x41000004, [], 4, 0x800,
    [⟨15, 0, .rwt, true⟩]⟩,
  ⟨.SWC_BUF_STATUS, 0x41000008, [], 4, 0xC000,
    [⟨31, 16, .ro, false⟩, ⟨15, 0, .ro, false⟩]⟩,
  ⟨.SWC_SHARED_SIZE, 0x4100000C, [], 4, 0xBE00,
    [⟨15, 0, .ro, false⟩]⟩,
  ⟨.SWC_MAC_COUNT, 0x41000010, [], 4, 0x0,
    [⟨29, 16, .ro, false⟩, ⟨13, 0, .ro, false⟩]⟩,
  ⟨.SWC_MAC_ADDR_LO, 0x41000014, [], 4, 0x0,
    [⟨31, 0, .rw, true⟩]⟩,
  ⟨.SWC_MAC_ADDR_HI, 0x41000018, [], 4, 0x0,
    [⟨27, 16, .rw, true⟩, ⟨15, 0, .rw, true⟩]⟩,
  ⟨.SWC_MAC_CMD, 0x4100001C, [], 4, 0x0,
    [⟨29, 8, .wo, true⟩, ⟨1, 0, .wo, true⟩]⟩,
  ⟨.SWC_MAC_RESULT, 0x41000020, [], 4, 0x80000000,
    [⟨31, 31, .ro, false⟩, ⟨30, 30, .ro, false⟩, ⟨29, 29, .ro, false⟩, ⟨28, 28, .ro, false⟩, ⟨21, 0, .ro, false⟩]⟩,
  ⟨.SWC_LEARN_DROP_CNT, 0x41000024, [], 4, 0x0,
    [⟨31, 0, .rc, false⟩]⟩,
  ⟨.SWC_IRQ_EN, 0x41000028, [], 4, 0x0,
    [⟨5, 5, .rw, true⟩, ⟨4, 4, .rw, true⟩, ⟨3, 3, .rw, true⟩, ⟨2, 2, .rw, true⟩, ⟨1, 1, .rw, true⟩, ⟨0, 0, .rw, true⟩]⟩,
  ⟨.SWC_IRQ_STATUS, 0x4100002C, [], 4, 0x0,
    [⟨5, 5, .w1c, false⟩, ⟨4, 4, .w1c, false⟩, ⟨3, 3, .w1c, false⟩, ⟨2, 2, .w1c, false⟩, ⟨1, 1, .w1c, false⟩, ⟨0, 0, .w1c, false⟩]⟩,
  ⟨.SWC_PORT_CFG, 0x41001000, [(0x80, 22)], 4, 0x100000,
    [⟨31, 20, .rwt, true⟩, ⟨19, 12, .rwt, true⟩, ⟨11, 9, .rwt, true⟩, ⟨8, 7, .rwt, true⟩, ⟨1, 1, .rwt, true⟩, ⟨0, 0, .rwt, true⟩]⟩,
  ⟨.SWC_PORT_CEIL, 0x41001004, [(0x80, 22)], 4, 0xC000,
    [⟨15, 0, .rwt, true⟩]⟩,
  ⟨.SWC_PORT_STATUS, 0x41001008, [(0x80, 22)], 4, 0x2,
    [⟨31, 16, .ro, false⟩, ⟨5, 5, .ro, false⟩, ⟨4, 4, .ro, false⟩, ⟨3, 3, .ro, false⟩, ⟨2, 2, .ro, false⟩, ⟨1, 1, .ro, false⟩, ⟨0, 0, .ro, false⟩]⟩,
  ⟨.SWC_PORT_GATE, 0x4100100C, [(0x80, 22)], 4, 0x0,
    [⟨31, 22, .ro, false⟩, ⟨7, 1, .rwt, true⟩, ⟨0, 0, .rwt, true⟩]⟩,
  ⟨.SWC_PORT_MIN, 0x41001010, [(0x80, 22), (0x4, 8)], 4, 0x0,
    [⟨15, 0, .rwt, true⟩]⟩,
  ⟨.SWC_PORT_USED, 0x41001030, [(0x80, 22), (0x4, 8)], 4, 0x0,
    [⟨15, 0, .ro, false⟩]⟩,
  ⟨.SWC_PORT_SHAPER, 0x41001050, [(0x80, 22), (0x4, 8)], 4, 0x0,
    [⟨23, 0, .rwt, true⟩]⟩,
  ⟨.SWC_GATE_STATES, 0x41004000, [(0x200, 22), (0x8, 64)], 4, 0x0,
    [⟨7, 0, .rwt, true⟩]⟩,
  ⟨.SWC_GATE_DUR, 0x41004004, [(0x200, 22), (0x8, 64)], 4, 0x0,
    [⟨23, 0, .rwt, true⟩]⟩,
  ⟨.SWC_CNT_LO, 0x41010000, [(0x100, 22), (0x8, 32)], 4, 0x0,
    [⟨31, 0, .ro, false⟩]⟩,
  ⟨.SWC_CNT_HI, 0x41010004, [(0x100, 22), (0x8, 32)], 4, 0x0,
    [⟨31, 0, .ro, false⟩]⟩,
  ⟨.SWC_VLAN_MEMBER, 0x41020000, [(0x8, 4096)], 4, 0x0,
    [⟨21, 0, .rwt, true⟩]⟩]

/-- Register blocks of unit SWC, part 1. -/
def regsSwc1 : List RegDesc := [
  ⟨.SWC_VLAN_UNTAG, 0x41020004, [(0x8, 4096)], 4, 0x0,
    [⟨21, 0, .rwt, true⟩]⟩,
  ⟨.SWC_STR_MATCH, 0x41030000, [(0x20, 2048)], 4, 0x0,
    [⟨31, 24, .rwt, true⟩, ⟨23, 16, .rwt, true⟩, ⟨15, 0, .rwt, true⟩]⟩,
  ⟨.SWC_STR_ADDR_LO, 0x41030004, [(0x20, 2048)], 4, 0x0,
    [⟨31, 0, .rwt, true⟩]⟩,
  ⟨.SWC_STR_ADDR_HI, 0x41030008, [(0x20, 2048)], 4, 0x0,
    [⟨31, 31, .rwt, true⟩, ⟨15, 0, .rwt, true⟩]⟩,
  ⟨.SWC_STR_CIR, 0x4103000C, [(0x20, 2048)], 4, 0x0,
    [⟨31, 0, .rwt, true⟩]⟩,
  ⟨.SWC_STR_CBS, 0x41030010, [(0x20, 2048)], 4, 0x0,
    [⟨23, 0, .rwt, true⟩]⟩,
  ⟨.SWC_STR_MATCH_CNT, 0x41030014, [(0x20, 2048)], 4, 0x0,
    [⟨31, 0, .rc, false⟩]⟩,
  ⟨.SWC_STR_DROP_CNT, 0x41030018, [(0x20, 2048)], 4, 0x0,
    [⟨31, 0, .rc, false⟩]⟩,
  ⟨.SWC_FRER_CFG, 0x41040000, [(0x10, 256)], 4, 0x0,
    [⟨31, 31, .rwt, true⟩, ⟨26, 16, .rwt, true⟩, ⟨5, 0, .rwt, true⟩]⟩,
  ⟨.SWC_FRER_RESET, 0x41040004, [(0x10, 256)], 4, 0x0,
    [⟨15, 0, .rwt, true⟩]⟩,
  ⟨.SWC_FRER_PASS_CNT, 0x41040008, [(0x10, 256)], 4, 0x0,
    [⟨31, 0, .rc, false⟩]⟩,
  ⟨.SWC_FRER_DISCARD_CNT, 0x4104000C, [(0x10, 256)], 4, 0x0,
    [⟨31, 0, .rc, false⟩]⟩]

/-- Register blocks of unit SWC. -/
def regsSwc : List RegDesc := regsSwc0 ++ regsSwc1

/-- Register blocks of unit EPORT, part 0. -/
def regsEport0 : List RegDesc := [
  ⟨.EPORT_CFG, 0x41200000, [(0x1000, 22)], 4, 0x0,
    [⟨22, 20, .rwt, true⟩, ⟨19, 16, .rwt, true⟩, ⟨11, 8, .ro, false⟩, ⟨3, 2, .rwt, true⟩]⟩,
  ⟨.EPORT_STATUS, 0x41200004, [(0x1000, 22)], 4, 0x0,
    [⟨23, 20, .ro, false⟩, ⟨19, 16, .ro, false⟩, ⟨11, 8, .ro, false⟩, ⟨5, 5, .ro, false⟩, ⟨4, 4, .ro, false⟩, ⟨2, 0, .ro, false⟩]⟩,
  ⟨.EPORT_PLCA, 0x41200008, [(0x1000, 22)], 4, 0x200800,
    [⟨31, 24, .rwt, true⟩, ⟨23, 16, .rwt, true⟩, ⟨15, 8, .rwt, true⟩, ⟨7, 0, .rwt, true⟩]⟩,
  ⟨.EPORT_DIAG_CMD, 0x41200010, [(0x1000, 22)], 4, 0x0,
    [⟨14, 8, .wo, true⟩, ⟨0, 0, .wo, true⟩]⟩,
  ⟨.EPORT_DIAG_RESULT, 0x41200014, [(0x1000, 22)], 4, 0x0,
    [⟨31, 16, .ro, false⟩, ⟨15, 13, .ro, false⟩, ⟨8, 0, .ro, false⟩]⟩,
  ⟨.EPORT_IRQ_EN, 0x41200018, [(0x1000, 22)], 4, 0x0,
    [⟨7, 7, .rw, true⟩, ⟨6, 6, .rw, true⟩, ⟨5, 5, .rw, true⟩, ⟨4, 4, .rw, true⟩, ⟨3, 3, .rw, true⟩, ⟨2, 2, .rw, true⟩, ⟨1, 1, .rw, true⟩, ⟨0, 0, .rw, true⟩]⟩,
  ⟨.EPORT_IRQ_STATUS, 0x4120001C, [(0x1000, 22)], 4, 0x0,
    [⟨7, 7, .w1c, false⟩, ⟨6, 6, .w1c, false⟩, ⟨5, 5, .w1c, false⟩, ⟨4, 4, .w1c, false⟩, ⟨3, 3, .w1c, false⟩, ⟨2, 2, .w1c, false⟩, ⟨1, 1, .w1c, false⟩, ⟨0, 0, .w1c, false⟩]⟩,
  ⟨.EPORT_LINK_DOWN_CNT, 0x41200020, [(0x1000, 22)], 4, 0x0,
    [⟨31, 0, .rc, false⟩]⟩,
  ⟨.EPORT_TRAIN_FAIL_CNT, 0x41200024, [(0x1000, 22)], 4, 0x0,
    [⟨31, 0, .rc, false⟩]⟩,
  ⟨.EPORT_FEC_CORR_CNT, 0x41200028, [(0x1000, 22)], 4, 0x0,
    [⟨31, 0, .rc, false⟩]⟩,
  ⟨.EPORT_FEC_UNCORR_CNT, 0x4120002C, [(0x1000, 22)], 4, 0x0,
    [⟨31, 0, .rc, false⟩]⟩,
  ⟨.EPORT_SYMBOL_ERR_CNT, 0x41200030, [(0x1000, 22)], 4, 0x0,
    [⟨31, 0, .rc, false⟩]⟩,
  ⟨.EPORT_COLLISION_CNT, 0x41200034, [(0x1000, 22)], 4, 0x0,
    [⟨31, 0, .rc, false⟩]⟩,
  ⟨.EPORT_RX_NOBUF_CNT, 0x41200038, [(0x1000, 22)], 4, 0x0,
    [⟨31, 0, .rc, false⟩]⟩,
  ⟨.EPORT_RING_ERR_CNT, 0x4120003C, [(0x1000, 22)], 4, 0x0,
    [⟨31, 0, .rc, false⟩]⟩,
  ⟨.EPORT_RING_CTRL, 0x41200100, [(0x1000, 22), (0x40, 8)], 4, 0x0,
    [⟨1, 1, .rw, false⟩, ⟨0, 0, .rw, false⟩]⟩,
  ⟨.EPORT_TX_BASE_LO, 0x41200104, [(0x1000, 22), (0x40, 8)], 4, 0x0,
    [⟨31, 4, .rw, false⟩]⟩,
  ⟨.EPORT_TX_BASE_HI, 0x41200108, [(0x1000, 22), (0x40, 8)], 4, 0x0,
    [⟨7, 0, .rw, false⟩]⟩,
  ⟨.EPORT_RX_BASE_LO, 0x41200118, [(0x1000, 22), (0x40, 8)], 4, 0x0,
    [⟨31, 4, .rw, false⟩]⟩,
  ⟨.EPORT_RX_BASE_HI, 0x4120011C, [(0x1000, 22), (0x40, 8)], 4, 0x0,
    [⟨7, 0, .rw, false⟩]⟩,
  ⟨.EPORT_TX_SIZE, 0x4120010C, [(0x1000, 22), (0x40, 8)], 4, 0x0,
    [⟨12, 0, .rw, false⟩]⟩,
  ⟨.EPORT_TX_HEAD, 0x41200110, [(0x1000, 22), (0x40, 8)], 4, 0x0,
    [⟨12, 0, .ro, false⟩]⟩,
  ⟨.EPORT_TX_TAIL, 0x41200114, [(0x1000, 22), (0x40, 8)], 4, 0x0,
    [⟨12, 0, .rw, false⟩]⟩,
  ⟨.EPORT_RX_SIZE, 0x41200120, [(0x1000, 22), (0x40, 8)], 4, 0x0,
    [⟨12, 0, .rw, false⟩]⟩]

/-- Register blocks of unit EPORT, part 1. -/
def regsEport1 : List RegDesc := [
  ⟨.EPORT_RX_HEAD, 0x41200124, [(0x1000, 22), (0x40, 8)], 4, 0x0,
    [⟨12, 0, .ro, false⟩]⟩,
  ⟨.EPORT_RX_TAIL, 0x41200128, [(0x1000, 22), (0x40, 8)], 4, 0x0,
    [⟨12, 0, .rw, false⟩]⟩,
  ⟨.EPORT_RX_MAC_LO, 0x41200130, [(0x1000, 22), (0x40, 8)], 4, 0x0,
    [⟨31, 0, .rw, false⟩]⟩,
  ⟨.EPORT_RX_MAC_HI, 0x41200134, [(0x1000, 22), (0x40, 8)], 4, 0x0,
    [⟨15, 0, .rw, false⟩]⟩]

/-- Register blocks of unit EPORT. -/
def regsEport : List RegDesc := regsEport0 ++ regsEport1

/-- Register blocks of unit PTP, part 0. -/
def regsPtp0 : List RegDesc := [
  ⟨.PTP_CTRL, 0x41100000, [], 4, 0x120177,
    [⟨20, 16, .rwt, true⟩, ⟨15, 0, .rwt, true⟩]⟩,
  ⟨.PTP_CTRL2, 0x41100004, [], 4, 0x3C,
    [⟨31, 16, .rwt, true⟩, ⟨15, 0, .rwt, true⟩]⟩,
  ⟨.PTP_WT_STATUS, 0x41100008, [], 4, 0x0,
    [⟨2, 2, .ro, false⟩, ⟨1, 0, .ro, false⟩]⟩,
  ⟨.PTP_WT_OFFSET, 0x4110000C, [], 4, 0x0,
    [⟨31, 0, .ro, false⟩]⟩,
  ⟨.PTP_WT_CMD, 0x41100010, [], 4, 0x0,
    [⟨0, 0, .wo, true⟩]⟩,
  ⟨.PTP_SNAP_CMD, 0x41100014, [], 4, 0x0,
    [⟨0, 0, .wo, false⟩]⟩,
  ⟨.PTP_SNAP_LT_LO, 0x41100020, [], 4, 0x0,
    [⟨31, 0, .ro, false⟩]⟩,
  ⟨.PTP_SNAP_LT_HI, 0x41100024, [], 4, 0x0,
    [⟨31, 0, .ro, false⟩]⟩,
  ⟨.PTP_SNAP_WT_LO, 0x41100028, [], 4, 0x0,
    [⟨31, 0, .ro, false⟩]⟩,
  ⟨.PTP_SNAP_WT_HI, 0x4110002C, [], 4, 0x0,
    [⟨31, 0, .ro, false⟩]⟩,
  ⟨.PTP_SNAP_DT0_LO, 0x41100030, [], 4, 0x0,
    [⟨31, 0, .ro, false⟩]⟩,
  ⟨.PTP_SNAP_DT0_HI, 0x41100034, [], 4, 0x0,
    [⟨31, 0, .ro, false⟩]⟩,
  ⟨.PTP_SNAP_DT1_LO, 0x41100038, [], 4, 0x0,
    [⟨31, 0, .ro, false⟩]⟩,
  ⟨.PTP_SNAP_DT1_HI, 0x4110003C, [], 4, 0x0,
    [⟨31, 0, .ro, false⟩]⟩,
  ⟨.PTP_IRQ_EN, 0x41100040, [], 4, 0x0,
    [⟨5, 5, .rw, false⟩, ⟨4, 4, .rw, false⟩, ⟨3, 3, .rw, false⟩, ⟨2, 2, .rw, false⟩, ⟨1, 1, .rw, false⟩, ⟨0, 0, .rw, false⟩]⟩,
  ⟨.PTP_IRQ_STATUS, 0x41100044, [], 4, 0x0,
    [⟨5, 5, .w1c, false⟩, ⟨4, 4, .w1c, false⟩, ⟨3, 3, .w1c, false⟩, ⟨2, 2, .w1c, false⟩, ⟨1, 1, .w1c, false⟩, ⟨0, 0, .w1c, false⟩]⟩,
  ⟨.PTP_TAG_DROP_CNT, 0x41100048, [], 4, 0x0,
    [⟨31, 0, .rc, false⟩]⟩,
  ⟨.PTP_RES_DROP_CNT, 0x4110004C, [], 4, 0x0,
    [⟨31, 0, .rc, false⟩]⟩,
  ⟨.PTP_JOIN_CNT, 0x41100050, [], 4, 0x0,
    [⟨31, 0, .rc, false⟩]⟩,
  ⟨.PTP_DOM_CFG, 0x41100100, [(0x40, 2)], 4, 0x1F,
    [⟨31, 31, .rwt, true⟩, ⟨23, 16, .rwt, true⟩, ⟨15, 8, .rwt, true⟩, ⟨4, 0, .rwt, true⟩]⟩,
  ⟨.PTP_DOM_PORTS, 0x41100104, [(0x40, 2)], 4, 0x0,
    [⟨21, 0, .rwt, true⟩]⟩,
  ⟨.PTP_DOM_SERVO, 0x41100108, [(0x40, 2)], 4, 0x0,
    [⟨1, 0, .wo, true⟩]⟩,
  ⟨.PTP_DOM_STATE, 0x4110010C, [(0x40, 2)], 4, 0x0,
    [⟨1, 0, .ro, false⟩]⟩,
  ⟨.PTP_DOM_RATE, 0x41100110, [(0x40, 2)], 4, 0x0,
    [⟨31, 0, .rw, true⟩]⟩]

/-- Register blocks of unit PTP, part 1. -/
def regsPtp1 : List RegDesc := [
  ⟨.PTP_DOM_RR, 0x41100114, [(0x40, 2)], 4, 0x0,
    [⟨31, 0, .rw, true⟩]⟩,
  ⟨.PTP_DOM_STEP_LO, 0x41100118, [(0x40, 2)], 4, 0x0,
    [⟨31, 0, .wo, true⟩]⟩,
  ⟨.PTP_DOM_STEP_HI, 0x4110011C, [(0x40, 2)], 4, 0x0,
    [⟨31, 0, .wo, true⟩]⟩,
  ⟨.PTP_PORT_TRIM, 0x41100400, [(0x10, 22)], 4, 0x0,
    [⟨31, 16, .rw, true⟩, ⟨15, 0, .rw, true⟩]⟩,
  ⟨.PTP_PORT_LINK_DELAY, 0x41100404, [(0x10, 22)], 4, 0x0,
    [⟨31, 0, .rw, true⟩]⟩,
  ⟨.PTP_PORT_CONST, 0x41100408, [(0x10, 22)], 4, 0x0,
    [⟨31, 16, .ro, false⟩, ⟨15, 0, .ro, false⟩]⟩,
  ⟨.PTP_TXQ_STATUS, 0x41100800, [(0x20, 6)], 4, 0x0,
    [⟨8, 8, .w1c, false⟩, ⟨7, 7, .ro, false⟩, ⟨6, 0, .ro, false⟩]⟩,
  ⟨.PTP_TXQ_ID, 0x41100804, [(0x20, 6)], 4, 0x0,
    [⟨31, 31, .ro, false⟩, ⟨30, 30, .ro, false⟩, ⟨20, 16, .ro, false⟩, ⟨15, 0, .ro, false⟩]⟩,
  ⟨.PTP_TXQ_TS_LO, 0x41100808, [(0x20, 6)], 4, 0x0,
    [⟨31, 0, .ro, false⟩]⟩,
  ⟨.PTP_TXQ_TS_HI, 0x4110080C, [(0x20, 6)], 4, 0x0,
    [⟨31, 0, .ro, false⟩]⟩,
  ⟨.PTP_TXQ_POP, 0x41100810, [(0x20, 6)], 4, 0x0,
    [⟨0, 0, .wo, false⟩, ⟨0, 0, .wo, false⟩]⟩,
  ⟨.PTP_TXQ_IRQ_EN, 0x41100814, [(0x20, 6)], 4, 0x0,
    [⟨1, 1, .rw, false⟩, ⟨0, 0, .rw, false⟩]⟩,
  ⟨.PTP_TXQ_DROP_CNT, 0x41100818, [(0x20, 6)], 4, 0x0,
    [⟨31, 0, .rc, false⟩]⟩,
  ⟨.PTP_TOUT_CFG, 0x41100A00, [(0x20, 8)], 4, 0x0,
    [⟨2, 2, .rwt, false⟩, ⟨1, 0, .rwt, false⟩]⟩,
  ⟨.PTP_TOUT_START_LO, 0x41100A04, [(0x20, 8)], 4, 0x0,
    [⟨31, 0, .rwt, false⟩]⟩,
  ⟨.PTP_TOUT_START_HI, 0x41100A08, [(0x20, 8)], 4, 0x0,
    [⟨31, 0, .rwt, false⟩]⟩,
  ⟨.PTP_TOUT_PERIOD, 0x41100A0C, [(0x20, 8)], 4, 0x0,
    [⟨31, 0, .rwt, false⟩]⟩,
  ⟨.PTP_TOUT_WIDTH, 0x41100A10, [(0x20, 8)], 4, 0x0,
    [⟨31, 0, .rwt, false⟩]⟩,
  ⟨.PTP_TOUT_IRQ_EN, 0x41100A14, [(0x20, 8)], 4, 0x0,
    [⟨2, 2, .rw, false⟩, ⟨1, 1, .rw, false⟩, ⟨0, 0, .rw, false⟩]⟩,
  ⟨.PTP_TOUT_IRQ_STATUS, 0x41100A18, [(0x20, 8)], 4, 0x0,
    [⟨2, 2, .w1c, false⟩, ⟨1, 1, .w1c, false⟩, ⟨0, 0, .w1c, false⟩]⟩,
  ⟨.PTP_TIN_CFG, 0x41100C00, [(0x20, 8)], 4, 0x0,
    [⟨1, 0, .rw, false⟩]⟩,
  ⟨.PTP_TIN_LEVEL, 0x41100C04, [(0x20, 8)], 4, 0x0,
    [⟨8, 8, .ro, false⟩, ⟨3, 0, .ro, false⟩]⟩,
  ⟨.PTP_TIN_TS_LO, 0x41100C08, [(0x20, 8)], 4, 0x0,
    [⟨31, 0, .ro, false⟩]⟩,
  ⟨.PTP_TIN_TS_HI, 0x41100C0C, [(0x20, 8)], 4, 0x0,
    [⟨31, 0, .ro, false⟩]⟩]

/-- Register blocks of unit PTP, part 2. -/
def regsPtp2 : List RegDesc := [
  ⟨.PTP_TIN_POP, 0x41100C10, [(0x20, 8)], 4, 0x0,
    [⟨0, 0, .wo, false⟩]⟩,
  ⟨.PTP_TIN_DROP_CNT, 0x41100C14, [(0x20, 8)], 4, 0x0,
    [⟨31, 0, .rc, false⟩]⟩,
  ⟨.PTP_TIN_IRQ_EN, 0x41100C18, [(0x20, 8)], 4, 0x0,
    [⟨1, 1, .rw, false⟩, ⟨0, 0, .rw, false⟩]⟩,
  ⟨.PTP_TIN_IRQ_STATUS, 0x41100C1C, [(0x20, 8)], 4, 0x0,
    [⟨1, 1, .w1c, false⟩, ⟨0, 0, .w1c, false⟩]⟩]

/-- Register blocks of unit PTP. -/
def regsPtp : List RegDesc := regsPtp0 ++ regsPtp1 ++ regsPtp2

/-- Register blocks of unit MBUS, part 0. -/
def regsMbus0 : List RegDesc := [
  ⟨.MBUS_CFG, 0x41300000, [(0x10000, 12)], 4, 0x60010000,
    [⟨31, 24, .rwt, true⟩, ⟨23, 16, .rwt, true⟩, ⟨9, 8, .rwt, true⟩, ⟨6, 6, .rwt, true⟩, ⟨5, 4, .rwt, true⟩, ⟨3, 3, .rwt, true⟩, ⟨2, 2, .rwt, true⟩, ⟨1, 0, .rwt, true⟩]⟩,
  ⟨.MBUS_NBT, 0x41300004, [(0x10000, 12)], 4, 0x17F2020,
    [⟨31, 24, .rwt, true⟩, ⟨23, 16, .rwt, true⟩, ⟨15, 8, .rwt, true⟩, ⟨7, 0, .rwt, true⟩]⟩,
  ⟨.MBUS_DBT, 0x41300008, [(0x10000, 12)], 4, 0x11F0808,
    [⟨31, 24, .rwt, true⟩, ⟨23, 16, .rwt, true⟩, ⟨15, 8, .rwt, true⟩, ⟨7, 0, .rwt, true⟩]⟩,
  ⟨.MBUS_CTRL, 0x4130000C, [(0x10000, 12)], 4, 0x0,
    [⟨1, 1, .rwt, false⟩, ⟨0, 0, .rwt, false⟩]⟩,
  ⟨.MBUS_CMD, 0x41300010, [(0x10000, 12)], 4, 0x0,
    [⟨0, 0, .wo, false⟩]⟩,
  ⟨.MBUS_STATUS, 0x41300014, [(0x10000, 12)], 4, 0x0,
    [⟨8, 8, .ro, false⟩, ⟨6, 4, .ro, false⟩, ⟨3, 3, .ro, false⟩, ⟨2, 0, .ro, false⟩]⟩,
  ⟨.MBUS_ERR_CNT, 0x41300018, [(0x10000, 12)], 4, 0x0,
    [⟨23, 16, .ro, false⟩, ⟨8, 0, .ro, false⟩]⟩,
  ⟨.MBUS_RX_FRAME_CNT, 0x41300020, [(0x10000, 12)], 4, 0x0,
    [⟨31, 0, .rc, false⟩]⟩,
  ⟨.MBUS_TX_FRAME_CNT, 0x41300024, [(0x10000, 12)], 4, 0x0,
    [⟨31, 0, .rc, false⟩]⟩,
  ⟨.MBUS_ERR_FRAME_CNT, 0x41300028, [(0x10000, 12)], 4, 0x0,
    [⟨31, 0, .rc, false⟩]⟩,
  ⟨.MBUS_BUSOFF_CNT, 0x4130002C, [(0x10000, 12)], 4, 0x0,
    [⟨31, 0, .rc, false⟩]⟩,
  ⟨.MBUS_RX_NOMATCH_CNT, 0x41300030, [(0x10000, 12)], 4, 0x0,
    [⟨31, 0, .rc, false⟩]⟩,
  ⟨.MBUS_H_DROP_CNT, 0x41300034, [(0x10000, 12)], 4, 0x0,
    [⟨31, 0, .rc, false⟩]⟩,
  ⟨.MBUS_IRQ_EN, 0x41300040, [(0x10000, 12)], 4, 0x0,
    [⟨11, 11, .rw, false⟩, ⟨10, 10, .rw, false⟩, ⟨9, 9, .rw, false⟩, ⟨8, 8, .rw, false⟩, ⟨7, 7, .rw, false⟩, ⟨6, 6, .rw, false⟩, ⟨5, 5, .rw, false⟩, ⟨4, 4, .rw, false⟩, ⟨3, 3, .rw, false⟩, ⟨2, 2, .rw, false⟩, ⟨1, 1, .rw, false⟩, ⟨0, 0, .rw, false⟩]⟩,
  ⟨.MBUS_IRQ_STATUS, 0x41300044, [(0x10000, 12)], 4, 0x0,
    [⟨11, 11, .w1c, false⟩, ⟨10, 10, .w1c, false⟩, ⟨9, 9, .w1c, false⟩, ⟨8, 8, .w1c, false⟩, ⟨7, 7, .w1c, false⟩, ⟨6, 6, .w1c, false⟩, ⟨5, 5, .w1c, false⟩, ⟨4, 4, .w1c, false⟩, ⟨3, 3, .w1c, false⟩, ⟨2, 2, .w1c, false⟩, ⟨1, 1, .w1c, false⟩, ⟨0, 0, .w1c, false⟩]⟩,
  ⟨.MBUS_QUEUE_EVENT, 0x41300048, [(0x10000, 12)], 4, 0x0,
    [⟨15, 9, .w1c, false⟩, ⟨7, 1, .w1c, false⟩]⟩,
  ⟨.MBUS_H_STATUS, 0x4130004C, [(0x10000, 12)], 4, 0x0,
    [⟨6, 0, .ro, false⟩]⟩,
  ⟨.MBUS_RXQ_BASE_LO, 0x41300100, [(0x10000, 12), (0x20, 8)], 4, 0x0,
    [⟨31, 5, .rw, false⟩]⟩,
  ⟨.MBUS_RXQ_BASE_HI, 0x41300104, [(0x10000, 12), (0x20, 8)], 4, 0x0,
    [⟨7, 0, .rw, false⟩]⟩,
  ⟨.MBUS_TXQ_BASE_LO, 0x41300200, [(0x10000, 12), (0x20, 8)], 4, 0x0,
    [⟨31, 5, .rw, false⟩]⟩,
  ⟨.MBUS_TXQ_BASE_HI, 0x41300204, [(0x10000, 12), (0x20, 8)], 4, 0x0,
    [⟨7, 0, .rw, false⟩]⟩,
  ⟨.MBUS_RXQ_SIZE, 0x41300108, [(0x10000, 12), (0x20, 8)], 4, 0x0,
    [⟨9, 0, .rwt, true⟩]⟩,
  ⟨.MBUS_TXQ_SIZE, 0x41300208, [(0x10000, 12), (0x20, 8)], 4, 0x0,
    [⟨9, 0, .rw, false⟩]⟩,
  ⟨.MBUS_RXQ_CTRL, 0x4130010C, [(0x10000, 12), (0x20, 8)], 4, 0x0,
    [⟨1, 1, .rw, false⟩, ⟨0, 0, .rw, false⟩]⟩]

/-- Register blocks of unit MBUS, part 1. -/
def regsMbus1 : List RegDesc := [
  ⟨.MBUS_RXQ_STATUS, 0x41300110, [(0x10000, 12), (0x20, 8)], 4, 0x0,
    [⟨25, 16, .ro, false⟩, ⟨9, 0, .ro, false⟩]⟩,
  ⟨.MBUS_RXQ_ACK, 0x41300114, [(0x10000, 12), (0x20, 8)], 4, 0x0,
    [⟨9, 0, .wo, false⟩]⟩,
  ⟨.MBUS_RXQ_DROP_CNT, 0x41300118, [(0x10000, 12), (0x20, 8)], 4, 0x0,
    [⟨31, 0, .rc, false⟩]⟩,
  ⟨.MBUS_TXQ_HEAD, 0x4130020C, [(0x10000, 12), (0x20, 8)], 4, 0x0,
    [⟨7, 0, .ro, false⟩]⟩,
  ⟨.MBUS_TXQ_TAIL, 0x41300210, [(0x10000, 12), (0x20, 8)], 4, 0x0,
    [⟨7, 0, .rw, false⟩]⟩,
  ⟨.MBUS_TXQ_CTRL, 0x41300214, [(0x10000, 12), (0x20, 8)], 4, 0x0,
    [⟨1, 1, .wo, false⟩, ⟨0, 0, .rw, false⟩]⟩,
  ⟨.MBUS_TXQ_BUDGET, 0x41300218, [(0x10000, 12), (0x20, 8)], 4, 0x0,
    [⟨7, 0, .rwt, true⟩]⟩,
  ⟨.MBUS_XCVR_CTRL, 0x41300300, [(0x10000, 12)], 4, 0x0,
    [⟨1, 0, .rw, false⟩]⟩,
  ⟨.MBUS_XCVR_STATUS, 0x41300304, [(0x10000, 12)], 4, 0x0,
    [⟨3, 3, .w1c, false⟩, ⟨2, 2, .ro, false⟩, ⟨1, 1, .ro, false⟩, ⟨0, 0, .ro, false⟩]⟩,
  ⟨.MBUS_WUF_ID, 0x41300310, [(0x10000, 12)], 4, 0x0,
    [⟨29, 29, .rw, true⟩, ⟨28, 0, .rw, true⟩]⟩,
  ⟨.MBUS_WUF_ID_MASK, 0x41300314, [(0x10000, 12)], 4, 0x0,
    [⟨28, 0, .rw, true⟩]⟩,
  ⟨.MBUS_WUF_DLC, 0x41300318, [(0x10000, 12)], 4, 0x0,
    [⟨3, 0, .rw, true⟩]⟩,
  ⟨.MBUS_WUF_DATA_LO, 0x4130031C, [(0x10000, 12)], 4, 0x0,
    [⟨31, 0, .rw, true⟩]⟩,
  ⟨.MBUS_WUF_DATA_HI, 0x41300320, [(0x10000, 12)], 4, 0x0,
    [⟨31, 0, .rw, true⟩]⟩,
  ⟨.MBUS_WUF_MASK_LO, 0x41300324, [(0x10000, 12)], 4, 0x0,
    [⟨31, 0, .rw, true⟩]⟩,
  ⟨.MBUS_WUF_MASK_HI, 0x41300328, [(0x10000, 12)], 4, 0x0,
    [⟨31, 0, .rw, true⟩]⟩,
  ⟨.MBUS_WUF_ERR, 0x4130032C, [(0x10000, 12)], 4, 0x0,
    [⟨5, 0, .ro, false⟩]⟩,
  ⟨.MBUS_FLT_CFG, 0x41308000, [(0x10000, 4), (0x10, 2048)], 4, 0x0,
    [⟨31, 31, .rwt, false⟩, ⟨11, 8, .rwt, false⟩, ⟨6, 4, .rwt, false⟩, ⟨3, 3, .rwt, false⟩, ⟨2, 2, .rwt, false⟩, ⟨1, 0, .rwt, false⟩]⟩,
  ⟨.MBUS_FLT_ID, 0x41308004, [(0x10000, 4), (0x10, 2048)], 4, 0x0,
    [⟨31, 0, .rwt, false⟩]⟩,
  ⟨.MBUS_FLT_MASK, 0x41308008, [(0x10000, 4), (0x10, 2048)], 4, 0x0,
    [⟨31, 0, .rwt, false⟩]⟩,
  ⟨.MBUS_FLT_HIT_CNT, 0x4130800C, [(0x10000, 4), (0x10, 2048)], 4, 0x0,
    [⟨31, 0, .rc, false⟩]⟩]

/-- Register blocks of unit MBUS. -/
def regsMbus : List RegDesc := regsMbus0 ++ regsMbus1

/-- Register blocks of unit LIN. -/
def regsLin : List RegDesc := [
  ⟨.LIN_CFG, 0x41400000, [(0x1000, 12)], 4, 0x4B000000,
    [⟨31, 16, .rwt, true⟩, ⟨0, 0, .rwt, true⟩]⟩,
  ⟨.LIN_CTRL, 0x41400004, [(0x1000, 12)], 4, 0x0,
    [⟨2, 1, .rwt, false⟩, ⟨0, 0, .rwt, false⟩]⟩,
  ⟨.LIN_CMD, 0x41400008, [(0x1000, 12)], 4, 0x0,
    [⟨1, 1, .wo, false⟩, ⟨0, 0, .wo, false⟩]⟩,
  ⟨.LIN_STATUS, 0x4140000C, [(0x1000, 12)], 4, 0x0,
    [⟨7, 6, .ro, false⟩, ⟨5, 4, .ro, false⟩, ⟨3, 3, .ro, false⟩, ⟨2, 0, .ro, false⟩]⟩,
  ⟨.LIN_IRQ_EN, 0x41400010, [(0x1000, 12)], 4, 0x0,
    [⟨4, 4, .rw, false⟩, ⟨3, 3, .rw, false⟩, ⟨2, 2, .rw, false⟩, ⟨1, 1, .rw, false⟩, ⟨0, 0, .rw, false⟩]⟩,
  ⟨.LIN_IRQ_STATUS, 0x41400014, [(0x1000, 12)], 4, 0x0,
    [⟨4, 4, .w1c, false⟩, ⟨3, 3, .w1c, false⟩, ⟨2, 2, .w1c, false⟩, ⟨1, 1, .w1c, false⟩, ⟨0, 0, .w1c, false⟩]⟩,
  ⟨.LIN_ERR_CNT, 0x41400018, [(0x1000, 12)], 4, 0x0,
    [⟨31, 0, .rc, false⟩]⟩,
  ⟨.LIN_SKIP_CNT, 0x4140001C, [(0x1000, 12)], 4, 0x0,
    [⟨31, 0, .rc, false⟩]⟩,
  ⟨.LIN_SLOT, 0x41400400, [(0x1000, 12), (0x100, 4), (0x4, 64)], 4, 0x0,
    [⟨31, 31, .rwt, true⟩, ⟨29, 20, .rwt, true⟩, ⟨19, 10, .rwt, true⟩, ⟨5, 0, .rwt, true⟩]⟩,
  ⟨.LIN_FRAME_CFG, 0x41400800, [(0x1000, 12), (0x10, 64)], 4, 0x0,
    [⟨8, 8, .rw, true⟩, ⟨7, 4, .rw, true⟩, ⟨1, 0, .rw, true⟩]⟩,
  ⟨.LIN_FRAME_STATUS, 0x41400804, [(0x1000, 12), (0x10, 64)], 4, 0x0,
    [⟨31, 16, .ro, false⟩, ⟨2, 0, .ro, false⟩]⟩,
  ⟨.LIN_FRAME_DATA_LO, 0x41400808, [(0x1000, 12), (0x10, 64)], 4, 0x0,
    [⟨31, 0, .rwt, false⟩]⟩,
  ⟨.LIN_FRAME_DATA_HI, 0x4140080C, [(0x1000, 12), (0x10, 64)], 4, 0x0,
    [⟨31, 0, .rwt, false⟩]⟩]

/-- Register blocks of unit SENT. -/
def regsSent : List RegDesc := [
  ⟨.SENT_CFG, 0x41410000, [(0x100, 8)], 4, 0xBB8,
    [⟨31, 24, .rwt, true⟩, ⟨16, 0, .rwt, true⟩]⟩,
  ⟨.SENT_FAST, 0x41410004, [(0x100, 8)], 4, 0x0,
    [⟨31, 31, .ro, false⟩, ⟨30, 28, .ro, false⟩, ⟨23, 0, .ro, false⟩]⟩,
  ⟨.SENT_SLOW, 0x41410008, [(0x100, 8)], 4, 0x0,
    [⟨31, 24, .ro, false⟩, ⟨15, 0, .ro, false⟩]⟩,
  ⟨.SENT_STATUS, 0x4141000C, [(0x100, 8)], 4, 0x0,
    [⟨31, 16, .ro, false⟩, ⟨15, 8, .ro, false⟩, ⟨2, 0, .ro, false⟩]⟩,
  ⟨.SENT_IRQ_EN, 0x41410010, [(0x100, 8)], 4, 0x0,
    [⟨2, 2, .rw, false⟩, ⟨1, 1, .rw, false⟩, ⟨0, 0, .rw, false⟩]⟩,
  ⟨.SENT_IRQ_STATUS, 0x41410014, [(0x100, 8)], 4, 0x0,
    [⟨2, 2, .w1c, false⟩, ⟨1, 1, .w1c, false⟩, ⟨0, 0, .w1c, false⟩]⟩,
  ⟨.SENT_ERR_CNT, 0x41410018, [(0x100, 8)], 4, 0x0,
    [⟨31, 0, .rc, false⟩]⟩]

/-- Register blocks of unit NM, part 0. -/
def regsNm0 : List RegDesc := [
  ⟨.NM_STATUS, 0x41500000, [], 4, 0x0,
    [⟨23, 0, .ro, false⟩]⟩,
  ⟨.NM_LOG_STATUS, 0x41500004, [], 4, 0x0,
    [⟨23, 16, .ro, false⟩, ⟨15, 8, .ro, false⟩, ⟨5, 0, .ro, false⟩]⟩,
  ⟨.NM_LOG_DROP_CNT, 0x41500008, [], 4, 0x0,
    [⟨31, 0, .rc, false⟩]⟩,
  ⟨.NM_BAD_MSG_CNT, 0x4150000C, [], 4, 0x0,
    [⟨31, 0, .rc, false⟩]⟩,
  ⟨.NM_IRQ_EN, 0x41500010, [], 4, 0x0,
    [⟨2, 2, .rw, false⟩, ⟨1, 1, .rw, false⟩, ⟨0, 0, .rw, false⟩]⟩,
  ⟨.NM_IRQ_STATUS, 0x41500014, [], 4, 0x0,
    [⟨2, 2, .w1c, false⟩, ⟨1, 1, .w1c, false⟩, ⟨0, 0, .w1c, false⟩]⟩,
  ⟨.NM_LOG_CLEAR, 0x41500018, [], 4, 0x0,
    [⟨0, 0, .wo, true⟩]⟩,
  ⟨.NM_SEG_CFG, 0x41500100, [(0x40, 24)], 4, 0x8000000,
    [⟨31, 31, .rwt, true⟩, ⟨30, 30, .rwt, true⟩, ⟨29, 29, .rwt, true⟩, ⟨28, 28, .rwt, true⟩, ⟨27, 27, .rwt, true⟩, ⟨21, 16, .rwt, true⟩, ⟨15, 8, .rwt, true⟩, ⟨7, 0, .rwt, true⟩]⟩,
  ⟨.NM_SEG_TIMING, 0x41500104, [(0x40, 24)], 4, 0x7D001F4,
    [⟨31, 16, .rwt, true⟩, ⟨15, 0, .rwt, true⟩]⟩,
  ⟨.NM_SEG_MSG, 0x41500108, [(0x40, 24)], 4, 0x500000A,
    [⟨26, 16, .rwt, true⟩, ⟨9, 0, .rwt, true⟩]⟩,
  ⟨.NM_SEG_CTRL, 0x4150010C, [(0x40, 24)], 4, 0x0,
    [⟨1, 1, .w1s, false⟩, ⟨0, 0, .rw, false⟩]⟩,
  ⟨.NM_SEG_USER_LO, 0x41500110, [(0x40, 24)], 4, 0x0,
    [⟨31, 0, .rw, false⟩]⟩,
  ⟨.NM_SEG_USER_HI, 0x41500114, [(0x40, 24)], 4, 0x0,
    [⟨7, 0, .rw, false⟩]⟩,
  ⟨.NM_SEG_STATUS, 0x41500118, [(0x40, 24)], 4, 0x0,
    [⟨31, 16, .ro, false⟩, ⟨11, 10, .ro, false⟩, ⟨8, 8, .ro, false⟩, ⟨5, 4, .ro, false⟩, ⟨2, 0, .ro, false⟩]⟩,
  ⟨.NM_SEG_MAP_LO, 0x4150011C, [(0x40, 24)], 4, 0x0,
    [⟨31, 0, .ro, false⟩]⟩,
  ⟨.NM_SEG_MAP_HI, 0x41500120, [(0x40, 24)], 4, 0x0,
    [⟨31, 0, .ro, false⟩]⟩,
  ⟨.NM_SEG_IRQ_EN, 0x41500124, [(0x40, 24)], 4, 0x0,
    [⟨4, 4, .rw, false⟩, ⟨3, 3, .rw, false⟩, ⟨2, 2, .rw, false⟩, ⟨1, 1, .rw, false⟩, ⟨0, 0, .rw, false⟩]⟩,
  ⟨.NM_SEG_IRQ_STATUS, 0x41500128, [(0x40, 24)], 4, 0x0,
    [⟨4, 4, .w1c, false⟩, ⟨3, 3, .w1c, false⟩, ⟨2, 2, .w1c, false⟩, ⟨1, 1, .w1c, false⟩, ⟨0, 0, .w1c, false⟩]⟩,
  ⟨.NM_SEG_RESTART_CNT, 0x4150012C, [(0x40, 24)], 4, 0x0,
    [⟨31, 0, .rc, false⟩]⟩,
  ⟨.NM_SEG_ISO_DROP_CNT, 0x41500130, [(0x40, 24)], 4, 0x0,
    [⟨31, 0, .rc, false⟩]⟩,
  ⟨.NM_LOG_HDR, 0x41501000, [(0x20, 64)], 4, 0x0,
    [⟨31, 31, .ro, false⟩, ⟨30, 30, .ro, false⟩, ⟨29, 29, .ro, false⟩, ⟨20, 16, .ro, false⟩, ⟨5, 0, .ro, false⟩]⟩,
  ⟨.NM_LOG_START, 0x41501004, [(0x20, 64)], 4, 0x0,
    [⟨31, 0, .ro, false⟩]⟩,
  ⟨.NM_LOG_DUR, 0x41501008, [(0x20, 64)], 4, 0x0,
    [⟨31, 0, .ro, false⟩]⟩,
  ⟨.NM_LOG_ID, 0x4150100C, [(0x20, 64)], 4, 0x0,
    [⟨10, 0, .ro, false⟩]⟩]

/-- Register blocks of unit NM, part 1. -/
def regsNm1 : List RegDesc := [
  ⟨.NM_LOG_DATA_LO, 0x41501010, [(0x20, 64)], 4, 0x0,
    [⟨31, 0, .ro, false⟩]⟩,
  ⟨.NM_LOG_DATA_HI, 0x41501014, [(0x20, 64)], 4, 0x0,
    [⟨31, 0, .ro, false⟩]⟩]

/-- Register blocks of unit NM. -/
def regsNm : List RegDesc := regsNm0 ++ regsNm1

/-- Register blocks of unit GWY. -/
def regsGwy : List RegDesc := [
  ⟨.GWY_STATUS, 0x41600000, [], 4, 0x0,
    [⟨1, 1, .ro, false⟩, ⟨0, 0, .ro, false⟩]⟩,
  ⟨.GWY_ETH_TYPE, 0x41600004, [], 4, 0x88B6,
    [⟨15, 0, .rwt, true⟩]⟩,
  ⟨.GWY_ETH_SRC_LO, 0x41600008, [], 4, 0x0,
    [⟨31, 0, .rwt, true⟩]⟩,
  ⟨.GWY_ETH_SRC_HI, 0x4160000C, [], 4, 0x0,
    [⟨15, 0, .rwt, true⟩]⟩,
  ⟨.GWY_TBL_CMD, 0x41600010, [], 4, 0x0,
    [⟨31, 30, .wo, true⟩, ⟨29, 29, .wo, true⟩, ⟨12, 0, .wo, true⟩]⟩,
  ⟨.GWY_TBL_RESULT, 0x41600014, [], 4, 0x80000000,
    [⟨31, 31, .ro, false⟩, ⟨30, 30, .ro, false⟩, ⟨15, 8, .ro, false⟩, ⟨7, 0, .ro, false⟩]⟩,
  ⟨.GWY_TBL_DATA, 0x41600020, [(0x4, 7)], 4, 0x0,
    [⟨31, 0, .rw, true⟩]⟩,
  ⟨.GWY_TBL_STAT, 0x4160003C, [], 4, 0x0,
    [⟨31, 31, .ro, false⟩, ⟨30, 30, .ro, false⟩, ⟨29, 29, .ro, false⟩, ⟨28, 28, .ro, false⟩, ⟨27, 27, .ro, false⟩, ⟨15, 0, .ro, false⟩]⟩,
  ⟨.GWY_IRQ_EN, 0x41600040, [], 4, 0x0,
    [⟨6, 6, .rw, false⟩, ⟨5, 5, .rw, false⟩, ⟨4, 4, .rw, false⟩, ⟨3, 3, .rw, false⟩, ⟨2, 2, .rw, false⟩, ⟨1, 1, .rw, false⟩, ⟨0, 0, .rw, false⟩]⟩,
  ⟨.GWY_IRQ_STATUS, 0x41600044, [], 4, 0x0,
    [⟨6, 6, .w1c, false⟩, ⟨5, 5, .w1c, false⟩, ⟨4, 4, .w1c, false⟩, ⟨3, 3, .w1c, false⟩, ⟨2, 2, .w1c, false⟩, ⟨1, 1, .w1c, false⟩, ⟨0, 0, .w1c, false⟩]⟩,
  ⟨.GWY_SAT_CNT, 0x41600048, [], 4, 0x0,
    [⟨31, 0, .rc, false⟩]⟩,
  ⟨.GWY_TIMEOUT_CNT, 0x4160004C, [], 4, 0x0,
    [⟨31, 0, .rc, false⟩]⟩,
  ⟨.GWY_REL_DROP_CNT, 0x41600050, [], 4, 0x0,
    [⟨31, 0, .rc, false⟩]⟩,
  ⟨.GWY_RX_DROP_CNT, 0x41600054, [], 4, 0x0,
    [⟨31, 0, .rc, false⟩]⟩,
  ⟨.GWY_LANE_DUE, 0x41600100, [(0x10, 4)], 4, 0x0,
    [⟨31, 0, .ro, false⟩]⟩,
  ⟨.GWY_LANE_USED, 0x41600104, [(0x10, 4)], 4, 0x0,
    [⟨31, 0, .ro, false⟩]⟩,
  ⟨.GWY_LANE_PEAK, 0x41600108, [(0x10, 4)], 4, 0x0,
    [⟨31, 0, .rc, false⟩]⟩,
  ⟨.GWY_ETH_DST_LO, 0x41600200, [(0x8, 16)], 4, 0x0,
    [⟨31, 0, .rwt, true⟩]⟩,
  ⟨.GWY_ETH_DST_HI, 0x41600204, [(0x8, 16)], 4, 0x0,
    [⟨31, 31, .rwt, true⟩, ⟨30, 28, .rwt, true⟩, ⟨27, 16, .rwt, true⟩, ⟨15, 0, .rwt, true⟩]⟩,
  ⟨.GWY_BOUT_A, 0x41608000, [(0x100, 64), (0x4, 64)], 4, 0x0,
    [⟨31, 0, .rwt, false⟩]⟩,
  ⟨.GWY_BOUT_B, 0x4160C000, [(0x100, 64), (0x4, 64)], 4, 0x0,
    [⟨31, 0, .rwt, false⟩]⟩]

/-- Register blocks of unit LATH. -/
def regsLath : List RegDesc := [
  ⟨.LATH_CTRL, 0x400C0000, [(0x100, 2)], 4, 0x0,
    [⟨0, 0, .rw, true⟩]⟩,
  ⟨.LATH_STATUS, 0x400C0004, [(0x100, 2)], 4, 0x0,
    [⟨23, 16, .ro, false⟩, ⟨15, 8, .ro, false⟩, ⟨3, 3, .ro, false⟩, ⟨2, 0, .ro, false⟩]⟩,
  ⟨.LATH_IRQ_EN, 0x400C0008, [(0x100, 2)], 4, 0x0,
    [⟨8, 8, .rw, false⟩, ⟨7, 7, .rw, false⟩, ⟨6, 6, .rw, false⟩, ⟨5, 5, .rw, false⟩, ⟨4, 4, .rw, false⟩, ⟨3, 3, .rw, false⟩, ⟨2, 2, .rw, false⟩, ⟨1, 1, .rw, false⟩, ⟨0, 0, .rw, false⟩]⟩,
  ⟨.LATH_IRQ_STATUS, 0x400C000C, [(0x100, 2)], 4, 0x0,
    [⟨8, 8, .w1c, false⟩, ⟨7, 7, .w1c, false⟩, ⟨6, 6, .w1c, false⟩, ⟨5, 5, .w1c, false⟩, ⟨4, 4, .w1c, false⟩, ⟨3, 3, .w1c, false⟩, ⟨2, 2, .w1c, false⟩, ⟨1, 1, .w1c, false⟩, ⟨0, 0, .w1c, false⟩]⟩,
  ⟨.LATH_TIMEOUT_CNT, 0x400C0010, [(0x100, 2)], 4, 0x0,
    [⟨31, 0, .rc, false⟩]⟩,
  ⟨.LATH_LATE_CNT, 0x400C0014, [(0x100, 2)], 4, 0x0,
    [⟨31, 0, .rc, false⟩]⟩,
  ⟨.LATH_WR_ERR_CNT, 0x400C0018, [(0x100, 2)], 4, 0x0,
    [⟨31, 0, .rc, false⟩]⟩,
  ⟨.LATH_GONE_CNT, 0x400C001C, [(0x100, 2)], 4, 0x0,
    [⟨31, 0, .rc, false⟩]⟩,
  ⟨.LATH_REPLAY_CNT, 0x400C0020, [(0x100, 2)], 4, 0x0,
    [⟨31, 0, .rc, false⟩]⟩,
  ⟨.LATH_SIDE_CNT, 0x400C0024, [(0x100, 2)], 4, 0x0,
    [⟨31, 0, .rc, false⟩]⟩,
  ⟨.LATH_LOCK_CNT, 0x400C0028, [(0x100, 2)], 4, 0x0,
    [⟨31, 0, .rc, false⟩]⟩,
  ⟨.LATH_XREJ_CNT, 0x400C002C, [(0x100, 2)], 4, 0x0,
    [⟨31, 0, .rc, false⟩]⟩,
  ⟨.LATH_ERR_ADDR, 0x400C0030, [(0x100, 2)], 4, 0x0,
    [⟨31, 0, .ro, false⟩]⟩,
  ⟨.LATH_SIDE_ADDR, 0x400C0034, [(0x100, 2)], 4, 0x0,
    [⟨31, 0, .ro, false⟩]⟩,
  ⟨.LATH_SIDE_INIT, 0x400C0038, [(0x100, 2)], 4, 0x0,
    [⟨20, 16, .ro, false⟩, ⟨15, 0, .ro, false⟩]⟩,
  ⟨.LATH_CHAN_OWNER, 0x400C0040, [(0x100, 2), (0x4, 16)], 4, 0x1100C,
    [⟨16, 16, .ro, false⟩, ⟨15, 0, .ro, false⟩]⟩]

/-- Register blocks of unit FAB. -/
def regsFab : List RegDesc := [
  ⟨.FAB_STATUS, 0x400B0000, [], 4, 0x0,
    [⟨8, 0, .ro, false⟩]⟩,
  ⟨.FAB_VIOL_ADDR_LO, 0x400B0004, [], 4, 0x0,
    [⟨31, 0, .ro, false⟩]⟩,
  ⟨.FAB_VIOL_ADDR_HI, 0x400B0008, [], 4, 0x0,
    [⟨7, 0, .ro, false⟩]⟩,
  ⟨.FAB_VIOL_INIT, 0x400B000C, [], 4, 0x0,
    [⟨15, 0, .ro, false⟩]⟩,
  ⟨.FAB_VIOL_CNT, 0x400B0010, [], 4, 0x0,
    [⟨31, 0, .rc, false⟩]⟩,
  ⟨.FAB_IRQ_EN, 0x400B0014, [], 4, 0x0,
    [⟨2, 2, .rw, false⟩, ⟨1, 1, .rw, false⟩, ⟨0, 0, .rw, false⟩]⟩,
  ⟨.FAB_IRQ_STATUS, 0x400B0018, [], 4, 0x0,
    [⟨2, 2, .w1c, false⟩, ⟨1, 1, .w1c, false⟩, ⟨0, 0, .w1c, false⟩]⟩,
  ⟨.FAB_INIT_GROUP, 0x400B0100, [(0x4, 256)], 4, 0x0,
    [⟨4, 0, .rwt, true⟩]⟩,
  ⟨.FAB_QOS_CFG, 0x400B0500, [(0x8, 32)], 4, 0x30100,
    [⟨17, 16, .rwt, true⟩, ⟨15, 8, .rwt, true⟩, ⟨7, 0, .rwt, true⟩]⟩,
  ⟨.FAB_QOS_BW, 0x400B0504, [(0x8, 32)], 4, 0x0,
    [⟨23, 0, .rwt, true⟩]⟩,
  ⟨.FAB_PART_CTRL, 0x400B0600, [], 4, 0x0,
    [⟨4, 4, .wo, true⟩, ⟨3, 0, .wo, true⟩]⟩,
  ⟨.FAB_PART_STATUS, 0x400B0700, [(0x4, 16)], 4, 0x0,
    [⟨31, 16, .ro, false⟩, ⟨15, 14, .ro, false⟩, ⟨11, 0, .ro, false⟩]⟩]

/-- Register blocks of unit IRQ. -/
def regsIrq : List RegDesc := [
  ⟨.IRQ_SRC_CFG, 0x400A1000, [(0x4, 1024)], 4, 0x0,
    [⟨31, 31, .rw, false⟩, ⟨11, 8, .rw, false⟩, ⟨3, 0, .rw, false⟩]⟩,
  ⟨.IRQ_PEND, 0x400A0100, [(0x4, 32)], 4, 0x0,
    [⟨31, 0, .ro, false⟩]⟩,
  ⟨.IRQ_CLAIM, 0x400A0400, [(0x8, 16)], 4, 0x3FFFFFF,
    [⟨25, 0, .ro, false⟩]⟩,
  ⟨.IRQ_EOI, 0x400A0404, [(0x8, 16)], 4, 0x0,
    [⟨25, 0, .wo, false⟩]⟩]

/-- Register blocks of unit MEM. -/
def regsMem : List RegDesc := [
  ⟨.MEM_STATUS, 0x400D0000, [], 4, 0x0,
    [⟨2, 2, .ro, false⟩, ⟨1, 1, .ro, false⟩, ⟨0, 0, .ro, false⟩]⟩,
  ⟨.MEM_CE_CNT, 0x400D0010, [(0x8, 7)], 4, 0x0,
    [⟨31, 0, .rc, false⟩]⟩,
  ⟨.MEM_UE_CNT, 0x400D0014, [(0x8, 7)], 4, 0x0,
    [⟨31, 0, .rc, false⟩]⟩,
  ⟨.MEM_UE_ADDR_LO, 0x400D0050, [], 4, 0x0,
    [⟨31, 0, .ro, false⟩]⟩,
  ⟨.MEM_UE_ADDR_HI, 0x400D0054, [], 4, 0x0,
    [⟨10, 8, .ro, false⟩, ⟨7, 0, .ro, false⟩]⟩,
  ⟨.MEM_IRQ_EN, 0x400D0058, [], 4, 0x0,
    [⟨3, 3, .rw, false⟩, ⟨2, 2, .rw, false⟩, ⟨1, 1, .rw, false⟩, ⟨0, 0, .rw, false⟩]⟩,
  ⟨.MEM_IRQ_STATUS, 0x400D005C, [], 4, 0x0,
    [⟨3, 3, .w1c, false⟩, ⟨2, 2, .w1c, false⟩, ⟨1, 1, .w1c, false⟩, ⟨0, 0, .w1c, false⟩]⟩,
  ⟨.MEM_XSPI_CMD, 0x400D0080, [], 4, 0x0,
    [⟨31, 24, .wo, true⟩, ⟨20, 20, .wo, true⟩, ⟨19, 9, .wo, true⟩]⟩,
  ⟨.MEM_XSPI_ADDR, 0x400D0084, [], 4, 0x0,
    [⟨31, 0, .rw, true⟩]⟩,
  ⟨.MEM_XSPI_DATA, 0x400D0100, [(0x4, 64)], 4, 0x0,
    [⟨31, 0, .rw, true⟩]⟩]

/-- Register blocks of unit CHK. -/
def regsChk : List RegDesc := [
  ⟨.CHK_CFG, 0x40090000, [(0x1000, 6)], 4, 0x8,
    [⟨8, 8, .ro, false⟩, ⟨4, 0, .ro, false⟩]⟩,
  ⟨.CHK_CTRL, 0x40090004, [(0x1000, 6)], 4, 0x1,
    [⟨2, 2, .rw, true⟩, ⟨1, 0, .rw, true⟩]⟩,
  ⟨.CHK_CMD, 0x40090008, [(0x1000, 6)], 4, 0x0,
    [⟨0, 0, .wo, true⟩]⟩,
  ⟨.CHK_STATUS, 0x4009000C, [(0x1000, 6)], 4, 0x0,
    [⟨2, 0, .ro, false⟩]⟩,
  ⟨.CHK_REACT, 0x40090010, [(0x1000, 6)], 4, 0x202,
    [⟨15, 8, .ro, false⟩, ⟨7, 0, .ro, false⟩]⟩,
  ⟨.CHK_FAULT_INFO, 0x40090014, [(0x1000, 6)], 4, 0x0,
    [⟨31, 31, .rc, false⟩, ⟨30, 30, .rc, false⟩, ⟨18, 16, .rc, false⟩, ⟨15, 8, .rc, false⟩, ⟨3, 0, .rc, false⟩]⟩,
  ⟨.CHK_FAULT_PC_LO, 0x40090018, [(0x1000, 6)], 4, 0x0,
    [⟨31, 0, .ro, false⟩]⟩,
  ⟨.CHK_FAULT_PC_HI, 0x4009001C, [(0x1000, 6)], 4, 0x0,
    [⟨31, 0, .ro, false⟩]⟩,
  ⟨.CHK_LANES, 0x40090020, [(0x1000, 6)], 4, 0x0,
    [⟨31, 0, .ro, false⟩]⟩,
  ⟨.CHK_PLUMB, 0x40090024, [(0x1000, 6)], 4, 0x0,
    [⟨31, 16, .ro, false⟩, ⟨2, 0, .ro, false⟩]⟩,
  ⟨.CHK_MISMATCH_CNT, 0x40090030, [(0x1000, 6)], 4, 0x0,
    [⟨31, 0, .rc, false⟩]⟩,
  ⟨.CHK_REPLAY_OK_CNT, 0x40090034, [(0x1000, 6)], 4, 0x0,
    [⟨31, 0, .rc, false⟩]⟩,
  ⟨.CHK_CHECKER_CNT, 0x40090038, [(0x1000, 6)], 4, 0x0,
    [⟨31, 0, .rc, false⟩]⟩,
  ⟨.CHK_PLUMB_SKIP_CNT, 0x4009003C, [(0x1000, 6)], 4, 0x0,
    [⟨31, 0, .rc, false⟩]⟩,
  ⟨.CHK_IRQ_EN, 0x40090040, [(0x1000, 6)], 4, 0x0,
    [⟨5, 5, .rw, false⟩, ⟨4, 4, .rw, false⟩, ⟨3, 3, .rw, false⟩, ⟨2, 2, .rw, false⟩, ⟨1, 1, .rw, false⟩, ⟨0, 0, .rw, false⟩]⟩,
  ⟨.CHK_IRQ_STATUS, 0x40090044, [(0x1000, 6)], 4, 0x0,
    [⟨5, 5, .w1c, false⟩, ⟨4, 4, .w1c, false⟩, ⟨3, 3, .w1c, false⟩, ⟨2, 2, .w1c, false⟩, ⟨1, 1, .w1c, false⟩, ⟨0, 0, .w1c, false⟩]⟩]

/-- Register blocks of unit BENT. -/
def regsBent : List RegDesc := [
  ⟨.BENT_STATUS, 0x40080000, [], 4, 0x0,
    [⟨9, 8, .ro, false⟩, ⟨6, 4, .ro, false⟩, ⟨2, 0, .ro, false⟩]⟩,
  ⟨.BENT_CFG, 0x40080004, [], 4, 0x400,
    [⟨15, 8, .rw, true⟩, ⟨0, 0, .rw, true⟩]⟩,
  ⟨.BENT_CMD, 0x40080008, [], 4, 0x0,
    [⟨31, 16, .wo, true⟩, ⟨8, 8, .wo, true⟩, ⟨1, 0, .wo, true⟩]⟩,
  ⟨.BENT_FAIL_INFO, 0x4008000C, [], 4, 0x70,
    [⟨31, 16, .ro, false⟩, ⟨11, 8, .ro, false⟩, ⟨6, 4, .ro, false⟩, ⟨0, 0, .ro, false⟩]⟩,
  ⟨.BENT_OWNER_LO, 0x40080010, [], 4, 0x0,
    [⟨31, 0, .ro, false⟩]⟩,
  ⟨.BENT_OWNER_HI, 0x40080014, [], 4, 0x0,
    [⟨31, 0, .ro, false⟩]⟩,
  ⟨.BENT_SWITCH_TICK, 0x40080018, [], 4, 0x0,
    [⟨31, 0, .ro, false⟩]⟩,
  ⟨.BENT_IRQ_EN, 0x4008001C, [], 4, 0x0,
    [⟨6, 6, .rw, false⟩, ⟨5, 5, .rw, false⟩, ⟨4, 4, .rw, false⟩, ⟨3, 3, .rw, false⟩, ⟨2, 2, .rw, false⟩, ⟨1, 1, .rw, false⟩, ⟨0, 0, .rw, false⟩]⟩,
  ⟨.BENT_IRQ_STATUS, 0x40080020, [], 4, 0x0,
    [⟨6, 6, .w1c, false⟩, ⟨5, 5, .w1c, false⟩, ⟨4, 4, .w1c, false⟩, ⟨3, 3, .w1c, false⟩, ⟨2, 2, .w1c, false⟩, ⟨1, 1, .w1c, false⟩, ⟨0, 0, .w1c, false⟩]⟩,
  ⟨.BENT_SWITCH_CNT, 0x40080024, [], 4, 0x0,
    [⟨31, 0, .rc, false⟩]⟩,
  ⟨.BENT_DROP_CNT, 0x40080028, [], 4, 0x0,
    [⟨31, 0, .rc, false⟩]⟩,
  ⟨.BENT_SHADOW_DROP_CNT, 0x4008002C, [], 4, 0x0,
    [⟨31, 0, .rc, false⟩]⟩,
  ⟨.BENT_DIVERGE_CNT, 0x40080030, [], 4, 0x0,
    [⟨31, 0, .rc, false⟩]⟩,
  ⟨.BENT_DUTY, 0x40080100, [(0x4, 64)], 4, 0x0,
    [⟨31, 31, .ro, false⟩, ⟨30, 30, .ro, false⟩, ⟨29, 29, .ro, false⟩, ⟨27, 24, .ro, false⟩, ⟨23, 20, .ro, false⟩, ⟨15, 0, .ro, false⟩]⟩]

/-- Register blocks of unit WORLD. -/
def regsWorld : List RegDesc := [
  ⟨.WORLD_STATUS, 0x40060000, [], 4, 0x0,
    [⟨31, 16, .ro, false⟩, ⟨15, 0, .ro, false⟩]⟩,
  ⟨.WORLD_IRQ_EN, 0x40060004, [], 4, 0x0,
    [⟨7, 7, .rw, false⟩, ⟨6, 6, .rw, false⟩, ⟨5, 5, .rw, false⟩, ⟨4, 4, .rw, false⟩, ⟨3, 3, .rw, false⟩, ⟨2, 2, .rw, false⟩, ⟨1, 1, .rw, false⟩, ⟨0, 0, .rw, false⟩]⟩,
  ⟨.WORLD_IRQ_STATUS, 0x40060008, [], 4, 0x0,
    [⟨7, 7, .w1c, false⟩, ⟨6, 6, .w1c, false⟩, ⟨5, 5, .w1c, false⟩, ⟨4, 4, .w1c, false⟩, ⟨3, 3, .w1c, false⟩, ⟨2, 2, .w1c, false⟩, ⟨1, 1, .w1c, false⟩, ⟨0, 0, .w1c, false⟩]⟩,
  ⟨.WORLD_VIOL_ADDR_LO, 0x4006000C, [], 4, 0x0,
    [⟨31, 0, .ro, false⟩]⟩,
  ⟨.WORLD_VIOL_ADDR_HI, 0x40060010, [], 4, 0x0,
    [⟨7, 0, .ro, false⟩]⟩,
  ⟨.WORLD_VIOL_INIT, 0x40060014, [], 4, 0x0,
    [⟨15, 0, .ro, false⟩]⟩,
  ⟨.WORLD_VIOL_CNT, 0x40060018, [], 4, 0x0,
    [⟨31, 0, .rc, false⟩]⟩,
  ⟨.WORLD_PEG_FAULT_CNT, 0x4006001C, [], 4, 0x0,
    [⟨31, 0, .rc, false⟩]⟩,
  ⟨.WORLD_TIMEOUT_CNT, 0x40060020, [], 4, 0x0,
    [⟨31, 0, .rc, false⟩]⟩,
  ⟨.WORLD_CLAIM, 0x40060040, [(0x4, 4)], 4, 0xA0000,
    [⟨31, 16, .rw, true⟩, ⟨0, 0, .rw, true⟩]⟩,
  ⟨.WORLD_CLAIM_LEFT, 0x40060050, [(0x4, 4)], 4, 0x0,
    [⟨31, 28, .ro, false⟩, ⟨27, 0, .ro, false⟩]⟩,
  ⟨.WORLD_HW_CFG, 0x40060100, [(0x10, 16)], 4, 0x3E8,
    [⟨15, 0, .rw, true⟩]⟩,
  ⟨.WORLD_HW_STATE, 0x40060104, [(0x10, 16)], 4, 0x0,
    [⟨31, 16, .ro, false⟩, ⟨1, 0, .ro, false⟩]⟩,
  ⟨.WORLD_HW_READY, 0x40060108, [(0x10, 16)], 4, 0x0,
    [⟨0, 0, .wo, true⟩]⟩,
  ⟨.WORLD_PEG_LO, 0x40060400, [(0x10, 32)], 4, 0x0,
    [⟨31, 12, .rw, true⟩, ⟨0, 0, .rw, true⟩]⟩,
  ⟨.WORLD_PEG_HI, 0x40060404, [(0x10, 32)], 4, 0x0,
    [⟨7, 0, .rw, true⟩]⟩,
  ⟨.WORLD_PEG_SIZE, 0x40060408, [(0x10, 32)], 4, 0x0,
    [⟨19, 16, .rw, true⟩, ⟨15, 0, .rw, true⟩]⟩,
  ⟨.WORLD_DBG_STATUS, 0x40060800, [], 4, 0x0,
    [⟨12, 12, .ro, false⟩, ⟨11, 8, .ro, false⟩, ⟨3, 0, .ro, false⟩]⟩,
  ⟨.WORLD_DBG_REQ, 0x40060804, [], 4, 0x0,
    [⟨3, 0, .wo, false⟩]⟩,
  ⟨.WORLD_DBG_LOCK, 0x40060808, [], 4, 0x0,
    [⟨0, 0, .wo, false⟩]⟩,
  ⟨.WORLD_DBG_NONCE, 0x40060810, [(0x4, 4)], 4, 0x0,
    [⟨31, 0, .ro, false⟩]⟩,
  ⟨.WORLD_DBG_RESP, 0x40060820, [(0x4, 8)], 4, 0x0,
    [⟨31, 0, .wo, false⟩]⟩]

/-- Register blocks of unit VDEV. -/
def regsVdev : List RegDesc := [
  ⟨.VDEV_STATUS, 0x40070000, [], 4, 0x0,
    [⟨8, 8, .ro, false⟩, ⟨7, 0, .ro, false⟩]⟩,
  ⟨.VDEV_REDIV, 0x40070004, [], 4, 0x0,
    [⟨31, 30, .wo, false⟩, ⟨29, 23, .wo, false⟩, ⟨22, 16, .wo, false⟩, ⟨15, 12, .wo, false⟩]⟩,
  ⟨.VDEV_REDIV_AMOUNT, 0x40070008, [], 4, 0x0,
    [⟨23, 0, .rw, true⟩]⟩,
  ⟨.VDEV_REDIV_RESULT, 0x4007000C, [], 4, 0x80000000,
    [⟨31, 31, .ro, false⟩, ⟨30, 30, .ro, false⟩, ⟨15, 8, .ro, false⟩, ⟨7, 0, .ro, false⟩]⟩,
  ⟨.VDEV_SCARF_KEY, 0x40070010, [], 4, 0x0,
    [⟨31, 31, .rw, true⟩, ⟨5, 0, .rw, true⟩]⟩,
  ⟨.VDEV_INST_CFG, 0x40071000, [(0x100, 128)], 4, 0x0,
    [⟨31, 31, .ro, false⟩, ⟨30, 28, .ro, false⟩, ⟨27, 24, .ro, false⟩, ⟨22, 16, .ro, false⟩, ⟨9, 0, .ro, false⟩]⟩,
  ⟨.VDEV_INST_STATE, 0x40071004, [(0x100, 128)], 4, 0x10004,
    [⟨31, 16, .ro, false⟩, ⟨8, 8, .ro, false⟩, ⟨2, 0, .ro, false⟩]⟩,
  ⟨.VDEV_INST_CMD, 0x40071008, [(0x100, 128)], 4, 0x0,
    [⟨29, 29, .wo, false⟩, ⟨28, 16, .wo, false⟩, ⟨3, 0, .wo, false⟩]⟩,
  ⟨.VDEV_INST_RESULT, 0x4007100C, [(0x100, 128)], 4, 0x80000000,
    [⟨31, 31, .ro, false⟩, ⟨30, 30, .ro, false⟩, ⟨15, 8, .ro, false⟩, ⟨7, 0, .ro, false⟩]⟩,
  ⟨.VDEV_INST_ADDR_LO, 0x40071010, [(0x100, 128)], 4, 0x0,
    [⟨31, 4, .rw, false⟩]⟩,
  ⟨.VDEV_INST_ADDR_HI, 0x40071014, [(0x100, 128)], 4, 0x0,
    [⟨7, 0, .rw, false⟩]⟩,
  ⟨.VDEV_LATE_CNT, 0x40071018, [(0x100, 128)], 4, 0x0,
    [⟨31, 0, .rc, false⟩]⟩,
  ⟨.VDEV_DRAIN_CNT, 0x4007101C, [(0x100, 128)], 4, 0x0,
    [⟨31, 0, .rc, false⟩]⟩,
  ⟨.VDEV_GWY_DATA, 0x40071020, [(0x100, 128), (0x4, 7)], 4, 0x0,
    [⟨31, 0, .rw, false⟩]⟩,
  ⟨.VDEV_VEC_HELD, 0x4007103C, [(0x100, 128)], 4, 0x0,
    [⟨31, 0, .ro, false⟩]⟩,
  ⟨.VDEV_RES_KIND, 0x40071040, [(0x100, 128), (0x8, 16)], 4, 0x0,
    [⟨31, 0, .ro, false⟩]⟩,
  ⟨.VDEV_RES_AMOUNT, 0x40071044, [(0x100, 128), (0x8, 16)], 4, 0x0,
    [⟨31, 0, .ro, false⟩]⟩,
  ⟨.VDEV_EVT, 0x400710C0, [(0x100, 128), (0x4, 16)], 4, 0x0,
    [⟨31, 31, .w1c, false⟩, ⟨3, 0, .w1c, false⟩]⟩]

/-- Register blocks of unit KEY. -/
def regsKey : List RegDesc := [
  ⟨.KEY_STATUS, 0x40040000, [], 4, 0x0,
    [⟨29, 29, .ro, false⟩, ⟨28, 28, .ro, false⟩, ⟨27, 24, .ro, false⟩, ⟨23, 20, .ro, false⟩, ⟨17, 17, .ro, false⟩, ⟨16, 16, .ro, false⟩, ⟨11, 8, .ro, false⟩, ⟨2, 0, .ro, false⟩]⟩,
  ⟨.KEY_UID, 0x40040010, [(0x4, 4)], 4, 0x0,
    [⟨31, 0, .ro, false⟩]⟩,
  ⟨.KEY_ID_HASH, 0x40040020, [(0x4, 8)], 4, 0x0,
    [⟨31, 0, .ro, false⟩]⟩,
  ⟨.KEY_COUNTER, 0x40040040, [], 4, 0x0,
    [⟨31, 0, .ro, false⟩]⟩,
  ⟨.KEY_TRUSS_FLOOR, 0x40040044, [], 4, 0x0,
    [⟨31, 0, .ro, false⟩]⟩,
  ⟨.KEY_SLOT_MAP_LO, 0x40040048, [], 4, 0x0,
    [⟨31, 0, .ro, false⟩]⟩,
  ⟨.KEY_SLOT_MAP_HI, 0x4004004C, [], 4, 0x0,
    [⟨31, 0, .ro, false⟩]⟩,
  ⟨.KEY_SUBMIT, 0x40040050, [], 4, 0x0,
    [⟨31, 5, .wo, false⟩]⟩,
  ⟨.KEY_SVC_CFG, 0x40040054, [], 4, 0x1E,
    [⟨15, 0, .rw, true⟩]⟩,
  ⟨.KEY_IRQ_EN, 0x40040058, [], 4, 0x0,
    [⟨6, 6, .rw, false⟩, ⟨5, 5, .rw, false⟩, ⟨4, 4, .rw, false⟩, ⟨3, 3, .rw, false⟩, ⟨2, 2, .rw, false⟩, ⟨1, 1, .rw, false⟩, ⟨0, 0, .rw, false⟩]⟩,
  ⟨.KEY_IRQ_STATUS, 0x4004005C, [], 4, 0x0,
    [⟨6, 6, .w1c, false⟩, ⟨5, 5, .w1c, false⟩, ⟨4, 4, .w1c, false⟩, ⟨3, 3, .w1c, false⟩, ⟨2, 2, .w1c, false⟩, ⟨1, 1, .w1c, false⟩, ⟨0, 0, .w1c, false⟩]⟩,
  ⟨.KEY_OPEN_FAIL_CNT, 0x40040060, [], 4, 0x0,
    [⟨31, 0, .rc, false⟩]⟩,
  ⟨.KEY_KU_REJECT_CNT, 0x40040064, [], 4, 0x0,
    [⟨31, 0, .rc, false⟩]⟩,
  ⟨.KEY_SLOT_INFO, 0x40040100, [(0x8, 64)], 4, 0x0,
    [⟨31, 0, .ro, false⟩]⟩,
  ⟨.KEY_SLOT_OWNER, 0x40040104, [(0x8, 64)], 4, 0x0,
    [⟨31, 0, .ro, false⟩]⟩,
  ⟨.KEY_SESSION, 0x40040400, [(0x4, 8)], 4, 0x0,
    [⟨31, 31, .ro, false⟩, ⟨27, 24, .ro, false⟩, ⟨15, 0, .ro, false⟩]⟩]

/-- Register blocks of unit UPD. -/
def regsUpd : List RegDesc := [
  ⟨.UPD_STATUS, 0x40050000, [], 4, 0x0,
    [⟨19, 16, .ro, false⟩, ⟨11, 10, .ro, false⟩, ⟨9, 8, .ro, false⟩, ⟨4, 4, .ro, false⟩, ⟨3, 0, .ro, false⟩]⟩,
  ⟨.UPD_CMD, 0x40050004, [], 4, 0x0,
    [⟨31, 28, .wo, true⟩, ⟨24, 24, .wo, true⟩, ⟨15, 0, .wo, true⟩]⟩,
  ⟨.UPD_SRC_LO, 0x40050008, [], 4, 0x0,
    [⟨31, 5, .rw, true⟩]⟩,
  ⟨.UPD_SRC_HI, 0x4005000C, [], 4, 0x0,
    [⟨7, 0, .rw, true⟩]⟩,
  ⟨.UPD_OFFSET, 0x40050010, [], 4, 0x0,
    [⟨23, 5, .rw, true⟩]⟩,
  ⟨.UPD_LEN, 0x40050014, [], 4, 0x0,
    [⟨16, 0, .rw, true⟩]⟩,
  ⟨.UPD_RESULT, 0x40050018, [], 4, 0x80000000,
    [⟨31, 0, .ro, false⟩]⟩,
  ⟨.UPD_DETAIL, 0x4005001C, [], 4, 0x0,
    [⟨31, 0, .ro, false⟩]⟩,
  ⟨.UPD_CFG, 0x40050020, [], 4, 0x1902804,
    [⟨31, 16, .rw, true⟩, ⟨15, 8, .rw, true⟩, ⟨7, 0, .rw, true⟩]⟩,
  ⟨.UPD_SVC_CFG, 0x40050024, [], 4, 0x0,
    [⟨31, 16, .rw, true⟩, ⟨4, 0, .rw, true⟩]⟩,
  ⟨.UPD_IRQ_EN, 0x40050028, [], 4, 0x0,
    [⟨5, 5, .rw, false⟩, ⟨4, 4, .rw, false⟩, ⟨3, 3, .rw, false⟩, ⟨2, 2, .rw, false⟩, ⟨1, 1, .rw, false⟩, ⟨0, 0, .rw, false⟩]⟩,
  ⟨.UPD_IRQ_STATUS, 0x4005002C, [], 4, 0x0,
    [⟨5, 5, .w1c, false⟩, ⟨4, 4, .w1c, false⟩, ⟨3, 3, .w1c, false⟩, ⟨2, 2, .w1c, false⟩, ⟨1, 1, .w1c, false⟩, ⟨0, 0, .w1c, false⟩]⟩,
  ⟨.UPD_PART_STATUS, 0x40050100, [(0x10, 16)], 4, 0x0,
    [⟨31, 31, .ro, false⟩, ⟨30, 30, .ro, false⟩, ⟨29, 29, .ro, false⟩, ⟨28, 28, .ro, false⟩]⟩,
  ⟨.UPD_HANDOFF_LO, 0x40050104, [(0x10, 16)], 4, 0x0,
    [⟨31, 4, .rw, false⟩]⟩,
  ⟨.UPD_HANDOFF_HI, 0x40050108, [(0x10, 16)], 4, 0x0,
    [⟨31, 31, .rw, false⟩, ⟨7, 0, .rw, false⟩]⟩,
  ⟨.UPD_CONFIRM, 0x4005010C, [(0x10, 16)], 4, 0x0,
    [⟨0, 0, .wo, false⟩]⟩]

namespace Rg

def TICK_CTRL : Nat := 0x40010000
def TICK_STATUS : Nat := 0x40010004
def TICK_PERIOD : Nat := 0x40010008
def TICK_PHASE : Nat := 0x4001000C
def TICK_KERF : Nat := 0x40010010
def TICK_LOCK : Nat := 0x40010014
def TICK_COUNT_LO : Nat := 0x40010018
def TICK_COUNT_HI : Nat := 0x4001001C
def TICK_EDGE_TIME_LO : Nat := 0x40010020
def TICK_EDGE_TIME_HI : Nat := 0x40010024
def TICK_ALIGN_ERR : Nat := 0x40010028
def TICK_LAST_LEN : Nat := 0x4001002C
def TICK_IRQ_EN : Nat := 0x40010030
def TICK_IRQ_STATUS : Nat := 0x40010034
def TICK_LATE_CNT : Nat := 0x40010038
def TICK_STAGE_FULL_CNT : Nat := 0x4001003C
def TICK_COMMIT_FAULT_CNT : Nat := 0x40010040
def TICK_DONE : Nat := 0x40010044
def TICK_OVR_MAP : Nat := 0x40010048
def TICK_CLIENT_CFG (i : Nat) : Nat := 0x40010100 + 0x10 * i
def TICK_CLIENT_BUDGET (i : Nat) : Nat := 0x40010104 + 0x10 * i
def TICK_CLIENT_OVR_CNT (i : Nat) : Nat := 0x40010108 + 0x10 * i
def TICK_CLIENT_USED (i : Nat) : Nat := 0x4001010C + 0x10 * i
def TRUSS_STATUS : Nat := 0x40020000
def TRUSS_RESULT : Nat := 0x40020004
def TRUSS_DETAIL : Nat := 0x40020008
def TRUSS_CONFLICT_A : Nat := 0x4002000C
def TRUSS_CONFLICT_B : Nat := 0x40020010
def TRUSS_LIVE_CMD : Nat := 0x40020014
def TRUSS_OWNER_QUERY : Nat := 0x40020018
def TRUSS_OWNER_RESULT : Nat := 0x4002001C
def TRUSS_VIOL_ADDR : Nat := 0x40020020
def TRUSS_VIOL_INIT : Nat := 0x40020024
def TRUSS_VIOL_CNT : Nat := 0x40020028
def TRUSS_DROP_CNT : Nat := 0x4002002C
def TRUSS_STORE_STATUS : Nat := 0x40020030
def TRUSS_IRQ_EN : Nat := 0x40020034
def TRUSS_IRQ_STATUS : Nat := 0x40020038
def RSTC_MODE : Nat := 0x40000000
def RSTC_MODE_CMD : Nat := 0x40000004
def RSTC_CAUSE : Nat := 0x40000008
def RSTC_SW_RST : Nat := 0x4000000C
def RSTC_DIE_RST : Nat := 0x40000010
def RSTC_UNIT_RST : Nat := 0x40000014
def RSTC_GROUP_RST : Nat := 0x40000018
def RSTC_ELEM_RST : Nat := 0x4000001C
def RSTC_RETAIN : Nat := 0x40000020
def RSTC_DOZE_MASK : Nat := 0x40000024
def RSTC_WAKE_EN : Nat := 0x40000028
def RSTC_WAKE_POL : Nat := 0x4000002C
def RSTC_SLEEP_TIMER : Nat := 0x40000030
def RSTC_WAKE_SRC_A : Nat := 0x40000034
def RSTC_WAKE_SRC_B : Nat := 0x40000038
def RSTC_SUPPLY_STATUS : Nat := 0x4000003C
def RSTC_GONE_DROP_CNT : Nat := 0x40000040
def RSTC_IRQ_EN : Nat := 0x40000044
def RSTC_IRQ_STATUS : Nat := 0x40000048
def RSTC_RCNT (i : Nat) : Nat := 0x40000100 + 0x4 * i
def RSTC_WDT_CFG (i : Nat) : Nat := 0x40000200 + 0x8 * i
def RSTC_WDT_KICK (i : Nat) : Nat := 0x40000204 + 0x8 * i
def RSTC_SAFE_LAST : Nat := 0x40000300
def RSTC_SAFE_ARG : Nat := 0x40000304
def RSTC_SAFE_CNT : Nat := 0x40000308
def RSTC_SAFE_RESET : Nat := 0x4000030C
def BIST_STATUS : Nat := 0x40030000
def BIST_RUN_INFO : Nat := 0x40030004
def BIST_RESULT_0 : Nat := 0x40030008
def BIST_RESULT_1 : Nat := 0x4003000C
def BIST_RESULT_2 : Nat := 0x40030010
def BIST_HELD_LO : Nat := 0x40030014
def BIST_HELD_HI : Nat := 0x40030018
def BIST_START_STATUS : Nat := 0x4003001C
def BIST_CMD : Nat := 0x40030020
def BIST_IRQ_EN : Nat := 0x40030024
def BIST_IRQ_STATUS : Nat := 0x40030028
def LOAD_CTRL (i : Nat) : Nat := 0x42000000 + 0x100 * i
def LOAD_DUTY (i : Nat) : Nat := 0x42000002 + 0x100 * i
def LOAD_PERIOD (i : Nat) : Nat := 0x42000004 + 0x100 * i
def LOAD_PHASE (i : Nat) : Nat := 0x42000006 + 0x100 * i
def LOAD_STATE (i : Nat) : Nat := 0x42000008 + 0x100 * i
def LOAD_APPLIED_DUTY (i : Nat) : Nat := 0x4200000A + 0x100 * i
def LOAD_CMD_EPOCH (i : Nat) : Nat := 0x4200000C + 0x100 * i
def LOAD_OWNER (i : Nat) : Nat := 0x4200000E + 0x100 * i
def LOAD_DISP (i : Nat) : Nat := 0x42000010 + 0x100 * i
def LOAD_REST_DUTY (i : Nat) : Nat := 0x42000012 + 0x100 * i
def LOAD_REST_PERIOD (i : Nat) : Nat := 0x42000014 + 0x100 * i
def LOAD_PROT_CFG (i : Nat) : Nat := 0x42000016 + 0x100 * i
def LOAD_T_LIM (i : Nat) : Nat := 0x42000018 + 0x100 * i
def LOAD_T_RETRY (i : Nat) : Nat := 0x4200001A + 0x100 * i
def LOAD_DERATE_CFG (i : Nat) : Nat := 0x4200001C + 0x100 * i
def LOAD_SENSE (i : Nat) : Nat := 0x4200001E + 0x100 * i
def LOAD_FAULT (i : Nat) : Nat := 0x42000020 + 0x100 * i
def LOAD_IRQ_EN (i : Nat) : Nat := 0x42000022 + 0x100 * i
def LOAD_IRQ_STATUS (i : Nat) : Nat := 0x42000024 + 0x100 * i
def LOAD_SYNC_CFG (i : Nat) : Nat := 0x4200B000 + 0x2 * i
def LOAD_UNIT_STATUS : Nat := 0x4200C000
def LOAD_STALE_CNT : Nat := 0x4200C002
def LOAD_UNIT_IRQ_EN : Nat := 0x4200C004
def LOAD_UNIT_IRQ_STATUS : Nat := 0x4200C006
def LOAD_DUTY_OWNER (i : Nat) : Nat := 0x4200C010 + 0x2 * i
def LOAD_DUTY_EPOCH (i : Nat) : Nat := 0x4200C100 + 0x2 * i
def LOAD_SENSE_SEL : Nat := 0x4200C008
def LOAD_BANK_LIMIT (i : Nat) : Nat := 0x4200D000 + 0x20 * i
def LOAD_BANK_CURRENT (i : Nat) : Nat := 0x4200D002 + 0x20 * i
def LOAD_BANK_STATUS (i : Nat) : Nat := 0x4200D004 + 0x20 * i
def LOAD_BANK_IRQ_EN (i : Nat) : Nat := 0x4200D006 + 0x20 * i
def LOAD_BANK_IRQ_STATUS (i : Nat) : Nat := 0x4200D008 + 0x20 * i
def LOAD_BANK_DROOP_CNT (i : Nat) : Nat := 0x4200D00A + 0x20 * i
def LOAD_MOD_LIMIT : Nat := 0x4200D100
def LOAD_HEAT_LIMIT : Nat := 0x4200D102
def LOAD_MOD_CURRENT : Nat := 0x4200D104
def LOAD_POST_A_CURRENT : Nat := 0x4200D106
def LOAD_POST_B_CURRENT : Nat := 0x4200D108
def LOAD_HEAT : Nat := 0x4200D10A
def LOAD_BUDGET_STATUS : Nat := 0x4200D10C
def LOAD_BUDGET_IRQ_EN : Nat := 0x4200D10E
def LOAD_BUDGET_IRQ_STATUS : Nat := 0x4200D110
def LOAD_SHED_CNT : Nat := 0x4200D112
def MEAS_CTRL : Nat := 0x41700000
def MEAS_STATUS : Nat := 0x41700004
def MEAS_WAKE_LEVEL : Nat := 0x41700008
def MEAS_IRQ_EN : Nat := 0x41700040
def MEAS_IRQ_STATUS : Nat := 0x41700044
def MEAS_VALUE (i : Nat) : Nat := 0x41700100 + 0x4 * i
def MEAS_RAW (i : Nat) : Nat := 0x41700300 + 0x4 * i
def MEAS_LOW (i : Nat) : Nat := 0x41700500 + 0x4 * i
def MEAS_HIGH (i : Nat) : Nat := 0x41700510 + 0x4 * i
def MEAS_LIM_IRQ_EN (i : Nat) : Nat := 0x41700600 + 0x4 * i
def MEAS_LIM_IRQ_STATUS (i : Nat) : Nat := 0x41700610 + 0x4 * i
def MEAS_IN_CFG (i : Nat) : Nat := 0x41700800 + 0x8 * i
def MEAS_IN_LIMIT (i : Nat) : Nat := 0x41700804 + 0x8 * i
def SWC_CTRL : Nat := 0x41000000
def SWC_YELLOW_RESERVE : Nat := 0x41000004
def SWC_BUF_STATUS : Nat := 0x41000008
def SWC_SHARED_SIZE : Nat := 0x4100000C
def SWC_MAC_COUNT : Nat := 0x41000010
def SWC_MAC_ADDR_LO : Nat := 0x41000014
def SWC_MAC_ADDR_HI : Nat := 0x41000018
def SWC_MAC_CMD : Nat := 0x4100001C
def SWC_MAC_RESULT : Nat := 0x41000020
def SWC_LEARN_DROP_CNT : Nat := 0x41000024
def SWC_IRQ_EN : Nat := 0x41000028
def SWC_IRQ_STATUS : Nat := 0x4100002C
def SWC_PORT_CFG (i : Nat) : Nat := 0x41001000 + 0x80 * i
def SWC_PORT_CEIL (i : Nat) : Nat := 0x41001004 + 0x80 * i
def SWC_PORT_STATUS (i : Nat) : Nat := 0x41001008 + 0x80 * i
def SWC_PORT_GATE (i : Nat) : Nat := 0x4100100C + 0x80 * i
def SWC_PORT_MIN (i j : Nat) : Nat := 0x41001010 + 0x80 * i + 0x4 * j
def SWC_PORT_USED (i j : Nat) : Nat := 0x41001030 + 0x80 * i + 0x4 * j
def SWC_PORT_SHAPER (i j : Nat) : Nat := 0x41001050 + 0x80 * i + 0x4 * j
def SWC_GATE_STATES (i j : Nat) : Nat := 0x41004000 + 0x200 * i + 0x8 * j
def SWC_GATE_DUR (i j : Nat) : Nat := 0x41004004 + 0x200 * i + 0x8 * j
def SWC_CNT_LO (i j : Nat) : Nat := 0x41010000 + 0x100 * i + 0x8 * j
def SWC_CNT_HI (i j : Nat) : Nat := 0x41010004 + 0x100 * i + 0x8 * j
def SWC_VLAN_MEMBER (i : Nat) : Nat := 0x41020000 + 0x8 * i
def SWC_VLAN_UNTAG (i : Nat) : Nat := 0x41020004 + 0x8 * i
def SWC_STR_MATCH (i : Nat) : Nat := 0x41030000 + 0x20 * i
def SWC_STR_ADDR_LO (i : Nat) : Nat := 0x41030004 + 0x20 * i
def SWC_STR_ADDR_HI (i : Nat) : Nat := 0x41030008 + 0x20 * i
def SWC_STR_CIR (i : Nat) : Nat := 0x4103000C + 0x20 * i
def SWC_STR_CBS (i : Nat) : Nat := 0x41030010 + 0x20 * i
def SWC_STR_MATCH_CNT (i : Nat) : Nat := 0x41030014 + 0x20 * i
def SWC_STR_DROP_CNT (i : Nat) : Nat := 0x41030018 + 0x20 * i
def SWC_FRER_CFG (i : Nat) : Nat := 0x41040000 + 0x10 * i
def SWC_FRER_RESET (i : Nat) : Nat := 0x41040004 + 0x10 * i
def SWC_FRER_PASS_CNT (i : Nat) : Nat := 0x41040008 + 0x10 * i
def SWC_FRER_DISCARD_CNT (i : Nat) : Nat := 0x4104000C + 0x10 * i
def EPORT_CFG (i : Nat) : Nat := 0x41200000 + 0x1000 * i
def EPORT_STATUS (i : Nat) : Nat := 0x41200004 + 0x1000 * i
def EPORT_PLCA (i : Nat) : Nat := 0x41200008 + 0x1000 * i
def EPORT_DIAG_CMD (i : Nat) : Nat := 0x41200010 + 0x1000 * i
def EPORT_DIAG_RESULT (i : Nat) : Nat := 0x41200014 + 0x1000 * i
def EPORT_IRQ_EN (i : Nat) : Nat := 0x41200018 + 0x1000 * i
def EPORT_IRQ_STATUS (i : Nat) : Nat := 0x4120001C + 0x1000 * i
def EPORT_LINK_DOWN_CNT (i : Nat) : Nat := 0x41200020 + 0x1000 * i
def EPORT_TRAIN_FAIL_CNT (i : Nat) : Nat := 0x41200024 + 0x1000 * i
def EPORT_FEC_CORR_CNT (i : Nat) : Nat := 0x41200028 + 0x1000 * i
def EPORT_FEC_UNCORR_CNT (i : Nat) : Nat := 0x4120002C + 0x1000 * i
def EPORT_SYMBOL_ERR_CNT (i : Nat) : Nat := 0x41200030 + 0x1000 * i
def EPORT_COLLISION_CNT (i : Nat) : Nat := 0x41200034 + 0x1000 * i
def EPORT_RX_NOBUF_CNT (i : Nat) : Nat := 0x41200038 + 0x1000 * i
def EPORT_RING_ERR_CNT (i : Nat) : Nat := 0x4120003C + 0x1000 * i
def EPORT_RING_CTRL (i j : Nat) : Nat := 0x41200100 + 0x1000 * i + 0x40 * j
def EPORT_TX_BASE_LO (i j : Nat) : Nat := 0x41200104 + 0x1000 * i + 0x40 * j
def EPORT_TX_BASE_HI (i j : Nat) : Nat := 0x41200108 + 0x1000 * i + 0x40 * j
def EPORT_RX_BASE_LO (i j : Nat) : Nat := 0x41200118 + 0x1000 * i + 0x40 * j
def EPORT_RX_BASE_HI (i j : Nat) : Nat := 0x4120011C + 0x1000 * i + 0x40 * j
def EPORT_TX_SIZE (i j : Nat) : Nat := 0x4120010C + 0x1000 * i + 0x40 * j
def EPORT_TX_HEAD (i j : Nat) : Nat := 0x41200110 + 0x1000 * i + 0x40 * j
def EPORT_TX_TAIL (i j : Nat) : Nat := 0x41200114 + 0x1000 * i + 0x40 * j
def EPORT_RX_SIZE (i j : Nat) : Nat := 0x41200120 + 0x1000 * i + 0x40 * j
def EPORT_RX_HEAD (i j : Nat) : Nat := 0x41200124 + 0x1000 * i + 0x40 * j
def EPORT_RX_TAIL (i j : Nat) : Nat := 0x41200128 + 0x1000 * i + 0x40 * j
def EPORT_RX_MAC_LO (i j : Nat) : Nat := 0x41200130 + 0x1000 * i + 0x40 * j
def EPORT_RX_MAC_HI (i j : Nat) : Nat := 0x41200134 + 0x1000 * i + 0x40 * j
def PTP_CTRL : Nat := 0x41100000
def PTP_CTRL2 : Nat := 0x41100004
def PTP_WT_STATUS : Nat := 0x41100008
def PTP_WT_OFFSET : Nat := 0x4110000C
def PTP_WT_CMD : Nat := 0x41100010
def PTP_SNAP_CMD : Nat := 0x41100014
def PTP_SNAP_LT_LO : Nat := 0x41100020
def PTP_SNAP_LT_HI : Nat := 0x41100024
def PTP_SNAP_WT_LO : Nat := 0x41100028
def PTP_SNAP_WT_HI : Nat := 0x4110002C
def PTP_SNAP_DT0_LO : Nat := 0x41100030
def PTP_SNAP_DT0_HI : Nat := 0x41100034
def PTP_SNAP_DT1_LO : Nat := 0x41100038
def PTP_SNAP_DT1_HI : Nat := 0x4110003C
def PTP_IRQ_EN : Nat := 0x41100040
def PTP_IRQ_STATUS : Nat := 0x41100044
def PTP_TAG_DROP_CNT : Nat := 0x41100048
def PTP_RES_DROP_CNT : Nat := 0x4110004C
def PTP_JOIN_CNT : Nat := 0x41100050
def PTP_DOM_CFG (i : Nat) : Nat := 0x41100100 + 0x40 * i
def PTP_DOM_PORTS (i : Nat) : Nat := 0x41100104 + 0x40 * i
def PTP_DOM_SERVO (i : Nat) : Nat := 0x41100108 + 0x40 * i
def PTP_DOM_STATE (i : Nat) : Nat := 0x4110010C + 0x40 * i
def PTP_DOM_RATE (i : Nat) : Nat := 0x41100110 + 0x40 * i
def PTP_DOM_RR (i : Nat) : Nat := 0x41100114 + 0x40 * i
def PTP_DOM_STEP_LO (i : Nat) : Nat := 0x41100118 + 0x40 * i
def PTP_DOM_STEP_HI (i : Nat) : Nat := 0x4110011C + 0x40 * i
def PTP_PORT_TRIM (i : Nat) : Nat := 0x41100400 + 0x10 * i
def PTP_PORT_LINK_DELAY (i : Nat) : Nat := 0x41100404 + 0x10 * i
def PTP_PORT_CONST (i : Nat) : Nat := 0x41100408 + 0x10 * i
def PTP_TXQ_STATUS (i : Nat) : Nat := 0x41100800 + 0x20 * i
def PTP_TXQ_ID (i : Nat) : Nat := 0x41100804 + 0x20 * i
def PTP_TXQ_TS_LO (i : Nat) : Nat := 0x41100808 + 0x20 * i
def PTP_TXQ_TS_HI (i : Nat) : Nat := 0x4110080C + 0x20 * i
def PTP_TXQ_POP (i : Nat) : Nat := 0x41100810 + 0x20 * i
def PTP_TXQ_IRQ_EN (i : Nat) : Nat := 0x41100814 + 0x20 * i
def PTP_TXQ_DROP_CNT (i : Nat) : Nat := 0x41100818 + 0x20 * i
def PTP_TOUT_CFG (i : Nat) : Nat := 0x41100A00 + 0x20 * i
def PTP_TOUT_START_LO (i : Nat) : Nat := 0x41100A04 + 0x20 * i
def PTP_TOUT_START_HI (i : Nat) : Nat := 0x41100A08 + 0x20 * i
def PTP_TOUT_PERIOD (i : Nat) : Nat := 0x41100A0C + 0x20 * i
def PTP_TOUT_WIDTH (i : Nat) : Nat := 0x41100A10 + 0x20 * i
def PTP_TOUT_IRQ_EN (i : Nat) : Nat := 0x41100A14 + 0x20 * i
def PTP_TOUT_IRQ_STATUS (i : Nat) : Nat := 0x41100A18 + 0x20 * i
def PTP_TIN_CFG (i : Nat) : Nat := 0x41100C00 + 0x20 * i
def PTP_TIN_LEVEL (i : Nat) : Nat := 0x41100C04 + 0x20 * i
def PTP_TIN_TS_LO (i : Nat) : Nat := 0x41100C08 + 0x20 * i
def PTP_TIN_TS_HI (i : Nat) : Nat := 0x41100C0C + 0x20 * i
def PTP_TIN_POP (i : Nat) : Nat := 0x41100C10 + 0x20 * i
def PTP_TIN_DROP_CNT (i : Nat) : Nat := 0x41100C14 + 0x20 * i
def PTP_TIN_IRQ_EN (i : Nat) : Nat := 0x41100C18 + 0x20 * i
def PTP_TIN_IRQ_STATUS (i : Nat) : Nat := 0x41100C1C + 0x20 * i
def MBUS_CFG (i : Nat) : Nat := 0x41300000 + 0x10000 * i
def MBUS_NBT (i : Nat) : Nat := 0x41300004 + 0x10000 * i
def MBUS_DBT (i : Nat) : Nat := 0x41300008 + 0x10000 * i
def MBUS_CTRL (i : Nat) : Nat := 0x4130000C + 0x10000 * i
def MBUS_CMD (i : Nat) : Nat := 0x41300010 + 0x10000 * i
def MBUS_STATUS (i : Nat) : Nat := 0x41300014 + 0x10000 * i
def MBUS_ERR_CNT (i : Nat) : Nat := 0x41300018 + 0x10000 * i
def MBUS_RX_FRAME_CNT (i : Nat) : Nat := 0x41300020 + 0x10000 * i
def MBUS_TX_FRAME_CNT (i : Nat) : Nat := 0x41300024 + 0x10000 * i
def MBUS_ERR_FRAME_CNT (i : Nat) : Nat := 0x41300028 + 0x10000 * i
def MBUS_BUSOFF_CNT (i : Nat) : Nat := 0x4130002C + 0x10000 * i
def MBUS_RX_NOMATCH_CNT (i : Nat) : Nat := 0x41300030 + 0x10000 * i
def MBUS_H_DROP_CNT (i : Nat) : Nat := 0x41300034 + 0x10000 * i
def MBUS_IRQ_EN (i : Nat) : Nat := 0x41300040 + 0x10000 * i
def MBUS_IRQ_STATUS (i : Nat) : Nat := 0x41300044 + 0x10000 * i
def MBUS_QUEUE_EVENT (i : Nat) : Nat := 0x41300048 + 0x10000 * i
def MBUS_H_STATUS (i : Nat) : Nat := 0x4130004C + 0x10000 * i
def MBUS_RXQ_BASE_LO (i j : Nat) : Nat := 0x41300100 + 0x10000 * i + 0x20 * j
def MBUS_RXQ_BASE_HI (i j : Nat) : Nat := 0x41300104 + 0x10000 * i + 0x20 * j
def MBUS_TXQ_BASE_LO (i j : Nat) : Nat := 0x41300200 + 0x10000 * i + 0x20 * j
def MBUS_TXQ_BASE_HI (i j : Nat) : Nat := 0x41300204 + 0x10000 * i + 0x20 * j
def MBUS_RXQ_SIZE (i j : Nat) : Nat := 0x41300108 + 0x10000 * i + 0x20 * j
def MBUS_TXQ_SIZE (i j : Nat) : Nat := 0x41300208 + 0x10000 * i + 0x20 * j
def MBUS_RXQ_CTRL (i j : Nat) : Nat := 0x4130010C + 0x10000 * i + 0x20 * j
def MBUS_RXQ_STATUS (i j : Nat) : Nat := 0x41300110 + 0x10000 * i + 0x20 * j
def MBUS_RXQ_ACK (i j : Nat) : Nat := 0x41300114 + 0x10000 * i + 0x20 * j
def MBUS_RXQ_DROP_CNT (i j : Nat) : Nat := 0x41300118 + 0x10000 * i + 0x20 * j
def MBUS_TXQ_HEAD (i j : Nat) : Nat := 0x4130020C + 0x10000 * i + 0x20 * j
def MBUS_TXQ_TAIL (i j : Nat) : Nat := 0x41300210 + 0x10000 * i + 0x20 * j
def MBUS_TXQ_CTRL (i j : Nat) : Nat := 0x41300214 + 0x10000 * i + 0x20 * j
def MBUS_TXQ_BUDGET (i j : Nat) : Nat := 0x41300218 + 0x10000 * i + 0x20 * j
def MBUS_XCVR_CTRL (i : Nat) : Nat := 0x41300300 + 0x10000 * i
def MBUS_XCVR_STATUS (i : Nat) : Nat := 0x41300304 + 0x10000 * i
def MBUS_WUF_ID (i : Nat) : Nat := 0x41300310 + 0x10000 * i
def MBUS_WUF_ID_MASK (i : Nat) : Nat := 0x41300314 + 0x10000 * i
def MBUS_WUF_DLC (i : Nat) : Nat := 0x41300318 + 0x10000 * i
def MBUS_WUF_DATA_LO (i : Nat) : Nat := 0x4130031C + 0x10000 * i
def MBUS_WUF_DATA_HI (i : Nat) : Nat := 0x41300320 + 0x10000 * i
def MBUS_WUF_MASK_LO (i : Nat) : Nat := 0x41300324 + 0x10000 * i
def MBUS_WUF_MASK_HI (i : Nat) : Nat := 0x41300328 + 0x10000 * i
def MBUS_WUF_ERR (i : Nat) : Nat := 0x4130032C + 0x10000 * i
def MBUS_FLT_CFG (i j : Nat) : Nat := 0x41308000 + 0x10000 * i + 0x10 * j
def MBUS_FLT_ID (i j : Nat) : Nat := 0x41308004 + 0x10000 * i + 0x10 * j
def MBUS_FLT_MASK (i j : Nat) : Nat := 0x41308008 + 0x10000 * i + 0x10 * j
def MBUS_FLT_HIT_CNT (i j : Nat) : Nat := 0x4130800C + 0x10000 * i + 0x10 * j
def LIN_CFG (i : Nat) : Nat := 0x41400000 + 0x1000 * i
def LIN_CTRL (i : Nat) : Nat := 0x41400004 + 0x1000 * i
def LIN_CMD (i : Nat) : Nat := 0x41400008 + 0x1000 * i
def LIN_STATUS (i : Nat) : Nat := 0x4140000C + 0x1000 * i
def LIN_IRQ_EN (i : Nat) : Nat := 0x41400010 + 0x1000 * i
def LIN_IRQ_STATUS (i : Nat) : Nat := 0x41400014 + 0x1000 * i
def LIN_ERR_CNT (i : Nat) : Nat := 0x41400018 + 0x1000 * i
def LIN_SKIP_CNT (i : Nat) : Nat := 0x4140001C + 0x1000 * i
def LIN_SLOT (i j k : Nat) : Nat := 0x41400400 + 0x1000 * i + 0x100 * j + 0x4 * k
def LIN_FRAME_CFG (i j : Nat) : Nat := 0x41400800 + 0x1000 * i + 0x10 * j
def LIN_FRAME_STATUS (i j : Nat) : Nat := 0x41400804 + 0x1000 * i + 0x10 * j
def LIN_FRAME_DATA_LO (i j : Nat) : Nat := 0x41400808 + 0x1000 * i + 0x10 * j
def LIN_FRAME_DATA_HI (i j : Nat) : Nat := 0x4140080C + 0x1000 * i + 0x10 * j
def SENT_CFG (i : Nat) : Nat := 0x41410000 + 0x100 * i
def SENT_FAST (i : Nat) : Nat := 0x41410004 + 0x100 * i
def SENT_SLOW (i : Nat) : Nat := 0x41410008 + 0x100 * i
def SENT_STATUS (i : Nat) : Nat := 0x4141000C + 0x100 * i
def SENT_IRQ_EN (i : Nat) : Nat := 0x41410010 + 0x100 * i
def SENT_IRQ_STATUS (i : Nat) : Nat := 0x41410014 + 0x100 * i
def SENT_ERR_CNT (i : Nat) : Nat := 0x41410018 + 0x100 * i
def NM_STATUS : Nat := 0x41500000
def NM_LOG_STATUS : Nat := 0x41500004
def NM_LOG_DROP_CNT : Nat := 0x41500008
def NM_BAD_MSG_CNT : Nat := 0x4150000C
def NM_IRQ_EN : Nat := 0x41500010
def NM_IRQ_STATUS : Nat := 0x41500014
def NM_LOG_CLEAR : Nat := 0x41500018
def NM_SEG_CFG (i : Nat) : Nat := 0x41500100 + 0x40 * i
def NM_SEG_TIMING (i : Nat) : Nat := 0x41500104 + 0x40 * i
def NM_SEG_MSG (i : Nat) : Nat := 0x41500108 + 0x40 * i
def NM_SEG_CTRL (i : Nat) : Nat := 0x4150010C + 0x40 * i
def NM_SEG_USER_LO (i : Nat) : Nat := 0x41500110 + 0x40 * i
def NM_SEG_USER_HI (i : Nat) : Nat := 0x41500114 + 0x40 * i
def NM_SEG_STATUS (i : Nat) : Nat := 0x41500118 + 0x40 * i
def NM_SEG_MAP_LO (i : Nat) : Nat := 0x4150011C + 0x40 * i
def NM_SEG_MAP_HI (i : Nat) : Nat := 0x41500120 + 0x40 * i
def NM_SEG_IRQ_EN (i : Nat) : Nat := 0x41500124 + 0x40 * i
def NM_SEG_IRQ_STATUS (i : Nat) : Nat := 0x41500128 + 0x40 * i
def NM_SEG_RESTART_CNT (i : Nat) : Nat := 0x4150012C + 0x40 * i
def NM_SEG_ISO_DROP_CNT (i : Nat) : Nat := 0x41500130 + 0x40 * i
def NM_LOG_HDR (i : Nat) : Nat := 0x41501000 + 0x20 * i
def NM_LOG_START (i : Nat) : Nat := 0x41501004 + 0x20 * i
def NM_LOG_DUR (i : Nat) : Nat := 0x41501008 + 0x20 * i
def NM_LOG_ID (i : Nat) : Nat := 0x4150100C + 0x20 * i
def NM_LOG_DATA_LO (i : Nat) : Nat := 0x41501010 + 0x20 * i
def NM_LOG_DATA_HI (i : Nat) : Nat := 0x41501014 + 0x20 * i
def GWY_STATUS : Nat := 0x41600000
def GWY_ETH_TYPE : Nat := 0x41600004
def GWY_ETH_SRC_LO : Nat := 0x41600008
def GWY_ETH_SRC_HI : Nat := 0x4160000C
def GWY_TBL_CMD : Nat := 0x41600010
def GWY_TBL_RESULT : Nat := 0x41600014
def GWY_TBL_DATA (i : Nat) : Nat := 0x41600020 + 0x4 * i
def GWY_TBL_STAT : Nat := 0x4160003C
def GWY_IRQ_EN : Nat := 0x41600040
def GWY_IRQ_STATUS : Nat := 0x41600044
def GWY_SAT_CNT : Nat := 0x41600048
def GWY_TIMEOUT_CNT : Nat := 0x4160004C
def GWY_REL_DROP_CNT : Nat := 0x41600050
def GWY_RX_DROP_CNT : Nat := 0x41600054
def GWY_LANE_DUE (i : Nat) : Nat := 0x41600100 + 0x10 * i
def GWY_LANE_USED (i : Nat) : Nat := 0x41600104 + 0x10 * i
def GWY_LANE_PEAK (i : Nat) : Nat := 0x41600108 + 0x10 * i
def GWY_ETH_DST_LO (i : Nat) : Nat := 0x41600200 + 0x8 * i
def GWY_ETH_DST_HI (i : Nat) : Nat := 0x41600204 + 0x8 * i
def GWY_BOUT_A (i j : Nat) : Nat := 0x41608000 + 0x100 * i + 0x4 * j
def GWY_BOUT_B (i j : Nat) : Nat := 0x4160C000 + 0x100 * i + 0x4 * j
def LATH_CTRL (i : Nat) : Nat := 0x400C0000 + 0x100 * i
def LATH_STATUS (i : Nat) : Nat := 0x400C0004 + 0x100 * i
def LATH_IRQ_EN (i : Nat) : Nat := 0x400C0008 + 0x100 * i
def LATH_IRQ_STATUS (i : Nat) : Nat := 0x400C000C + 0x100 * i
def LATH_TIMEOUT_CNT (i : Nat) : Nat := 0x400C0010 + 0x100 * i
def LATH_LATE_CNT (i : Nat) : Nat := 0x400C0014 + 0x100 * i
def LATH_WR_ERR_CNT (i : Nat) : Nat := 0x400C0018 + 0x100 * i
def LATH_GONE_CNT (i : Nat) : Nat := 0x400C001C + 0x100 * i
def LATH_REPLAY_CNT (i : Nat) : Nat := 0x400C0020 + 0x100 * i
def LATH_SIDE_CNT (i : Nat) : Nat := 0x400C0024 + 0x100 * i
def LATH_LOCK_CNT (i : Nat) : Nat := 0x400C0028 + 0x100 * i
def LATH_XREJ_CNT (i : Nat) : Nat := 0x400C002C + 0x100 * i
def LATH_ERR_ADDR (i : Nat) : Nat := 0x400C0030 + 0x100 * i
def LATH_SIDE_ADDR (i : Nat) : Nat := 0x400C0034 + 0x100 * i
def LATH_SIDE_INIT (i : Nat) : Nat := 0x400C0038 + 0x100 * i
def LATH_CHAN_OWNER (i j : Nat) : Nat := 0x400C0040 + 0x100 * i + 0x4 * j
def FAB_STATUS : Nat := 0x400B0000
def FAB_VIOL_ADDR_LO : Nat := 0x400B0004
def FAB_VIOL_ADDR_HI : Nat := 0x400B0008
def FAB_VIOL_INIT : Nat := 0x400B000C
def FAB_VIOL_CNT : Nat := 0x400B0010
def FAB_IRQ_EN : Nat := 0x400B0014
def FAB_IRQ_STATUS : Nat := 0x400B0018
def FAB_INIT_GROUP (i : Nat) : Nat := 0x400B0100 + 0x4 * i
def FAB_QOS_CFG (i : Nat) : Nat := 0x400B0500 + 0x8 * i
def FAB_QOS_BW (i : Nat) : Nat := 0x400B0504 + 0x8 * i
def FAB_PART_CTRL : Nat := 0x400B0600
def FAB_PART_STATUS (i : Nat) : Nat := 0x400B0700 + 0x4 * i
def IRQ_SRC_CFG (i : Nat) : Nat := 0x400A1000 + 0x4 * i
def IRQ_PEND (i : Nat) : Nat := 0x400A0100 + 0x4 * i
def IRQ_CLAIM (i : Nat) : Nat := 0x400A0400 + 0x8 * i
def IRQ_EOI (i : Nat) : Nat := 0x400A0404 + 0x8 * i
def MEM_STATUS : Nat := 0x400D0000
def MEM_CE_CNT (i : Nat) : Nat := 0x400D0010 + 0x8 * i
def MEM_UE_CNT (i : Nat) : Nat := 0x400D0014 + 0x8 * i
def MEM_UE_ADDR_LO : Nat := 0x400D0050
def MEM_UE_ADDR_HI : Nat := 0x400D0054
def MEM_IRQ_EN : Nat := 0x400D0058
def MEM_IRQ_STATUS : Nat := 0x400D005C
def MEM_XSPI_CMD : Nat := 0x400D0080
def MEM_XSPI_ADDR : Nat := 0x400D0084
def MEM_XSPI_DATA (i : Nat) : Nat := 0x400D0100 + 0x4 * i
def CHK_CFG (i : Nat) : Nat := 0x40090000 + 0x1000 * i
def CHK_CTRL (i : Nat) : Nat := 0x40090004 + 0x1000 * i
def CHK_CMD (i : Nat) : Nat := 0x40090008 + 0x1000 * i
def CHK_STATUS (i : Nat) : Nat := 0x4009000C + 0x1000 * i
def CHK_REACT (i : Nat) : Nat := 0x40090010 + 0x1000 * i
def CHK_FAULT_INFO (i : Nat) : Nat := 0x40090014 + 0x1000 * i
def CHK_FAULT_PC_LO (i : Nat) : Nat := 0x40090018 + 0x1000 * i
def CHK_FAULT_PC_HI (i : Nat) : Nat := 0x4009001C + 0x1000 * i
def CHK_LANES (i : Nat) : Nat := 0x40090020 + 0x1000 * i
def CHK_PLUMB (i : Nat) : Nat := 0x40090024 + 0x1000 * i
def CHK_MISMATCH_CNT (i : Nat) : Nat := 0x40090030 + 0x1000 * i
def CHK_REPLAY_OK_CNT (i : Nat) : Nat := 0x40090034 + 0x1000 * i
def CHK_CHECKER_CNT (i : Nat) : Nat := 0x40090038 + 0x1000 * i
def CHK_PLUMB_SKIP_CNT (i : Nat) : Nat := 0x4009003C + 0x1000 * i
def CHK_IRQ_EN (i : Nat) : Nat := 0x40090040 + 0x1000 * i
def CHK_IRQ_STATUS (i : Nat) : Nat := 0x40090044 + 0x1000 * i
def BENT_STATUS : Nat := 0x40080000
def BENT_CFG : Nat := 0x40080004
def BENT_CMD : Nat := 0x40080008
def BENT_FAIL_INFO : Nat := 0x4008000C
def BENT_OWNER_LO : Nat := 0x40080010
def BENT_OWNER_HI : Nat := 0x40080014
def BENT_SWITCH_TICK : Nat := 0x40080018
def BENT_IRQ_EN : Nat := 0x4008001C
def BENT_IRQ_STATUS : Nat := 0x40080020
def BENT_SWITCH_CNT : Nat := 0x40080024
def BENT_DROP_CNT : Nat := 0x40080028
def BENT_SHADOW_DROP_CNT : Nat := 0x4008002C
def BENT_DIVERGE_CNT : Nat := 0x40080030
def BENT_DUTY (i : Nat) : Nat := 0x40080100 + 0x4 * i
def WORLD_STATUS : Nat := 0x40060000
def WORLD_IRQ_EN : Nat := 0x40060004
def WORLD_IRQ_STATUS : Nat := 0x40060008
def WORLD_VIOL_ADDR_LO : Nat := 0x4006000C
def WORLD_VIOL_ADDR_HI : Nat := 0x40060010
def WORLD_VIOL_INIT : Nat := 0x40060014
def WORLD_VIOL_CNT : Nat := 0x40060018
def WORLD_PEG_FAULT_CNT : Nat := 0x4006001C
def WORLD_TIMEOUT_CNT : Nat := 0x40060020
def WORLD_CLAIM (i : Nat) : Nat := 0x40060040 + 0x4 * i
def WORLD_CLAIM_LEFT (i : Nat) : Nat := 0x40060050 + 0x4 * i
def WORLD_HW_CFG (i : Nat) : Nat := 0x40060100 + 0x10 * i
def WORLD_HW_STATE (i : Nat) : Nat := 0x40060104 + 0x10 * i
def WORLD_HW_READY (i : Nat) : Nat := 0x40060108 + 0x10 * i
def WORLD_PEG_LO (i : Nat) : Nat := 0x40060400 + 0x10 * i
def WORLD_PEG_HI (i : Nat) : Nat := 0x40060404 + 0x10 * i
def WORLD_PEG_SIZE (i : Nat) : Nat := 0x40060408 + 0x10 * i
def WORLD_DBG_STATUS : Nat := 0x40060800
def WORLD_DBG_REQ : Nat := 0x40060804
def WORLD_DBG_LOCK : Nat := 0x40060808
def WORLD_DBG_NONCE (i : Nat) : Nat := 0x40060810 + 0x4 * i
def WORLD_DBG_RESP (i : Nat) : Nat := 0x40060820 + 0x4 * i
def VDEV_STATUS : Nat := 0x40070000
def VDEV_REDIV : Nat := 0x40070004
def VDEV_REDIV_AMOUNT : Nat := 0x40070008
def VDEV_REDIV_RESULT : Nat := 0x4007000C
def VDEV_SCARF_KEY : Nat := 0x40070010
def VDEV_INST_CFG (i : Nat) : Nat := 0x40071000 + 0x100 * i
def VDEV_INST_STATE (i : Nat) : Nat := 0x40071004 + 0x100 * i
def VDEV_INST_CMD (i : Nat) : Nat := 0x40071008 + 0x100 * i
def VDEV_INST_RESULT (i : Nat) : Nat := 0x4007100C + 0x100 * i
def VDEV_INST_ADDR_LO (i : Nat) : Nat := 0x40071010 + 0x100 * i
def VDEV_INST_ADDR_HI (i : Nat) : Nat := 0x40071014 + 0x100 * i
def VDEV_LATE_CNT (i : Nat) : Nat := 0x40071018 + 0x100 * i
def VDEV_DRAIN_CNT (i : Nat) : Nat := 0x4007101C + 0x100 * i
def VDEV_GWY_DATA (i j : Nat) : Nat := 0x40071020 + 0x100 * i + 0x4 * j
def VDEV_VEC_HELD (i : Nat) : Nat := 0x4007103C + 0x100 * i
def VDEV_RES_KIND (i j : Nat) : Nat := 0x40071040 + 0x100 * i + 0x8 * j
def VDEV_RES_AMOUNT (i j : Nat) : Nat := 0x40071044 + 0x100 * i + 0x8 * j
def VDEV_EVT (i j : Nat) : Nat := 0x400710C0 + 0x100 * i + 0x4 * j
def KEY_STATUS : Nat := 0x40040000
def KEY_UID (i : Nat) : Nat := 0x40040010 + 0x4 * i
def KEY_ID_HASH (i : Nat) : Nat := 0x40040020 + 0x4 * i
def KEY_COUNTER : Nat := 0x40040040
def KEY_TRUSS_FLOOR : Nat := 0x40040044
def KEY_SLOT_MAP_LO : Nat := 0x40040048
def KEY_SLOT_MAP_HI : Nat := 0x4004004C
def KEY_SUBMIT : Nat := 0x40040050
def KEY_SVC_CFG : Nat := 0x40040054
def KEY_IRQ_EN : Nat := 0x40040058
def KEY_IRQ_STATUS : Nat := 0x4004005C
def KEY_OPEN_FAIL_CNT : Nat := 0x40040060
def KEY_KU_REJECT_CNT : Nat := 0x40040064
def KEY_SLOT_INFO (i : Nat) : Nat := 0x40040100 + 0x8 * i
def KEY_SLOT_OWNER (i : Nat) : Nat := 0x40040104 + 0x8 * i
def KEY_SESSION (i : Nat) : Nat := 0x40040400 + 0x4 * i
def UPD_STATUS : Nat := 0x40050000
def UPD_CMD : Nat := 0x40050004
def UPD_SRC_LO : Nat := 0x40050008
def UPD_SRC_HI : Nat := 0x4005000C
def UPD_OFFSET : Nat := 0x40050010
def UPD_LEN : Nat := 0x40050014
def UPD_RESULT : Nat := 0x40050018
def UPD_DETAIL : Nat := 0x4005001C
def UPD_CFG : Nat := 0x40050020
def UPD_SVC_CFG : Nat := 0x40050024
def UPD_IRQ_EN : Nat := 0x40050028
def UPD_IRQ_STATUS : Nat := 0x4005002C
def UPD_PART_STATUS (i : Nat) : Nat := 0x40050100 + 0x10 * i
def UPD_HANDOFF_LO (i : Nat) : Nat := 0x40050104 + 0x10 * i
def UPD_HANDOFF_HI (i : Nat) : Nat := 0x40050108 + 0x10 * i
def UPD_CONFIRM (i : Nat) : Nat := 0x4005010C + 0x10 * i

end Rg

end Sys2Proof.Machine
end

