-- ==== Sys2Proof/Machine/State.lean ====
section
/-! DEFINITION. The state of the MZ4820 as plain data: the register file, the memories, the engines of every
unit, the queue of waiting commands, and the state right after a power-on with loss of the sill domain. -/

namespace Sys2Proof.Machine

/-- Reasons at which the machine stops with a fault. -/
inductive Fault where
  /-- KL30 above 40 V (R82, R483): outside the ratings, the spec specifies no behaviour. Raised by
  KL30_LEVEL_CHANGE alone. Safe: nothing is claimed of the module from there on. -/
  | outsideRatings
  deriving DecidableEq, Repr

/-- Reasons for which a command is refused. -/
inductive Refusal where
  /-- The command has no meaning in this model yet; raised by `exec`'s refused arms only. Safe. -/
  | notModelled (mnemonic : String)
  deriving DecidableEq, Repr

/-- One staged write of RW/T fields (R29 to R33). -/
structure Stg where
  /-- register or window address as written -/
  addr : Nat
  /-- bits of RW/T fields that the write carries and that were not rejected (R7, R30) -/
  mask : Nat
  val : Nat
  /-- initiator (R356) -/
  init : Nat
  /-- partition that issued the write, for R39 and R69 -/
  part : Option Nat := none
  /-- number of edges still to pass before the edge of its commit: 0 at the next edge, 1 after a late write (R32) -/
  wait : Nat := 0
  /-- issued in a tick before the running one (a late write, R32) -/
  past : Bool := false
  /-- written by the loader in a live application: exempt from R32 and from epoch gating (R68) -/
  live : Bool := false
  /-- the reset of its block has asserted since: dropped at the next commit (R101); for a LOAD window, its members whose
  reset has (R145) -/
  gone : Bool := false
  cut : List Nat := []
  /-- tags by duty: duty, bent, epoch at acceptance (R133, R148) -/
  tags : List (Nat × Nat × Nat) := []
  /-- members of a LOAD window that the writer may reach (R64, R132) -/
  members : List Nat := []
  deriving DecidableEq, Repr

/-- Staged writes of the three dies and the far commits under way (R33, R34). -/
structure StageSt where
  /-- pending RW/T writes of C-die registers, oldest first -/
  c : List Stg := []
  /-- staging queue of link CL, at most 1,024 entries -/
  l : List Stg := []
  /-- staging queue of link CP, at most 256 entries -/
  p : List Stg := []
  /-- shadow registers of the L-die waiting for the commit strobe -/
  shadowL : Option (List Stg) := none
  /-- shadow registers of the P-die waiting for the commit strobe -/
  shadowP : Option (List Stg) := none
  /-- dies (1 L-die, 2 P-die) whose acknowledgement of the running commit is outstanding -/
  ackWait : List Nat := []
  deriving DecidableEq, Repr

/-- The TICK unit beside its registers (R35 to R41). -/
structure TickSt where
  /-- clients due in the running tick -/
  due : List Nat := []
  /-- due clients that are done -/
  done : List Nat := []
  /-- due clients in overrun -/
  ovr : List Nat := []
  /-- clients whose pulsed block reset runs (R40) -/
  pulses : List Nat := []
  /-- partitions whose RW/T writes of this tick are dropped at the commit (R39) -/
  drop : List Nat := []
  /-- length of the running tick in fabric cycles of 1.25 ns; before the first edge, the cycles from the start of the tick to it -/
  len : Nat := 0
  /-- local time of the last edge in ns, and the quarters of a ns beyond it (R21) -/
  edgeLt : Nat := 0
  edgeFr : Nat := 0
  /-- the first edge since the reset has occurred (R41) -/
  started : Bool := false
  deriving DecidableEq, Repr

/-- One record of a truss image section (R48): its section table index, its index, kind and whole bytes. -/
structure Rec where
  sec : Nat
  idx : Nat
  kind : Nat
  bytes : List Byte
  deriving DecidableEq, Repr

/-- One section of an image: type, live flag, digest and records (R45, R46). -/
structure Sect where
  typ : Nat
  live : Bool
  digest : List Byte
  recs : List Rec
  deriving DecidableEq, Repr

/-- A parsed truss image (R43, R44). -/
structure Image where
  hdr : List Byte
  sects : List Sect
  /-- the SHA3-512 digest of R53 that the signature block carries -/
  dig : List Byte := []
  deriving DecidableEq, Repr

/-- One claim of a resource (R58): class, index, owner code, pin function, and the claiming record. -/
structure Claim where
  cls : Nat
  idx : Nat
  owner : Nat
  fn : Nat := 0
  sec : Nat := 0
  recIdx : Nat := 0
  deriving DecidableEq, Repr

/-- A live application under way (R66 to R70). -/
structure LiveJob where
  slot : Nat
  delay : Nat
  /-- edges passed since the checks completed -/
  edges : Nat := 0
  deferrals : Nat := 0
  /-- the copy of the slot under verification (R56) -/
  copy : List Byte := []
  /-- the accepted image, once the checks are complete -/
  img : Option Image := none
  /-- the staged values wait for the edge (state STAGED) -/
  staged : Bool := false
  /-- the kerf start of this tick has passed -/
  tried : Bool := false
  deriving DecidableEq, Repr

/-- Rest value of one channel in the NV latch (R71). -/
structure RestEnt where
  disp : Nat := 0
  rest : Nat := 0
  duty : Nat := 0
  period : Nat := 0
  hold : Nat := 0
  deriving DecidableEq, Repr

/-- One copy of the NV latch on the P-die (R71, R72); `good` says that its CRC-32 is correct. -/
structure LatchCopy where
  seq : Nat := 0
  good : Bool := false
  pat : List RestEnt := []
  deriving DecidableEq, Repr

/-- The NV latch and a hand-off under way (R71 to R73). -/
structure LatchSt where
  copy0 : LatchCopy := {}
  copy1 : LatchCopy := {}
  /-- pattern handed off and not yet written -/
  handoff : Option (List RestEnt) := none
  /-- failed verifications of the write under way -/
  tries : Nat := 0
  deriving DecidableEq, Repr

/-- A memory region in force (R362). -/
structure Region where
  base : Nat
  size : Nat
  owner : Nat
  read : Bool
  write : Bool
  exec : Bool
  /-- READ_SENSITIVE (R349) -/
  sensitive : Bool
  shared : Bool
  heartOnly : Bool
  deriving DecidableEq, Repr

/-- The truss loader's state beside its registers. -/
structure TrussSt where
  /-- memory regions in force -/
  regions : List Region := []
  /-- pins in force: ball, function, electrical byte, owner -/
  pins : List (Nat × Nat × Nat × Nat) := []
  /-- the running image -/
  image : Option Image := none
  /-- ownership tables in force (R58, R69) -/
  claims : List Claim := []
  live : Option LiveJob := none
  latch : LatchSt := {}
  /-- the CAL set checked as valid at this start (R76) -/
  calValid : Bool := false
  deriving DecidableEq, Repr

/-- An entry for the update journal (R79, R480). -/
structure JEntry where
  code : Nat
  arg0 : Nat := 0
  arg1 : Nat := 0
  arg2 : Nat := 0
  deriving DecidableEq, Repr

/-- Supply levels of table R82. -/
inductive Kl30 where
  | off | retain | low | normal | high | overvolt
  deriving DecidableEq, Repr

/-- Drivers of NRESET (R94, R97, R98). -/
inductive Driver where
  /-- internal request of the given cause code, driven for the given microseconds -/
  | request (cause us : Nat)
  /-- supply hold of the given cause code -/
  | hold (cause : Nat)
  /-- BIST hold or the logic BIST of a shutdown, start-time BIST or retest (R97, R115, R118, R125) -/
  | bist
  /-- an external driver -/
  | ext
  /-- sill domain in Sleep, Dormant or before the release of a start -/
  | sill
  deriving DecidableEq, Repr

/-- Reach applied to the running NRESET pulse (R95). -/
inductive Reach where
  | none | warm | cold | powerOn
  deriving DecidableEq, Repr

/-- Power modes beside RSTC_MODE (R88): what is powered. -/
inductive PMode where
  | off | run | sleep | dormant
  deriving DecidableEq, Repr

/-- What a running logic BIST is for (R118). -/
inductive BistWhy where
  | shutdown | command | startTime | retest
  deriving DecidableEq, Repr

/-- Steps of the shutdown sequence of table R91. -/
inductive Shut where
  | none
  /-- step 1 done; the Nat is the target mode command, 3 SLEEP or 4 DORMANT -/
  | started (cmd : Nat)
  | stopped (cmd : Nat)
  | noReturn (cmd : Nat)
  deriving DecidableEq, Repr

/-- The reset and supply engine of the P-die main domain and the C-die's reset controller. -/
structure RstSt where
  pmode : PMode := .off
  /-- KL30 class -/
  kl30 : Kl30 := .off
  /-- KL30 was above 28 V and has not stayed below 27 V for 1 ms (R82); `ovpEdge`: it has, wait for the edge -/
  ovp : Bool := false
  ovpEdge : Bool := false
  /-- post A, post B low (R83), and the recoveries that wait for an edge -/
  lowA : Bool := false
  lowB : Bool := false
  lowAEdge : Bool := false
  lowBEdge : Bool := false
  /-- rails of table R84 outside their window -/
  railBad : List Nat := []
  refAbsent : Bool := false
  overtemp : Bool := false
  /-- drivers that hold NRESET low now, and whether the pin is low -/
  drivers : List Driver := []
  low : Bool := true
  reach : Reach := .powerOn
  /-- first cause of the running reset (R108) -/
  cause : Option Nat := some 0
  /-- the pin stayed low after every MZ4820 driver of this reset let go (R109) -/
  ext : Bool := false
  /-- C-die, L-die held by NRESET or not yet released (R105) -/
  cReset : Bool := true
  lReset : Bool := true
  /-- last completed step of table R112 or R117 (BIST_START_STATUS code) once a start runs -/
  step : Nat := 0
  warmStart : Bool := false
  /-- held elements of RSTC_ELEM_RST: unit, index -/
  elems : List (Nat × Nat) := []
  /-- pulsed resets of R127 and R40 under way: level code 0 die, 1 unit, 2 element; unit or die; index -/
  pulsed : List (Nat × Nat × Nat) := []
  /-- BIST partitions held since the start (R123) -/
  bistHeld : List Nat := []
  /-- the boot core of this start by initiator ID: the tenon context of safe core 0, or of safe core 3 (R112) -/
  bootCore : Option Nat := none
  /-- reactions of the SAFETY section that was in force when the running reset asserted: code, reaction (R128) -/
  react : List (Nat × Nat) := []
  /-- mode command that waits for the edge, with its force flag (R89) -/
  modeCmd : Option (Nat × Bool) := none
  /-- units gated in Doze, by bit of RSTC_DOZE_MASK -/
  gated : List Nat := []
  /-- units selected at the DOZE edge that a claim still keeps from being gated (R90) -/
  dozeWait : List Nat := []
  shut : Shut := .none
  /-- local time of the edge that started the shutdown -/
  shutLt : Nat := 0
  /-- a cancelled shutdown returns to Run at the next edge (R92) -/
  wakeCancel : Bool := false
  /-- a logic BIST runs, with the partitions still to test -/
  bist : Option (BistWhy × List Nat) := none
  /-- a retest failed: NRESET and REG_EN stay low until sill loss (R125) -/
  dead : Bool := false
  retested : Bool := false
  regEn : Bool := false
  /-- watchdog counts: edges since the last kick -/
  wdt : List (Nat × Nat) := []
  /-- the supervisor restarts after a die reset of the P-die (R99) -/
  supRestart : Bool := false
  deriving DecidableEq, Repr

/-- The BIST result map of table R121; `crc` is the stored CRC-32 over words 0 to 7. -/
structure BistMap where
  magic : Nat := 0
  seq : Nat := 0
  stop : Nat := 0
  dur : Nat := 0
  /-- results of partitions 0 to 37 -/
  res : List Nat := List.replicate 38 0
  starts : Nat := 0
  crc : Nat := 0
  deriving DecidableEq, Repr

/-- The sill domain (R81, R102). -/
structure SillSt where
  alive : Bool := false
  warmOk : Bool := false
  /-- counters of table R108 -/
  rcnt : List Nat := List.replicate 16 0
  map : BistMap := {}
  /-- consecutive failed cold starts (R115) -/
  fails : Nat := 0
  /-- RSTC_SAFE_RESET -/
  safeCode : Nat := 0
  safeArg : Nat := 0
  /-- wake settings copied at shutdown (R91): RSTC_WAKE_EN, RSTC_WAKE_POL, RSTC_SLEEP_TIMER -/
  wakeEn : Nat := 0
  wakePol : Nat := 0
  sleepTimer : Nat := 60
  /-- MBUS wake settings copied at shutdown: 0 none, 1 dominant edge, 2 selective, by channel -/
  canWake : List Nat := List.replicate 12 0
  /-- selective wake settings copied at shutdown: the five WUF words of a channel -/
  canWuf : List (List Nat) := List.replicate 12 []
  /-- error counters of the selective-wake decoders while the L-die registers have no power (R275) -/
  wufErr : List Nat := List.replicate 12 0
  /-- latched wake sources in the layout of RSTC_WAKE_SRC_A and RSTC_WAKE_SRC_B -/
  wakeA : Nat := 0
  wakeB : Nat := 0
  latched : Bool := false
  deriving DecidableEq, Repr

/-- A visit of a shared core to heartwood (R406 to R411). -/
structure Visit where
  /-- started by an interrupt rather than a WCALL -/
  byIrq : Bool := false
  /-- the initial visit of R406, which has no timer -/
  initial : Bool := false
  /-- register gd of the WCALL -/
  gd : Nat := 0
  deriving DecidableEq, Repr

/-- The mortise context of a safe core (R372): the complements of the tenon registers, program counter and memory address. -/
structure Mortise where
  gSap : List Word := List.replicate 32 0xFFFFFFFF
  gHeart : List Word := List.replicate 32 0xFFFFFFFF
  pc : BitVec 40 := 0xFFFFFFFFFF
  addr : BitVec 40 := 0xFFFFFFFFFF
  sys : List (Nat × Word) := []
  deriving DecidableEq, Repr

/-- One application core or safe-core context as a fabric initiator (R356, R358, R406). -/
structure Core where
  sap : Option Nat := none
  heart : Option Nat := none
  /-- released and running; false before release, in reset, or while its partition restarts -/
  run : Bool := false
  inHeart : Bool := false
  visit : Option Visit := none
  /-- the sapwood partition has been released, so it runs once the visit ends (R406) -/
  sapReady : Bool := false
  /-- general registers g0 to g31 of the sapwood and the heartwood bank (R409) -/
  gSap : List Word := List.replicate 32 0
  gHeart : List Word := List.replicate 32 0
  /-- program counter at the committed point of the last disagreement or debug write (R375, R389), and the address of the
  last memory request -/
  pc : BitVec 40 := 0
  addr : BitVec 40 := 0
  /-- system registers written by the debug port, by number (R389) -/
  sys : List (Nat × Word) := []
  /-- the mortise context of a safe core in coded mode (R372) -/
  mort : Mortise := {}
  /-- halted by the debug port (R419), and a halt request that waits for an allowed world -/
  halted : Bool := false
  haltReq : Bool := false
  /-- a restart in the other world waits for its next entry (R359) -/
  restartHeart : Bool := false
  restartSap : Bool := false
  /-- in reset since an element, a group or a hold stopped it; it starts as at its release at start (R100) -/
  held : Bool := false
  /-- interrupts active on the core, innermost first (R364) -/
  active : List Nat := []
  /-- last fault a memory request or an instruction of the core ended with: 1 BUS_ERROR, 2 GONE, 3 POISON (R361); 4 WORLD_ENTRY (R408);
  5 illegal instruction (R407); 0 none -/
  lastFault : Nat := 0
  /-- interrupt source that the core received last and has not claimed (R364) -/
  recv : Option Nat := none
  deriving DecidableEq, Repr

/-- Fabric, partitions and cores (R356 to R362). -/
structure FabSt where
  /-- cores by initiator ID -/
  cores : List (Nat × Core) := []
  /-- partitions whose restart runs (R359) -/
  restarting : List Nat := []
  /-- the safe cores run coded (MODE split = 0) -/
  coded : Bool := true
  /-- 256-byte units charged by QoS group in this tick (R360) -/
  bw : List (Nat × Nat) := []
  deriving DecidableEq, Repr

/-- Interrupt controller beside its registers: sources latched or level-pending, and those active. -/
structure IrqSt where
  /-- virtual vectors set pending by VDEV (R363) -/
  vec : List Nat := []
  /-- claimed sources that have not ended (R364), with their target -/
  active : List (Nat × Nat) := []
  deriving DecidableEq, Repr

/-- Memory controllers (R365 to R367). -/
structure MemcSt where
  /-- addresses of 8-byte words marked poison -/
  poison : List Nat := []
  /-- an xSPI command runs: opcode register value -/
  xspi : Option Nat := none
  /-- fitted memory of the EXTMEM record in force -/
  lpddrGib : Nat := 0
  xspiMib : Nat := 0
  deriving DecidableEq, Repr

/-- Consequences that one step leaves to carry out in the same step: a fault code raised to the SAFETY section
(R126), a block reset of a client (R40), a partition restart (R359), a reset request (R97). Empty between
commands. -/
inductive Todo where
  | safety (code arg : Nat)
  | clientReset (client : Nat)
  | partRestart (p : Nat)
  | request (cause : Nat) (warm : Bool)
  deriving DecidableEq, Repr

/-- Bents and duties beside their registers (R391 to R403). -/
structure BentSt where
  /-- shadow buffers of bent A and bent B (R393), oldest first; the tag holds the duty -/
  shadowA : List Stg := []
  shadowB : List Stg := []
  /-- pairs (duty, address, value) accepted from the owning and from the standby partition in this tick (R395) -/
  ownLog : List (Nat × Nat × Nat) := []
  sbLog : List (Nat × Nat × Nat) := []
  /-- consecutive divergent ticks by duty -/
  runs : List (Nat × Nat) := []
  /-- duties whose run has been reported -/
  reported : List Nat := []
  /-- bents named by planned SWITCH commands that wait for the edge, in order (R400) -/
  planned : List Nat := []
  /-- owners and epochs on their way to the P-die: duty, owner, epoch; sent now or after the acknowledgement -/
  lane : List (Nat × Nat × Nat) := []
  laneHeld : List (Nat × Nat × Nat) := []
  /-- overlap window of a switch-over (R398): 0 closed, 1 open, 2 open since before the last edge -/
  overlap : Nat := 0
  /-- bent in REPAIR or RESYNC whose TCM copy is complete and waits for the edge -/
  copied : Option Nat := none
  deriving DecidableEq, Repr

/-- Protection states of table R153. -/
inductive Prot where
  | off | inrush | on | retryWait | demag | cool | latched | supplyOff
  deriving DecidableEq, Repr

/-- What a command, a rest value or a held output calls for (R106, R137, R138): `pwm` in 0.1 %, ticks and µs on
the grid, `free` in 0.1 % and µs on the channel's own timer (R143). -/
inductive Out where
  | off
  | on
  | pwm (duty n phase : Nat)
  | free (duty us : Nat)
  deriving DecidableEq, Repr

/-- One load channel of the P-die (R130, R153). -/
structure Chan where
  ps : Prot := .off
  /-- destination of a DEMAG and the cause it latches -/
  dest : Prot := .off
  destCause : Nat := 0
  /-- the fault latch (R164) -/
  cause : Nat := 0
  retry : Nat := 0
  window : Bool := false
  restart : Nat := 0
  /-- the pattern applied now, and the one that waits for a period start -/
  out : Out := .off
  nxt : Option Out := none
  /-- the switch has turned on or off since the sample point (R178) -/
  turned : Bool := false
  /-- on intervals that cover this instant (R138) -/
  onCnt : Nat := 0
  /-- the on interval of a period at duty 1,000 goes on past the next period start, up to its phase (R138) -/
  tail : Bool := false
  /-- a derated ON conducts from its commit to its first period start (R137, R171) -/
  lead : Bool := false
  /-- phase of the running period in µs, reduced where N · T has fallen to it or below (R139) -/
  phF : Nat := 0
  /-- the PWM in force free-runs on the channel timer since a HOLD, up to the first period start of a command (R143) -/
  free : Bool := false
  /-- disposition state (R141), its hold limit running (R143) -/
  disp : Bool := true
  hold : Bool := false
  /-- the NV latch has not yet been read after power-on (R106) -/
  unread : Bool := true
  /-- derating ceiling computed and in force (R171) -/
  ceiling : Nat := 1000
  ceilF : Nat := 1000
  /-- samples taken with the last step in force, up to 20 (R171) -/
  fresh : Nat := 20
  /-- consecutive evaluations below 90 % of every scope (R172) -/
  calm : Nat := 0
  /-- bank-droop freeze: timers frozen, allowance of 200 µs spent; the channel caused the droop that runs (R168) -/
  frozen : Bool := false
  spent : Bool := false
  drooped : Bool := false
  /-- open-load reports and sample counts (R161, R162) -/
  openOn : Bool := false
  openOff : Bool := false
  lowRun : Nat := 0
  highRun : Nat := 0
  /-- an accepted clear waits for the commit (R165) -/
  clear : Bool := false
  /-- the channel Tj has been seen above 150 °C and not yet at or below it (R165) -/
  hot : Bool := false
  /-- samples of the running millisecond in mA, latest first; the last formed mean in mA -/
  samples : List Nat := []
  mean : Nat := 0
  /-- sense code of the last sample (R166) -/
  code : Nat := 0
  /-- switched off by the fallback comparator (R175) -/
  fellBack : Bool := false
  /-- an ON of a disposition state that a ceiling has turned into its free-running PWM (R171) -/
  freeOn : Bool := false
  /-- the deratable flag when the last P-die reset asserted (R175) -/
  derKept : Bool := false
  deriving DecidableEq, Repr

/-- Budget scopes of R169: banks, posts, module current, module heat. -/
inductive Scope where
  | bank (k : Fin 6)
  | post (p : Fin 2)
  | modCurrent
  | heat
  deriving DecidableEq, Repr

/-- State of one budget scope (R171 to R173). -/
structure ScopeSt where
  isOver : Bool := false
  exhausted : Bool := false
  /-- above 110 % of the limit at the last evaluation -/
  far : Bool := false
  shedding : Bool := false
  deriving DecidableEq, Repr

/-- The LOAD unit beside its registers. -/
structure LoadSt where
  ch : List Chan := List.replicate 48 {}
  /-- banks in droop -/
  droop : List Nat := []
  scopes : List (Scope × ScopeSt) := []
  /-- filtered heat estimate in units of 2^-20 cW -/
  heat : Nat := 0
  /-- sync timers whose pulse is high (R149) -/
  sync : List Nat := []
  /-- TICK_PERIOD of the last commit strobe in µs (R171) -/
  period : Nat := 250
  /-- TICK_COUNT carried by the last commit strobe (R138) -/
  strobeCount : Nat := 0
  /-- channels in element, bank or unit reset (R145) -/
  inReset : List Nat := []
  /-- level of the SENSE_OUT ball in units of 0.1 mV, none while it is not driven (R167) -/
  senseOut : Option Nat := some 0
  deriving DecidableEq, Repr
/-- One measurement input (R186, R188): filter state, value, limit state. -/
structure MIn where
  /-- IIR state in 1/256 units -/
  iir : Int := 0
  /-- the last 16 fresh samples, latest first -/
  hist : List Nat := []
  y : Nat := 0
  valid : Bool := false
  fresh : Bool := false
  fault : Bool := false
  cond : Bool := false
  /-- limit state: 0 NORMAL, 1 LOW, 2 HIGH; candidate of the previous evaluated tick; debounce count -/
  lim : Nat := 0
  cand : Nat := 0
  cnt : Nat := 0
  deriving DecidableEq, Repr

/-- The measurement engine beside its registers (R178 to R190). -/
structure MeasSt where
  inp : List MIn := List.replicate 96 {}
  /-- conducting flags at the sample point by load channel, and whether the channel shows a cause there (R178, R181) -/
  cond : List Bool := []
  caused : List Bool := []
  /-- inputs that have no sample in this tick, their reset or the die reset having held them (R182) -/
  lost : List Nat := []
  /-- conversions of the running tick have started; their samples are held on the C-die -/
  started : Bool := false
  held : Bool := false
  /-- samples of the tick: input, raw code, fault level, conducting -/
  smp : List (Nat × Nat × Bool × Bool) := []
  /-- the pass of this tick is complete, so its results are captured at the next edge -/
  done : Bool := false
  /-- ADCs that timed out in this tick -/
  timedOut : List Nat := []
  /-- calibration constants in force: offset and gain of 48 senses, 8 AIN paths, 8 WAKE paths -/
  cal : List (Int × Nat) := List.replicate 64 (0, 16384)
  /-- constants of a CAL_WRITTEN entry that wait for the first edge (R190) -/
  calNew : Option (List (Int × Nat)) := none
  /-- filtered comparator levels of WAKE0 to WAKE15: now, and as carried by the last acknowledgement (R185) -/
  wakeNow : Nat := 0
  wakeAck : Nat := 0
  deriving DecidableEq, Repr
/-- A pulse under way on a TIME_OUT pin (R250): its pin, whether the mode returns to OFF after it, active_low under which it
started, working time of its end in ns. -/
structure OutPulse where
  pin : Nat
  oneShot : Bool
  low : Bool
  stop : Nat
  deriving DecidableEq, Repr

/-- The clocks of the PTP unit (R236): local time in ns; domain clocks and working time in units of 2^-40 ns. -/
structure ClkSt where
  lt : Nat := 0
  dt0 : Int := 0
  dt1 : Int := 0
  wt : Int := 0
  /-- local time at which each slot last became LOCKED (R248) -/
  lock0 : Nat := 0
  lock1 : Nat := 0
  /-- local time of each slot's last LOCK write, and of its last entry into HOLDOVER (R247) -/
  sync0 : Nat := 0
  sync1 : Nat := 0
  hold0 : Nat := 0
  hold1 : Nat := 0
  /-- working time read at the last capture of a TIME_IN edge counts in the tick: pin, last capture, polarity, count -/
  tin : List (Nat × Nat × Bool × Nat) := []
  /-- the tick input captured at the last edge (R252) -/
  tinCap : List (Nat × Nat × Bool × Nat) := []
  /-- capture FIFOs of TIME_IN0 to TIME_IN7: instants and polarities, oldest first -/
  fifo : List (List (Nat × Bool)) := List.replicate 8 []
  /-- pulses under way on the TIME_OUT pins, and the working time in ns of each pin's next pulse start (R250) -/
  pulse : List OutPulse := []
  next : List (Nat × Nat) := []
  /-- transmit timestamp queues of ports 16 to 21: ID, egress port, timestamp, dropped -/
  txq : List (List (Nat × Nat × Nat × Bool)) := List.replicate 6 []
  deriving DecidableEq, Repr
/-- A stored frame of the switch (R193, R199, R203). -/
structure Frame where
  id : Nat
  /-- ingress port, class, colour -/
  inp : Nat
  cls : Nat
  yellow : Bool := false
  /-- charged to the management reserve (R196) -/
  mgmt : Bool := false
  /-- VID of step 2; none for a frame with an egress tag (R243) -/
  vid : Option Nat := none
  /-- the bytes to send, from the destination address on, without FCS -/
  bytes : List Byte := []
  /-- bytes with FCS, and cells held -/
  len : Nat := 64
  cells : Nat := 1
  ct : Bool := false
  /-- instant of the first cell that the buffer did not admit of a cut-through frame (R202) -/
  cutAt : Option Nat := none
  /-- the last byte has arrived with a good FCS; `bad`: it ended badly, so egress stomps its FCS (R205) -/
  done : Bool := false
  bad : Bool := false
  /-- egress ports whose copies remain -/
  refs : List Nat := []
  /-- receive timestamp (R239) -/
  tsRx : Int := 0
  /-- slot of a relay copy (R244) -/
  relay : Option Nat := none
  /-- originTimestamp to insert (R245) -/
  insert : Bool := false
  /-- a timestamp request's ID (R246) -/
  tsId : Option Nat := none
  deriving DecidableEq, Repr

/-- A frame being received on a port (R194, R197). -/
structure RxCur where
  port : Nat
  /-- stored frames that wait for the end of reception -/
  ids : List Nat := []
  /-- source address and VID to learn -/
  learn : Option (Nat × Nat) := none
  deriving DecidableEq, Repr

/-- A transmission in progress on a port (R199). -/
structure TxCur where
  port : Nat
  id : Nat
  /-- bytes on the line, without FCS -/
  out : List Byte := []
  cls : Nat := 0
  /-- rings of an internal port that still wait for the frame (R229) -/
  rings : List Nat := []
  /-- local time of the first byte -/
  t0 : Nat := 0
  deriving DecidableEq, Repr

/-- An entry of the MAC table (R197). -/
structure MacEnt where
  mac : Nat
  vid : Nat
  mask : Nat
  static : Bool
  /-- local time of the last refresh of a dynamic entry (R198) -/
  fresh : Nat := 0
  deriving DecidableEq, Repr

/-- The gates of a port (R209, R210): operating list of (states, duration in ns). -/
structure GateSt where
  list : List (Nat × Nat) := []
  ticks : Nat := 0
  /-- a cycle has started; entry now in force; working time of the cycle start in ns -/
  running : Bool := false
  cur : Nat := 0
  start : Int := 0
  /-- validated list that waits for its first cycle start, and whether validation itself waits -/
  pend : Option (List (Nat × Nat)) := none
  dirty : Bool := false
  deriving DecidableEq, Repr

/-- Sequence recovery of one FRER context (R214). -/
structure FrerSt where
  takeAny : Bool := true
  seq : Nat := 0
  /-- history, latest first: true when the number has been received -/
  hist : List Bool := []
  /-- edges since the last frame passed -/
  idle : Nat := 0
  deriving DecidableEq, Repr

/-- A MAC command under way (R198). -/
structure MacCmd where
  op : Nat
  mac : Nat
  vid : Nat
  mask : Nat
  deriving DecidableEq, Repr

/-- The switch beside its registers. -/
structure SwcSt where
  /-- stored frames in order of arrival -/
  frames : List Frame := []
  nextId : Nat := 0
  rx : List RxCur := []
  tx : List TxCur := []
  macs : List MacEnt := []
  /-- learning requests: address, VID, port -/
  learn : List (Nat × Nat × Nat) := []
  cmd : Option MacCmd := none
  /-- ingress port last served, by 8 · egress port + class -/
  rr : List (Nat × Nat) := []
  /-- shaper credit in kb/s · ns and the local time it holds for, by 8 · port + class -/
  credit : List (Nat × Int × Nat) := []
  /-- token bucket levels in kb/s · ns and their local times, by stream -/
  bucket : List (Nat × Nat × Nat) := []
  frer : List (Nat × FrerSt) := []
  gates : List (Nat × GateSt) := []
  /-- down ports whose dynamic entries wait for removal -/
  purge : List Nat := []
  /-- token buckets of the internal ports' directions in kb/s · ns and their local times, by 2 · port + 1 to the endpoint or
  0 from it (R230) -/
  pace : List (Nat × Nat × Nat) := []
  /-- the bytes that each port has last ended on its line, with the FCS that it sent (R205) -/
  sent : List (Nat × List Byte) := []
  /-- high words held by reads of SWC_CNT_LO, by counter address -/
  held : List (Nat × Nat) := []
  deriving DecidableEq, Repr

/-- Line state of one port beside EPORT_STATUS (R221 to R233). -/
structure PortSt where
  trainTimeout : Bool := false
  linkLost : Bool := false
  remoteFault : Bool := false
  plcaDup : Bool := false
  plcaFail : Bool := false
  energy : Bool := false
  sqi : Nat := 0
  /-- rate code taken from a USXGMII partner's word -/
  usxRate : Nat := 0
  usxLinkDown : Bool := false
  /-- velocity factor of a diagnostic under way -/
  vf : Nat := 0
  /-- PLCA parameters in force since the last BEACON (R225) -/
  plca : Nat := 0x00200800
  /-- running transmit opportunity of the PLCA cycle, and frames sent in the own one (R224) -/
  opp : Nat := 0
  burst : Nat := 0
  deriving DecidableEq, Repr

/-- The EPORT unit beside its registers. -/
structure EportSt where
  ports : List PortSt := List.replicate 22 {}
  /-- rings stopped by a descriptor with own = 0 until their TAIL is written (R228): port, ring, TX -/
  stopped : List (Nat × Nat × Bool) := []
  deriving DecidableEq, Repr
/-- A frame under way on a LIN channel (R284 to R288): its ID; `sleep`: the go-to-sleep command; `rate`: its bit rate in
b/s, which a responder measures (R286); `t0`: local time at which its response begins; `resp`: data bytes of a response
that the channel publishes. -/
structure LinCur where
  id : Nat
  sleep : Bool := false
  rate : Nat := 0
  t0 : Nat := 0
  resp : List Byte := []
  deriving DecidableEq, Repr

/-- One LIN channel beside its registers. -/
structure LinCh where
  /-- pending slots of the table in force, in order (R284) -/
  pend : List Nat := []
  /-- slots that the running tick has put there -/
  issued : List Nat := []
  cur : Option LinCur := none
  /-- the last response that the channel has sent in full: data bytes and checksum (R283, R285) -/
  sent : List Byte := []
  /-- a go-to-sleep command is queued (R288) -/
  sleepReq : Bool := false
  /-- a wake pulse is being sent -/
  pulse : Bool := false
  /-- a wake has been detected in SLEEP; NM commits enable = 1 at the next edge (R311) -/
  woke : Bool := false
  nmEnable : Bool := false
  /-- receive objects by frame ID, and IDs with new content since the gateway's last capture -/
  objs : List (Nat × List Byte) := []
  fresh : List Nat := []
  deriving DecidableEq, Repr

/-- One SENT input beside its registers (R289 to R292). -/
structure SentIn where
  /-- tick of the previous message in 12.5 ns units -/
  prev : Option Nat := none
  /-- valid messages of the running tick -/
  cnt : Nat := 0
  /-- bits 3 and 2 of the status nibbles of the serial message under way, first message first -/
  serial : List (Bool × Bool) := []
  /-- the captured object and whether it is fresh; a slow message has arrived since the last capture -/
  cap : Nat := 0
  capFresh : Bool := false
  slowNew : Bool := false
  slowFresh : Bool := false
  deriving DecidableEq, Repr

/-- The LIN and SENT units beside their registers. -/
structure LinSt where
  ch : List LinCh := List.replicate 12 {}
  sent : List SentIn := List.replicate 8 {}
  deriving DecidableEq, Repr
/-- An entry of queue H (R267); `nm`: a message of network management, whose wake flag is kept through a
replacement (R309); `busy`: in transmission. -/
structure HEnt where
  f : CanFrame
  nm : Bool := false
  busy : Bool := false
  deriving DecidableEq, Repr

/-- A frame in transmission on a CAN channel (R268). -/
structure MTx where
  /-- transmit queue; none for queue H -/
  src : Option Nat
  f : CanFrame
  /-- address of the descriptor -/
  desc : Nat := 0
  oneShot : Bool := false
  /-- the queue was aborted, with TAIL at that time (R269) -/
  abortTo : Option Nat := none
  /-- instance and generation at issue (R428) -/
  owner : Option (Nat × Nat) := none
  /-- low 32 bits of WT at the start of frame -/
  ts : Nat := 0
  /-- an NM message of the MZ4820 -/
  nm : Bool := false
  deriving DecidableEq, Repr

/-- One CAN channel beside its registers (R255 to R281). -/
structure MbusCh where
  h : List HEnt := []
  tx : Option MTx := none
  /-- starts of frame in this tick by transmit queue (R268) -/
  spent : List (Nat × Nat) := []
  /-- receive queue sizes that wait for an empty queue (R277): queue, size -/
  rediv : List (Nat × Nat) := []
  /-- frames written so far by receive queue (R262) -/
  seq : List (Nat × Nat) := []
  /-- enable = 0 is in force and the frame in transmission still finishes (R258) -/
  stopping : Bool := false
  /-- step 2 of a shutdown has stopped the channel (R91) -/
  shutOff : Bool := false
  deriving DecidableEq, Repr

/-- The MBUS unit beside its registers. -/
structure MbusSt where
  ch : List MbusCh := List.replicate 12 {}
  /-- receive objects by filter (R261), and filters with a new object since the gateway's last capture -/
  objs : List (Nat × List Byte) := []
  fresh : List Nat := []
  deriving DecidableEq, Repr

/-- One filled slot of a virtual device instance (R423): kind and index of the resource, amount in force. -/
structure VSlot where
  inst : Nat
  e : Nat
  kind : Nat
  idx : Nat
  amt : Nat
  deriving DecidableEq, Repr

/-- A virtual device instance beside its registers (R426 to R438). -/
structure VInst where
  startRun : Bool := false
  /-- state command accepted and waiting for the edge: 1 FREEZE, 2 THAW, 4 RELEASE -/
  cmd : Option Nat := none
  /-- a RESET has been accepted in this tick (R426) -/
  resetNow : Bool := false
  /-- SAVE (5) or RESTORE (6) under way, with the record address -/
  job : Option (Nat × Nat) := none
  /-- a RESTORE whose checks have passed waits for the commit, with its record -/
  ready : Option (List Byte) := none
  /-- the edge at which a reset releases the budgets has not passed yet (R430 step 4) -/
  relWait : Bool := false
  /-- a late completion or event has been discarded (the status `late` of R428) -/
  late : Bool := false
  deriving DecidableEq, Repr

/-- A re-division operation accepted for the next commit (R433). -/
structure Rediv where
  op : Nat
  i : Nat
  j : Nat
  e : Nat
  amt : Nat
  deriving DecidableEq, Repr

/-- The VDEV unit beside its registers. -/
structure VdevSt where
  slots : List VSlot := []
  insts : List (Nat × VInst) := []
  rediv : List Rediv := []
  /-- fabric units charged in this tick by instance (R431) -/
  bw : List (Nat × Nat) := []
  deriving DecidableEq, Repr
/-- One NM segment beside its registers (R296 to R314). Counts are edges since their timer started (R301). -/
structure NmSeg where
  /-- since the entry into AWAKE -/
  hold : Nat := 0
  /-- since the last event that restarts the silence wait -/
  silence : Nat := 0
  /-- since the last good RING message -/
  ring : Nat := 0
  /-- since the last newly added node of phase ALIVE -/
  alive : Nat := 0
  /-- since the capture of the token, while the token is held -/
  token : Nat := 0
  tokenHeld : Bool := false
  /-- since the MZ4820's last KEEPALIVE -/
  keep : Nat := 0
  /-- since the last KEEPALIVE of another node; on a LIN commander since own_ready became 1 -/
  pres : Nat := 0
  /-- message packed by the last evaluation, and a LIN command (1 goto_sleep, 2 wake_pulse): both leave at the edge -/
  packed : Option CanFrame := none
  linCmd : Option Nat := none
  /-- the round under way: open, nodes seen, every message ready (R305) -/
  roundOpen : Bool := false
  seen : Nat := 0
  allReady : Bool := true
  /-- state SLEEP when the running reset asserted (R314) -/
  asleep : Bool := false
  /-- the CAN channel whose transceiver the entry into SLEEP has put into STANDBY: NORMAL at the next AWAKE (R308) -/
  stood : Option Nat := none
  /-- captured since the last evaluation: transceiver wake, an NM frame good or bad, a start of frame, and the good NM
  messages of other nodes in order -/
  xwake : Bool := false
  nmSeen : Bool := false
  sof : Bool := false
  frames : List CanFrame := []
  deriving DecidableEq, Repr

/-- What the evaluation of the running tick has changed: the segments, the log and the registers before it, each
register with its value before and after (R301). -/
structure NmUndo where
  seg : List NmSeg
  logLast : Option Nat
  logStart : List (Nat × Nat × Nat)
  regs : List (Nat × Word × Word)
  deriving DecidableEq, Repr

/-- The NM unit beside its registers. -/
structure NmSt where
  /-- the evaluation of the running tick can still be discarded by an overrun of client 2 -/
  undo : Option NmUndo := none
  seg : List NmSeg := List.replicate 24 {}
  /-- log entry written last; for each open entry the tick counts at its start and at its node's last message (R312) -/
  logLast : Option Nat := none
  logStart : List (Nat × Nat × Nat) := []
  deriving DecidableEq, Repr
/-- One request of a lath channel on its way to the far die (R341 to R346). -/
structure LReq where
  ch : Nat
  init : Nat
  /-- true: a posted write; false: a held read -/
  write : Bool
  /-- address and value of each beat: one beat, or the piece of a burst -/
  beats : List (Nat × Nat)
  /-- of a write: the accepted immediate bits of each beat, with the tags formed at acceptance (R148, R345) -/
  wr : List Stg := []
  /-- a write that holds one of the shared entries of its link -/
  shared : Bool := false
  /-- a read whose limit has passed or which ended with GONE: its reply will be dropped -/
  late : Bool := false
  gone : Bool := false
  /-- waits for an entry or a slot of table R340 -/
  waiting : Bool := false
  /-- burst that the request is a piece of -/
  burst : Option Nat := none
  deriving DecidableEq, Repr

/-- The read-ahead buffer of a channel (R348, R349): its block, the values held, the initiator of the fetch. -/
structure LBuf where
  block : Nat
  held : List (Nat × Nat)
  init : Nat
  deriving DecidableEq, Repr

/-- A burst under way (R346): pieces outstanding, a piece has failed, words read so far. -/
structure LBurst where
  id : Nat
  left : Nat
  failed : Bool := false
  words : List Nat := []
  deriving DecidableEq, Repr

/-- The LATH unit beside its registers. -/
structure LathSt where
  /-- requests of the 24 channels in order of acceptance -/
  q : List LReq := []
  bufs : List (Nat × LBuf) := []
  bursts : List LBurst := []
  nextBurst : Nat := 0
  /-- failed replays of the flit in error and failed retrainings in a row, by link -/
  replays : List Nat := [0, 0]
  retrains : List Nat := [0, 0]
  deriving DecidableEq, Repr

/-- The checker of one safe core beside its registers (R377 to R389). -/
structure ChkCore where
  /-- disagreements in a row of the instruction at `pc` (R382) -/
  dis : Nat := 0
  pc : Nat := 0
  /-- a CINJ waits for the next instruction that writes a register (R386) -/
  inj : Bool := false
  /-- a plumb test is owed since the kerf start (R381); consecutive skips in RUN or REPLAY -/
  owed : Bool := false
  skips : Nat := 0
  /-- a CSYNC waits for the comparison of the instruction under replay -/
  csync : Bool := false
  deriving DecidableEq, Repr

/-- The WORLD unit beside its registers (R414, R418, R419). -/
structure WorldSt where
  /-- local time in ns at which the lease of a held claim ends, by resource -/
  lease : List (Nat × Nat) := []
  /-- enables that the lifecycle gave at the last release (R417); enables granted by challenge; enables requested by the
  last WORLD_DBG_REQ -/
  base : Nat := 0
  granted : Nat := 0
  req : Nat := 0
  /-- a nonce is valid; the check of a response is under way -/
  nonce : Bool := false
  checking : Bool := false
  /-- boundary-scan EXTEST drives the pins -/
  extest : Bool := false
  /-- partitions whose restart follows a hang (WORLD_STATUS.hung_map) -/
  hung : List Nat := []
  deriving DecidableEq, Repr

/-- A key slot as the KEYBLOB area holds it (R444, R445, R449): key, counter carried, recorded lc_count. -/
structure KSlot where
  alg : Nat
  usage : Nat
  value : List Byte
  counter : Nat
  lc : Nat
  deriving DecidableEq, Repr

/-- A Buile session (R459, R460). -/
structure Sess where
  keyRef : Nat
  rights : Nat
  sk : List Byte
  /-- last request sequence number; failures in a row -/
  seq : Nat := 0
  fails : Nat := 0
  deriving DecidableEq, Repr

/-- The security engine beside its registers. The first five fields are fuses and MRAM and outlast every reset. -/
structure KeySt where
  /-- blown bits of the thermometer field, and the DECOMMISSIONED bit (R451) -/
  lcN : Nat := 0
  lcD : Bool := false
  /-- KEYBLOB header: present, key-update counter, truss counter floor (R444) -/
  hdr : Option (Nat × Nat) := none
  slots : List (Nat × KSlot) := []
  /-- successor entry: slot, key (R452) -/
  succ : Option (Nat × KSlot) := none
  /-- a root-secret word has an uncorrectable error (R441) -/
  fuseBad : Bool := false
  /-- the fault of this start that waits for the SAFETY section: its fuse word (R126, R441) -/
  fuseFault : Option Nat := none
  /-- operation that runs and those queued: descriptor address, initiator (R453) -/
  cur : Option (Nat × Nat) := none
  queue : List (Nat × Nat) := []
  /-- the slots as the running operation found them at its start (R450) -/
  start : List (Nat × KSlot) := []
  /-- requests that wait for the identity: MAC address that the service port answers, if it took the request; frame (R443) -/
  waits : List (Option (List Byte) × List Byte) := []
  /-- descriptors to be answered with ABORTED at the release of a KEY unit reset (R462) -/
  aborted : List Nat := []
  /-- device nonces, newest first (R459) -/
  nonces : List (List Byte) := []
  sess : List (Nat × Sess) := []
  /-- failed OPENs in a row, and the lockout (R460) -/
  openFails : Nat := 0
  lockout : Bool := false
  /-- last Buile response -/
  reply : List Byte := []
  /-- firmware digests recorded at verification: partition, digest (R457, R468) -/
  images : List (Nat × List Byte) := []
  deriving DecidableEq, Repr

/-- A commit under way (R472 to R477). -/
structure UpdCommit where
  /-- true: RESTART -/
  restart : Bool
  /-- first bent, and the edges E1, E2 and E3 as tick counts -/
  first : Nat
  /-- tick that the acceptance edge starts -/
  a : Nat := 0
  e1 : Nat
  e2 : Nat := 0
  e3 : Nat := 0
  /-- deferrals of the phase that waits for its records -/
  deferred : Nat := 0
  /-- updated partitions: in X or outside the bents, and in Y; digests of the new images -/
  early : List Nat := []
  late : List Nat := []
  /-- the commit point has passed -/
  passed : Bool := false
  /-- records checked at the last kerf start of the phase: none not checked, some code -/
  checked : Option Nat := none
  /-- last completed phase of table R474 -/
  phase : Nat := 0
  deriving DecidableEq, Repr

/-- Buile frame segments received on the service port (R479). -/
structure SvcRx where
  src : Nat
  count : Nat
  segs : List (Nat × List Byte)
  deriving DecidableEq, Repr

/-- The UPD unit beside its registers. `strandFlag`, `strandWhy`, `bank`, `nextSeq` and the service descriptor
stand in the journal header in MRAM (R480). -/
structure UpdSt where
  /-- holder session; none with holder heartwood or without a holder -/
  session : Option Nat := none
  /-- digests and images of the staged bank recorded by VERIFY -/
  staged : List (Nat × List Byte) := []
  stagedImage : Option Image := none
  commit : Option UpdCommit := none
  /-- restarted partitions that must still confirm, with the tick count by which they must (R475, R477) -/
  confirm : List (Nat × Nat) := []
  rx : Option SvcRx := none
  /-- Ethernet frames of responses sent on the service port -/
  tx : List (List Byte) := []
  /-- a commit point has passed since the last start (R78) -/
  sinceCommit : Bool := false
  deriving DecidableEq, Repr

/-- One PDU of the gateway (R317 to R327). -/
structure GPdu where
  rc : Rec
  /-- receive: captured content; fresh, timed out, no content yet; edges since the last fresh capture -/
  cap : List Byte := []
  fresh : Bool := false
  timedOut : Bool := false
  never : Bool := true
  /-- receive: edges since the last fresh capture; transmit: edges since the last release -/
  age : Nat := 0
  /-- ETH receive buffer, and whether a frame has replaced it since the last capture -/
  eth : List Byte := []
  ethNew : Bool := false
  /-- transmit: content, a change awaits release, a route wrote since the last release, a release has been made,
  releases made -/
  out : List Byte := []
  pend : Bool := false
  written : Bool := false
  released : Bool := false
  seq : Nat := 0
  deriving DecidableEq, Repr

/-- A table command under way (R336): what it answers when it is done. -/
structure GCmd where
  op : Nat
  table : Nat
  idx : Nat
  code : Nat
  off : Nat
  /-- instance whose GWY command was forwarded (R425) -/
  inst : Option Nat := none
  deriving DecidableEq, Repr

/-- The gateway beside its registers. -/
structure GwySt where
  pdus : List (Nat × GPdu) := []
  routes : List (Nat × Rec) := []
  cmd : Option GCmd := none
  /-- accepted WRITE (a record) and CLEAR commands for the next commit: table, index -/
  staged : List (Nat × Nat × Option Rec) := []
  /-- the four lanes are done in the running tick; tick work was completed in the previous one -/
  done : Bool := false
  worked : Bool := false
  /-- LOAD_CMD PDUs whose release at the end of this tick has been issued -/
  loadSent : List Nat := []
  /-- status words of the 48 channels returned by the last acknowledgement (R319), and whether they are new -/
  ack : List (List Nat) := []
  ackNew : Bool := false
  deriving DecidableEq, Repr

/-- What the last access answered to its initiator: nothing yet, a completed write, a value read, the words of
a burst (R346), a bus error
(R3, R16, R63), GONE (R101, R104), poison (R365). -/
inductive Resp where
  | none | done | value (v : Nat) | words (vs : List Nat) | busError | gone | poison
  deriving DecidableEq, Repr

/-- Everything of the MZ4820 except the memories and the command queue. -/
structure Mach where
  /-- register values that differ from their cold reset values, by rising address -/
  regs : List (Nat × Word) := []
  resp : Resp := .none
  /-- MODEL's own field: how many free values have been drawn (Config.free) -/
  drawn : Nat := 0
  /-- journal entries written by this command, oldest first; empty between commands -/
  jq : List JEntry := []
  rst : RstSt := {}
  sill : SillSt := {}
  stage : StageSt := {}
  tick : TickSt := {}
  truss : TrussSt := {}
  fab : FabSt := {}
  irq : IrqSt := {}
  memc : MemcSt := {}
  todo : List Todo := []
  bent : BentSt := {}
  load : LoadSt := {}
  meas : MeasSt := {}
  clk : ClkSt := {}
  swc : SwcSt := {}
  eport : EportSt := {}
  mbus : MbusSt := {}
  vdev : VdevSt := {}
  lin : LinSt := {}
  nm : NmSt := {}
  gwy : GwySt := {}
  lath : LathSt := {}
  chk : List ChkCore := List.replicate 6 {}
  world : WorldSt := {}
  key : KeySt := {}
  upd : UpdSt := {}
  deriving DecidableEq, Repr

/-- The whole state: waiting commands first in first out, memory cells by rising address, the machine. -/
structure State where
  pending : List Instr := []
  mem : List Host.Cell := []
  mach : Mach := {}
  deriving DecidableEq, Repr

/-- The state right after power-on with loss of the sill domain (R102): every register at its cold value, the
C-die held in reset (R104, R112), no memory cell listed, no command waiting. -/
def State.reset : State := {}

end Sys2Proof.Machine
end

