-- ==== Sys2Proof/Machine/Regs.lean ====
section
/-! DEFINITION. Reading and writing registers of the machine: finding the register at an address, its cold reset
value, fields, counters, status bits; and the resets of register windows. -/

namespace Sys2Proof.Machine

/-- A register found at an address: its block and its indices. -/
structure Hit where
  d : RegDesc
  idx : List Nat
  deriving DecidableEq, Repr

/-- The indices that an offset from a block's first address spells, if it lies on a register of the block. -/
def idxOf : List (Nat × Nat) → Nat → Option (List Nat)
  | [], off => if off == 0 then some [] else none
  | [(s, c)], off => if off % s == 0 && off / s < c then some [off / s] else none
  | (s, c) :: t, off => if off / s < c then (idxOf t (off % s)).map (off / s :: ·) else none

/-- Units of table R17 in their order, with base, window size and register blocks (unit numbers of R49). -/
def unitTable : List (Nat × Nat × List RegDesc) := [
  (0x40000000, 0x10000, regsRstc), (0x40010000, 0x10000, regsTick), (0x40020000, 0x10000, regsTruss),
  (0x40030000, 0x10000, regsBist), (0x40040000, 0x10000, regsKey), (0x40050000, 0x10000, regsUpd),
  (0x40060000, 0x10000, regsWorld), (0x40070000, 0x10000, regsVdev), (0x40080000, 0x10000, regsBent),
  (0x40090000, 0x6000, regsChk), (0x400A0000, 0x10000, regsIrq), (0x400B0000, 0x10000, regsFab),
  (0x400C0000, 0x10000, regsLath), (0x400D0000, 0x10000, regsMem), (0x41000000, 0x100000, regsSwc),
  (0x41100000, 0x10000, regsPtp), (0x41200000, 0x16000, regsEport), (0x41300000, 0xC0000, regsMbus),
  (0x41400000, 0x10000, regsLin), (0x41410000, 0x10000, regsSent), (0x41500000, 0x10000, regsNm),
  (0x41600000, 0x10000, regsGwy), (0x41700000, 0x10000, regsMeas), (0x42000000, 0x10000, regsLoad)]

/-- Unit numbers of R49. -/
def uRSTC : Nat := 0
def uTICK : Nat := 1
def uTRUSS : Nat := 2
def uBIST : Nat := 3
def uKEY : Nat := 4
def uUPD : Nat := 5
def uWORLD : Nat := 6
def uVDEV : Nat := 7
def uBENT : Nat := 8
def uCHK : Nat := 9
def uIRQ : Nat := 10
def uFAB : Nat := 11
def uLATH : Nat := 12
def uMEM : Nat := 13
def uSWC : Nat := 14
def uPTP : Nat := 15
def uEPORT : Nat := 16
def uMBUS : Nat := 17
def uLIN : Nat := 18
def uSENT : Nat := 19
def uNM : Nat := 20
def uGWY : Nat := 21
def uMEAS : Nat := 22
def uLOAD : Nat := 23

/-- Owner codes of R49. -/
def ownUnit (u : Nat) : Nat := 0x1000 + u
def ownPart (p : Nat) : Nat := 0x2000 + p
def ownInst (i : Nat) : Nat := 0x3000 + i
def ownDuty (d : Nat) : Nat := 0x4000 + d

/-- The unit whose window holds an address, with its number. -/
def unitAt (a : Nat) : Option (Nat × Nat × Nat × List RegDesc) :=
  let rec go : Nat → List (Nat × Nat × List RegDesc) → Option (Nat × Nat × Nat × List RegDesc)
    | _, [] => none
    | n, (b, sz, ds) :: t => if b ≤ a && a < b + sz then some (n, b, sz, ds) else go (n + 1) t
  go 0 unitTable

/-- The register at an address (R16: none where no register occupies it). -/
def findIn : List RegDesc → Nat → Option Hit
  | [], _ => none
  | d :: t, a =>
    if d.base ≤ a then
      match idxOf d.dims (a - d.base) with
      | some idx => some ⟨d, idx⟩
      | none => findIn t a
    else findIn t a

/-- The register at an address. -/
def findReg (a : Nat) : Option Hit :=
  match unitAt a with
  | some (_, _, _, ds) => findIn ds a
  | none => none

/-- Whether the register at an address belongs to the named block. -/
def regIs (a : Nat) (n : RegName) : Bool :=
  match findReg a with
  | some h => h.d.name == n
  | none => false

/-- Switch port types of table R219 by port: 0 10GBASE-T1, 1 1000BASE-T1, 2 100BASE-T1, 3 10BASE-T1S, 4 USXGMII,
5 internal. -/
def portType (p : Nat) : Nat :=
  if p < 2 then 0 else if p < 6 then 1 else if p < 12 then 2 else if p < 16 then 3 else if p < 18 then 4 else 5

/-- The cold reset value of a register, where it depends on the index or on fuses (R44, R239, R355, R360). -/
def resetOf (h : Hit) : Nat :=
  match h.d.name, h.idx with
  | .FAB_QOS_CFG, [g] => if g == 0 then 0x30100 else 0x100
  | .LATH_CHAN_OWNER, [_, c] => if c == 0 then 0x1100C else 0
  | .EPORT_CFG, [p] => portType p <<< 8
  | .PTP_PORT_CONST, [p] =>
    let t := portType p
    if t == 0 then 186 <<< 16 ||| 412 else if t == 1 then 262 <<< 16 ||| 598 else if t == 2 then 348 <<< 16 ||| 1126
    else if t == 3 then 1820 <<< 16 ||| 3340 else if t == 4 then 38 <<< 16 ||| 52 else 0
  | .TRUSS_STATUS, _ => Config.stepping.toNat <<< 16
  | .VDEV_INST_STATE, _ => 0
  | .KEY_UID, [w] => bitsOf Config.uid.toNat (32 * w + 31) (32 * w)
  | _, _ => h.d.reset

/-- Cold reset value of the register at an address; 0 where there is none. -/
def coldAt (a : Nat) : Nat :=
  match findReg a with
  | some h => resetOf h
  | none => 0

namespace Mach

/-- The stored value of the register at `a`. -/
def rd (m : Mach) (a : Nat) : Nat :=
  match kget m.regs a with
  | some v => v.toNat
  | none => coldAt a

/-- The register at `a` set to `v`; the cold value is kept as no entry. -/
def wr (m : Mach) (a v : Nat) : Mach :=
  if v % 2 ^ 32 == coldAt a then { m with regs := kdel m.regs a }
  else { m with regs := kput m.regs a (BitVec.ofNat 32 v) }

/-- Field `hi:lo` of the register at `a`. -/
def fld (m : Mach) (a hi lo : Nat) : Nat := bitsOf (m.rd a) hi lo

/-- Bit `i` of the register at `a`. -/
def bit (m : Mach) (a i : Nat) : Bool := bitOf (m.rd a) i

/-- Field `hi:lo` of the register at `a` set to `x`. -/
def setFld (m : Mach) (a hi lo x : Nat) : Mach := m.wr a (withBits (m.rd a) hi lo x)

/-- Bit `i` of the register at `a` set to `b`. -/
def setBit (m : Mach) (a i : Nat) (b : Bool) : Mach := m.setFld a i i (flagNat b)

/-- A status bit raised by an event (W1C bits are set by the event named, table R4). -/
def fire (m : Mach) (a i : Nat) : Mach := m.setBit a i true

/-- A 32-bit event counter incremented, saturating at 0xFFFF_FFFF. -/
def bump (m : Mach) (a : Nat) : Mach := m.wr a (satInc 32 (m.rd a))

/-- A 16-bit event counter incremented, saturating at 0xFFFF. -/
def bump16 (m : Mach) (a : Nat) : Mach := m.wr a (satInc 16 (m.rd a))

/-- A 32-bit counter advanced by `n`, saturating. -/
def bumpBy (m : Mach) (a n : Nat) : Mach := m.wr a (min (m.rd a + n) 0xFFFFFFFF)

/-- A 64-bit value written into a LO and HI pair. -/
def wr64 (m : Mach) (lo hi v : Nat) : Mach := (m.wr lo (v % 2 ^ 32)).wr hi (v / 2 ^ 32 % 2 ^ 32)

/-- The 64-bit value of a LO and HI pair. -/
def rd64 (m : Mach) (lo hi : Nat) : Nat := m.rd lo + 2 ^ 32 * m.rd hi

/-- Every register of the window `[b, b + n)` back at its cold value (R101, R102). -/
def coldRange (m : Mach) (b n : Nat) : Mach :=
  { m with regs := m.regs.filter fun e => !(b ≤ e.1 && e.1 < b + n) }

/-- Every register of unit `u` back at its cold value. -/
def coldUnit (m : Mach) (u : Nat) : Mach :=
  match unitTable[u]? with
  | some (b, sz, _) => m.coldRange b sz
  | none => m

/-- The next free value, and the machine that has drawn it. -/
def draw (m : Mach) : BitVec 64 × Mach := (Config.free m.drawn, { m with drawn := m.drawn + 1 })

/-- The answer given to the initiator. -/
def answer (m : Mach) (r : Resp) : Mach := { m with resp := r }

/-- An update journal entry made (R79, R480). -/
def journal (m : Mach) (code : Nat) (a0 a1 a2 : Nat := 0) : Mach :=
  { m with jq := m.jq ++ [⟨code, a0, a1, a2⟩] }

/-- `f` applied for every element of a list, in order. -/
def forAll {α : Type} (m : Mach) (l : List α) (f : Mach → α → Mach) : Mach := l.foldl f m

/-- `f m` when `b` holds, else `m`. -/
def doIf (m : Mach) (b : Bool) (f : Mach → Mach) : Mach := if b then f m else m

end Mach

end Sys2Proof.Machine
end

