-- ==== Sys2Proof/Machine/Access.lean ====
section
/-! DEFINITION. Who accesses: the partition and world of an initiator (R356, R405, R419), the owner of a register
and whom the owner admits (R58, R62, R363, R392, R425), the blocks in reset that answer GONE (R100, R101, R104,
R123), and how refused accesses are recorded (R5, R63, R416). -/

namespace Sys2Proof.Machine

/-- Initiator IDs of table R356. -/
def idLOADER : Nat := 0x33
def idSECURITY : Nat := 0x32
def idGATEWAY : Nat := 0x30
def idDEBUG : Nat := 0xF0

/-- The world a core executes: heartwood during a visit, or when it carries only a heartwood partition (R406). -/
def Core.heartNow (c : Core) : Bool := c.inHeart || (c.sap.isNone && c.heart.isSome)

/-- The partition in whose world a core executes. -/
def Core.partNow (c : Core) : Option Nat := if c.heartNow then c.heart else c.sap

namespace Mach

/-- The core behind an initiator ID. -/
def core (m : Mach) (init : Nat) : Option Core := kget m.fab.cores init

/-- The partition in which an initiator executes. -/
def partOf (m : Mach) (init : Nat) : Option Nat :=
  match m.core init with
  | some c => if c.run then c.partNow else none
  | none => none

/-- Debug enables in force: bit 0 sapwood non-invasive, 1 sapwood invasive, 2 heartwood non-invasive,
3 heartwood invasive (WORLD_DBG_STATUS, R417). -/
def dbgEnables (m : Mach) : Nat := m.fld Rg.WORLD_DBG_STATUS 3 0

/-- World of an initiator's requests (R405): true is heartwood. -/
def isHeart (m : Mach) (init : Nat) : Bool :=
  if init == idDEBUG then bitOf m.dbgEnables 3
  else match m.core init with
    | some c => c.heartNow
    | none => (0x20 ≤ init && init ≤ 0x21) || (0x30 ≤ init && init ≤ 0x33) || init == 0x60 || init == 0x61

/-- The owner code that claims a resource, if a record claims it (R58). -/
def claimOf (m : Mach) (cls idx : Nat) : Option Nat :=
  (m.truss.claims.find? fun c => c.cls == cls && c.idx == idx).map (·.owner)

/-- Owner of a resource, with the unit that owns it when unclaimed (R61). -/
def ownerOr (m : Mach) (cls idx unit : Nat) : Nat := (m.claimOf cls idx).getD (ownUnit unit)

/-- Bent that owns a duty, its epoch, and the partition that serves it in a bent (BENT_DUTY_d, R391). -/
def dutyOwner (m : Mach) (d : Nat) : Nat := m.fld (Rg.BENT_DUTY d) 29 29
def dutyEpoch (m : Mach) (d : Nat) : Nat := m.fld (Rg.BENT_DUTY d) 15 0
def dutyPart (m : Mach) (d bent : Nat) : Nat :=
  if bent == 0 then m.fld (Rg.BENT_DUTY d) 23 20 else m.fld (Rg.BENT_DUTY d) 27 24
def dutyValid (m : Mach) (d : Nat) : Bool := m.bit (Rg.BENT_DUTY d) 31

/-- Partition that hosts a virtual device instance (VDEV_INST_CFG). -/
def instPart (m : Mach) (i : Nat) : Option Nat :=
  if m.bit (Rg.VDEV_INST_CFG i) 31 then some (m.fld (Rg.VDEV_INST_CFG i) 27 24) else none

end Mach

/-- How an owner receives a write (R62, R392). -/
inductive Admit where
  /-- accepted, with the duty and epoch tag of a bent partition's write (R148) -/
  | accept (tag : Option (Nat × Nat))
  /-- a write by the standby partition of a duty: shadowed in the buffer of the given bent -/
  | shadow (bent duty : Nat)
  | refuse
  deriving DecidableEq, Repr

namespace Mach

/-- Table R62: whether the owner `own` accepts a write of `init`, and how. -/
def ownerAdmits (m : Mach) (init own : Nat) : Admit :=
  if init == idLOADER then .accept none
  else
    let kind := own / 0x1000
    let i := own % 0x1000
    if kind == 4 then
      match m.partOf init with
      | none => .refuse
      | some p =>
        let b := m.dutyOwner i
        if !m.dutyValid i then .refuse
        else if p == m.dutyPart i b then .accept (some (i, m.dutyEpoch i))
        else if p == m.dutyPart i (1 - b) then .shadow (1 - b) i
        else .refuse
    else if m.isHeart init then .accept none
    else if kind == 2 then (if m.partOf init == some i then .accept none else .refuse)
    else if kind == 3 then
      (if (m.instPart i).isSome && m.partOf init == m.instPart i then .accept none else .refuse)
    else .refuse

/-- Whether the owner accepts a write of `init` in any form but shadowed. -/
def admits (m : Mach) (init own : Nat) : Bool :=
  match m.ownerAdmits init own with
  | .accept _ => true
  | _ => false

/-! ### Blocks in reset -/

/-- ADC that converts a measurement input (table R178). -/
def adcOf (i : Nat) : Nat := if i < 48 then i / 6 else if i < 80 then (i - 48) / 4 else (i - 80) / 2

/-- Elements of a group bit of RSTC_GROUP_RST: unit and index pairs (table R13). -/
def groupElems (g : Nat) : List (Nat × Nat) :=
  let span (u a n : Nat) := (List.range n).map fun i => (u, a + i)
  if g < 6 then span uLOAD (8 * g) 8
  else if g == 6 then span uEPORT 0 2
  else if g == 7 then span uEPORT 2 4
  else if g == 8 then span uEPORT 6 6
  else if g == 9 then span uEPORT 12 4
  else if g == 10 then span uEPORT 16 2
  else if g == 11 then span uEPORT 18 4
  else if g < 15 then span uMBUS (4 * (g - 12)) 4
  else if g == 15 then span uLIN 0 12
  else if g == 16 then span uSENT 0 8
  else if g < 25 then ((List.range 96).filter (adcOf · == g - 17)).map fun i => (uMEAS, i)
  else if g == 25 then span uBENT 0 6
  else if g == 26 then span uBENT 6 6
  else if g == 27 then span uFAB 0 4
  else []

/-- Group bit of RSTC_GROUP_RST that holds an element, if its unit has groups. -/
def groupOf (u i : Nat) : Option Nat :=
  if u == uLOAD then some (i / 8)
  else if u == uEPORT then
    some (if i < 2 then 6 else if i < 6 then 7 else if i < 12 then 8 else if i < 16 then 9 else if i < 18 then 10 else 11)
  else if u == uMBUS then some (12 + i / 4)
  else if u == uLIN then some 15
  else if u == uSENT then some 16
  else if u == uMEAS then some (17 + adcOf i)
  else if u == uBENT then some (if i < 6 then 25 else 26)
  else if u == uFAB then some 27
  else none

/-- BIST partitions that hold a whole unit, or an element of one, when they read FAIL (tables R119, R123). -/
def bistBlock (m : Mach) (u : Nat) (i : Option Nat) : Bool :=
  let h := m.rst.bistHeld
  let has (p : Nat) := h.contains p
  (u == uFAB && match i with | some n => has n || has 4 | none => false)
  || (u == uBENT && match i with | some n => has (6 + n / 2) | none => false)
  || (u == uCHK && match i with | some c => has (if c < 3 then 12 else 13) | none => false)
  || (u == uSWC && (has 14 || has 15))
  || (u == uMBUS && match i with | some c => has (18 + c / 4) | none => false)
  || (u == uUPD && has 26) || (u == uWORLD && has 27) || (u == uVDEV && has 28) || (u == uIRQ && has 29)
  || (u == uPTP && has 31) || (u == uEPORT && has 32) || (u == uLIN && has 33) || (u == uSENT && has 34)
  || (u == uNM && has 35) || (u == uGWY && has 36) || (u == uMEAS && has 37)

/-- A unit held in reset: its bit of RSTC_UNIT_RST, a pulsed reset of R40 or R127, or a held BIST partition. -/
def unitHeld (m : Mach) (u : Nat) : Bool :=
  m.bit Rg.RSTC_UNIT_RST u || m.rst.pulsed.contains (1, u, 0) || m.bistBlock u none

/-- An element held in reset: its own bit, its group's or unit's bit, a pulse, a bent hold or a held BIST
partition (R100, R103, R396). -/
def elemHeld (m : Mach) (u i : Nat) : Bool :=
  m.unitHeld u || m.rst.elems.contains (u, i) || m.rst.pulsed.contains (2, u, i)
  || (match groupOf u i with | some g => m.bit Rg.RSTC_GROUP_RST g | none => false)
  || m.bistBlock u (some i)

/-- A far die held in die reset by its RSTC bit, by a pulse, or by NRESET. -/
def dieHeld (m : Mach) (d : FarDie) : Bool :=
  match d with
  | .l => m.bit Rg.RSTC_DIE_RST 0 || m.rst.pulsed.contains (0, 1, 0) || m.rst.lReset
  | .p => m.bit Rg.RSTC_DIE_RST 1 || m.rst.pulsed.contains (0, 2, 0)

/-- Link state codes of LATH_STATUS.state (R352): 0 DOWN, 1 HELD, 2 TRAINING, 3 UP, 4 RETRAIN. -/
def linkState (m : Mach) (link : Nat) : Nat := m.fld (Rg.LATH_STATUS link) 2 0

/-- A link that carries a commit strobe (R34): UP or RETRAIN. -/
def linkUp (m : Mach) (link : Nat) : Bool := m.linkState link == 3 || m.linkState link == 4

end Mach

/-- Whether a register lies on the L-die (R18, R235, R272) or on the P-die (R2). -/
def Hit.far (h : Hit) (a : Nat) : Option FarDie :=
  if 0x42000000 ≤ a && a < 0x42010000 then some .p
  else match h.d.name, h.idx with
    | .MBUS_XCVR_CTRL, _ | .MBUS_XCVR_STATUS, _ | .MBUS_WUF_ID, _ | .MBUS_WUF_ID_MASK, _ | .MBUS_WUF_DLC, _
    | .MBUS_WUF_DATA_LO, _ | .MBUS_WUF_DATA_HI, _ | .MBUS_WUF_MASK_LO, _ | .MBUS_WUF_MASK_HI, _
    | .MBUS_WUF_ERR, _ => some .l
    | _, p :: _ =>
      if 0x41200000 ≤ a && a < 0x41200000 + 0x12000 && a % 0x1000 < 0x40 && p < 18 then some .l else none
    | _, _ => none

/-- The element of a register for the resets of R100: unit and index. -/
def Hit.elem (h : Hit) (a : Nat) : Option (Nat × Nat) :=
  match unitAt a, h.idx with
  | some (u, _), i :: _ =>
    if u == uMBUS then
      (if h.d.name == .MBUS_FLT_CFG || h.d.name == .MBUS_FLT_ID || h.d.name == .MBUS_FLT_MASK
          || h.d.name == .MBUS_FLT_HIT_CNT then none else some (u, i))
    else if u == uLIN || u == uSENT || u == uEPORT || u == uCHK then some (u, i)
    else if u == uLOAD then (if a < 0x42003000 then some (u, i) else none)
    else if u == uMEAS then
      (match h.d.name with
       | .MEAS_VALUE | .MEAS_RAW | .MEAS_IN_CFG | .MEAS_IN_LIMIT => some (u, i)
       | _ => none)
    else none
  | _, _ => none

namespace Mach

/-- A register lies in a die or block in reset (R101). A read of a LOAD channel register is served while an element, bank
or unit reset holds the channel (R101, R145); the registers of a bank lie in its group. -/
def blockHeld (m : Mach) (h : Hit) (a : Nat) (write : Bool) : Bool :=
  (match h.far a with
   | some d => m.dieHeld d
   | none => false)
  || (match unitAt a with
      | some (u, _) =>
        if u == uLOAD then
          if a < 0x4200B000 then
            write && (match h.elem a with
              | some (_, i) => m.elemHeld uLOAD i
              | none => m.unitHeld uLOAD)
          else m.unitHeld uLOAD || (0x4200D000 ≤ a && a < 0x4200D0C0 && m.bit Rg.RSTC_GROUP_RST ((a - 0x4200D000) / 0x20))
        else m.unitHeld u || (match h.elem a with | some (v, i) => m.elemHeld v i | none => false)
      | none => false)

/-- Whether an access to a register ends with GONE (R101, R104, R354): it is in reset, or its link is DOWN or HELD. -/
def goneAt (m : Mach) (h : Hit) (a : Nat) (write : Bool) : Bool :=
  m.rst.cReset
  || (match h.far a with
      | some .l => m.linkState 0 == 0 || m.linkState 0 == 1
      | some .p => m.linkState 1 == 0 || m.linkState 1 == 1
      | none => false)
  || m.blockHeld h a write

/-- One dropped reply or write (R101). -/
def goneDrop (m : Mach) (n : Nat := 1) : Mach :=
  if n == 0 then m else (m.bumpBy Rg.RSTC_GONE_DROP_CNT n).fire Rg.RSTC_IRQ_STATUS 6

/-- An ownership violation recorded (R63). -/
def ownerViolation (m : Mach) (a init : Nat) : Mach :=
  let m1 := m.bump Rg.TRUSS_VIOL_CNT
  let m2 := if m.bit Rg.TRUSS_IRQ_STATUS 3 then m1
    else (m1.wr Rg.TRUSS_VIOL_ADDR (a % 2 ^ 32)).wr Rg.TRUSS_VIOL_INIT init
  m2.fire Rg.TRUSS_IRQ_STATUS 3

/-- A world access violation recorded (R416). -/
def worldViolation (m : Mach) (a init : Nat) : Mach :=
  let m1 := m.bump Rg.WORLD_VIOL_CNT
  let m2 := if m.bit Rg.WORLD_IRQ_STATUS 0 then m1
    else (m1.wr64 Rg.WORLD_VIOL_ADDR_LO Rg.WORLD_VIOL_ADDR_HI a).wr Rg.WORLD_VIOL_INIT init
  m2.fire Rg.WORLD_IRQ_STATUS 0

/-- The debug port's right to write or read at all (R419). -/
def dbgMay (m : Mach) (write : Bool) : Bool :=
  if write then bitOf m.dbgEnables 1 || bitOf m.dbgEnables 3 else m.dbgEnables != 0

end Mach

/-- Whether every field of a register, reserved fields aside, carries -HW (R5). -/
def RegDesc.allHw (d : RegDesc) : Bool := d.flds.all (·.hw)

/-- Mask of the fields of a register with the given property. -/
def RegDesc.maskIf (d : RegDesc) (p : Fld → Bool) : Nat :=
  d.flds.foldl (fun v f => if p f then v ||| maskOf f.hi f.lo else v) 0

end Sys2Proof.Machine
end

