-- ==== Sys2Proof/Machine/Pins.lean ====
section
/-! DEFINITION. Balls and their functions (R493 to R497): ball numbers, groups, the function in force on a ball and
the owner of its record. -/

namespace Sys2Proof.Machine

/-- Groups of table R494 whose balls a PIN record may name, and the rest. -/
inductive BallGroup where
  | lpddr | xspi | jtag | trace | mb | lin (n : Nat) | sent | supervisor | wake | timeOut (k : Nat)
  | aux | timeIn (k : Nat) | ain | hx (lane : Nat) | xtal | eth (p : Nat)
  | noSignal | depopulated
  deriving DecidableEq, Repr

/-- Ball number of row `r`, column `c` (R493). -/
def ballNo (r c : Nat) : Nat := 40 * (r - 1) + (c - 1)

/-- Group of a ball number (R493, R494). -/
def ballGroup (n : Nat) : BallGroup :=
  let r := n / 40 + 1
  let c := n % 40 + 1
  let within (x a b : Nat) : Bool := a ≤ x && x ≤ b
  if 1600 ≤ n then .depopulated
  else if within r 14 27 && within c 15 26 then .depopulated
  else if (r == 1 || r == 40) && (c ≤ 5 || 36 ≤ c) then .depopulated
  else if within r 2 4 && within c 8 33 then .lpddr
  else if r == 6 && within c 8 19 then .xspi
  else if r == 6 && within c 22 26 then .jtag
  else if r == 6 && within c 27 35 then .trace
  else if c == 2 && within r 8 31 then .mb
  else if c == 3 && within r 8 19 then .lin (r - 8)
  else if c == 3 && within r 20 23 then .sent
  else if c == 39 && within r 4 6 then .supervisor
  else if c == 39 && within r 8 23 then .wake
  else if c == 39 && within r 26 33 then .timeOut (r - 26)
  else if c == 37 && within r 8 15 then .aux
  else if c == 37 && within r 26 33 then .timeIn (r - 26)
  else if c == 38 && within r 5 36 then .ain
  else if r == 36 && within c 16 19 then .hx 0
  else if r == 36 && within c 20 23 then .hx 1
  else if r == 36 && within c 26 27 then .xtal
  else if r == 38 && within c 4 35 then .eth ((c - 4) / 2)
  else .noSignal

/-- Function codes that a ball's group accepts (tables R219, R496). -/
def BallGroup.accepts (g : BallGroup) (f : Nat) : Bool :=
  match g with
  | .noSignal | .depopulated => false
  | .lin n => f == 0 || f == 1 || (f == 2 && 8 ≤ n)
  | .timeOut _ => f == 0 || (0x10 ≤ f && f < 0x18) || f == 0x60
  | .aux => f == 0 || (0x10 ≤ f && f < 0x18)
  | .timeIn _ => f == 0 || f == 0x61
  | .jtag => f == 0 || f == 0x70
  | .trace => f == 0 || f == 0x71
  | .eth p => f == 0 || (if p < 12 then f == 0x40 || f == 0x41 else f == 0x48 || (0x50 ≤ f && f < 0x58))
  | .hx _ => f == 0 || f == 0x58 || f == 0x59
  | _ => f == 0 || f == 1

/-- Whether the electrical byte suits the ball's group (R497). -/
def BallGroup.electricalOk (g : BallGroup) (e : Nat) : Bool :=
  let pull := match g with | .aux | .timeOut _ | .timeIn _ | .jtag | .trace | .ain => true | _ => false
  let od := match g with | .aux | .timeOut _ => true | _ => false
  let drive := match g with | .aux | .timeOut _ | .trace | .xspi => true | _ => false
  bitsOf e 1 0 != 3 && (pull || bitsOf e 1 0 == 0) && (od || !bitOf e 2) && (drive || bitsOf e 5 4 == 0)
    && !bitOf e 3 && bitsOf e 7 6 == 0

namespace Mach

/-- The PIN record in force for a ball: function, electrical byte, owner. -/
def pinAt (m : Mach) (ball : Nat) : Option (Nat × Nat × Nat) :=
  (m.truss.pins.find? (·.1 == ball)).map (·.2)

/-- Function of a ball's record, if it has one. -/
def pinFn (m : Mach) (ball : Nat) : Option Nat := (m.pinAt ball).map (·.1)

/-- A record of function NONE turns the ball at row `r`, column `c` off: no input, not driven (R496). -/
def pinOff (m : Mach) (r c : Nat) : Bool := m.pinFn (ballNo r c) == some 0

/-- TIME_OUT k drives its ball: no record, or function TIME_OUT (R250). -/
def timeOutOn (m : Mach) (k : Nat) : Bool :=
  match m.pinFn (ballNo (26 + k) 39) with
  | none => true
  | some f => f == 0x60

/-- TIME_IN k captures only under a record with function TIME_IN (R252). -/
def timeInOn (m : Mach) (k : Nat) : Bool := m.pinFn (ballNo (26 + k) 37) == some 0x61

/-- Owner of TIME_IN k: its record's owner, else the unit (R252). -/
def timeInOwner (m : Mach) (k : Nat) : Nat :=
  match m.pinAt (ballNo (26 + k) 37) with
  | some (_, _, o) => o
  | none => ownUnit uPTP

/-- The balls of Ethernet port `p` (0 to 17). -/
def portBalls (p : Nat) : List Nat :=
  if p < 16 then [ballNo 38 (4 + 2 * p), ballNo 38 (5 + 2 * p)]
  else (List.range 4).map fun i => ballNo 36 (16 + 4 * (p - 16) + i)

/-- Function of an Ethernet port (R219): that of its records, or its type's default. -/
def portFn (m : Mach) (p : Nat) : Nat :=
  ((portBalls p).findSome? m.pinFn).getD (if p < 12 then 0x40 else if p < 16 then 0x48 else 0x58)

end Mach

end Sys2Proof.Machine
end

