-- ==== Sys2Proof/Machine/Records.lean ====
section
/-! DEFINITION. Records of a truss image (R48 to R50): fields by offset, records of a section, the lowest failing
field of a check (R57); and the checks of the GATEWAY records (R317 to R324), which hold at a start and at run time. -/

namespace Sys2Proof.Machine

/-- Section type codes of R46. -/
def sPINS : Nat := 1
def sCLOCKS : Nat := 2
def sPARTS : Nat := 3
def sMEMORY : Nat := 4
def sTICK : Nat := 5
def sLOAD : Nat := 6
def sMEAS : Nat := 7
def sSWITCH : Nat := 8
def sPTP : Nat := 9
def sMBUS : Nat := 10
def sLIN : Nat := 11
def sSENT : Nat := 12
def sNM : Nat := 13
def sGATEWAY : Nat := 14
def sVDEV : Nat := 15
def sBENT : Nat := 16
def sSAFETY : Nat := 17
def sKEYS : Nat := 18
def sSETTINGS : Nat := 19

/-- Fields of a record at an offset from its start. -/
def Rec.u8 (r : Rec) (o : Nat) : Nat := leAt r.bytes o 1
def Rec.u16 (r : Rec) (o : Nat) : Nat := leAt r.bytes o 2
def Rec.u32 (r : Rec) (o : Nat) : Nat := leAt r.bytes o 4
def Rec.u64 (r : Rec) (o : Nat) : Nat := leAt r.bytes o 8

/-- The section of a type. -/
def Image.sect (i : Image) (typ : Nat) : Option Sect := i.sects.find? (·.typ == typ)

/-- Records of a kind of a section, in record order. -/
def Image.recs (i : Image) (typ kind : Nat) : List Rec :=
  match i.sect typ with
  | some s => s.recs.filter (·.kind == kind)
  | none => []

/-- The record of a kind whose key field at an offset holds a value. -/
def Image.recBy (i : Image) (typ kind : Nat) (key : Rec → Nat) (v : Nat) : Option Rec :=
  (i.recs typ kind).find? fun r => key r == v

/-- The offset of the first failing field of a list in ascending order of offset. -/
def firstBad : List (Nat × Bool) → Option Nat
  | [] => none
  | (o, ok) :: t => if ok then firstBad t else some o

/-- A value lies in a closed range. -/
def inSpan (v a b : Nat) : Bool := a ≤ v && v ≤ b

/-! ### PDUs -/

/-- Fields of a PDU record (table R317). -/
def pduNo (r : Rec) : Nat := r.u16 4
def pduKind (r : Rec) : Nat := r.u8 6
def pduTx (r : Rec) : Bool := bitOf (r.u8 7) 0
def pduMode (r : Rec) : Nat := bitsOf (r.u8 7) 2 1
def pduFormat (r : Rec) : Nat := bitsOf (r.u8 7) 4 3
def pduLen (r : Rec) : Nat := r.u16 8
def pduIndex (r : Rec) : Nat := r.u16 10
def pduId (r : Rec) : Nat := r.u32 12
def pduCycle (r : Rec) : Nat := r.u16 16
def pduOffset (r : Rec) : Nat := r.u16 18
def pduTimer (r : Rec) : Nat := r.u16 20
def pduUpd (r : Rec) : Nat := r.u16 22

/-- Directions that a kind allows: receive, transmit (table R318). -/
def kindDirs (k : Nat) : Bool × Bool :=
  if k == 1 || k == 2 || k == 5 then (true, true)
  else if k == 3 || k == 4 || k == 6 || k == 7 || k == 9 then (true, false)
  else if k == 8 || k == 0xA then (false, true)
  else (false, false)

/-- Flag bits that a kind and direction use. -/
def pduFlagMask (r : Rec) : Nat :=
  let k := pduKind r
  1 ||| (if pduTx r then 6 else 0)
    ||| (if k == 1 && pduTx r then 0x18 ||| (if pduFormat r == 1 then 0x20 else 0) ||| (if pduFormat r < 2 then 0x40 else 0) else 0)
    ||| (if k == 2 then 0x80 else 0)

/-- Lengths of table R318. -/
def pduLenOk (r : Rec) : Bool :=
  let k := pduKind r
  let n := pduLen r
  if k == 1 then
    if !pduTx r || pduFormat r == 2 then inSpan n 1 2048
    else if pduFormat r == 0 then inSpan n 1 8
    else inSpan n 1 8 || [12, 16, 20, 24, 32, 48, 64].contains n
  else if k == 2 then inSpan n 1 8
  else if k == 3 || k == 4 || k == 6 || k == 8 then n == 4
  else if k == 5 then inSpan n 1 1492
  else if k == 7 then n == 8
  else if k == 9 then inSpan n 1 256
  else inSpan n 1 2048

/-- index of table R318. -/
def pduIndexOk (r : Rec) : Bool :=
  let k := pduKind r
  let i := pduIndex r
  if k == 1 then (if pduTx r then i < 12 else i < 8192)
  else if k == 2 then i < 12
  else if k == 3 || k == 4 then i < 8
  else if k == 5 then (if pduTx r then i < 16 else i == 0)
  else if k == 6 then i < 96
  else if k == 7 || k == 8 then i < 48
  else if k == 9 then i < 64
  else inSpan i 2 8191

/-- id of table R318. -/
def pduIdOk (r : Rec) : Bool :=
  let k := pduKind r
  let v := pduId r
  if k == 1 && pduTx r then
    (if pduFormat r == 2 then v < 2 ^ 27 else if bitOf (r.u8 7) 6 then v < 2 ^ 29 else v < 2 ^ 11)
  else if k == 2 then v ≤ 0x3D
  else if k == 5 then true
  else v == 0

/-- LIN channels 8 to 11 whose ball a SENT input takes (R282, R496). -/
def Image.linTaken (i : Image) (c : Nat) : Bool :=
  8 ≤ c && ((i.recBy sPINS 1 (·.u16 4) (40 * (7 + c) + 2)).any (·.u8 6 == 2)
    || (i.recBy sSENT 1 (·.u8 4) (c - 4)).isSome)

/-- The lowest failing field of a PDU record against the image's other sections and the PDU records `others` that
stand before it (R320). -/
def pduFault (i : Image) (others : List Rec) (r : Rec) : Option Nat :=
  let k := pduKind r
  let tx := pduTx r
  let x := pduIndex r
  let cyc := tx && (pduMode r == 0 || pduMode r == 2)
  let gap := tx && (pduMode r == 1 || pduMode r == 2)
  let dirs := kindDirs k
  let same := others.filter fun o => pduKind o == k && pduTx o == tx
  let chan := i.recBy sMBUS 1 (·.u8 4) x
  let linkOk : Bool :=
    if k == 1 && !tx then
      (match i.recBy sMBUS 2 (·.u16 4) x with | some f => bitOf (f.u8 7) 3 | none => false) && !same.any (pduIndex · == x)
    else if k == 1 then chan.isSome
    else if k == 2 then (i.recBy sLIN 1 (·.u8 4) x).isSome && !i.linTaken x
    else if k == 3 then (i.recBy sSENT 1 (·.u8 4) x).isSome
    else if k == 4 then (match i.recBy sSENT 1 (·.u8 4) x with | some s => bitsOf (s.u8 5) 6 5 != 0 | none => false)
    else if k == 8 then (match i.recBy sLOAD 1 (·.u8 4) x with | some c => c.u16 8 == 0x1015 | none => false)
      && !same.any (pduIndex · == x)
    else if k == 9 then (i.recBy sBENT 1 (·.u8 4) x).isSome && !same.any (pduIndex · == x)
    else if k == 0xA then !same.any fun o => 8 * pduIndex o < 8 * x + pduLen r && 8 * x < 8 * pduIndex o + pduLen o
    else true
  let formatOk : Bool := if k == 1 && tx then pduFormat r ≤ 2 && chan.all fun c => pduFormat r ≤ bitsOf (c.u8 5) 1 0 else true
  let idFree : Bool :=
    if k == 2 then !(others.any fun o => pduKind o == 2 && pduIndex o == x && pduId o == pduId r)
    else if k == 5 && !tx then !same.any (pduId · == pduId r)
    else true
  firstBad [
    (4, pduNo r < 4096),
    (6, dirs.1 || dirs.2),
    (7, (if tx then dirs.2 else dirs.1) && pduMode r ≤ 2 && (r.u8 7 &&& pduFlagMask r) == r.u8 7 && formatOk),
    (8, pduLenOk r && (k != 0xA || 8 * x + pduLen r ≤ 65536)),
    (10, pduIndexOk r && linkOk),
    (12, pduIdOk r && idFree),
    (16, if cyc then inSpan (pduCycle r) 1 1023 else pduCycle r == 0),
    (18, if cyc then pduOffset r < pduCycle r else pduOffset r == 0),
    (20, if tx then (if gap then pduTimer r ≤ 1023 else pduTimer r == 0) else true),
    (22, if tx then pduUpd r ≤ 8 * pduLen r else pduUpd r == 0)]

/-- Bytes of the store that a PDU takes (check 22 of R320). -/
def pduCost (r : Rec) : Nat := 2 * (ceilDiv (pduLen r) 8 * 8)
def pduStore : Nat := 1048576

/-! ### Routes -/

/-- Fields of a route record (table R321). -/
def rtNo (r : Rec) : Nat := r.u16 4
def rtSrc (r : Rec) : Nat := r.u16 6
def rtDst (r : Rec) : Nat := r.u16 8
def rtSrcBit (r : Rec) : Nat := r.u16 10
def rtDstBit (r : Rec) : Nat := r.u16 12
def rtSrcW (r : Rec) : Nat := r.u8 14
def rtDstW (r : Rec) : Nat := r.u8 15
def rtFlag (r : Rec) (b : Nat) : Bool := bitOf (r.u8 16) b
def rtSubst (r : Rec) : Nat := bitsOf (r.u8 16) 6 5
def rtShift (r : Rec) : Nat := bitsOf (r.u8 17) 5 0
def rtLane (r : Rec) : Nat := bitsOf (r.u8 17) 7 6
def rtUpd (r : Rec) : Nat := r.u16 18
def rtDiv (r : Rec) : Nat := r.u16 20
def rtOffset (r : Rec) : Nat := r.u16 22
def rtA (r : Rec) : Int := signedOf 32 (r.u32 24)
def rtB (r : Rec) : Int := signedOf 32 (r.u32 28)

/-- Bit positions of a field of width `w` that starts at bit `k`, in the order in which R322 visits them. -/
def fieldBits (be : Bool) : Nat → Nat → List Nat
  | _, 0 => []
  | k, w + 1 => k :: fieldBits be (if be then (if k % 8 == 0 then k + 15 else k - 1) else k + 1) w

/-- Destination bits of a route. -/
def rtDstBits (r : Rec) : List Nat := fieldBits (rtFlag r 2) (rtDstBit r) (rtDstW r)

/-- The lowest failing field of a route record against the PDU records and the routes that stand before it (R324). -/
def routeFault (pdus others : List Rec) (r : Rec) : Option Nat :=
  let src := pdus.find? fun p => pduNo p == rtSrc r && !pduTx p
  let dst := pdus.find? fun p => pduNo p == rtDst r && pduTx p
  let fits (p : Option Rec) (bs : List Nat) : Bool := p.all fun x => bs.all (· < 8 * pduLen x)
  let free : Bool := !(others.any fun o => rtDst o == rtDst r && (rtDstBits o).any (rtDstBits r).contains)
    && dst.all fun p => pduUpd p == 0 || !(rtDstBits r).contains (pduUpd p - 1)
  firstBad [
    (4, rtNo r < 8192),
    (6, src.isSome),
    (8, dst.isSome),
    (10, fits src (fieldBits (rtFlag r 0) (rtSrcBit r) (min 32 (rtSrcW r)))),
    (12, fits dst (fieldBits (rtFlag r 2) (rtDstBit r) (min 32 (rtDstW r))) && free),
    (14, inSpan (rtSrcW r) 1 32),
    (15, inSpan (rtDstW r) 1 32),
    (16, rtSubst r ≤ 2 && !rtFlag r 7),
    (18, src.all fun p => rtUpd r ≤ 8 * pduLen p),
    (20, inSpan (rtDiv r) 1 1023),
    (22, rtOffset r < rtDiv r)]

end Sys2Proof.Machine
end

