-- ==== Sys2Proof/Machine/Stage.lean ====
section
/-! DEFINITION. Tick-committed writes: late writes and the staging queues (R29 to R34), what a commit drops (R39,
R101), the shadow buffers of the bents and the switch-over of duties (R391 to R401), and the consequences that a
step leaves to be carried out (faults raised to the SAFETY section, R126). -/

namespace Sys2Proof.Machine

/-- The identity that a write carries (R33): the partition as a tick client, or another initiator. -/
def Stg.who (e : Stg) : Option Nat × Nat := (e.part, if e.part.isSome then 0 else e.init)

/-- Two staged writes share an entry of a far staging queue (R33). -/
def Stg.sameEntry (a b : Stg) : Bool :=
  a.addr == b.addr && a.who == b.who && a.tags == b.tags && a.members == b.members && a.wait == b.wait
    && a.live == b.live

/-- Entries that pending writes hold: writes that share an entry are counted once (R33). The writes themselves stay in
order of acceptance, because a value that the far die rejects leaves an earlier one of the same tick (R30). -/
def stgCount : List Stg → Nat
  | [] => 0
  | e :: t => stgCount t + if t.any (Stg.sameEntry e) then 0 else 1

/-- Capacity of the staging queues (R33). -/
def capL : Nat := 1024
def capP : Nat := 256

namespace Mach

/-- A consequence left for the end of the step. -/
def push (m : Mach) (t : Todo) : Mach := { m with todo := m.todo ++ [t] }

/-- A fault code raised to the SAFETY section (R126, R128). -/
def raise (m : Mach) (code arg : Nat) : Mach := m.push (.safety code arg)

/-- Kerf under way (TICK_STATUS.in_kerf). -/
def inKerf (m : Mach) : Bool := m.bit Rg.TICK_STATUS 2

/-- An RW/T write accepted: deferred and counted in the kerf (R32), appended to the pending writes of its die.
`false` says that the far staging queue is full (R33): nothing is staged. -/
def stageWrite (m : Mach) (die : Option FarDie) (e : Stg) : Mach × Bool :=
  let late := m.inKerf && !e.live
  let e' := if late then { e with wait := 1 } else e
  let count (m : Mach) : Mach := if late then (m.bump Rg.TICK_LATE_CNT).fire Rg.TICK_IRQ_STATUS 4 else m
  let full (m : Mach) : Mach := (m.bump Rg.TICK_STAGE_FULL_CNT).fire Rg.TICK_IRQ_STATUS 5
  match die with
  | none => (count { m with stage := { m.stage with c := m.stage.c ++ [e'] } }, true)
  | some .l =>
    let q := m.stage.l ++ [e']
    if capL < stgCount q then (full m, false)
    else (count { m with stage := { m.stage with l := q } }, true)
  | some .p =>
    let q := m.stage.p ++ [e']
    if capP < stgCount q then (full m, false)
    else (count { m with stage := { m.stage with p := q } }, true)

/-- Whether a pending write addresses a block that is in reset at the commit, or that has been since the write was staged
(R101). -/
def stgGone (m : Mach) (e : Stg) : Bool :=
  e.gone || match findReg e.addr with
  | some h => m.goneAt h e.addr true
  | none => m.dieHeld .p

/-- A pending write that the reset of its block reaches: it is dropped at the next commit (R101); of a LOAD window, the
members whose reset has asserted (R145). -/
def cutStg (m : Mach) (e : Stg) : Stg :=
  { e with
    gone := e.gone || match findReg e.addr with | some h => m.blockHeld h e.addr true | none => m.dieHeld .p
    cut := e.cut ++ e.members.filter fun n => m.elemHeld uLOAD n && !e.cut.contains n }

/-- Block resets that have asserted mark the pending writes to their registers (R101). -/
def cutPending (m : Mach) : Mach :=
  { m with stage := { m.stage with
    c := m.stage.c.map m.cutStg, l := m.stage.l.map m.cutStg, p := m.stage.p.map m.cutStg,
    shadowL := m.stage.shadowL.map (·.map m.cutStg), shadowP := m.stage.shadowP.map (·.map m.cutStg) } }

/-- A write that a partition in overrun has issued in the tick that ends (R39). -/
def overrunDrops (m : Mach) (e : Stg) : Bool :=
  !e.past && match e.part with | some p => m.tick.drop.contains p | none => false

/-- Pending writes of one die split at a commit edge: those that come into force now and those that wait (R32), less the
late ones of partitions in overrun (R39). -/
def splitDue (m : Mach) (q : List Stg) : List Stg × List Stg :=
  (q.filter (·.wait == 0),
    (q.filter fun e => e.wait != 0 && !m.overrunDrops e).map fun e => { e with wait := e.wait - 1, past := true })

/-- The writes of a commit that survive R39 (partitions in overrun) and R101 (blocks in reset, counted). -/
def survive (m : Mach) (q : List Stg) : Mach × List Stg :=
  let kept := q.filter fun e => !m.overrunDrops e
  let gone := kept.filter m.stgGone
  (m.goneDrop (stgCount gone), kept.filter fun e => !m.stgGone e)

/-- One RW/T write brought into force. -/
def bring (m : Mach) (e : Stg) : Mach := m.wr e.addr (mergeBits (m.rd e.addr) e.val e.mask)

/-- The value of the register at `a` that will be in force at the next commit, pending writes included. -/
def nextVal (m : Mach) (a : Nat) : Nat :=
  (m.stage.c ++ m.stage.l ++ m.stage.p).foldl (fun v e => if e.addr == a && !e.gone then mergeBits v e.val e.mask else v) (m.rd a)

/-- Field of the value that will be in force at the next commit. -/
def nextFld (m : Mach) (a hi lo : Nat) : Nat := bitsOf (m.nextVal a) hi lo

/-! ### Bents -/

/-- State of a bent: 0 HELD, 1 RUN, 2 FAILED, 3 REPAIR, 4 RESYNC (BENT_STATUS). -/
def bentState (m : Mach) (b : Nat) : Nat :=
  if b == 0 then m.fld Rg.BENT_STATUS 2 0 else m.fld Rg.BENT_STATUS 6 4

def setBent (m : Mach) (b st : Nat) : Mach :=
  if b == 0 then m.setFld Rg.BENT_STATUS 2 0 st else m.setFld Rg.BENT_STATUS 6 4 st

/-- Duties with a record that a bent owns. -/
def dutiesOf (m : Mach) (b : Nat) : List Nat :=
  (List.range 64).filter fun d => m.dutyValid d && m.dutyOwner d == b

/-- Shadow buffer of a bent. -/
def shadowOf (m : Mach) (b : Nat) : List Stg := if b == 0 then m.bent.shadowA else m.bent.shadowB

def setShadow (m : Mach) (b : Nat) (q : List Stg) : Mach :=
  if b == 0 then { m with bent := { m.bent with shadowA := q } } else { m with bent := { m.bent with shadowB := q } }

/-- A shadowed RW/T write recorded (R393): a held address keeps its place and takes the new value; a full buffer
of 512 entries drops it. -/
def shadowWrite (m : Mach) (b : Nat) (e : Stg) : Mach :=
  let q := m.shadowOf b
  let m := { m with bent := { m.bent with sbLog := m.bent.sbLog ++ e.tags.map fun t : Nat × Nat × Nat => (t.1, e.addr, e.val) } }
  if q.any (·.addr == e.addr) then
    m.setShadow b (q.map fun x : Stg => if x.addr == e.addr
      then { e with val := mergeBits x.val e.val e.mask, mask := x.mask ||| e.mask } else x)
  else if q.length < 512 then m.setShadow b (q ++ [e])
  else (m.bump Rg.BENT_SHADOW_DROP_CNT).fire Rg.BENT_IRQ_STATUS 5

/-- An accepted write of a duty's owning partition, logged for the signature of R395. -/
def ownWrite (m : Mach) (d a v : Nat) : Mach :=
  { m with bent := { m.bent with ownLog := m.bent.ownLog ++ [(d, a, v)] } }

/-- Epoch after the next change of owner: 0xFFFF wraps to 0x0001 (R147). -/
def nextEpoch (e : Nat) : Nat := if e == 0xFFFF then 1 else e + 1

/-- The C-die's record of duty `d` moved to bent `y` with its epoch incremented (R397). -/
def moveDuty (m : Mach) (y d : Nat) : Mach :=
  let m := (m.setFld (Rg.BENT_DUTY d) 29 29 y).setFld (Rg.BENT_DUTY d) 15 0 (nextEpoch (m.dutyEpoch d))
  if d < 32 then m.setFld Rg.BENT_OWNER_LO d d y else m.setFld Rg.BENT_OWNER_HI (d - 32) (d - 32) y

/-- The tenon context of the lowest-numbered core of a partition as a target code (R363, R394). -/
def tenonTarget (m : Mach) (p : Nat) : Nat :=
  let bits := m.fld (Rg.FAB_PART_STATUS p) 11 0
  let coded := m.fab.coded
  match onesOf 12 bits with
  | b :: _ => if coded then 4 + 2 * b else 4 + 2 * (b / 2)
  | [] => 0

/-- IRQ sources owned by duty `d` retargeted to its owning partition (R394). -/
def retarget (m : Mach) (d : Nat) : Mach :=
  let srcs := (m.truss.claims.filter fun c => c.cls == 4 && c.owner == ownDuty d).map (·.idx)
  m.forAll srcs fun m n => m.setFld (Rg.IRQ_SRC_CFG n) 3 0 (m.tenonTarget (m.dutyPart d (m.dutyOwner d)))

/-- A promoted shadow entry staged behind the old entries under the new tag (R399). -/
def promote (m : Mach) (y : Nat) (e : Stg) : Mach :=
  let far := match findReg e.addr with
    | some h => h.far e.addr
    | none => if 0x42000000 ≤ e.addr && e.addr < 0x42010000 then some FarDie.p else none
  let e' := { e with tags := e.tags.map fun t => (t.1, y, m.dutyEpoch t.1) }
  match m.stageWrite far e' with
  | (m', true) => m'
  | (_, false) => (m.bump Rg.BENT_SHADOW_DROP_CNT).fire Rg.BENT_IRQ_STATUS 5

/-- Whether a staged write carries a tag of one of the duties. -/
def tagged (ds : List Nat) (e : Stg) : Bool := e.tags.any fun t => ds.contains t.1

/-- A pending write that bent `x` issued to a resource of one of the duties. -/
def issued (x : Nat) (ds : List Nat) (e : Stg) : Bool := e.tags.any fun t => ds.contains t.1 && t.2.1 == x

/-- Step 2 of table R397: every duty of `x` moves to `y`; pending writes of `x` to C-die and L-die registers of the
moved duties are dropped and counted; `y`'s shadow entries are promoted; sources are retargeted; owners and epochs
go to the control lane. -/
def switchOver (m : Mach) (x y : Nat) : Mach :=
  let ds := m.dutiesOf x
  if ds.isEmpty then m
  else
    let m := m.forAll ds (fun m d => m.moveDuty y d)
    let dropped := stgCount ((m.stage.c ++ m.stage.l).filter (issued x ds))
    let m := { m with stage := { m.stage with
      c := m.stage.c.filter (!issued x ds ·), l := m.stage.l.filter (!issued x ds ·) } }
    let m := m.bumpBy Rg.BENT_DROP_CNT dropped
    let sh := m.shadowOf y
    let m := m.setShadow y (sh.filter (!tagged ds ·))
    let m := m.forAll (sh.filter (tagged ds)) (fun m e => m.promote y e)
    let m := m.forAll ds (fun m d => m.retarget d)
    let m := { m with bent := { m.bent with
      lane := m.bent.lane ++ ds.map (fun d => (d, y, m.dutyEpoch d)), overlap := 1 } }
    ((m.bump Rg.BENT_SWITCH_CNT).wr Rg.BENT_SWITCH_TICK (m.rd Rg.TICK_COUNT_LO)).fire Rg.BENT_IRQ_STATUS 0

/-- Contexts of a bent by initiator ID: 0x10 to 0x15 for bent A, 0x16 to 0x1B for bent B (R356). -/
def bentContexts (b : Nat) : List Nat := (List.range 6).map (0x10 + 6 * b + ·)

/-- A bent hold: every context of the bent stops (R396). -/
def holdBent (m : Mach) (b : Nat) : Mach :=
  { m with fab := { m.fab with cores := m.fab.cores.map fun (i, c) =>
      if (bentContexts b).contains i then (i, { c with run := false, inHeart := false, visit := none }) else (i, c) } }

/-- BENT_FAIL_INFO of the last failure signal. -/
def recordFail (m : Mach) (b src core : Nat) : Mach :=
  m.wr Rg.BENT_FAIL_INFO ((m.rd Rg.TICK_COUNT_LO % 65536) <<< 16 ||| src <<< 8 ||| core <<< 4 ||| b)

/-- A failure signal for bent `x` (R396, R397, R401): `src` of table R396, `core` 7 when none. -/
def bentFailure (m : Mach) (x src core : Nat) : Mach :=
  let y := 1 - x
  let st := m.bentState x
  if src == 4 then m
  else if st == 2 || st == 0 then m
  else
    let m := (m.recordFail x src core).raise 0x130 x
    let repairing := st == 3 || st == 4
    let m := ((m.setBent x 2).holdBent x).fire Rg.BENT_IRQ_STATUS 1
    if repairing then
      let m := { m with bent := { m.bent with copied := none } }
      (m.fire Rg.BENT_IRQ_STATUS 4).raise 0x133 x
    else if m.bentState y == 1 then m.switchOver x y
    else
      let m := if m.bentState y == 3 || m.bentState y == 4 then
          let m := { m with bent := { m.bent with copied := none } }
          ((m.setBent y 2).holdBent y)
        else m
      m.raise 0x131 x

end Mach

end Sys2Proof.Machine
end

