-- ==== Sys2Proof/Machine/LinSent.lean ====
section
/-! DEFINITION. LIN channels and SENT inputs (chapter 14). -/

namespace Sys2Proof.Machine

namespace Mach

def lch (m : Mach) (c : Nat) : LinCh := m.lin.ch.getD c {}
def modLch (m : Mach) (c : Nat) (f : LinCh → LinCh) : Mach := { m with lin := { m.lin with ch := m.lin.ch.modify c f } }
def sin (m : Mach) (i : Nat) : SentIn := m.lin.sent.getD i {}
def modSin (m : Mach) (i : Nat) (f : SentIn → SentIn) : Mach := { m with lin := { m.lin with sent := m.lin.sent.modify i f } }

/-- LIN_STATUS.state: 0 DISABLED, 1 ACTIVE, 2 SLEEP, 3 HELD. -/
def linState (m : Mach) (c : Nat) : Nat := m.fld (Rg.LIN_STATUS c) 2 0
def setLin (m : Mach) (c st : Nat) : Mach := m.setFld (Rg.LIN_STATUS c) 2 0 st
def linResponder (m : Mach) (c : Nat) : Bool := m.bit (Rg.LIN_CFG c) 0
def linIrq (m : Mach) (c i : Nat) : Mach := m.fire (Rg.LIN_IRQ_STATUS c) i

/-- A SENT input has taken the ball of LIN channel 8 to 11 in the running image (R282, R496). -/
def linTaken (m : Mach) (c : Nat) : Bool := m.truss.image.any (·.linTaken c)

/-- The channel has no ball, or its ball is off (R282, R496). -/
def linOff (m : Mach) (c : Nat) : Bool := m.linTaken c || m.pinOff (8 + c) 3

/-- The SENT input has no ball, or its ball is off: SENT4 to SENT7 have those taken from LIN8 to LIN11 (R496). -/
def sentOff (m : Mach) (i : Nat) : Bool := if i < 4 then m.pinOff (20 + i) 3 else !m.linTaken (i + 4)

/-- LIN_STATUS.pending follows the list. -/
def showPend (m : Mach) (c : Nat) : Mach := m.setFld (Rg.LIN_STATUS c) 7 6 (flagNat (!(m.lch c).pend.isEmpty))

/-- Direction of a frame ID: 0 NONE, 1 PUBLISH, 2 SUBSCRIBE (R283). -/
def linDir (m : Mach) (c i : Nat) : Nat := if i < 62 then m.fld (Rg.LIN_FRAME_CFG c i) 1 0 else 0
def linLen (m : Mach) (c i : Nat) : Nat := m.fld (Rg.LIN_FRAME_CFG c i) 7 4

/-- Protected identifier of a frame ID: its parity bits in bits 7:6 (ISO 17987). -/
def linPid (i : Nat) : Nat :=
  let x (l : List Nat) : Bool := l.foldl (fun b k => xor b (bitOf i k)) false
  i + 64 * flagNat (x [0, 1, 2, 4]) + 128 * flagNat (!x [1, 3, 4, 5])

/-- Checksum of a frame's response (R283): the inverted sum with carry of the data bytes, and in the enhanced model of the
protected identifier as well; 0x3C and 0x3D always take the classic one. -/
def linCheck (m : Mach) (c i : Nat) (data : List Byte) : Byte :=
  let enhanced := i < 0x3C && m.bit (Rg.LIN_FRAME_CFG c i) 8
  let sum := data.foldl (fun v b => let s := v + b.toNat; if 255 < s then s - 255 else s) (if enhanced then linPid i else 0)
  BitVec.ofNat 8 (255 - sum)

/-- LIN_FRAME_DATA of a frame ID as the bytes of its response (R285). -/
def linData (m : Mach) (c i : Nat) : List Byte :=
  (leBytes 4 (m.rd (Rg.LIN_FRAME_DATA_LO c i)) ++ leBytes 4 (m.rd (Rg.LIN_FRAME_DATA_HI c i))).take (m.linLen c i)

/-- A frame error (R287). -/
def linError (m : Mach) (c i code : Nat) : Mach :=
  let m := if i < 62 then m.wr (Rg.LIN_FRAME_STATUS c i) ((m.rd Rg.TICK_COUNT_LO % 65536) <<< 16 ||| code) else m
  (m.bump (Rg.LIN_ERR_CNT c)).linIrq c 1

/-- The channel's network management segment is in SLEEP (R311). -/
def linAsleep (m : Mach) (c : Nat) : Bool :=
  (List.range 24).any fun s => m.bit (Rg.NM_SEG_CFG s) 31 && m.rd (Rg.NM_SEG_CFG s) % 2 ^ 16 == 0x200 + c
    && m.fld (Rg.NM_SEG_STATUS s) 2 0 == 1

/-- Slots due at an edge enter the pending list in slot order; one still pending is skipped (R284); a segment asleep
neither sends nor counts (R311). -/
def linEdge (m : Mach) (ct : Nat) : Mach :=
  m.forAll (List.range 12) fun m c =>
    if m.linState c != 1 || m.linResponder c || m.elemHeld uLIN c || m.linAsleep c then m
    else
      let t := m.fld (Rg.LIN_STATUS c) 5 4
      let due := (List.range 64).filter fun s =>
        let v := m.rd (Rg.LIN_SLOT c t s)
        bitOf v 31 && ct % max 1 (bitsOf v 29 20) == bitsOf v 19 10
      let m := m.modLch c fun x => { x with issued := due.filter fun s => !x.pend.contains s }
      (m.forAll due fun m s =>
        if (m.lch c).pend.contains s then (m.bump (Rg.LIN_SKIP_CNT c)).linIrq c 2
        else m.modLch c fun x => { x with pend := x.pend ++ [s] }).showPend c

/-- Client 3 has overrun: the slots that the tick has issued and that have not begun are skipped (R284). -/
def linOverrun (m : Mach) : Mach :=
  m.forAll (List.range 12) fun m c =>
    let gone := (m.lch c).pend.filter fun s => (m.lch c).issued.contains s
    let m := m.forAll gone fun m _ => (m.bump (Rg.LIN_SKIP_CNT c)).linIrq c 2
    (m.modLch c fun x => { x with pend := x.pend.filter fun s => !gone.contains s }).showPend c

/-- The channel's transmitter works: not switched off by a dominant timeout, die and channel out of reset. -/
def linMaySend (m : Mach) (c : Nat) : Bool :=
  m.linState c == 1 && !m.bit (Rg.LIN_STATUS c) 3 && !m.elemHeld uLIN c && !m.dieHeld .l && (m.lch c).cur.isNone
    && !(m.lch c).pulse

/-- Bytes of the go-to-sleep command (R288). -/
def sleepBytes : List Byte := 0 :: List.replicate 7 0xFF

/-- A commander's frame whose header starts now: its response begins 34 bit times later (R282), and what the channel
publishes in it is LIN_FRAME_DATA as it stands then (R285). -/
def linBegin (m : Mach) (c i : Nat) (sleep : Bool) : LinCur :=
  let rate := m.fld (Rg.LIN_CFG c) 31 16
  { id := i, sleep, rate, t0 := m.clk.lt + 34 * 1000000000 / max 1 rate,
    resp := if sleep then sleepBytes else if m.linDir c i == 1 then m.linData c i else [] }

/-- LIN_FRAME_DATA that comes into force before a response has begun is what the response carries (R285). -/
def linRefresh (m : Mach) (c : Nat) : Mach :=
  match (m.lch c).cur with
  | some k =>
    if !k.sleep && m.linDir c k.id == 1 && m.clk.lt < k.t0 then
      m.modLch c fun x => { x with cur := some { k with resp := m.linData c k.id } }
    else m
  | none => m

/-- LIN_HEADER_START: the queued go-to-sleep command, or the next pending slot. -/
def linHeader (m : Mach) (c : Nat) : Mach :=
  if !m.linMaySend c || m.linResponder c || m.linOff c then m
  else if (m.lch c).sleepReq then
    m.modLch c fun x => { x with sleepReq := false, cur := some (m.linBegin c 0x3C true) }
  else match (m.lch c).pend with
    | [] => m
    | s :: t =>
      if m.linAsleep c then m else
      let i := m.fld (Rg.LIN_SLOT c (m.fld (Rg.LIN_STATUS c) 5 4) s) 5 0
      (m.modLch c fun x => { x with pend := t, cur := some (m.linBegin c i false) }).showPend c

/-- The channel enters SLEEP: its schedule stops. -/
def linSleep (m : Mach) (c : Nat) : Mach :=
  ((m.modLch c fun x => { x with pend := [], cur := none, sleepReq := false, woke := false }).showPend c).setLin c 2

/-- Code of R287 of a frame whose bytes have been received: the error on the bus, too few bytes, a wrong checksum; 0 none.
What the channel has published itself it only reads back. -/
def linCode (m : Mach) (c : Nat) (k : LinCur) (err : Nat) (data : List Byte) (check : Byte) : Nat :=
  if err != 0 || k.sleep || m.linDir c k.id == 1 then err
  else if data.length < m.linLen c k.id then 5
  else if m.linCheck c k.id data != check then 2
  else 0

/-- The response of a published frame has been sent (R285). -/
def linSent (m : Mach) (c : Nat) (k : LinCur) : Mach :=
  if k.sleep || m.linDir c k.id == 1 then m.modLch c fun x => { x with sent := k.resp ++ [m.linCheck c k.id k.resp] } else m

/-- LIN_FRAME_COMPLETE (R285, R287, R288). -/
def linFrame (m : Mach) (c err : Nat) (data : List Byte) (check : Byte) : Mach :=
  match (m.lch c).cur with
  | none => m
  | some k =>
    let m := m.modLch c fun x => { x with cur := none }
    let code := m.linCode c k err data check
    let m := if err == 0 then m.linSent c k else m
    if code != 0 then (if m.linDir c k.id == 0 && !k.sleep then m else m.linError c k.id code)
    else if k.sleep then m.linSleep c
    else if m.linResponder c && k.id == 0x3C && data == sleepBytes then m.linSleep c
    else
      let dir := m.linDir c k.id
      if dir == 0 then m
      else
        let m := m.setFld (Rg.LIN_FRAME_STATUS c k.id) 31 16 (m.rd Rg.TICK_COUNT_LO)
        let m := if dir == 2 then m.modLch c fun x => { x with
            objs := kput x.objs k.id (data.take (m.linLen c k.id)), fresh := k.id :: x.fresh.filter (· != k.id) } else m
        m.linIrq c 0

/-- LIN_RESPONSE_TIMEOUT: NO_RESPONSE for a frame that the channel awaits; what it publishes itself is on its way. -/
def linNoResponse (m : Mach) (c : Nat) : Mach :=
  match (m.lch c).cur with
  | none => m
  | some k =>
    if k.sleep || m.linDir c k.id == 1 then m
    else
      let m := m.modLch c fun x => { x with cur := none }
      if m.linDir c k.id == 2 then m.linError c k.id 1 else m

/-- LIN_HEADER_RECEIVED (R286): the response of a frame that the responder publishes begins at once (R282, R285). -/
def linHeaderIn (m : Mach) (c i brk rate : Nat) : Mach :=
  if m.linState c != 1 || !m.linResponder c || m.elemHeld uLIN c then m
  else
    let r := m.fld (Rg.LIN_CFG c) 31 16
    if brk < 110 || rate * 100 < r * 85 || r * 115 < rate * 100 then m.linError c i 6
    else if m.linDir c i == 0 && i != 0x3C then m
    else
      let k : LinCur := { id := i, rate, t0 := m.clk.lt, resp := if m.linDir c i == 1 then m.linData c i else [] }
      m.modLch c fun x => { x with cur := some k }

/-- A write of LIN_CMD (R288). -/
def linCmd (m : Mach) (c v : Nat) : Mach :=
  let m := if bitOf v 0 && !m.linResponder c && m.linState c == 1 then m.modLch c fun x => { x with sleepReq := true } else m
  if bitOf v 1 && (m.linState c == 1 || m.linState c == 2) then m.modLch c fun x => { x with pulse := true } else m

/-- LIN_WAKE_PULSE_END. -/
def linPulseEnd (m : Mach) (c : Nat) : Mach :=
  if (m.lch c).pulse then
    let m := m.modLch c fun x => { x with pulse := false, woke := false }
    if m.linState c == 2 then m.setLin c 1 else m
  else m

/-- LIN_INACTIVITY_TIMEOUT. -/
def linIdle (m : Mach) (c : Nat) : Mach := if m.linResponder c && m.linState c == 1 then m.linSleep c else m

/-- LIN_WAKE_DETECT: a dominant phase of 150 µs to 5 ms in SLEEP. -/
def linWake (m : Mach) (c us : Nat) : Mach :=
  if m.linState c == 2 && 150 ≤ us && us ≤ 5000 then (m.modLch c fun x => { x with woke := true }).linIrq c 3 else m

/-- LIN_DOMINANT_TIMEOUT and LIN_BUS_RECESSIVE. -/
def linDominant (m : Mach) (c : Nat) (on : Bool) : Mach := m.setBit (Rg.LIN_STATUS c) 3 on

/-- Effects of a commit on the LIN channels (R284, R288, R311); `wrote` lists the addresses that it brought in. -/
def linCommit (m old : Mach) (wrote : List Nat) : Mach :=
  m.forAll (List.range 12) fun m c =>
    if m.elemHeld uLIN c then m
    else
      let nm := (m.lch c).nmEnable
      let m := if nm then m.setBit (Rg.LIN_CTRL c) 0 true else m
      let m := m.modLch c fun x => { x with nmEnable := false }
      let on := m.bit (Rg.LIN_CTRL c) 0
      let was := old.bit (Rg.LIN_CTRL c) 0
      let m := if on && !was then (m.modLch c fun x => { x with woke := false }).setLin c 1
        else if !on && was then m.setLin c 0
        else if on && (nm || wrote.contains (Rg.LIN_CTRL c)) && m.linState c == 2 && (m.lch c).woke then
          (m.modLch c fun x => { x with woke := false }).setLin c 1
        else m
      let m := m.linRefresh c
      let t := m.fld (Rg.LIN_CTRL c) 2 1
      if t != m.fld (Rg.LIN_STATUS c) 5 4 then
        ((m.setFld (Rg.LIN_STATUS c) 5 4 t).modLch c fun x => { x with pend := [] }).showPend c
      else m

/-- Element reset of a LIN channel asserts (R294, and R101 for its interrupt status). -/
def resetLin (m : Mach) (c : Nat) : Mach :=
  let m := m.forAll ([Rg.LIN_CTRL c, Rg.LIN_STATUS c, Rg.LIN_ERR_CNT c, Rg.LIN_SKIP_CNT c, Rg.LIN_IRQ_STATUS c]
    ++ (List.range 62).map fun i => Rg.LIN_FRAME_STATUS c i) fun m a => m.wr a 0
  (m.modLch c fun x => { objs := x.objs, sent := x.sent }).setLin c 3

def releaseLin (m : Mach) (c : Nat) : Mach := if m.linState c == 3 && !m.elemHeld uLIN c then m.setLin c 0 else m

/-! ### SENT -/

def sentIrq (m : Mach) (i b : Nat) : Mach := m.fire (Rg.SENT_IRQ_STATUS i) b

end Mach

/-- `x · X^4` modulo X^4 + X^3 + X^2 + 1 (R289). -/
def crc4Mul (x : Nat) : Nat :=
  (List.range 4).foldl (fun v _ => if 8 ≤ v % 16 then (2 * v % 16) ^^^ 13 else 2 * v % 16) x

/-- CRC nibble over data nibbles; the recommended form includes a trailing zero nibble (R289). -/
def crc4 (legacy : Bool) (ns : List Nat) : Nat :=
  (if legacy then ns else ns ++ [0]).foldl (fun v n => crc4Mul v ^^^ (n % 16)) 5

/-- 6-bit CRC of an enhanced serial message: X^6 + X^4 + X^3 + 1, seed 010101, with six trailing zero bits (SAE J2716). -/
def crc6 (bits : List Bool) : Nat :=
  (bits ++ List.replicate 6 false).foldl (fun v b =>
    let s := 2 * v + flagNat b
    if 64 ≤ s then (s - 64) ^^^ 25 else s) 21

/-- Number spelled by bits, most significant first. -/
def bitsNat (bs : List Bool) : Nat := bs.foldl (fun v b => 2 * v + flagNat b) 0

/-- A reassembled slow channel message: nothing yet, a bad CRC, or ID and data (R292). -/
inductive Slow where
  | none | bad | msg (id data : Nat)
  deriving DecidableEq, Repr

/-- A short serial message: 16 messages, bit 3 marks the first, bit 2 carries ID, data and CRC. -/
def shortSerial (legacy : Bool) (l : List (Bool × Bool)) : Slow :=
  if l.length == 16 then
    let d := l.map (·.2)
    let n (a k : Nat) : Nat := bitsNat ((d.drop a).take k)
    if crc4 legacy [n 0 4, n 4 4, n 8 4] == n 12 4 then .msg (n 0 4) (n 4 8) else .bad
  else .none

/-- An enhanced serial message: 18 messages, bit 3 spells 1111110, C, four bits, 0, four bits, 0. -/
def enhancedSerial (l : List (Bool × Bool)) : Slow :=
  if l.length == 18 then
    let b3 := l.map (·.1)
    let b2 := l.map (·.2)
    let n (x : List Bool) (a k : Nat) : Nat := bitsNat ((x.drop a).take k)
    let mixed := ((l.drop 6).map fun p => [p.2, p.1]).flatten
    if crc6 mixed != n b2 0 6 then .bad
    else if b3.getD 7 false then .msg (n b3 8 4) (n b3 13 4 * 4096 + n b2 6 12)
    else .msg (n b3 8 4 * 16 + n b3 13 4) (n b2 6 12)
  else .none

/-- The serial message under way with one more status nibble (R292): a start pattern begins a message. -/
def serialStep (kind : Nat) (l : List (Bool × Bool)) (x : Bool × Bool) : List (Bool × Bool) :=
  if kind == 1 then (if x.1 then [x] else if l.isEmpty || 16 ≤ l.length then [] else l ++ [x])
  else if kind == 2 then
    let l' := (if 18 ≤ l.length then l.drop 12 else l) ++ [x]
    let want : List (Option Bool) := [some true, some true, some true, some true, some true, some true, some false, none,
      none, none, none, none, some false, none, none, none, none, some false]
    let fits (l : List (Bool × Bool)) : Bool := (l.zip want).all fun (p : (Bool × Bool) × Option Bool) =>
      match p.2 with | some b => p.1.1 == b | none => true
    ((List.range (l'.length + 1)).map fun k => l'.drop k).find? fits |>.getD []
  else []

namespace Mach

/-- Code of the first failing check of a message (R290). -/
def sentCheck (m : Mach) (i tick : Nat) (nibs : List Nat) (pause : Bool) : Nat :=
  let c := m.fld (Rg.SENT_CFG i) 16 0
  let fl := m.fld (Rg.SENT_CFG i) 31 24
  let dist (a b : Nat) : Nat := (a - b) + (b - a)
  let sync : Bool := c / 2 < dist (25 * tick) (2 * c) ||
    (match (m.sin i).prev with | some p => p < 64 * dist tick p | none => false)
  if sync then 1
  else if nibs.any fun n => n < 12 || 27 < n then 2
  else if nibs.length != bitsOf fl 2 0 + 2 then 3
  else
    let vs := nibs.map (· - 12)
    if crc4 (bitOf fl 4) ((vs.drop 1).take (bitsOf fl 2 0)) != vs.getLastD 0 then 4
    else if bitOf fl 3 && !pause then 5
    else 0

/-- A complete slow message (R292). -/
def sentSlow (m : Mach) (i : Nat) (s : Slow) : Mach :=
  match s with
  | .none => m
  | .bad => ((m.bump (Rg.SENT_ERR_CNT i)).setFld (Rg.SENT_STATUS i) 2 0 6).modSin i fun x => { x with serial := [] }
  | .msg d v => ((m.wr (Rg.SENT_SLOW i) (d <<< 24 ||| v)).sentIrq i 2).modSin i fun x => { x with
      serial := if bitsOf (m.fld (Rg.SENT_CFG i) 31 24) 6 5 == 1 then [] else x.serial, slowNew := true }

/-- SENT_MESSAGE (R290 to R292). -/
def sentMsg (m : Mach) (i tick : Nat) (nibs : List Nat) (pause : Bool) : Mach :=
  if m.elemHeld uSENT i || m.dieHeld .l || m.sentOff i then m
  else
    let code := m.sentCheck i tick nibs pause
    let fl := m.fld (Rg.SENT_CFG i) 31 24
    let m := (m.modSin i fun x => { x with prev := some tick }).setFld (Rg.SENT_STATUS i) 31 16 tick
    if code != 0 then
      (((m.bump (Rg.SENT_ERR_CNT i)).setFld (Rg.SENT_STATUS i) 2 0 code).sentIrq i 1).modSin i fun x => { x with serial := [] }
    else
      let st := nibs.headD 12 - 12
      let data := ((nibs.drop 1).take (bitsOf fl 2 0)).foldl (fun v n => 16 * v + (n - 12)) 0
      let m := m.wr (Rg.SENT_FAST i) (1 <<< 31 ||| (st % 4) <<< 28 ||| data)
      let kind := bitsOf fl 6 5
      let m := m.modSin i fun x => { x with
        cnt := min (x.cnt + 1) 255, serial := serialStep kind x.serial (bitOf st 3, bitOf st 2) }
      if kind == 1 then m.sentSlow i (shortSerial (bitOf fl 4) (m.sin i).serial)
      else if kind == 2 then m.sentSlow i (enhancedSerial (m.sin i).serial)
      else m

/-- The capture of R27 and R291: the last valid message of the ending tick and their count. -/
def sentEdge (m : Mach) : Mach :=
  if m.tick.ovr.contains 4 then
    m.forAll (List.range 8) fun m i => m.modSin i fun x => { x with cnt := 0, capFresh := false, slowFresh := false, slowNew := false }
  else m.forAll (List.range 8) fun m i =>
    let n := (m.sin i).cnt
    let m := if n == 0 then m.setBit (Rg.SENT_FAST i) 31 false else m
    let m := m.setFld (Rg.SENT_STATUS i) 15 8 n
    m.modSin i fun x => { x with
      cnt := 0, cap := m.rd (Rg.SENT_FAST i), capFresh := n != 0, slowFresh := x.slowNew, slowNew := false }

/-- Element reset of a SENT input asserts (R294, and R101 for its interrupt status). -/
def resetSent (m : Mach) (i : Nat) : Mach :=
  (m.forAll [Rg.SENT_FAST i, Rg.SENT_SLOW i, Rg.SENT_STATUS i, Rg.SENT_ERR_CNT i, Rg.SENT_IRQ_STATUS i] fun m a => m.wr a 0).modSin i fun _ => {}

/-- Unit resets of LIN and SENT. -/
def resetLinUnit (m : Mach) : Mach :=
  let m := { m.coldUnit uLIN with lin := { m.lin with ch := List.replicate 12 {} } }
  m.forAll (List.range 12) fun m c => m.setLin c 3

def resetSentUnit (m : Mach) : Mach := { m.coldUnit uSENT with lin := { m.lin with sent := List.replicate 8 {} } }

end Mach

end Sys2Proof.Machine
end

