-- ==== Sys2Proof/Machine/Ptp.lean ====
section
/-! DEFINITION. Network time (R236 to R254): the clocks, the domain slots and the choice of the working-time source,
snapshots, timed outputs, capture inputs and transmit timestamp queues. -/

namespace Sys2Proof.Machine

/-- One nanosecond in the clocks' unit of 2^-40 ns. -/
def oneNs : Int := 1099511627776

/-- A clock value in ns as its 64-bit register pair shows it. -/
def clockNs (x : Int) : Nat := unsignedOf 64 (x / oneNs)

namespace Mach

def modClk (m : Mach) (f : ClkSt → ClkSt) : Mach := { m with clk := f m.clk }

/-- Source of working time: 0 LOCAL, 1 slot 0, 2 slot 1. -/
def wtSource (m : Mach) : Nat := m.fld Rg.PTP_WT_STATUS 1 0

def domRate (m : Mach) (k : Nat) : Int := signedOf 32 (m.rd (Rg.PTP_DOM_RATE k))

def domClock (m : Mach) (k : Nat) : Int := if k == 0 then m.clk.dt0 else m.clk.dt1

/-- Working time in ns. -/
def wtNs (m : Mach) : Int := m.clk.wt / oneNs

/-- Working offset e = WT − DT of the source (R249); 0 with LOCAL. -/
def wtOffset (m : Mach) : Int := if m.wtSource == 0 then 0 else m.clk.wt - m.domClock (m.wtSource - 1)

/-- PTP_WT_OFFSET and the slewing bit follow the working offset. -/
def showOffset (m : Mach) : Mach :=
  let e := m.wtOffset
  let lim : Int := 2147483647
  let m := m.setBit Rg.PTP_WT_STATUS 2 (decide (oneNs ≤ e.natAbs))
  m.wr Rg.PTP_WT_OFFSET (unsignedOf 32 (max (-lim) (min lim (e.tdiv oneNs))))

/-- The working offset after the source clock has run by `d`: slewed at 10 ppm, 0 once below 1 ns (R249). -/
def slewed (e d : Int) : Int :=
  let r := d / 100000
  let e' := if 0 < e then max 0 (e - r) else min 0 (e + r)
  if (e'.natAbs : Int) < oneNs then 0 else e'

/-- The clocks run on to local time `lt` (R236); time does not run backwards. -/
def advance (m : Mach) (lt : Nat) : Mach :=
  let d : Int := ((lt - m.clk.lt : Nat) : Int)
  if d == 0 then m
  else
    let src := m.wtSource
    let e := m.wtOffset
    let a0 := d * (oneNs + m.domRate 0)
    let a1 := d * (oneNs + m.domRate 1)
    let c := { m.clk with lt := lt, dt0 := m.clk.dt0 + a0, dt1 := m.clk.dt1 + a1 }
    let wt := if src == 0 then c.wt + d * oneNs
      else if src == 1 then c.dt0 + slewed e a0 else c.dt1 + slewed e a1
    ({ m with clk := { c with wt := wt } } : Mach).showOffset

/-- The working offset has fallen below 1 ns: it is 0 (R249). -/
def slewEnds (m : Mach) : Mach :=
  if m.wtOffset.natAbs < oneNs then (if m.wtSource == 0 then m else m.modClk fun c => { c with wt := m.domClock (m.wtSource - 1) }).showOffset
  else m

/-- The clocks at the release of a cold or warm reset (R236). -/
def clocksAtRelease (m : Mach) : Mach := { m with clk := {} }

/-! ### Domain slots -/

/-- State of a slot: 0 DISABLED, 1 UNLOCKED, 2 LOCKED, 3 HOLDOVER (R247). -/
def slotState (m : Mach) (k : Nat) : Nat := m.fld (Rg.PTP_DOM_STATE k) 1 0

/-- Mode of a TIME_OUT pin in force: 0 OFF, 1 ONE_SHOT, 2 PERIODIC. -/
def toutMode (m : Mach) (k : Nat) : Nat := m.fld (Rg.PTP_TOUT_CFG k) 1 0

/-- Working time in ns as its registers show it. -/
def wtNow (m : Mach) : Nat := clockNs m.clk.wt

/-- The first instant of a PERIODIC pin's grid start + m · period after working time `t` (R250). -/
def gridAfter (m : Mach) (k t : Nat) : Nat :=
  let s := m.rd64 (Rg.PTP_TOUT_START_LO k) (Rg.PTP_TOUT_START_HI k)
  let per := m.rd (Rg.PTP_TOUT_PERIOD k)
  if t < s then s else s + ((t - s) / per + 1) * per

/-- A pin's next pulse start from now on (R250, R251): a ONE_SHOT start at or before WT produces no pulse, returns to OFF
and is late. -/
def arm (m : Mach) (k : Nat) : Mach :=
  let s := m.rd64 (Rg.PTP_TOUT_START_LO k) (Rg.PTP_TOUT_START_HI k)
  let m := m.modClk fun c => { c with next := kdel c.next k }
  if m.toutMode k == 2 then m.modClk fun c => { c with next := kput c.next k (m.gridAfter k m.wtNow) }
  else if m.toutMode k == 1 then
    if s ≤ m.wtNow then (m.setFld (Rg.PTP_TOUT_CFG k) 1 0 0).fire (Rg.PTP_TOUT_IRQ_STATUS k) 1
    else m.modClk fun c => { c with next := kput c.next k s }
  else m

/-- What a join by `step` ns does to the timed outputs (R251): the pending starts are taken again from the new WT, and a
pulse in progress keeps its width. -/
def outputsJoin (m : Mach) (step : Int) : Mach :=
  let m := m.modClk fun c => { c with pulse := c.pulse.map fun x => { x with stop := ((x.stop : Int) + step).toNat } }
  m.forAll (m.clk.next.map (·.1)) fun m k => m.arm k

/-- WT takes the value of the source's clock (R249). -/
def join (m : Mach) : Mach :=
  let src := m.wtSource
  if src == 0 then m
  else
    let old := m.wtNs
    let m := m.modClk fun c => { c with wt := m.domClock (src - 1) }
    (((m.bump Rg.PTP_JOIN_CNT).fire Rg.PTP_IRQ_STATUS 3).showOffset).outputsJoin (m.wtNs - old)

/-- A new source: a join from LOCAL, a switch-over between slots, or a move to LOCAL, neither of which steps WT. -/
def setSource (m : Mach) (new : Nat) : Mach :=
  let old := m.wtSource
  if new == old then m
  else
    let m := (m.setFld Rg.PTP_WT_STATUS 1 0 new).fire Rg.PTP_IRQ_STATUS 2
    let m := m.setBit Rg.TICK_STATUS 3 (new != 0)
    if old == 0 then m.join else m.showOffset

/-- Whether slot `j` is better than slot `k`: lower preference, slot 0 at a tie (R248). -/
def better (m : Mach) (j k : Nat) : Bool :=
  let p (i : Nat) := m.fld (Rg.PTP_DOM_CFG i) 15 8
  p j < p k || (p j == p k && j < k)

/-- Table R248. -/
def chosenSource (m : Mach) : Nat :=
  let src := m.wtSource
  let locked (k : Nat) : Bool := m.slotState k == 2
  if src == 0 then
    if locked 0 && (!locked 1 || m.better 0 1) then 1 else if locked 1 then 2 else 0
  else
    let k := src - 1
    let o := 1 - k
    let st := m.slotState k
    if st == 2 then
      let revert := m.fld Rg.PTP_CTRL2 31 16
      let since := if o == 0 then m.clk.lock0 else m.clk.lock1
      if locked o && m.better o k && revert != 0 && since + revert * 1000000000 ≤ m.clk.lt then o + 1 else src
    else if st == 3 then (if locked o then o + 1 else src)
    else if 2 ≤ m.slotState o then o + 1 else 0

def chooseSource (m : Mach) : Mach := m.setSource m.chosenSource

/-- A slot enters a state; a change is reported and the source is chosen again (R247, R248). -/
def setSlot (m : Mach) (k st : Nat) : Mach :=
  if m.slotState k == st then m
  else
    let m := (m.setFld (Rg.PTP_DOM_STATE k) 1 0 st).fire Rg.PTP_IRQ_STATUS 1
    let m := m.modClk fun c =>
      if st == 2 then (if k == 0 then { c with lock0 := c.lt } else { c with lock1 := c.lt })
      else if st == 3 then (if k == 0 then { c with hold0 := c.lt } else { c with hold1 := c.lt })
      else c
    m.chooseSource

/-- A write of PTP_DOM_SERVO.status (R247). -/
def servo (m : Mach) (k status : Nat) : Mach :=
  let st := m.slotState k
  if st == 0 then m
  else if status == 0 then m.setSlot k 1
  else if status == 1 then
    (m.modClk fun c => if k == 0 then { c with sync0 := c.lt } else { c with sync1 := c.lt }).setSlot k 2
  else if status == 2 then (if st == 1 then m else m.setSlot k 3)
  else m

/-- The sync timer: sync_timeout_ms since the last LOCK write (R247). -/
def syncLost (m : Mach) (k : Nat) : Mach :=
  let t := if k == 0 then m.clk.sync0 else m.clk.sync1
  if m.slotState k == 2 && t + m.fld Rg.PTP_CTRL 15 0 * 1000000 ≤ m.clk.lt then m.setSlot k 3 else m

/-- holdover_s spent in HOLDOVER (R247). -/
def holdoverSpent (m : Mach) (k : Nat) : Mach :=
  let t := if k == 0 then m.clk.hold0 else m.clk.hold1
  if m.slotState k == 3 && t + m.fld Rg.PTP_CTRL2 15 0 * 1000000000 ≤ m.clk.lt then m.setSlot k 1 else m

/-- Slot timers that have run out by an edge. -/
def slotTimers (m : Mach) : Mach := m.forAll [0, 1] fun m k => (m.syncLost k).holdoverSpent k

/-- A write of PTP_DOM_STEP_HI steps the domain clock; WT does not step (R237, R249). -/
def domStep (m : Mach) (k : Nat) : Mach :=
  let d : Int := signedOf 64 (m.rd64 (Rg.PTP_DOM_STEP_LO k) (Rg.PTP_DOM_STEP_HI k)) * oneNs
  (m.modClk fun c => if k == 0 then { c with dt0 := c.dt0 + d } else { c with dt1 := c.dt1 + d }).showOffset

/-- A snapshot of all four clocks at one instant (R238). -/
def snapshot (m : Mach) : Mach :=
  let m := m.wr64 Rg.PTP_SNAP_LT_LO Rg.PTP_SNAP_LT_HI m.clk.lt
  let m := m.wr64 Rg.PTP_SNAP_WT_LO Rg.PTP_SNAP_WT_HI (clockNs m.clk.wt)
  let m := m.wr64 Rg.PTP_SNAP_DT0_LO Rg.PTP_SNAP_DT0_HI (clockNs m.clk.dt0)
  m.wr64 Rg.PTP_SNAP_DT1_LO Rg.PTP_SNAP_DT1_HI (clockNs m.clk.dt1)

/-! ### Timestamps and their queues -/

/-- Receive timestamp of a port from the MAC's instant (R239). -/
def rxStamp (m : Mach) (p tmac : Nat) : Int :=
  (tmac : Int) - m.fld (Rg.PTP_PORT_CONST p) 15 0 + signedOf 16 (m.fld (Rg.PTP_PORT_TRIM p) 15 0)

/-- Transmit timestamp of a port. -/
def txStamp (m : Mach) (p tmac : Nat) : Int :=
  (tmac : Int) + m.fld (Rg.PTP_PORT_CONST p) 31 16 + signedOf 16 (m.fld (Rg.PTP_PORT_TRIM p) 31 16)

/-- The registers of a transmit timestamp queue show its head. -/
def showTxq (m : Mach) (q : Nat) : Mach :=
  let l := m.clk.txq.getD q []
  let ovf := m.bit (Rg.PTP_TXQ_STATUS q) 8
  let m := m.wr (Rg.PTP_TXQ_STATUS q) (flagNat ovf <<< 8 ||| flagNat (!l.isEmpty) <<< 7 ||| l.length)
  match l with
  | [] => (m.wr (Rg.PTP_TXQ_ID q) 0).wr64 (Rg.PTP_TXQ_TS_LO q) (Rg.PTP_TXQ_TS_HI q) 0
  | (i, p, ts, d) :: _ =>
    (m.wr (Rg.PTP_TXQ_ID q) (1 <<< 31 ||| flagNat d <<< 30 ||| p <<< 16 ||| i % 65536)).wr64
      (Rg.PTP_TXQ_TS_LO q) (Rg.PTP_TXQ_TS_HI q) ts

/-- A transmit timestamp entry of ingress port `inp` (R246). -/
def stampEntry (m : Mach) (inp i p : Nat) (ts : Int) (dropped : Bool) : Mach :=
  if inp < 16 || 22 ≤ inp then m
  else
    let q := inp - 16
    if 64 ≤ (m.clk.txq.getD q []).length then (m.bump (Rg.PTP_TXQ_DROP_CNT q)).fire (Rg.PTP_TXQ_STATUS q) 8
    else
      let e := (i, p, if dropped then 0 else unsignedOf 64 ts, dropped)
      (m.modClk fun c => { c with txq := c.txq.modify q (· ++ [e]) }).showTxq q

/-- PTP_TXQ_POP removes the head entry. -/
def popTxq (m : Mach) (q : Nat) : Mach := (m.modClk fun c => { c with txq := c.txq.modify q (·.drop 1) }).showTxq q

/-- A frame with an egress tag dropped (R241, R243, R245). -/
def tagDrop (m : Mach) : Mach := (m.bump Rg.PTP_TAG_DROP_CNT).fire Rg.PTP_IRQ_STATUS 5

/-! ### Timed outputs and inputs -/

/-- The pulse under way on a pin. -/
def pulseOf (m : Mach) (k : Nat) : Option OutPulse := m.clk.pulse.find? (·.pin == k)

/-- Start of a pulse (R250), once WT has reached a one-shot's start or an instant of a periodic grid, within the 1 ns
resolution of the clocks. The ball stays active where a pulse under older values still lasts. -/
def pulseStart (m : Mach) (k : Nat) : Mach :=
  match m.clk.next.find? (·.1 == k) with
  | none => m
  | some (_, t) =>
    let one := m.toutMode k == 1
    if m.timeOutOn k && (one || m.toutMode k == 2) && t ≤ m.wtNow + 1 then
      let stop := max (t + m.rd (Rg.PTP_TOUT_WIDTH k)) (((m.pulseOf k).map (·.stop)).getD 0)
      (m.modClk fun c => { c with
        pulse := ⟨k, one, m.bit (Rg.PTP_TOUT_CFG k) 2, stop⟩ :: c.pulse.filter (·.pin != k)
        next := if one then kdel c.next k else kput c.next k (t + m.rd (Rg.PTP_TOUT_PERIOD k)) }).fire
        (Rg.PTP_TOUT_IRQ_STATUS k) 0
    else m

/-- End of a pulse at its width; the mode of a one-shot still in force returns to OFF. -/
def pulseEnd (m : Mach) (k : Nat) : Mach :=
  match m.pulseOf k with
  | none => m
  | some x =>
    if x.stop ≤ m.wtNow + 1 then
      let m := m.modClk fun c => { c with pulse := c.pulse.filter (·.pin != k) }
      if x.oneShot then m.setFld (Rg.PTP_TOUT_CFG k) 1 0 0 else m
    else m

/-- Level of a TIME_OUT ball (R250): none while OFF leaves it to its pull-down; the active level within a pulse, else the
inactive one. -/
def toutLevel (m : Mach) (k : Nat) : Option Bool :=
  match m.pulseOf k with
  | some x => some (!x.low)
  | none => if m.timeOutOn k && m.toutMode k != 0 then some (m.bit (Rg.PTP_TOUT_CFG k) 2) else none

/-- The registers of a capture FIFO show its head. -/
def showTin (m : Mach) (k : Nat) : Mach :=
  let l := m.clk.fifo.getD k []
  match l with
  | [] => (m.wr (Rg.PTP_TIN_LEVEL k) 0).wr64 (Rg.PTP_TIN_TS_LO k) (Rg.PTP_TIN_TS_HI k) 0
  | (t, r) :: _ =>
    (m.wr (Rg.PTP_TIN_LEVEL k) (flagNat r <<< 8 ||| l.length)).wr64 (Rg.PTP_TIN_TS_LO k) (Rg.PTP_TIN_TS_HI k) t

/-- An edge on TIME_IN k (R252). -/
def capture (m : Mach) (k : Nat) (rising : Bool) : Mach :=
  let sel := m.fld (Rg.PTP_TIN_CFG k) 1 0
  if m.timeInOn k && (if rising then bitOf sel 0 else bitOf sel 1) then
    let t := clockNs m.clk.wt
    let n := ((m.clk.tin.find? (·.1 == k)).map (·.2.2.2)).getD 0
    let m := m.modClk fun c => { c with tin := (k, t, rising, min 255 (n + 1)) :: c.tin.filter (·.1 != k) }
    if 8 ≤ (m.clk.fifo.getD k []).length then
      (m.bump (Rg.PTP_TIN_DROP_CNT k)).fire (Rg.PTP_TIN_IRQ_STATUS k) 1
    else
      let m := m.modClk fun c => { c with fifo := c.fifo.modify k (· ++ [(t, rising)]) }
      (m.showTin k).fire (Rg.PTP_TIN_IRQ_STATUS k) 0
  else m

/-- PTP_TIN_POP removes the head capture. -/
def popTin (m : Mach) (k : Nat) : Mach := (m.modClk fun c => { c with fifo := c.fifo.modify k (·.drop 1) }).showTin k

/-- The tick input of the TIME_IN captures (R27, R252). -/
def tinEdge (m : Mach) : Mach := m.modClk fun c => { c with tinCap := c.tin, tin := [] }

/-! ### Commit and reset -/

/-- Addresses of the RW/T registers of a TIME_OUT pin. -/
def toutRegs (k : Nat) : List Nat :=
  [Rg.PTP_TOUT_CFG k, Rg.PTP_TOUT_START_LO k, Rg.PTP_TOUT_START_HI k, Rg.PTP_TOUT_PERIOD k, Rg.PTP_TOUT_WIDTH k]

/-- Values of a pin that a commit may bring in (R251). The cold period of 0 may come back with mode OFF, as for a pin that
loses its record (R67). -/
def toutOk (m old : Mach) (k : Nat) : Bool :=
  let per := m.rd (Rg.PTP_TOUT_PERIOD k)
  let w := m.rd (Rg.PTP_TOUT_WIDTH k)
  let mode := m.toutMode k
  (1000 ≤ per || per == old.rd (Rg.PTP_TOUT_PERIOD k) || (per == 0 && mode == 0))
    && (if mode == 2 then 1000 ≤ per && 16 ≤ w && w + 16 ≤ per
        else if mode == 1 then 16 ≤ w && w ≤ 4000000000
        else mode == 0)

/-- Effects of a commit on the PTP unit: pins with values out of range keep those in force, others start anew from them
while a pulse in progress finishes under the old ones; slots follow their enable bits (R247, R250, R251). -/
def ptpCommit (m old : Mach) : Mach :=
  let m := m.forAll (List.range 8) fun m k =>
    if (toutRegs k).all fun a => old.rd a == m.rd a then m
    else if m.toutOk old k then
      (m.modClk fun c => { c with pulse := c.pulse.map fun x => if x.pin == k then { x with oneShot := false } else x }).arm k
    else
      let m := m.forAll (toutRegs k) fun m a => m.wr a (old.rd a)
      (m.fire (Rg.PTP_TOUT_IRQ_STATUS k) 2).fire Rg.PTP_IRQ_STATUS 0
  m.forAll (List.range 2) fun m k =>
    let en := m.bit (Rg.PTP_DOM_CFG k) 31
    if en && m.slotState k == 0 then m.setSlot k 1 else if !en then m.setSlot k 0 else m

/-- PTP unit reset (R253): queues and FIFOs empty, registers cold, outputs off; the clocks keep running. -/
def resetPtp (m : Mach) : Mach :=
  let m := m.coldUnit uPTP
  let m := m.modClk fun c => { c with
    fifo := List.replicate 8 [], txq := List.replicate 6 [], pulse := [], next := [], tin := [] }
  m.setBit Rg.TICK_STATUS 3 false

end Mach

end Sys2Proof.Machine
end

