-- ==== Sys2Proof/Machine/Client.lean ====
section
/-! DEFINITION. Tick clients: completion, overrun and its reaction (R35 to R40). -/

namespace Sys2Proof.Machine

namespace Mach

/-- Time from the edge to the kerf start in ns. -/
def kerfNs (m : Mach) : Nat := m.tick.len * 5 / 4 - 1000 * m.fld Rg.TICK_KERF 11 0

/-- Unit that the BLOCK_RESET of a tick client resets; client 5 resets the packet engines alone (R40). -/
def clientUnit (c : Nat) : Nat := [uGWY, uMEAS, uNM, uLIN, uSENT].getD c uSWC

/-- FAB_PART_STATUS.state of a partition: 0 NONE, 1 HELD, 2 RUN, 3 RESTARTING (R359, R369). -/
def partState (m : Mach) (p : Nat) : Nat := m.fld (Rg.FAB_PART_STATUS p) 15 14

/-- A client that a block reset holds is not due until it is released (R40). -/
def clientHeld (m : Mach) (c : Nat) : Bool :=
  if 16 ≤ c then m.partState (c - 16) != 2
  else if c == 5 then m.tick.pulses.contains 5 || m.unitHeld uSWC || m.rst.bistHeld.contains 17
  else m.unitHeld (clientUnit c)

/-- A due client that is done is done in time: its time is recorded and its consecutive count returns to 0 (R38, R40). -/
def clientDone (m : Mach) (c ns : Nat) : Mach :=
  if m.tick.due.contains c && !m.tick.done.contains c && !m.tick.ovr.contains c then
    let m := { m with tick := { m.tick with done := c :: m.tick.done } }
    m.wr (Rg.TICK_CLIENT_USED c) (ns % 2 ^ 24)
  else m

/-- Reaction of a client whose consecutive count has reached its limit (R40). -/
def react (m : Mach) (c reaction : Nat) : Mach :=
  if reaction == 1 then m.push (if 16 ≤ c then .partRestart (c - 16) else .clientReset c)
  else if reaction == 2 then m.raise 0x106 c
  else m

/-- A client that is due, checked (TICK_CLIENT_CFG.enable), not held in reset, and not done (R36, R37, R40). -/
def isLate (m : Mach) (c : Nat) : Bool :=
  m.tick.due.contains c && !m.tick.done.contains c && !m.tick.ovr.contains c && m.bit (Rg.TICK_CLIENT_CFG c) 0 && !m.clientHeld c

/-- A due client that is not done is in overrun (R37, R39, R40). With limit = 0 nothing returns the consecutive count of
R40 to 0 but a tick done in time; the spec is silent on what the 8-bit field does past 255, and the model keeps it at 255
(DESIGN CHOICE, log entry 29). -/
def overrun (m : Mach) (c : Nat) : Mach :=
  if m.isLate c then
    let m := { m with tick := { m.tick with
      ovr := c :: m.tick.ovr, drop := if 16 ≤ c then (c - 16) :: m.tick.drop else m.tick.drop } }
    let m := (m.bump (Rg.TICK_CLIENT_OVR_CNT c)).setBit Rg.TICK_OVR_MAP c true
    let m := m.fire Rg.TICK_IRQ_STATUS 2
    let m := if c == 1 then m.setBit Rg.MEAS_STATUS 1 true else m
    let budget := m.fld (Rg.TICK_CLIENT_BUDGET c) 23 0
    let used := if budget == 0 then m.kerfNs else budget
    let limit := m.fld (Rg.TICK_CLIENT_CFG c) 23 16
    let consec := m.fld (Rg.TICK_CLIENT_USED c) 31 24 + 1
    let hit := limit != 0 && limit ≤ consec
    let m := m.wr (Rg.TICK_CLIENT_USED c) ((if hit then 0 else min consec 255) * 2 ^ 24 + used % 2 ^ 24)
    if hit then m.react c (m.fld (Rg.TICK_CLIENT_CFG c) 15 14) else m
  else m

end Mach

end Sys2Proof.Machine
end

