-- ==== Sys2Proof/Machine/Ops.lean ====
section
/-! DEFINITION. Memory: the address map (R15, R16), reading and writing bytes, memory protection (R362) and poison
(R365). A byte that nothing has written reads as 0. -/

namespace Sys2Proof.Machine

/-- Memory cells by rising address; no cell holds 0, which an unlisted address reads as. -/
abbrev Mem := List Host.Cell

/-- The byte that an unlisted address reads as (DESIGN CHOICE, log entry 11). -/
def memDefault : Byte := 0

/-- Byte at an address. -/
def memGet (mem : Mem) (a : Nat) : Byte :=
  match mem with
  | [] => memDefault
  | (k, b) :: t => if k == a then b else memGet t a

/-- Memory with the byte at `a` set to `b`. -/
def memSet (mem : Mem) (a : Nat) (b : Byte) : Mem :=
  match mem with
  | [] => if b == memDefault then [] else [(a, b)]
  | (k, c) :: t =>
    if a < k then (if b == memDefault then (k, c) :: t else (a, b) :: (k, c) :: t)
    else if a == k then (if b == memDefault then t else (a, b) :: t)
    else (k, c) :: memSet t a b

/-- `n` bytes from `a`. -/
def memRead (mem : Mem) (a : Nat) : Nat → List Byte
  | 0 => []
  | n + 1 => memGet mem a :: memRead mem (a + 1) n

/-- Bytes written from `a` on. -/
def memWrite (mem : Mem) (a : Nat) : List Byte → Mem
  | [] => mem
  | b :: bs => memWrite (memSet mem a b) (a + 1) bs

/-- Every cell of `[b, b + n)` back at what an unlisted address reads as. -/
def memClear (mem : Mem) (b n : Nat) : Mem := mem.filter fun c => !(b ≤ c.1 && c.1 < b + n)

/-- The canonical form: addresses strictly rising and above `lo`, no cell at the default. -/
def memWfFrom (lo : Nat) : Mem → Bool
  | [] => true
  | (k, b) :: t => lo ≤ k && b != memDefault && memWfFrom (k + 1) t

/-- Memory in canonical form. -/
def Memory.wf (mem : Mem) : Bool := memWfFrom 0 mem

/-! ### The map -/

def bSRAM : Nat := 0x20000000
def nSRAM : Nat := 0x1800000
def bTCM (bent : Nat) : Nat := 0x28000000 + bent * 0x100000
def nTCM : Nat := 0x100000
def bLPDDR : Nat := 0x1000000000
def bCAL : Nat := 0x2000000
def bSETTINGS : Nat := 0x2010000
def bKEYBLOB : Nat := 0x2050000
def bJOURNAL : Nat := 0x2060000

def inRange (a b n : Nat) : Bool := b ≤ a && a < b + n

/-- Memory index of table R365: 0 SRAM, 1 and 2 TCM, 3 MRAM, 4 LPDDR5, 5 boot ROM, 6 xSPI; none for an address that
no fitted memory holds (R16). -/
def Mach.memIndex (m : Mach) (a : Nat) : Option Nat :=
  if inRange a 0 0x2070000 then some 3
  else if inRange a bSRAM nSRAM then some 0
  else if inRange a (bTCM 0) nTCM then some 1
  else if inRange a (bTCM 1) nTCM then some 2
  else if inRange a 0x30000000 0x20000 then some 5
  else if inRange a 0x60000000 (min 0x10000000 (m.memc.xspiMib * 0x100000)) then some 6
  else if inRange a bLPDDR (min 0x200000000 (m.memc.lpddrGib * 0x40000000)) then some 4
  else none

/-- Every byte of an access lies in one fitted memory. -/
def Mach.memFits (m : Mach) (a n : Nat) : Bool :=
  match m.memIndex a with
  | some k => m.memIndex (a + (n - 1)) == some k
  | none => false

/-- The regions in force that hold an address; those of one owner may overlap (R60). -/
def Mach.regionsAt (m : Mach) (a : Nat) : List Region := m.truss.regions.filter fun r => inRange a r.base r.size

/-- The calibration set's area, which every initiator may read (R75). -/
def inCal (a : Nat) : Bool := inRange a bCAL 0x10000

/-- What a memory access does: read, write or execute. -/
inductive MemKind where
  | read | write | exec
  deriving DecidableEq, Repr

def Region.allows (r : Region) (k : MemKind) : Bool :=
  match k with
  | .read => r.read
  | .write => r.write
  | .exec => r.exec

/-- PARTITION record of a partition. -/
def Mach.partRec (m : Mach) (p : Nat) : Option Rec :=
  match m.truss.image with
  | some i => i.recBy sPARTS 2 (·.u8 4) p
  | none => none

def Mach.partHeart (m : Mach) (p : Nat) : Bool := match m.partRec p with | some r => r.u8 5 == 1 | none => false

/-- Whether a partition belongs to the owner of a region (R362): itself, one of its instances; a bent duty's region is
reached by the partitions of the duty. -/
def Mach.partReaches (m : Mach) (p own : Nat) : Bool :=
  let i := own % 0x1000
  if own / 0x1000 == 2 then p == i
  else if own / 0x1000 == 3 then some p == m.instPart i
  else if own / 0x1000 == 4 then p == m.dutyPart i 0 || p == m.dutyPart i 1
  else false

/-- The partition behind the owner of a queue or ring (R405): an instance's host, the partition that serves a duty in the
owning bent; none behind a unit. -/
def Mach.ownerPart (m : Mach) (own : Nat) : Option Nat :=
  let i := own % 0x1000
  if own / 0x1000 == 2 then some i
  else if own / 0x1000 == 3 then m.instPart i
  else if own / 0x1000 == 4 then some (m.dutyPart i (m.dutyOwner i))
  else none

/-- The world of a queue's or ring's owner (R405): true is heartwood. -/
def Mach.ownerHeart (m : Mach) (own : Nat) : Bool :=
  match m.ownerPart own with
  | some p => m.partHeart p
  | none => own / 0x1000 == 1

/-- Whether a sapwood initiator belongs to the owner of a region (R362): its partition, one of its instances, its unit. -/
def Mach.inOwner (m : Mach) (init own : Nat) : Bool :=
  (match m.partOf init with | some p => m.partReaches p own | none => false)
  || own / 0x1000 == 1 &&
    let i := own % 0x1000
    (0x40 ≤ init && init < 0x4C && i == uMBUS) || (0x50 ≤ init && init < 0x53 && i == uEPORT)
      || (init == 0x30 && i == uGWY) || (init == 0x31 && i == uMEAS) || (init == 0x32 && i == uKEY)
      || ((init == 0x20 || init == 0x21) && i == uSWC)

/-- Memory protection of one byte (R362); KEYBLOB is heartwood-only (R15), and CAL is open to every read (R75). A queue or
ring engine acts for the owner `act` of its queue or ring (R405). -/
def Mach.memAllowed (m : Mach) (init a : Nat) (k : MemKind) (act : Option Nat := none) : Bool :=
  let heart := match act with | some o => m.ownerHeart o | none => m.isHeart init || init == idLOADER
  let mine (own : Nat) : Bool := m.inOwner init own || match act with
    | some o => o == own || (match m.ownerPart o with | some p => m.partReaches p own | none => false)
    | none => false
  if heart then
    (k != .exec || (m.regionsAt a).isEmpty || (m.regionsAt a).any (·.exec))
  else if inRange a bKEYBLOB 0x10000 then false
  else (k == .read && inCal a)
    || (!(m.regionsAt a).any (·.heartOnly) && (m.regionsAt a).any fun r => r.allows k && (r.shared || mine r.owner))

/-- A whole access under R362. -/
def Mach.accessAllowed (m : Mach) (init a n : Nat) (k : MemKind) (act : Option Nat := none) : Bool :=
  (List.range n).all fun i => m.memAllowed init (a + i) k act

/-- A refused access recorded (R362). -/
def Mach.memViolation (m : Mach) (a init : Nat) : Mach :=
  let m1 := m.bump Rg.FAB_VIOL_CNT
  let m2 := if m.bit Rg.FAB_IRQ_STATUS 1 then m1
    else (m1.wr64 Rg.FAB_VIOL_ADDR_LO Rg.FAB_VIOL_ADDR_HI a).wr Rg.FAB_VIOL_INIT init
  m2.fire Rg.FAB_IRQ_STATUS 1

/-- An access reads a poisoned word (R365). -/
def Mach.poisoned (m : Mach) (a n : Nat) : Bool :=
  m.memc.poison.any fun w => w < a + n && a < w + 8

/-- Poison cleared in words that a write covers whole (R365). -/
def Mach.unpoison (m : Mach) (a n : Nat) : Mach :=
  { m with memc := { m.memc with poison := m.memc.poison.filter fun w => !(a ≤ w && w + 8 ≤ a + n) } }

/-- Requests charge the budget of the initiator's QoS group (R360). -/
def Mach.chargeFab (m : Mach) (init bytes : Nat) : Mach :=
  let g := m.fld (Rg.FAB_INIT_GROUP (init % 256)) 4 0
  { m with fab := { m.fab with bw := kput m.fab.bw g (kgetD m.fab.bw g 0 + ceilDiv bytes 256) } }

/-- A DMA read: presence, protection and poison; none is a bus error (R361). -/
def Mach.dmaRead (mem : Mem) (m : Mach) (init a n : Nat) (act : Option Nat := none) : Option (List Byte) :=
  if m.memFits a n && m.accessAllowed init a n .read act && !m.poisoned a n then some (memRead mem a n) else none

/-- A write that touches the snapshot area of a bent TCM, which changes only at edges (R331). -/
def inSnap (a n : Nat) : Bool :=
  [0, 1].any fun b => a < bTCM b + nTCM && bTCM b + 0xF0000 < a + n

/-- Where a write to the TCM that a resynchronisation has copied goes as well (R402 step 4). -/
def Mach.tcmTwin (m : Mach) (a : Nat) : Option Nat :=
  match m.bent.copied with
  | some x => if inRange a (bTCM (1 - x)) 0xF0000 then some (a - bTCM (1 - x) + bTCM x) else none
  | none => none

/-- Bytes written to memory, and to the other TCM during a resynchronisation (R402 step 4). -/
def Mach.memStore (m : Mach) (mem : Mem) (a : Nat) (bs : List Byte) : Mem :=
  match m.tcmTwin a with
  | some b => memWrite (memWrite mem a bs) b bs
  | none => memWrite mem a bs

/-- A DMA write to SRAM, TCM or LPDDR5; none is a bus error. -/
def Mach.dmaWrite (mem : Mem) (m : Mach) (init a : Nat) (bs : List Byte) (act : Option Nat := none) : Option (Mem × Mach) :=
  let ok := match m.memIndex a with
    | some k => k == 0 || k == 1 || k == 2 || k == 4
    | none => false
  if ok && m.memFits a bs.length && !inSnap a bs.length && m.accessAllowed init a bs.length .write act then
    some (m.memStore mem a bs, (m.unpoison a bs.length).chargeFab init bs.length)
  else none

end Sys2Proof.Machine
end

