-- ==== Sys2Proof/Machine/Slots.lean ====
section
/-! DEFINITION. Slots of virtual device instances as the queue and ring engines see them (R423 to R431): the
instance that holds a resource, its state and generation, events and virtual vectors; and how a DMA initiator
records a refused memory access (R362). -/

namespace Sys2Proof.Machine

/-- Resource kinds of table R423. -/
def kRXQ : Nat := 1
def kTXQ : Nat := 2
def kRING : Nat := 3
def kLOAD : Nat := 4
def kROUTES : Nat := 5
def kPDUS : Nat := 6
def kBW : Nat := 7

namespace Mach

/-- The slot that holds a resource, if an instance has it. -/
def slotOf (m : Mach) (kind idx : Nat) : Option VSlot := m.vdev.slots.find? fun s => s.kind == kind && s.idx == idx

/-- State of an instance: 0 NONE, 1 RUN, 2 FREEZING, 3 FROZEN, 4 RESET (R426). -/
def instState (m : Mach) (i : Nat) : Nat := m.fld (Rg.VDEV_INST_STATE i) 2 0

/-- Generation of an instance (R427). -/
def instGen (m : Mach) (i : Nat) : Nat := m.fld (Rg.VDEV_INST_STATE i) 31 16

/-- Whether the engine of a queue or ring serves it: it belongs to no instance, or to one in RUN (R430, R434). -/
def served (m : Mach) (kind idx : Nat) : Bool :=
  match m.slotOf kind idx with
  | some s => m.instState s.inst == 1
  | none => true

/-- Virtual vector of slot `e` of an instance (R429). -/
def vecOf (m : Mach) (i e : Nat) : Nat :=
  m.fld (Rg.VDEV_INST_CFG i) 9 0 + e % max 1 (m.fld (Rg.VDEV_INST_CFG i) 22 16)

/-- A virtual vector set pending (R363). -/
def setVec (m : Mach) (v : Nat) : Mach :=
  if m.irq.vec.contains v then m else { m with irq := { m.irq with vec := v :: m.irq.vec } }

/-- A slot event (R429): latched in VDEV_EVT, and in RUN raised as a vector. -/
def slotEvent (m : Mach) (s : VSlot) (bit : Nat) : Mach :=
  let m := m.setBit (Rg.VDEV_EVT s.inst s.e) bit true
  if m.instState s.inst == 1 then m.setVec (m.vecOf s.inst s.e) else m

def modInst (m : Mach) (i : Nat) (f : VInst → VInst) : Mach :=
  { m with vdev := { m.vdev with insts := kmod m.vdev.insts i {} f } }

/-- A late completion or event discarded (R428). -/
def lateDrop (m : Mach) (i : Nat) : Mach :=
  (m.bump (Rg.VDEV_LATE_CNT i)).modInst i fun x => { x with late := true }

/-- A refused access of a DMA initiator is recorded (R362). -/
def dmaNote (m : Mach) (init a n : Nat) (k : MemKind) (act : Option Nat := none) : Mach :=
  if m.memFits a n && !m.accessAllowed init a n k act then m.memViolation a init else m

/-- Units charged to the fabric budget of an instance (R360, R431): the event of the FABRIC_BW slot as the budget is
spent. -/
def chargeInst (m : Mach) (i bytes : Nat) : Mach :=
  match m.vdev.slots.find? fun s => s.inst == i && s.kind == kBW with
  | none => m
  | some s =>
    let old := kgetD m.vdev.bw i 0
    let new := old + ceilDiv bytes 256
    let m := { m with vdev := { m.vdev with bw := kput m.vdev.bw i new } }
    if old < s.amt && s.amt ≤ new then m.slotEvent s 0 else m

/-- Units charged for a resource of an instance. -/
def charge (m : Mach) (kind idx bytes : Nat) : Mach :=
  match m.slotOf kind idx with
  | some s => m.chargeInst s.inst bytes
  | none => m

end Mach

end Sys2Proof.Machine
end

