-- ==== Sys2Proof/Machine/Mbus.lean ====
section
/-! DEFINITION. The CAN channels (chapter 13): filters and receive objects, receive and transmit queues, queue H,
fault confinement and bus-off, transceivers and wake, commits and resets. -/

namespace Sys2Proof

/-- Bytes that a frame stores (R262): at most 8 for a classical frame, none for a remote frame. -/
def CanFrame.payload (f : CanFrame) : List Byte :=
  if f.rtr then [] else if f.format == 0 then f.data.take 8 else f.data

/-- Data bytes of a DLC in a classical and in an FD frame. -/
def dlcBytes (fd : Bool) (dlc : Nat) : Nat :=
  if dlc ≤ 8 then dlc else if fd then [12, 16, 20, 24, 32, 48, 64].getD (dlc - 9) 64 else 8

/-- Arbitration field as sent, dominant bits 0, so that the smaller number wins (R268). -/
def CanFrame.arb (f : CanFrame) : Nat :=
  if f.ide then (f.id / 2 ^ 18 % 2048) * 2 ^ 21 + 3 * 2 ^ 19 + (f.id % 2 ^ 18) * 2 + Machine.flagNat f.rtr
  else (f.id % 2048) * 2 ^ 21 + Machine.flagNat f.rtr * 2 ^ 20

/-- id_word of tables R262 and R265. -/
def CanFrame.idWord (f : CanFrame) : Nat := f.id % 2 ^ 29 + Machine.flagNat f.ide * 2 ^ 29 + Machine.flagNat f.rtr * 2 ^ 30

end Sys2Proof

namespace Sys2Proof.Machine

/-- Index of a filter whose MBUS_FLT_CFG lies at an address. -/
def fltIndex (a : Nat) : Option Nat :=
  if 0x41300000 ≤ a && a < 0x41340000 && 0x8000 ≤ a % 0x10000 && a % 0x10 == 0 then
    some ((a - 0x41300000) / 0x10000 * 2048 + (a % 0x8000) / 0x10)
  else none

/-- Address of a word of filter `f` (R259). -/
def fltReg (f w : Nat) : Nat := 0x41308000 + f / 2048 * 0x10000 + f % 2048 * 0x10 + w

namespace Mach

def mch (m : Mach) (c : Nat) : MbusCh := m.mbus.ch.getD c {}

def modMch (m : Mach) (c : Nat) (f : MbusCh → MbusCh) : Mach :=
  { m with mbus := { m.mbus with ch := m.mbus.ch.modify c f } }

/-- MBUS_STATUS.state: 0 DISABLED, 1 INTEGRATING, 2 ERROR_ACTIVE, 3 ERROR_PASSIVE, 4 BUS_OFF, 5 RECOVERING, 6 HELD. -/
def canState (m : Mach) (c : Nat) : Nat := m.fld (Rg.MBUS_STATUS c) 2 0
def setCan (m : Mach) (c st : Nat) : Mach := m.setFld (Rg.MBUS_STATUS c) 2 0 st
def canIrq (m : Mach) (c i : Nat) : Mach := m.fire (Rg.MBUS_IRQ_STATUS c) i
def canEnabled (m : Mach) (c : Nat) : Bool := m.bit (Rg.MBUS_CTRL c) 0
def canTec (m : Mach) (c : Nat) : Nat := m.fld (Rg.MBUS_ERR_CNT c) 8 0
def canRec (m : Mach) (c : Nat) : Nat := m.fld (Rg.MBUS_ERR_CNT c) 23 16

/-- Transceiver mode in effect: the commanded one once its change is complete (R272). -/
def xcvrMode (m : Mach) (c : Nat) : Option Nat :=
  if m.bit (Rg.MBUS_XCVR_STATUS c) 0 then some (m.fld (Rg.MBUS_XCVR_CTRL c) 1 0) else none

/-- The controller only listens (R255, R258). -/
def canListens (m : Mach) (c : Nat) : Bool := m.bit (Rg.MBUS_CFG c) 2 || m.xcvrMode c == some 2

/-- A ball of the channel is off (R496). -/
def canOff (m : Mach) (c : Nat) : Bool := m.pinOff (8 + 2 * c) 2 || m.pinOff (9 + 2 * c) 2

/-- The transmitter of a channel cannot reach the bus: its transceiver is in another mode than NORMAL, its L-die part is in
reset, R273 has switched it off, or a ball is off. -/
def canMute (m : Mach) (c : Nat) : Bool :=
  m.dieHeld .l || m.canOff c || (match m.xcvrMode c with | some k => k != 3 | none => false)
    || m.fld (Rg.MBUS_XCVR_STATUS c) 2 1 != 0

/-- The controller receives the bus: its transceiver is in LISTEN or NORMAL, and its balls are not off. -/
def canHears (m : Mach) (c : Nat) : Bool :=
  (m.xcvrMode c == some 2 || m.xcvrMode c == some 3) && !m.elemHeld uMBUS c && !m.dieHeld .l && !m.canOff c
    && !((m.mch c).shutOff && (m.mch c).tx.isNone)

/-! ### Fault confinement (R270, R271) -/

/-- warning and ERROR_PASSIVE follow the counts and warn_level. -/
def confine (m : Mach) (c : Nat) : Mach :=
  let most := max (m.canTec c) (m.canRec c)
  let w : Bool := m.fld (Rg.MBUS_CFG c) 31 24 ≤ most
  let rose := w && !m.bit (Rg.MBUS_STATUS c) 3
  let m := (m.setBit (Rg.MBUS_STATUS c) 3 w).doIf rose (·.canIrq c 2)
  if m.canState c == 2 && 128 ≤ most then (m.setCan c 3).canIrq c 3
  else if m.canState c == 3 && most < 128 then m.setCan c 2
  else m

def setErr (m : Mach) (c tec rc : Nat) : Mach :=
  (m.wr (Rg.MBUS_ERR_CNT c) (min rc 255 <<< 16 ||| min tec 511)).confine c

/-- A reception without error: ISO 11898-1 decrements REC, and sets it to a value from 119 to 127 when it was above
127; the value it takes there is free. -/
def recGood (m : Mach) (c : Nat) : Mach :=
  let r := m.canRec c
  if 127 < r then
    let (v, m) := m.draw
    m.setErr c (m.canTec c) (119 + v.toNat % 9)
  else m.setErr c (m.canTec c) (r - 1)

/-- Recovery starts (R271). -/
def startRecovery (m : Mach) (c : Nat) : Mach := if m.canState c == 4 then m.setCan c 5 else m

/-! ### Queue H (R267) -/

def showH (m : Mach) (c : Nat) : Mach := m.wr (Rg.MBUS_H_STATUS c) ((m.mch c).h.length)

/-- Two entries have the same identifier and format. -/
def HEnt.same (a b : HEnt) : Bool :=
  a.f.id == b.f.id && a.f.ide == b.f.ide && a.f.format == b.f.format

/-- A message of network management that replaces another keeps wake = 1 (R309). -/
def keepWake (old new : HEnt) : HEnt :=
  if old.nm && new.nm && bitOf (leAt old.f.data 1 1) 1 then
    { new with f := { new.f with data := patchBytes new.f.data 1 [BitVec.ofNat 8 (leAt new.f.data 1 1 ||| 2)] } }
  else new

/-- An entry arrives in queue H. -/
def pushH (m : Mach) (c : Nat) (e : HEnt) : Mach :=
  let hit (x : HEnt) : Bool := !x.busy && HEnt.same x e
  if (m.mch c).h.any hit then
    m.modMch c fun s => { s with h := s.h.map fun x : HEnt => if hit x then keepWake x e else x }
  else if 64 ≤ (m.mch c).h.length then (m.bump (Rg.MBUS_H_DROP_CNT c)).canIrq c 7
  else (m.modMch c fun s => { s with h := s.h ++ [e] }).showH c

/-! ### Queues -/

def rxqSize (m : Mach) (c q : Nat) : Nat := m.fld (Rg.MBUS_RXQ_SIZE c q) 9 0
def rxqHeld (m : Mach) (c q : Nat) : Nat := m.fld (Rg.MBUS_RXQ_STATUS c q) 25 16
def rxqWr (m : Mach) (c q : Nat) : Nat := m.fld (Rg.MBUS_RXQ_STATUS c q) 9 0
def bufSize (m : Mach) (c : Nat) : Nat := [64, 256, 512, 2048].getD (m.fld (Rg.MBUS_CFG c) 5 4) 64
def qBase (m : Mach) (lo hi : Nat) : Nat := m.rd lo + 2 ^ 32 * m.fld hi 7 0

/-- Owner of a queue: the instance of its slot, or the channel's owner (R277). -/
def queueOwner (m : Mach) (kind c q : Nat) : Nat :=
  match m.slotOf kind (8 * c + q) with
  | some s => ownInst s.inst
  | none => m.ownerOr 3 c uMBUS

/-- The bents whose partitions own a queue: the bent of the owning partition's cores, or both bents of a duty. -/
def ownerInBent (m : Mach) (own b : Nat) : Bool :=
  let part (p : Nat) : Bool := (bentContexts b).any fun i =>
    match m.core i with | some c => c.sap == some p || c.heart == some p | none => false
  let k := own / 0x1000
  let i := own % 0x1000
  if k == 2 then part i
  else if k == 3 then (match m.instPart i with | some p => part p | none => false)
  else k == 4

/-- Where the memory of a queue may lie (R262). -/
def queueMemOk (m : Mach) (kind c q a n : Nat) : Bool :=
  m.memFits a n && (match m.memIndex a with
    | some k => k == 0 || k == 4 || ((k == 1 || k == 2) && m.ownerInBent (m.queueOwner kind c q) (k - 1))
    | none => false)

/-- A layout change of a receive queue is pending (R277). -/
def rxqPending (m : Mach) (c q : Nat) : Bool := (m.mch c).rediv.any (·.1 == q)

/-- A frame bound for a queue is discarded (R264). -/
def rxqDrop (m : Mach) (c q : Nat) : Mach :=
  let m := m.bump (Rg.MBUS_RXQ_DROP_CNT c q)
  match m.slotOf kRXQ (8 * c + q) with
  | some s => m.slotEvent s 1
  | none => m.canIrq c 6

/-- A filled entry is reported (R277, R281, R429). -/
def rxqEvent (m : Mach) (c q : Nat) : Mach :=
  if !m.bit (Rg.MBUS_RXQ_CTRL c q) 1 then m
  else match m.slotOf kRXQ (8 * c + q) with
    | some s => m.slotEvent s 0
    | none => if q == 0 then m.canIrq c 0 else m.fire (Rg.MBUS_QUEUE_EVENT c) q

/-- A completed descriptor is reported. -/
def txqEvent (m : Mach) (c q : Nat) : Mach :=
  match m.slotOf kTXQ (8 * c + q) with
  | some s => m.slotEvent s 0
  | none => if q == 0 then m.canIrq c 1 else m.fire (Rg.MBUS_QUEUE_EVENT c) (8 + q)

/-- A bus error on a transmit queue (R266). -/
def txqError (m : Mach) (c q : Nat) : Mach :=
  let m := m.setBit (Rg.MBUS_TXQ_CTRL c q) 0 false
  match m.slotOf kTXQ (8 * c + q) with
  | some s => m.slotEvent s 1
  | none => m.canIrq c 8

/-- MBUS_RXQ_ACK (R263): `n` entries return to the hardware. -/
def rxqAck (m : Mach) (c q n : Nat) : Mach :=
  let held := m.rxqHeld c q
  if held < n then m.canIrq c 11
  else m.setFld (Rg.MBUS_RXQ_STATUS c q) 25 16 (held - n)

/-- The receive descriptor of a frame (table R262). -/
def rxDescr (m : Mach) (f : CanFrame) (filt seq : Nat) (ts : Nat) : List Byte :=
  leBytes 4 f.idWord
    ++ [BitVec.ofNat 8 f.format, BitVec.ofNat 8 (flagNat f.brs + 2 * flagNat f.esi + 4 * flagNat f.sec)]
    ++ leBytes 2 f.payload.length
    ++ [BitVec.ofNat 8 (if f.format == 2 then 0 else f.dlc), BitVec.ofNat 8 (if f.format == 2 then f.sdt else 0)]
    ++ leBytes 2 filt ++ leBytes 4 (if f.format == 2 then f.af else 0)
    ++ [BitVec.ofNat 8 (if f.format == 2 then f.vcid else 0), 0] ++ leBytes 2 seq ++ leBytes 8 ts
    ++ leBytes 4 (m.rd Rg.TICK_COUNT_LO)

/-! ### Filters (R259, R261) -/

/-- Whether filter `f` matches a frame. -/
def fltMatch (m : Mach) (c f : Nat) (x : CanFrame) : Bool :=
  let cfg := m.rd (fltReg f 0)
  let kind := bitsOf cfg 1 0
  let fits := if kind == 0 then x.format < 2 && !x.ide else if kind == 1 then x.format < 2 && x.ide else x.format == 2
  let v := if kind == 3 then x.af else x.id
  let mask := m.rd (fltReg f 8)
  bitOf cfg 31 && bitsOf cfg 11 8 == c && fits && (v &&& mask) == (m.rd (fltReg f 4) &&& mask)

/-- The first matching filter in ascending index order. -/
def fltSearch (m : Mach) (c : Nat) (x : CanFrame) : Option Nat :=
  (m.regs.filterMap fun e => fltIndex e.1).find? fun f => m.fltMatch c f x

end Mach

/-- An entry of a receive queue is filled (R263), or its frame is discarded (R264). A refused memory access discards
the frame as well. -/
def rxqFill (mem : Mem) (m : Mach) (c q : Nat) (f : CanFrame) (filt ts : Nat) : Mem × Mach :=
  let size := m.rxqSize c q
  let held := m.rxqHeld c q
  let wr := m.rxqWr c q
  let data := f.payload
  if !m.bit (Rg.MBUS_RXQ_CTRL c q) 0 || size == 0 || size ≤ held || m.rxqPending c q || m.bufSize c < data.length
      || !m.served kRXQ (8 * c + q) then (mem, m.rxqDrop c q)
  else
    let base := m.qBase (Rg.MBUS_RXQ_BASE_LO c q) (Rg.MBUS_RXQ_BASE_HI c q)
    let i := 0x40 + c
    let pay := base + 32 * size + m.bufSize c * wr
    let dsc := base + 32 * wr
    let seq := kgetD (m.mch c).seq q 0
    let m := m.charge kRXQ (8 * c + q) (32 + data.length)
    let put (mem : Mem) (m : Mach) (a : Nat) (bs : List Byte) : Option (Mem × Mach) :=
      if bs.isEmpty then some (mem, m)
      else if m.queueMemOk kRXQ c q a bs.length then m.dmaWrite mem i a bs (m.queueOwner kRXQ c q) else none
    match put mem m pay data with
    | none => (mem, (m.dmaNote i pay data.length .write (m.queueOwner kRXQ c q)).rxqDrop c q)
    | some (mem, m) =>
      match put mem m dsc (m.rxDescr f filt (seq % 65536) ts) with
      | none => (mem, (m.dmaNote i dsc 32 .write (m.queueOwner kRXQ c q)).rxqDrop c q)
      | some (mem, m) =>
        let m := m.modMch c fun s => { s with seq := kput s.seq q (seq + 1) }
        (mem, (m.wr (Rg.MBUS_RXQ_STATUS c q) ((held + 1) <<< 16 ||| (wr + 1) % size)).rxqEvent c q)

/-- A received frame is routed (R261). -/
def routeFrame (mem : Mem) (m : Mach) (c : Nat) (f : CanFrame) (ts : Nat) : Mem × Mach :=
  match m.fltSearch c f with
  | some x =>
    let cfg := m.rd (fltReg x 0)
    let m := m.bump (fltReg x 0xC)
    let m := if bitOf cfg 3 then
        { m with mbus := { m.mbus with objs := kput m.mbus.objs x f.payload, fresh := x :: m.mbus.fresh.filter (· != x) } }
      else m
    if bitOf cfg 2 then rxqFill mem m c (bitsOf cfg 6 4) f x ts else (mem, m)
  | none =>
    if m.bit (Rg.MBUS_CTRL c) 1 then rxqFill mem m c 0 f 0xFFFF ts
    else (mem, m.bump (Rg.MBUS_RX_NOMATCH_CNT c))

namespace Mach

/-- Whether the controller takes part in a reception: enabled and integrated, or stopping with a reception begun
before (R258). -/
def canReceives (m : Mach) (c : Nat) (begun : Bool) : Bool :=
  m.canHears c && (m.canState c == 2 || m.canState c == 3 || (m.canState c == 0 && begun))

/-- Working time in ns at local time `lt`, which may lie before the clocks' last update. -/
def wtAt (m : Mach) (lt : Nat) : Int :=
  let rate := if m.wtSource == 0 then oneNs else oneNs + m.domRate (m.wtSource - 1)
  (m.clk.wt - ((m.clk.lt - lt : Nat) : Int) * rate) / oneNs

/-! ### Transmission (R265 to R269) -/

/-- A status bit bus-off follows an error count above 255 (R271). -/
def busOff (m : Mach) (c : Nat) : Mach :=
  let m := ((m.setCan c 4).bump (Rg.MBUS_BUSOFF_CNT c)).canIrq c 4
  let m := m.raise 0x114 c
  if m.fld (Rg.MBUS_CFG c) 23 16 == 1 then m.startRecovery c else m

/-- The frame of a transmit descriptor and its payload address; none when the descriptor is invalid (R265, R266). -/
def txDescr (m : Mach) (c : Nat) (d : List Byte) : Option (CanFrame × Nat × Nat) :=
  let w := leAt d 0 4
  let format := leAt d 4 1
  let flags := leAt d 5 1
  let len := leAt d 6 2
  let dlc := leAt d 8 1
  let addr := leAt d 24 8
  let rtr := bitOf w 30
  let ide := bitOf w 29 && format != 2
  let proto := m.fld (Rg.MBUS_CFG c) 1 0
  let bad : Bool := format > proto || (rtr && format != 0) || (bitOf flags 0 && format != 1)
    || (format == 2 && (len == 0 || 2048 < len)) || bitOf w 31 || bitsOf flags 6 3 != 0
    || leAt d 11 1 != 0 || leAt d 17 1 != 0 || addr / 2 ^ 40 != 0
  if bad then none
  else
    let n := if format == 2 then len else if rtr then 0 else dlcBytes (format == 1) (dlc % 16)
    some ({ id := if ide then bitsOf w 28 0 else bitsOf w 10 0, ide, rtr, format, brs := bitOf flags 0, sec := bitOf flags 2 && format == 2,
            dlc := dlc % 16, sdt := leAt d 9 1, vcid := leAt d 16 1, af := leAt d 12 4 }, addr, n)

/-- A queue has used up its budget of this tick (R268). -/
def budgetSpent (m : Mach) (c q : Nat) : Bool :=
  let b := m.fld (Rg.MBUS_TXQ_BUDGET c q) 7 0
  b != 0 && b ≤ kgetD (m.mch c).spent q 0

def txqHead (m : Mach) (c q : Nat) : Nat := m.fld (Rg.MBUS_TXQ_HEAD c q) 7 0
def txqTail (m : Mach) (c q : Nat) : Nat := m.fld (Rg.MBUS_TXQ_TAIL c q) 7 0
def txqSize (m : Mach) (c q : Nat) : Nat := max 1 (m.fld (Rg.MBUS_TXQ_SIZE c q) 9 0)
def txqDesc (m : Mach) (c q i : Nat) : Nat := m.qBase (Rg.MBUS_TXQ_BASE_LO c q) (Rg.MBUS_TXQ_BASE_HI c q) + 32 * i

/-- Read of a queue's memory. -/
def txqRead (mem : Mem) (m : Mach) (c q a n : Nat) : Option (List Byte) :=
  if n == 0 then some []
  else if m.queueMemOk kTXQ c q a n then m.dmaRead mem (0x40 + c) a n (m.queueOwner kTXQ c q) else none

/-- A transmit queue has a descriptor that the channel may take. -/
def txqReady (m : Mach) (c q : Nat) : Bool :=
  m.bit (Rg.MBUS_TXQ_CTRL c q) 0 && m.txqHead c q != m.txqTail c q && m.served kTXQ (8 * c + q)

end Mach

/-- Status, time stamp and done written to a descriptor (R266): none is a bus error. -/
def writeBack (mem : Mem) (m : Mach) (c q a status ts : Nat) : Option (Mem × Mach) :=
  let put (mem : Mem) (m : Mach) (a : Nat) (bs : List Byte) : Option (Mem × Mach) :=
    m.dmaWrite mem (0x40 + c) a bs (m.queueOwner kTXQ c q)
  match m.txqRead mem c q (a + 5) 1 with
  | some [fl] =>
    match put mem m (a + 5) [fl ||| 0x80#8] with
    | some (mem, m) =>
      match put mem m (a + 10) [BitVec.ofNat 8 status] with
      | some (mem, m) => put mem m (a + 20) (leBytes 4 ts)
      | none => none
    | none => none
  | _ => none

/-- The descriptor at HEAD completes with a status; ts_lo of a frame that no start of frame sent is free. -/
def completeHead (mem : Mem) (m : Mach) (c q status : Nat) (ts : Option Nat) : Mem × Mach × Bool :=
  let a := m.txqDesc c q (m.txqHead c q)
  let (v, m) := match ts with
    | some t => (t, m)
    | none => let (x, m) := m.draw; (x.toNat % 2 ^ 32, m)
  match writeBack mem m c q a status v with
  | none => (mem, (m.dmaNote (0x40 + c) a 32 .write (m.queueOwner kTXQ c q)).txqError c q, false)
  | some (mem, m) =>
    let m := m.wr (Rg.MBUS_TXQ_HEAD c q) ((m.txqHead c q + 1) % m.txqSize c q)
    (mem, (m.charge kTXQ (8 * c + q) 32).txqEvent c q, true)

/-- Every descriptor from HEAD to TAIL completes with ABORTED, at most `n` of them (R269). -/
def abortRest (mem : Mem) (m : Mach) (c q : Nat) : Nat → Mem × Mach
  | 0 => (mem, m)
  | n + 1 =>
    if m.txqHead c q == m.txqTail c q then (mem, m)
    else match completeHead mem m c q 2 none with
      | (mem, m, true) => abortRest mem m c q n
      | (mem, m, false) => (mem, m)

/-- An abort of a transmit queue (R269). With a frame in transmission the descriptors behind it complete now, and it
completes at the end of its attempt. -/
def txqAbort (mem : Mem) (m : Mach) (c q : Nat) : Mem × Mach :=
  match (m.mch c).tx with
  | some t =>
    if t.src == some q && t.owner.all fun o => o.2 == m.instGen o.1 then
      let head := m.txqHead c q
      let m := m.wr (Rg.MBUS_TXQ_HEAD c q) (t.abortTo.getD ((head + 1) % m.txqSize c q))
      let (mem, m) := abortRest mem m c q 256
      let m := m.modMch c fun s => { s with tx := some { t with abortTo := some (m.txqTail c q) } }
      (mem, m.wr (Rg.MBUS_TXQ_HEAD c q) head)
    else abortRest mem m c q 256
  | none => abortRest mem m c q 256

/-- Invalid descriptors at the head of a queue complete with INVALID; the valid head, if any, is answered. -/
def validHead (mem : Mem) (m : Mach) (c q : Nat) : Nat → Mem × Mach × Option (CanFrame × Nat × Nat × Bool)
  | 0 => (mem, m, none)
  | n + 1 =>
    if !m.txqReady c q then (mem, m, none)
    else
      let a := m.txqDesc c q (m.txqHead c q)
      match m.txqRead mem c q a 32 with
      | none => (mem, (m.dmaNote (0x40 + c) a 32 .read (m.queueOwner kTXQ c q)).txqError c q, none)
      | some d =>
        let m := m.chargeFab (0x40 + c) 32
        match m.txDescr c d with
        | some (f, addr, len) => (mem, m, some (f, addr, len, bitOf (leAt d 5 1) 1))
        | none =>
          match completeHead mem m c q 4 none with
          | (mem, m, true) => validHead mem m c q n
          | (mem, m, false) => (mem, m, none)

/-- A candidate for the next start of frame (R268): its frame, transmit queue or none for H, descriptor, payload
address and length, one_shot. -/
structure Cand where
  f : CanFrame
  src : Option Nat
  desc : Nat := 0
  addr : Nat := 0
  len : Nat := 0
  oneShot : Bool := false
  nm : Bool := false
  deriving DecidableEq, Repr

/-- The candidate that wins arbitration; the earlier of equals. -/
def bestCand : List Cand → Option Cand
  | [] => none
  | x :: t =>
    match bestCand t with
    | none => some x
    | some y => if y.f.arb < x.f.arb then some y else some x

/-- The heads of the enabled transmit queues with budget left. -/
def queueCands (mem : Mem) (m : Mach) (c : Nat) : Mem × Mach × List Cand :=
  (List.range 8).foldl (fun (mem, m, l) q =>
    match validHead mem m c q 257 with
    | (mem, m, none) => (mem, m, l)
    | (mem, m, some (f, addr, len, os)) =>
      if m.budgetSpent c q then (mem, m, l)
      else (mem, m, l ++ [{ f, src := some q, desc := m.txqDesc c q (m.txqHead c q), addr, len, oneShot := os }]))
    (mem, m, [])

namespace Mach

/-- The best waiting entry of queue H as a candidate. -/
def hCand (m : Mach) (c : Nat) : List Cand :=
  match bestCand (((m.mch c).h.filter (!·.busy)).map fun e : HEnt => { f := e.f, src := none, nm := e.nm }) with
  | some x => [x]
  | none => []

/-- A start of frame of the chosen candidate. -/
def beginTx (m : Mach) (c : Nat) (x : Cand) (f : CanFrame) : Mach :=
  let ts := unsignedOf 32 m.wtNs
  match x.src with
  | none =>
    m.modMch c fun s => { s with
      tx := some { src := none, f, ts, nm := x.nm }
      h := match s.h.findIdx? fun e : HEnt => !e.busy && e.f == f with
        | some i => s.h.modify i fun e => { e with busy := true }
        | none => s.h }
  | some q =>
    let owner := (m.slotOf kTXQ (8 * c + q)).map fun s => (s.inst, m.instGen s.inst)
    let m := m.charge kTXQ (8 * c + q) (32 + x.len)
    m.modMch c fun s => { s with
      tx := some { src := some q, f, desc := x.desc, oneShot := x.oneShot, owner, ts }
      spent := kmod s.spent q 0 (· + 1) }

/-- The channel may start a frame (R255, R258, R271). -/
def canMayStart (m : Mach) (c : Nat) : Bool :=
  (m.canState c == 2 || m.canState c == 3) && m.canEnabled c && m.xcvrMode c == some 3 && !m.canListens c
    && (m.mch c).tx.isNone && m.canHears c

end Mach

/-- The chosen candidate's payload is fetched and its frame starts; a bus error passes on to the next candidate. -/
def startBest (mem : Mem) (m : Mach) (c : Nat) : List Cand → Nat → Mem × Mach
  | _, 0 => (mem, m)
  | l, n + 1 =>
    match bestCand l with
    | none => (mem, m)
    | some x =>
      match x.src with
      | none => (mem, m.beginTx c x x.f)
      | some q =>
        match m.txqRead mem c q x.addr x.len with
        | some bs => (mem, (m.chargeFab (0x40 + c) bs.length).beginTx c x { x.f with data := bs })
        | none => startBest mem ((m.dmaNote (0x40 + c) x.addr x.len .read (m.queueOwner kTXQ c q)).txqError c q) c (l.filter (· != x)) n

/-- CAN_FRAME_START (R268). -/
def frameStart (mem : Mem) (m : Mach) (c : Nat) : Mem × Mach :=
  if !m.canMayStart c then (mem, m)
  else
    let (mem, m, l) := queueCands mem m c
    startBest mem m c (m.hCand c ++ l) 10

/-- The descriptor of the frame in transmission completes; a completion of an old generation is discarded (R428). -/
def finishTx (mem : Mem) (m : Mach) (c : Nat) (t : MTx) (q status : Nat) (sent : Bool) : Mem × Mach :=
  match t.owner with
  | some (i, g) =>
    if m.instGen i == g then
      let (mem, m, _) := completeHead mem m c q status (if sent then some t.ts else none)
      (mem, match t.abortTo with | some tail => m.wr (Rg.MBUS_TXQ_HEAD c q) tail | none => m)
    else (mem, m.lateDrop i)
  | none =>
    let (mem, m, _) := completeHead mem m c q status (if sent then some t.ts else none)
    (mem, match t.abortTo with | some tail => m.wr (Rg.MBUS_TXQ_HEAD c q) tail | none => m)

/-- The attempt of the frame in transmission is over without success: it is sent again, unless it completes LOST or
ABORTED (R266, R269, R271). -/
def attemptFailed (mem : Mem) (m : Mach) (c : Nat) (t : MTx) : Mem × Mach :=
  let m := m.modMch c fun s => { s with tx := none, h := s.h.map fun e : HEnt => { e with busy := false } }
  match t.src with
  | none => (mem, m)
  | some q =>
    if t.abortTo.isSome then finishTx mem m c t q 2 false
    else if t.oneShot then finishTx mem m c t q 3 false
    else match t.owner with
      | some (i, g) => (mem, if m.instGen i == g then m else m.lateDrop i)
      | none => (mem, m)

namespace Mach

/-- A channel that was only finishing its frame enters DISABLED (R258). -/
def afterTx (m : Mach) (c : Nat) : Mach :=
  if (m.mch c).stopping then (m.modMch c fun s => { s with stopping := false }).setCan c 0 else m

end Mach

/-- CAN_TX_COMPLETE (R266). A frame behind a transmitter that is switched off cannot have been sent (R273). -/
def txComplete (mem : Mem) (m : Mach) (c : Nat) (sent : Bool) : Mem × Mach :=
  match (m.mch c).tx with
  | none => (mem, m)
  | some t =>
    if !sent || m.canMute c then
      let (mem, m) := attemptFailed mem m c t
      (mem, m.afterTx c)
    else
      let m := m.modMch c fun s => { s with tx := none, h := s.h.filter (!·.busy) }
      let m := ((m.showH c).bump (Rg.MBUS_TX_FRAME_CNT c)).setErr c (m.canTec c - 1) (m.canRec c)
      let (mem, m) := match t.src with
        | none => (mem, m)
        | some q => finishTx mem m c t q 1 true
      (mem, m.afterTx c)

/-- CAN_ERROR (R270, R271): `tx` says that the channel was the transmitter. -/
def canErrorOn (mem : Mem) (m : Mach) (c : Nat) (tx : Bool) (lec incr : Nat) : Mem × Mach :=
  let st := m.canState c
  if !(st == 2 || st == 3) || !(m.canHears c || tx && (m.mch c).tx.isSome) then (mem, m)
  else
    let m := m.setFld (Rg.MBUS_STATUS c) 6 4 lec
    let m := if m.canListens c then m else m.bump (Rg.MBUS_ERR_FRAME_CNT c)
    let m := if tx then m.setErr c (m.canTec c + incr) (m.canRec c) else m.setErr c (m.canTec c) (m.canRec c + incr)
    let (mem, m) := match (m.mch c).tx with
      | some t => if tx then attemptFailed mem m c t else (mem, m)
      | none => (mem, m)
    let m := if 255 < m.canTec c then m.busOff c else m
    (mem, if tx then m.afterTx c else m)

/-- CAN_FRAME_RECEIVED (R255, R259, R261). -/
def frameReceived (mem : Mem) (m : Mach) (c : Nat) (f : CanFrame) (begun : Bool) (ts : Nat) : Mem × Mach :=
  if !m.canReceives c begun then (mem, m)
  else if f.format > m.fld (Rg.MBUS_CFG c) 1 0 then
    if m.bit (Rg.MBUS_CFG c) 6 then (mem, if m.canState c == 0 then m else m.setCan c 1)
    else canErrorOn mem m c false 2 1
  else
    let m := (m.bump (Rg.MBUS_RX_FRAME_CNT c)).recGood c
    routeFrame mem m c f ts

namespace Mach

/-! ### States (R258, R271) -/

/-- CAN_INTEGRATION_DONE: ERROR_ACTIVE, or with a kept count of 128 or more ERROR_PASSIVE and with a kept TEC above 255
BUS_OFF (R270). -/
def integrated (m : Mach) (c : Nat) : Mach :=
  if m.canState c == 1 && m.canHears c then
    if 255 < m.canTec c then m.busOff c else (m.setCan c 2).confine c
  else m

/-- BUSOFF_RECOVERED. -/
def recovered (m : Mach) (c : Nat) : Mach :=
  if m.canState c == 5 && m.canHears c then ((m.setCan c 2).setErr c 0 0).canIrq c 5 else m

/-- BUSOFF_RECOVERY_WAIT: an automatic policy's wait has passed. -/
def recoveryWait (m : Mach) (c : Nat) : Mach :=
  if m.fld (Rg.MBUS_CFG c) 23 16 == 0 then m else m.startRecovery c

/-! ### Transceiver and wake (R272 to R276) -/

/-- A transceiver mode commanded at the L-die: a change runs until XCVR_MODE_DONE. -/
def xcvrWrite (m : Mach) (c mode : Nat) : Mach :=
  let same := m.fld (Rg.MBUS_XCVR_CTRL c) 1 0 == mode % 4 && m.bit (Rg.MBUS_XCVR_STATUS c) 0
  let m := m.setFld (Rg.MBUS_XCVR_CTRL c) 1 0 mode
  if same then m else m.setBit (Rg.MBUS_XCVR_STATUS c) 0 false

def xcvrDone (m : Mach) (c : Nat) : Mach :=
  if m.dieHeld .l || m.elemHeld uMBUS c then m else m.setBit (Rg.MBUS_XCVR_STATUS c) 0 true

/-- The transmitter is switched off by txd_timeout (1) or overtemp (2), or on again (R273). -/
def xcvrFault (m : Mach) (c bit : Nat) (on : Bool) : Mach :=
  let m := m.setBit (Rg.MBUS_XCVR_STATUS c) bit on
  if on then m.canIrq c 10 else m

/-- The seven WUF words of a channel. -/
def wufWords (m : Mach) (c : Nat) : List Nat :=
  [Rg.MBUS_WUF_ID c, Rg.MBUS_WUF_ID_MASK c, Rg.MBUS_WUF_DLC c, Rg.MBUS_WUF_DATA_LO c, Rg.MBUS_WUF_DATA_HI c,
   Rg.MBUS_WUF_MASK_LO c, Rg.MBUS_WUF_MASK_HI c].map m.rd

end Mach

/-- A frame that a selective-wake decoder with the given WUF words accepts as wake frame (R275). -/
def wufMatch (w : List Nat) (f : CanFrame) : Bool :=
  let g (i : Nat) := w.getD i 0
  let n := bitsOf (g 2) 3 0
  let bytes (lo hi : Nat) := leBytes 4 lo ++ leBytes 4 hi
  let want := bytes (g 3) (g 4)
  let mask := bytes (g 5) (g 6)
  f.format == 0 && !f.rtr && f.ide == bitOf (g 0) 29
    && (f.id &&& bitsOf (g 1) 28 0) == (bitsOf (g 0) 28 0 &&& bitsOf (g 1) 28 0) && f.dlc == n
    && (List.range n).all fun i => (f.data.getD i 0 &&& mask.getD i 0) == (want.getD i 0 &&& mask.getD i 0)

namespace Mach

/-- A wake in STANDBY with the module in Run (R276). -/
def wakeStandby (m : Mach) (c : Nat) : Mach := (m.fire (Rg.MBUS_XCVR_STATUS c) 3).canIrq c 9

/-! ### Commit (R257, R258, R277) -/

/-- Timing ranges of R256. -/
def timingOk (v nmin nmax bmax : Nat) : Bool :=
  let brp := bitsOf v 31 24
  let n := 1 + bitsOf v 23 16 + bitsOf v 15 8
  1 ≤ brp && brp ≤ bmax && nmin ≤ n && n ≤ nmax && bitsOf v 7 0 ≤ bitsOf v 15 8

/-- MBUS_CFG, MBUS_NBT and MBUS_DBT of a channel after a commit (R257). -/
def timingCommit (m old : Mach) (c : Nat) : Mach :=
  let regs := [Rg.MBUS_CFG c, Rg.MBUS_NBT c, Rg.MBUS_DBT c]
  let changed := bitsOf (m.rd (Rg.MBUS_CFG c)) 9 0 != bitsOf (old.rd (Rg.MBUS_CFG c)) 9 0
    || m.rd (Rg.MBUS_NBT c) != old.rd (Rg.MBUS_NBT c) || m.rd (Rg.MBUS_DBT c) != old.rd (Rg.MBUS_DBT c)
  let ok := timingOk (m.rd (Rg.MBUS_NBT c)) 8 256 32 && timingOk (m.rd (Rg.MBUS_DBT c)) 4 128 8
  if changed && (old.canEnabled c || m.canEnabled c != old.canEnabled c || !ok) then
    (m.forAll regs fun m a => m.wr a (old.rd a)).canIrq c 11
  else m

/-- redivide_pending follows the waiting sizes, and VDEV_RES_AMOUNT the sizes in force (R277, R439). -/
def showRediv (m : Mach) (c : Nat) : Mach :=
  let m := m.setBit (Rg.MBUS_STATUS c) 8 (!(m.mch c).rediv.isEmpty)
  m.forAll (m.vdev.slots.filter fun s => s.kind == kRXQ && s.idx / 8 == c) fun m s =>
    m.wr (Rg.VDEV_RES_AMOUNT s.inst s.e) (m.rxqSize c (s.idx % 8))

/-- A new size of a receive queue: at once where the queue is empty, else once it is (R277). -/
def resizeRxq (m : Mach) (c q size : Nat) : Mach :=
  let m := m.modMch c fun s => { s with rediv := s.rediv.filter (·.1 != q) }
  if m.rxqHeld c q == 0 then
    let m := if m.rxqSize c q == size then m else m.wr (Rg.MBUS_RXQ_STATUS c q) 0
    m.wr (Rg.MBUS_RXQ_SIZE c q) size
  else m.modMch c fun s => { s with rediv := s.rediv ++ [(q, size)] }

/-- Receive queue sizes after a commit (R277): a sum above 512 keeps every size written in it. -/
def sizeCommit (m old : Mach) (c : Nat) : Mach :=
  let due := (m.mch c).rediv
  let wrote := (List.range 8).filter fun q => m.rxqSize c q != old.rxqSize c q
  let want := wrote.map fun q => (q, m.rxqSize c q)
  let later (q : Nat) : Nat := kgetD due q (m.rxqSize c q)
  let sum := sumNat ((List.range 8).map fun q => kgetD want q (later q))
  let m := m.forAll wrote fun m q => m.wr (Rg.MBUS_RXQ_SIZE c q) (old.rxqSize c q)
  let m := if wrote.isEmpty then m
    else if 512 < sum then m.canIrq c 11
    else m.forAll want fun m x => m.resizeRxq c x.1 x.2
  let m := m.forAll (due.filter fun x => !wrote.contains x.1) fun m x => m.resizeRxq c x.1 x.2
  m.showRediv c

/-- enable after a commit (R258). -/
def canEnableCommit (m old : Mach) (c : Nat) : Mach :=
  if m.canEnabled c == old.canEnabled c || m.elemHeld uMBUS c then m
  else if m.canEnabled c then (m.modMch c fun s => { s with stopping := false }).setCan c 1
  else if (m.mch c).tx.isSome then m.modMch c fun s => { s with stopping := true }
  else m.setCan c 0

/-- Effects of a commit on the CAN channels; transmit budgets return to full. -/
def mbusCommit (m old : Mach) : Mach :=
  m.forAll (List.range 12) fun m c =>
    let m := m.modMch c fun s => { s with spent := [] }
    (((m.timingCommit old c).sizeCommit old c).canEnableCommit old c).confine c

/-! ### Resets (R278, R279) -/

/-- Registers that an element reset of a channel clears (R279), the interrupt status bits of R101 among them. -/
def mbusClears (c : Nat) : List Nat :=
  [Rg.MBUS_CTRL c, Rg.MBUS_STATUS c, Rg.MBUS_ERR_CNT c, Rg.MBUS_RX_FRAME_CNT c, Rg.MBUS_TX_FRAME_CNT c,
   Rg.MBUS_ERR_FRAME_CNT c, Rg.MBUS_BUSOFF_CNT c, Rg.MBUS_RX_NOMATCH_CNT c, Rg.MBUS_H_DROP_CNT c, Rg.MBUS_H_STATUS c,
   Rg.MBUS_XCVR_CTRL c, Rg.MBUS_IRQ_STATUS c, Rg.MBUS_QUEUE_EVENT c]
  ++ ((List.range 8).map fun q => [Rg.MBUS_RXQ_STATUS c q, Rg.MBUS_RXQ_DROP_CNT c q, Rg.MBUS_TXQ_HEAD c q,
    Rg.MBUS_TXQ_TAIL c q, Rg.MBUS_TXQ_CTRL c q]).flatten

/-- Element reset of a channel asserts (R279): state HELD until its release. A re-division that waits for an empty queue
(R277) applies at the next commit. -/
def resetCan (m : Mach) (c : Nat) : Mach :=
  let m := m.forAll (mbusClears c) fun m a => m.wr a 0
  let m := m.forAll (List.range 8) fun m q => m.setBit (Rg.MBUS_RXQ_CTRL c q) 0 false
  let m := m.modMch c fun s => { rediv := s.rediv }
  ((m.setBit (Rg.MBUS_XCVR_STATUS c) 0 false).setBit (Rg.MBUS_XCVR_STATUS c) 3 false).setCan c 6

/-- The release of a channel's reset. -/
def releaseCan (m : Mach) (c : Nat) : Mach :=
  if m.canState c == 6 && !m.elemHeld uMBUS c then m.setCan c 0 else m

/-- MBUS unit reset: every register and filter cold, receive objects gone. -/
def resetMbus (m : Mach) : Mach :=
  let m := { m.coldUnit uMBUS with mbus := {} }
  m.forAll (List.range 12) fun m c => m.setCan c 6

/-- Die reset of the L-die: transceiver and WUF registers cold (R279). -/
def coldMbusL (m : Mach) : Mach := m.forAll (List.range 12) fun m c => m.coldRange (Rg.MBUS_XCVR_CTRL c) 0x30

/-- A queue of an instance that is reset (R278): a waiting re-division finds it empty at the next commit (R277). -/
def resetQueue (m : Mach) (kind i : Nat) : Mach :=
  let c := i / 8
  let q := i % 8
  if kind == kRXQ then
    (m.setBit (Rg.MBUS_RXQ_CTRL c q) 0 false).wr (Rg.MBUS_RXQ_STATUS c q) 0
  else if kind == kTXQ then
    m.forAll [Rg.MBUS_TXQ_CTRL c q, Rg.MBUS_TXQ_HEAD c q, Rg.MBUS_TXQ_TAIL c q] fun m a => m.wr a 0
  else m

/-- Step 2 of a shutdown: a channel finishes the frame in transmission and stops (R91). -/
def shutCan (m : Mach) : Mach := m.forAll (List.range 12) fun m c => m.modMch c fun s => { s with shutOff := true }

/-- Every transmitter recessive at once (R478). -/
def stopCan (m : Mach) : Mach :=
  m.forAll (List.range 12) fun m c => m.modMch c fun s => { s with shutOff := true, tx := none, h := s.h.map fun e : HEnt => { e with busy := false } }

/-- A cancelled shutdown: channels already stopped integrate again (R92). -/
def resumeCan (m : Mach) : Mach :=
  m.forAll (List.range 12) fun m c =>
    let idle := (m.mch c).tx.isNone
    let m := m.modMch c fun s => { s with shutOff := false }
    if idle && m.canEnabled c && m.canState c != 4 && m.canState c != 5 && m.canState c != 6 then m.setCan c 1 else m

end Mach

end Sys2Proof.Machine
end

