-- ==== Sys2Proof/Machine/Nm.lean ====
section
/-! DEFINITION. Network sleep and wake management (chapter 15): segments, evaluation, ring and presence classes,
silence, rejoin, LIN segments, the awake-hold log, resets. -/

namespace Sys2Proof.Machine

/-- Fields of an NM message (R297): sleep_ready, wake, kind (0 ALIVE, 1 RING, 2 KEEPALIVE), successor. -/
def nmReady (f : CanFrame) : Bool := bitOf (leAt f.data 1 1) 0
def nmWake (f : CanFrame) : Bool := bitOf (leAt f.data 1 1) 1
def nmKind (f : CanFrame) : Nat := bitsOf (leAt f.data 1 1) 3 2
def nmSucc (f : CanFrame) : Nat := leAt f.data 2 1

namespace Mach

def seg (m : Mach) (s : Nat) : NmSeg := m.nm.seg.getD s {}
def modSeg (m : Mach) (s : Nat) (f : NmSeg → NmSeg) : Mach := { m with nm := { m.nm with seg := m.nm.seg.modify s f } }

/-- State of a segment: 0 DISABLED, 1 SLEEP, 2 AWAKE, 3 AGREED, 4 HELD (R299). -/
def segState (m : Mach) (s : Nat) : Nat := m.fld (Rg.NM_SEG_STATUS s) 2 0
def segPhase (m : Mach) (s : Nat) : Nat := m.fld (Rg.NM_SEG_STATUS s) 5 4
def segConsent (m : Mach) (s : Nat) : Nat := m.fld (Rg.NM_SEG_STATUS s) 11 10
def setConsent (m : Mach) (s n : Nat) : Mach := m.setFld (Rg.NM_SEG_STATUS s) 11 10 n
def segIrq (m : Mach) (s i : Nat) : Mach := m.fire (Rg.NM_SEG_IRQ_STATUS s) i
def segOn (m : Mach) (s : Nat) : Bool := m.bit (Rg.NM_SEG_CFG s) 31
def segPresence (m : Mach) (s : Nat) : Bool := m.bit (Rg.NM_SEG_CFG s) 30
def segIsolates (m : Mach) (s : Nat) : Bool := m.bit (Rg.NM_SEG_CFG s) 29
def segXcvr (m : Mach) (s : Nat) : Bool := m.bit (Rg.NM_SEG_CFG s) 28
def segNode (m : Mach) (s : Nat) : Nat := m.fld (Rg.NM_SEG_CFG s) 21 16
def segLin (m : Mach) (s : Nat) : Bool := m.fld (Rg.NM_SEG_CFG s) 15 8 == 2
def segCan (m : Mach) (s : Nat) : Bool := m.fld (Rg.NM_SEG_CFG s) 15 8 == 1
def segCh (m : Mach) (s : Nat) : Nat := m.fld (Rg.NM_SEG_CFG s) 7 0
def segBase (m : Mach) (s : Nat) : Nat := m.fld (Rg.NM_SEG_MSG s) 26 16
def segKeepMs (m : Mach) (s : Nat) : Nat := m.fld (Rg.NM_SEG_TIMING s) 31 16
def segSilenceMs (m : Mach) (s : Nat) : Nat := m.fld (Rg.NM_SEG_TIMING s) 15 0
def segHoldMs (m : Mach) (s : Nat) : Nat := m.fld (Rg.NM_SEG_MSG s) 9 0
def segLatch (m : Mach) (s : Nat) : Bool := m.bit (Rg.NM_SEG_CTRL s) 1

/-- A time in milliseconds as edges (R301). -/
def msTicks (m : Mach) (ms : Nat) : Nat := ceilDiv (ms * 1000) (max 1 (m.rd Rg.TICK_PERIOD))

/-- The enabled segment of a network: kind 1 CAN, 2 LIN. -/
def segOf (m : Mach) (kind c : Nat) : Option Nat :=
  (List.range 24).find? fun s => m.segOn s && m.rd (Rg.NM_SEG_CFG s) % 2 ^ 16 == kind * 256 + c

/-- The presence map (R303). -/
def segMap (m : Mach) (s : Nat) : Nat := m.rd64 (Rg.NM_SEG_MAP_LO s) (Rg.NM_SEG_MAP_HI s)
def setMap (m : Mach) (s v : Nat) : Mach := m.wr64 (Rg.NM_SEG_MAP_LO s) (Rg.NM_SEG_MAP_HI s) v

/-- sleep_map and timer_ticks follow the segments. -/
def showSeg (m : Mach) (s : Nat) : Mach :=
  let g := m.seg s
  let st := m.segState s
  let left := if st == 3 then m.msTicks (m.segSilenceMs s) - g.silence
    else if st == 2 && m.segPhase s == 2 then m.msTicks (m.segKeepMs s) - g.ring
    else if st == 2 && m.segPresence s then m.msTicks (m.segKeepMs s) - g.pres
    else 0
  (m.setFld (Rg.NM_SEG_STATUS s) 31 16 (min left 0xFFFF)).setBit Rg.NM_STATUS s (st == 1)

/-! ### The awake-hold log (R312) -/

def logOpenBit (m : Mach) (e : Nat) : Bool := m.bit (Rg.NM_LOG_HDR e) 30
def logValid (m : Mach) (e : Nat) : Bool := m.bit (Rg.NM_LOG_HDR e) 31

def showLog (m : Mach) : Mach :=
  let all := List.range 64
  m.wr Rg.NM_LOG_STATUS (all.countP m.logOpenBit <<< 16 ||| all.countP m.logValid <<< 8 ||| m.nm.logLast.getD 0)

/-- The open entry of a segment and node. -/
def logFind (m : Mach) (s n : Nat) : Option Nat :=
  (List.range 64).find? fun e => m.logOpenBit e && m.fld (Rg.NM_LOG_HDR e) 20 16 == s && m.fld (Rg.NM_LOG_HDR e) 5 0 == n

/-- Full TICK_COUNT. -/
def tickCount (m : Mach) : Nat := m.rd64 Rg.TICK_COUNT_LO Rg.TICK_COUNT_HI

/-- Durations of the open entries in edges. -/
def logDurations (m : Mach) (s : Nat) : Mach :=
  m.forAll m.nm.logStart fun m x =>
    if m.logOpenBit x.1 && m.fld (Rg.NM_LOG_HDR x.1) 20 16 == s then
      m.wr (Rg.NM_LOG_DUR x.1) (min (m.tickCount - x.2.1) 0xFFFFFFFF) else m

/-- A hold of node `n` starts with message `f`, or continues. -/
def logOpen (m : Mach) (s n : Nat) (f : CanFrame) : Mach :=
  match m.logFind s n with
  | some e =>
    { m with nm := { m.nm with logStart := kmod m.nm.logStart e (m.tickCount, m.tickCount) fun x => (x.1, m.tickCount) } }
  | none =>
    let start := match m.nm.logLast with | some l => l + 1 | none => 0
    match ((List.range 64).map fun k => (start + k) % 64).find? fun e => !m.logOpenBit e with
    | none => (m.bump Rg.NM_LOG_DROP_CNT).fire Rg.NM_IRQ_STATUS 0
    | some e =>
      let m := m.wr (Rg.NM_LOG_HDR e) (3 <<< 30 ||| flagNat (m.segPresence s) <<< 29 ||| s <<< 16 ||| n)
      let m := ((m.wr (Rg.NM_LOG_START e) (m.tickCount % 2 ^ 32)).wr (Rg.NM_LOG_DUR e) 0).wr (Rg.NM_LOG_ID e) (f.id % 2048)
      let m := (m.wr (Rg.NM_LOG_DATA_LO e) (leAt f.data 0 4)).wr (Rg.NM_LOG_DATA_HI e) (leAt f.data 4 4)
      let m := { m with nm := { m.nm with logLast := some e, logStart := kput m.nm.logStart e (m.tickCount, m.tickCount) } }
      (m.segIrq s 2).showLog

def logCloseEntry (m : Mach) (e : Nat) : Mach :=
  ({ m with nm := { m.nm with logStart := kdel m.nm.logStart e } } : Mach).setBit (Rg.NM_LOG_HDR e) 30 false

/-- The hold of a node ends. -/
def logClose (m : Mach) (s n : Nat) : Mach :=
  match m.logFind s n with
  | some e => (m.logCloseEntry e).showLog
  | none => m

/-- Every hold of a segment ends. -/
def logCloseAll (m : Mach) (s : Nat) : Mach :=
  let es := (List.range 64).filter fun e => m.logOpenBit e && m.fld (Rg.NM_LOG_HDR e) 20 16 == s
  (m.forAll es fun m e => m.logCloseEntry e).showLog

/-- NM_LOG_CLEAR: closed entries become invalid. -/
def logClear (m : Mach) : Mach :=
  (m.forAll ((List.range 64).filter fun e => !m.logOpenBit e) fun m e => m.setBit (Rg.NM_LOG_HDR e) 31 false).showLog

/-! ### States and messages -/

/-- A change of state (R299): leaving AWAKE closes the log entries. -/
def setSegState (m : Mach) (s st : Nat) : Mach :=
  let old := m.segState s
  if old == st then m
  else
    let m := if old == 2 then m.logCloseAll s else m
    let m := if st == 2 then m else m.setFld (Rg.NM_SEG_STATUS s) 5 4 0
    ((m.setFld (Rg.NM_SEG_STATUS s) 2 0 st).segIrq s 0).showSeg s

/-- own_ready (R300). -/
def ownReady (m : Mach) (s : Nat) : Bool :=
  !m.bit (Rg.NM_SEG_CTRL s) 0 && !m.segLatch s && m.msTicks (m.segKeepMs s) ≤ (m.seg s).hold

def showReady (m : Mach) (s : Nat) : Mach := m.setBit (Rg.NM_SEG_STATUS s) 8 (m.ownReady s)

/-- A message of the MZ4820 (R297). -/
def nmMsg (m : Mach) (s kind succ : Nat) (ready wake : Bool) : CanFrame :=
  let n := m.segNode s
  { id := m.segBase s + n, dlc := 8,
    data := [BitVec.ofNat 8 n, BitVec.ofNat 8 (flagNat ready + 2 * flagNat wake + 4 * kind), BitVec.ofNat 8 succ]
      ++ leBytes 4 (m.rd (Rg.NM_SEG_USER_LO s)) ++ leBytes 1 (m.rd (Rg.NM_SEG_USER_HI s)) }

/-- A message packed: it enters queue H at the edge that ends the tick (R301); a wake frame not yet sent stays one. -/
def packNm (m : Mach) (s : Nat) (f : CanFrame) : Mach :=
  m.modSeg s fun g => { g with packed := some (match g.packed with
    | some o => (keepWake { f := o, nm := true } { f, nm := true }).f
    | none => f) }

/-- Lowest node of the map, and the successor of a node (R304). -/
def lowestNode (m : Mach) (s : Nat) : Nat := ((onesOf 64 (m.segMap s)).head?).getD (m.segNode s)
def successor (m : Mach) (s : Nat) : Nat :=
  let l := onesOf 64 (m.segMap s)
  ((l.find? (m.segNode s < ·)).or l.head?).getD (m.segNode s)

/-- Agreement: AGREED, and the silence wait starts (R305, R307). -/
def agree (m : Mach) (s : Nat) : Mach := ((m.modSeg s fun g => { g with silence := 0 }).setSegState s 3).showSeg s

/-- A RING message of node `n` with the given sleep_ready in the running round (R305). -/
def ringMsg (m : Mach) (s n : Nat) (ready : Bool) : Mach :=
  let g := m.seg s
  if n == m.lowestNode s then
    let full : Bool := g.roundOpen && g.allReady && (m.segMap s &&& g.seen) == m.segMap s
    let c := if full then min 2 (m.segConsent s + 1) else 0
    let m := (m.setConsent s c).modSeg s fun g => { g with roundOpen := true, seen := 2 ^ n, allReady := ready }
    if c == 2 && ready then m.agree s else m
  else m.modSeg s fun g => { g with seen := g.seen ||| 2 ^ n, allReady := g.allReady && ready }

/-- The MZ4820's RING message to its successor (R304). It counts in the tick that packs it as if it had been captured: a
node alone in the map passes the token to itself. -/
def packRing (m : Mach) (s : Nat) : Mach :=
  let r := m.ownReady s
  let n := m.successor s
  let m := m.packNm s (m.nmMsg s 1 n r false)
  (m.modSeg s fun g => { g with tokenHeld := n == m.segNode s, token := 0, ring := 0 }).ringMsg s (m.segNode s) r

/-- Phase ALIVE is entered (R303). -/
def enterAlive (m : Mach) (s : Nat) (wake : Bool) : Mach :=
  let m := ((m.setFld (Rg.NM_SEG_STATUS s) 5 4 1).setMap s (2 ^ m.segNode s)).setConsent s 0
  let m := m.modSeg s fun g => { g with alive := 0, tokenHeld := false, roundOpen := false, seen := 0, allReady := true }
  m.packNm s (m.nmMsg s 0 0xFF (m.ownReady s) wake)

/-- Phase RING is entered: the lowest node starts the ring (R303). -/
def enterRing (m : Mach) (s : Nat) : Mach :=
  let m := (m.setFld (Rg.NM_SEG_STATUS s) 5 4 2).modSeg s fun g => { g with ring := 0 }
  if m.lowestNode s == m.segNode s then m.packRing s else m

/-- A rejoin (R309): AWAKE with its announcing message. The transceiver that NM has put into STANDBY returns to NORMAL
(R308), and so does one in STANDBY that is to send the wake frame. A LIN segment sends no message. -/
def rejoin (m : Mach) (s : Nat) (wake : Bool) : Mach :=
  let c := m.segCh s
  let waits := m.segState s == 1 && wake && m.fld (Rg.MBUS_XCVR_CTRL c) 1 0 == 1
  let m := if m.segCan s && ((m.seg s).stood == some c || waits) then m.xcvrWrite c 3 else m
  let m := (m.setSegState s 2).modSeg s fun g => { g with hold := 0, keep := 0, pres := 0, ring := 0, stood := none }
  let m := if m.segLin s then m
    else if m.segPresence s then m.packNm s (m.nmMsg s 2 0xFF false wake)
    else m.enterAlive s wake
  (m.showReady s).showSeg s

/-- SLEEP is entered, the transceiver as R308 gives. -/
def segSleep (m : Mach) (s : Nat) : Mach :=
  let m := if m.segCan s && m.segIsolates s && m.segXcvr s then
      (m.xcvrWrite (m.segCh s) 1).modSeg s fun g => { g with stood := some (m.segCh s) } else m
  (m.setSegState s 1).showReady s

/-! ### Observation (R296, R298) -/

/-- An NM frame of a segment. -/
def isNm (m : Mach) (s : Nat) (f : CanFrame) : Bool :=
  f.format < 2 && !f.ide && m.segBase s ≤ f.id && f.id < m.segBase s + 64

/-- A bad NM frame (R298). -/
def badNm (m : Mach) (s : Nat) (f : CanFrame) : Bool :=
  let k := nmKind f
  f.format != 0 || f.rtr || f.dlc != 8 || leAt f.data 0 1 != f.id - m.segBase s || bitsOf (leAt f.data 1 1) 7 4 != 0
    || k == 3 || (if k == 1 then 64 ≤ nmSucc f else nmSucc f != 0xFF)
    || (if m.segPresence s then k != 2 else k == 2)

/-- A start of frame on a channel (R308). -/
def nmSof (m : Mach) (c : Nat) : Mach :=
  match m.segOf 1 c with
  | some s => m.modSeg s fun g => { g with sof := true }
  | none => m

/-- A frame received or sent on a channel; `own` marks a message of the NM unit itself. -/
def nmObserve (m : Mach) (c : Nat) (f : CanFrame) (own : Bool) : Mach :=
  match m.segOf 1 c with
  | none => m
  | some s =>
    if !m.isNm s f || m.segState s == 0 || m.segState s == 4 then m
    else
      let m := m.modSeg s fun g => { g with nmSeen := true }
      if m.badNm s f then (m.bump Rg.NM_BAD_MSG_CNT).fire Rg.NM_IRQ_STATUS 1
      else if own then m
      else m.modSeg s fun g => { g with frames := g.frames ++ [f] }

/-- A transceiver wake on a channel is reported (R276). -/
def nmXwake (m : Mach) (c : Nat) : Mach :=
  match m.segOf 1 c with
  | some s => m.modSeg s fun g => { g with xwake := true }
  | none => m

/-! ### Evaluation (R301 to R307) -/

/-- One good message in AWAKE on a Ring segment (R303, R304). -/
def ringFrame (m : Mach) (s : Nat) (f : CanFrame) : Mach :=
  if m.segState s != 2 then m
  else
    let n := f.id - m.segBase s
    let isNew := !bitOf (m.segMap s) n
    let k := nmKind f
    if m.segPhase s == 1 then
      if isNew then (m.setMap s (m.segMap s ||| 2 ^ n)).modSeg s fun g => { g with alive := 0 } else m
    else if k == 0 then
      let m := m.enterAlive s false
      m.setMap s (m.segMap s ||| 2 ^ n)
    else
      let m := if isNew then (m.setMap s (m.segMap s ||| 2 ^ n)).setConsent s 0 else m
      let m := m.modSeg s fun g => { g with ring := 0 }
      let m := if nmSucc f == m.segNode s then m.modSeg s fun g => { g with tokenHeld := true, token := 0 } else m
      m.ringMsg s n (nmReady f)

/-- Holds opened and closed by the messages of an evaluation (R312). -/
def logFrames (m : Mach) (s : Nat) (fs : List CanFrame) : Mach :=
  m.forAll fs fun m f =>
    let n := f.id - m.segBase s
    if m.segPresence s then (if m.ownReady s then m.logOpen s n f else m)
    else if nmReady f then m.logClose s n
    else if m.ownReady s then m.logOpen s n f else m

/-- Expired timers of a segment in AWAKE or AGREED, as far as no earlier row of table R302 applied. -/
def segTimers (m : Mach) (s : Nat) : Mach :=
  let g := m.seg s
  let keep := m.msTicks (m.segKeepMs s)
  let m := m.showReady s
  if m.segState s == 3 then
    (if m.segLin s then m
     else if m.msTicks (m.segSilenceMs s) ≤ g.silence then m.segSleep s else m)
  else if m.segState s != 2 then m
  else if m.segLin s then
    (if !m.linResponder (m.segCh s) && m.ownReady s && keep ≤ g.pres then
       (m.agree s).modSeg s fun g => { g with linCmd := some 1 } else m)
  else if m.segPresence s then
    if m.ownReady s then
      (if keep ≤ g.pres then m.agree s else m)
    else if m.msTicks (m.segKeepMs s / 4) ≤ g.keep then
      (m.packNm s (m.nmMsg s 2 0xFF false false)).modSeg s fun g => { g with keep := 0 }
    else m
  else if m.segPhase s == 1 then
    (if m.msTicks (4 * m.segHoldMs s) ≤ g.alive then m.enterRing s else m)
  else if m.segPhase s == 2 then
    if keep ≤ g.ring then
      ((m.bump (Rg.NM_SEG_RESTART_CNT s)).segIrq s 3).enterAlive s false
    else if g.tokenHeld && m.msTicks (m.segHoldMs s) ≤ g.token then m.packRing s
    else m
  else m

/-- The go-to-sleep command of a LIN segment has not started (R311). -/
def linCancelable (m : Mach) (s : Nat) : Bool :=
  (m.seg s).linCmd == some 1 || (m.lch (m.segCh s)).sleepReq

/-- A request latch met in SLEEP or AGREED (table R302, R311). -/
def serveLatch (m : Mach) (s : Nat) : Mach :=
  let clear (m : Mach) : Mach := m.setBit (Rg.NM_SEG_CTRL s) 1 false
  if !m.segLin s then (clear m).rejoin s true
  else if m.segState s == 1 then
    ((clear m).rejoin s true).modSeg s fun g => { g with linCmd := some 2 }
  else if m.linCancelable s then
    let m := (m.modSeg s fun g => { g with linCmd := none }).modLch (m.segCh s) fun x => { x with sleepReq := false }
    (clear m).rejoin s true
  else m

/-- The evaluation of one enabled segment (R301, R302). -/
def nmEval (m : Mach) (s : Nat) : Mach :=
  let g := m.seg s
  let st := m.segState s
  let m := m.modSeg s fun g => { g with
    silence := if (if m.segIsolates s then g.sof else g.nmSeen) then 0 else g.silence
    pres := if m.segPresence s && !m.segLin s && g.frames.any (nmKind · == 2) then 0
      else if m.segLin s && !m.ownReady s then 0 else g.pres
    frames := [], nmSeen := false, sof := false, xwake := false }
  let m := if st == 2 then m.logDurations s else m
  if st == 0 || st == 4 then m
  else if (st == 1 || st == 3) && m.segLatch s then
    let m := m.serveLatch s
    (if m.segPresence s then m else m.forAll g.frames fun m f => m.ringFrame s f).showSeg s
  else if (st == 1 && (g.xwake || !g.frames.isEmpty))
      || (st == 3 && g.frames.any fun f => !nmReady f || nmWake f || nmKind f != 1) then
    let m := (m.rejoin s false).segIrq s 1
    (if m.segPresence s then m else m.forAll g.frames fun m f => m.ringFrame s f).showSeg s
  else
    let m := if st == 2 && !m.segLin s then (if m.ownReady s then m else m.logCloseAll s).logFrames s g.frames else m
    let m := if m.segPresence s then m else m.forAll g.frames fun m f => m.ringFrame s f
    let m := m.segTimers s
    let m := if m.segState s == 2 && m.segLatch s then (m.setBit (Rg.NM_SEG_CTRL s) 1 false).showReady s else m
    m.showSeg s

/-- Every timer counts one edge. -/
def nmCount (m : Mach) : Mach :=
  { m with nm := { m.nm with seg := m.nm.seg.map fun g : NmSeg => { g with
      hold := g.hold + 1, silence := g.silence + 1, ring := g.ring + 1, alive := g.alive + 1, token := g.token + 1
      keep := g.keep + 1, pres := g.pres + 1 } } }

/-- Presence holds end once keepalive_ms pass without a KEEPALIVE of their node (R312). -/
def logExpire (m : Mach) : Mach := m.forAll m.nm.logStart fun m x =>
  let s := m.fld (Rg.NM_LOG_HDR x.1) 20 16
  if m.bit (Rg.NM_LOG_HDR x.1) 29 && m.msTicks (m.segKeepMs s) ≤ m.tickCount - x.2.2 then (m.logCloseEntry x.1).showLog else m

/-- Packed messages enter queue H, and LIN commands start, at the edge that ends the tick (R301). -/
def nmRelease (m : Mach) : Mach :=
  m.forAll (List.range 24) fun m s =>
    let g := m.seg s
    let m := match g.packed with
      | some f => if m.elemHeld uMBUS (m.segCh s) then m else m.pushH (m.segCh s) { f, nm := true }
      | none => m
    let m := match g.linCmd with
      | some k => if m.elemHeld uLIN (m.segCh s) then m else m.linCmd (m.segCh s) k
      | none => m
    m.modSeg s fun g => { g with packed := none, linCmd := none }

/-- NM's tick work of a due tick: evaluation of every enabled segment. -/
def nmWork (m : Mach) : Mach :=
  (m.forAll ((List.range 24).filter m.segOn) fun m s => m.nmEval s).logExpire

/-- The tick work, with what an overrun takes back. -/
def nmTick (m : Mach) : Mach :=
  let t := m.nmWork
  let own (l : List (Nat × Word)) : List Nat := (l.map (·.1)).filter fun a => 0x41500000 ≤ a && a < 0x41510000
  let as := (own m.regs ++ own t.regs).eraseDups
  let regs := (as.map fun a => (a, BitVec.ofNat 32 (m.rd a), BitVec.ofNat 32 (t.rd a))).filter fun x => x.2.1 != x.2.2
  { t with nm := { t.nm with undo := some ⟨m.nm.seg, m.nm.logLast, m.nm.logStart, regs⟩ } }

/-- Client 2 has overrun: the tick's changes of state and its messages are discarded, the latches stay set, and what
has been captured since the edge stays (R301). -/
def nmOverrun (m : Mach) : Mach :=
  match m.nm.undo with
  | none => m
  | some u =>
    let seg := (u.seg.zip m.nm.seg).map fun (o, g) => { o with
      xwake := o.xwake || g.xwake, nmSeen := o.nmSeen || g.nmSeen, sof := o.sof || g.sof, frames := o.frames ++ g.frames }
    let m := { m with nm := { seg, logLast := u.logLast, logStart := u.logStart } }
    m.forAll u.regs fun m x =>
      m.wr x.1 (mergeBits (m.rd x.1) x.2.1.toNat ((x.2.1 ^^^ x.2.2).toNat &&& (0xFFFFFFFF ^^^ (m.rd x.1 ^^^ x.2.2.toNat))))

/-- A timer event: the expiry of a timer that has run its count of edges is evaluated. -/
def nmExpiry (m : Mach) (s : Nat) : Mach := (m.segTimers s).showSeg s

/-! ### LIN segments (R311) -/

/-- A LIN channel has entered SLEEP. -/
def nmLinSlept (m : Mach) (c : Nat) : Mach :=
  match m.segOf 2 c with
  | some s => if m.linState c == 2 && (m.segState s == 3 || (m.segState s == 2 && m.linResponder c)) then m.segSleep s else m
  | none => m

/-- A LIN channel has detected a wake in SLEEP. -/
def nmLinWoke (m : Mach) (c : Nat) : Mach :=
  match m.segOf 2 c with
  | some s =>
    if (m.lch c).woke && m.segState s == 1 then
      ((m.rejoin s false).segIrq s 1).modLch c fun x => { x with nmEnable := true }
    else m
  | none => m

/-- Whether NM isolates a network from gateway PDUs (R308), with its segment. -/
def nmIsolated (m : Mach) (kind c : Nat) : Option Nat :=
  match m.segOf kind c with
  | some s => if m.segIsolates s && (m.segState s == 3 || m.segState s == 1) then some s else none
  | none => none

/-- A gateway PDU dropped by isolation. -/
def nmIsoDrop (m : Mach) (s : Nat) : Mach := (m.bump (Rg.NM_SEG_ISO_DROP_CNT s)).segIrq s 4

/-! ### Requests, commit and resets (R300, R310, R313, R314) -/

/-- A request during a module shutdown cancels it as a wake event does (R92, R309). -/
def nmCancel (m : Mach) : Mach :=
  match m.rst.shut with
  | .started _ | .stopped _ => { m with rst := { m.rst with wakeCancel := true } }
  | _ => m

/-- A write of NM_SEG_CTRL: awake_req takes its bit; a 1 in either bit sets the request latch. -/
def nmCtrl (m : Mach) (s v : Nat) : Mach :=
  let m := m.setBit (Rg.NM_SEG_CTRL s) 0 (bitOf v 0)
  if bitOf v 0 || bitOf v 1 then (m.setBit (Rg.NM_SEG_CTRL s) 1 true).nmCancel else m

/-- A segment starts (R310). -/
def segStart (m : Mach) (s : Nat) : Mach :=
  let c := m.segCh s
  let woken := if m.segLin s then m.bit Rg.RSTC_WAKE_SRC_A (16 + c) else m.bit Rg.RSTC_WAKE_SRC_B c
  if m.bit (Rg.NM_SEG_CFG s) 27 || woken then m.rejoin s false else m.segSleep s

/-- The channel, its group, the NM unit or the L-die is in reset (table R299). -/
def segHeld (m : Mach) (s : Nat) : Bool :=
  m.unitHeld uNM || m.dieHeld .l || m.elemHeld (if m.segLin s then uLIN else uMBUS) (m.segCh s)

/-- Effects of a commit on the segments (R302, R310, R313). -/
def nmCommit (m old : Mach) : Mach :=
  m.forAll (List.range 24) fun m s =>
    let a := old.rd (Rg.NM_SEG_CFG s)
    let b := m.rd (Rg.NM_SEG_CFG s)
    let fixed (v : Nat) : Nat := v &&& 0x603FFFFF
    let bad := (bitOf a 31 || bitOf b 31) && fixed a != fixed b
    let m := if bad then (m.wr (Rg.NM_SEG_CFG s) a).fire Rg.NM_IRQ_STATUS 2 else m
    let on := m.segOn s
    if m.segState s == 4 then m
    else if on && m.segState s == 0 then
      (if m.segHeld s then m.setSegState s 4 else m.segStart s)
    else if !on && m.segState s != 0 then (m.setSegState s 0).modSeg s fun g => { stood := g.stood }
    else m

/-- Segments whose reset asserts go to HELD, and those whose reset is released start again (R314). -/
def nmFollow (m : Mach) : Mach :=
  m.forAll (List.range 24) fun m s =>
    let h := m.segHeld s
    let st := m.segState s
    if h && m.segOn s && st != 4 && st != 0 then
      (m.setSegState s 4).modSeg s fun _ => { asleep := st == 1 }
    else if !h && st == 4 then
      let was := (m.seg s).asleep
      let m := m.modSeg s fun _ => {}
      if !m.segOn s then m.setSegState s 0 else if was then m.segSleep s else m.rejoin s false
    else m

/-- NM unit reset: registers cold, log cleared; every segment HELD. -/
def resetNm (m : Mach) : Mach :=
  let m := { m.coldUnit uNM with nm := {} }
  m.forAll (List.range 24) fun m s => m.setFld (Rg.NM_SEG_STATUS s) 2 0 4

/-- The NM unit's reset is released with its section written again: each segment starts under R310. -/
def releaseNm (m : Mach) : Mach :=
  let m := m.forAll (List.range 24) fun m s => m.setFld (Rg.NM_SEG_STATUS s) 2 0 0
  m.nmCommit m

end Mach

end Sys2Proof.Machine
end

