-- ==== Sys2Proof/Machine/Coded.lean ====
section
/-! DEFINITION. The complement domain of coded execution (R372): what the tenon units compute, the complement-domain
equivalents of the mortise units, the lanes in which the comparator sees the two disagree (R377), and the mortise registers,
program counter and addresses. -/

namespace Sys2Proof.Machine

/-- Operations of table R372 whose result is a register value; the units of the last row, a division, a remainder or
floating point, are told apart by a number. -/
inductive CodedOp where
  | add | sub | and | or | xor | mulLow
  | shl (n : Fin 32) | shr (n : Fin 32) | sar (n : Fin 32)
  | unit (u : Nat)
  deriving DecidableEq, Repr

/-- Conditions of table R372. -/
inductive CodedCond where
  | below | less | equal
  deriving DecidableEq, Repr

/-- The tenon result from the plain operands (R372). -/
def CodedOp.tenon (o : CodedOp) (a b : Word) : Word :=
  match o with
  | .add => a + b
  | .sub => a - b
  | .and => a &&& b
  | .or => a ||| b
  | .xor => a ^^^ b
  | .mulLow => a * b
  | .shl n => a <<< n.val
  | .shr n => a >>> n.val
  | .sar n => a.sshiftRight n.val
  | .unit u => Config.unitResult u a b

/-- The mortise result from the complemented operands (R372). -/
def CodedOp.mortise (o : CodedOp) (a b : Word) : Word :=
  match o with
  | .add => a + b + 1
  | .sub => a - b - 1
  | .and => a ||| b
  | .or => a &&& b
  | .xor => ~~~(a ^^^ b)
  | .mulLow => -(a * b + a + b + 2)
  | .shl n => (a <<< n.val) ||| (BitVec.twoPow 32 n.val - 1)
  | .shr n => (a >>> n.val) ||| ~~~(BitVec.allOnes 32 >>> n.val)
  | .sar n => a.sshiftRight n.val
  | .unit u => ~~~(Config.unitResult u (~~~a) (~~~b))

/-- The tenon outcome of a condition. -/
def CodedCond.tenon (o : CodedCond) (a b : Word) : Bool :=
  match o with
  | .below => a.ult b
  | .less => a.slt b
  | .equal => a == b

/-- The mortise outcome, from the complemented operands: ~c for a tenon outcome c (R372). -/
def CodedCond.mortise (o : CodedCond) (a b : Word) : Bool :=
  match o with
  | .below => !b.ult a
  | .less => !b.slt a
  | .equal => !(a == b)

/-- Lanes of a comparator group whose pair is not complementary (R377). -/
def lanesOf (tenon mortise : Word) : Word := ~~~(tenon ^^^ mortise)

/-- The mortise context of a safe core holds the complement of everything in its tenon context (R372). -/
def Core.mirror (c : Core) : Core :=
  { c with mort := {
      gSap := c.gSap.map (~~~·), gHeart := c.gHeart.map (~~~·), pc := ~~~c.pc, addr := ~~~c.addr
      sys := c.sys.map fun x => (x.1, ~~~x.2) } }

end Sys2Proof.Machine
end

