-- ==== Sys2Proof/Machine/Fab.lean ====
section
/-! DEFINITION. Cores and partitions (R356, R358), the interconnect (R360, R361), the interrupt controller (R363,
R364) and the memory controllers (R365 to R367). -/

namespace Sys2Proof.Machine

/-- Targets of R363: application cores 0 to 3, then safe contexts. -/
def coreOfTarget (t : Nat) : Nat := if t < 4 then t else 0x10 + (t - 4)

/-- The unit that owns a resource without a claim (table R499); none for an index that is no resource. -/
def defaultUnit (cls idx : Nat) : Option Nat :=
  if cls == 1 then
    (if 1600 ≤ idx then none
     else match ballGroup idx with
       | .mb => some uMBUS
       | .lin _ => some uLIN
       | .sent => some uSENT
       | .eth _ | .hx _ => some uSWC
       | .lpddr | .xspi => some uMEM
       | .jtag | .trace => some uWORLD
       | .aux => some uLOAD
       | .supervisor => some (if idx == ballNo 6 39 then uLOAD else uRSTC)
       | .xtal | .wake => some uRSTC
       | .timeIn _ => some uPTP
       | .ain => some uMEAS
       | _ => none)
  else if cls == 2 then (if idx < 56 then some uLOAD else none)
  else if cls == 3 then (if idx < 12 then some uMBUS else if idx < 24 then some uLIN else if idx < 28 then some uSENT else none)
  else if cls == 4 then
    (if 1024 ≤ idx then none
     else (([(8, uRSTC), (16, uTICK), (24, uTRUSS), (32, uBIST), (48, uCHK), (64, uBENT), (128, uLOAD), (192, uMEAS),
       (200, uSWC), (256, uEPORT), (320, uPTP), (416, uMBUS), (428, uLIN), (448, uSENT), (480, uNM), (512, uGWY),
       (520, uLATH), (521, uFAB), (522, uMEM), (576, uFAB), (584, uWORLD), (592, uKEY), (640, uUPD), (1024, uVDEV)]
       : List (Nat × Nat)).find? (idx < ·.1)).map (·.2))
  else if cls == 5 then (if idx < 24 then some uLATH else none)
  else if cls == 6 then (if idx < 8 then some uPTP else none)
  else if cls == 7 then (if idx < 4 || (0x80 ≤ idx && idx < 0x8C) then some uFAB else none)
  else none

namespace Mach

/-! ### Cores and partitions -/

/-- A core changed; in coded mode the mortise context of a safe core follows its tenon context (R372). -/
def modCore (m : Mach) (id : Nat) (f : Core → Core) : Mach :=
  let g (c : Core) : Core := if m.fab.coded && 0x10 ≤ id && id < 0x1C then (f c).mirror else f c
  { m with fab := { m.fab with cores := m.fab.cores.map fun x => if x.1 == id then (x.1, g x.2) else x } }

def partHyper (m : Mach) (p : Nat) : Bool := match m.partRec p with | some r => bitOf (r.u8 6) 1 | none => false
def partSafe (m : Mach) (p : Nat) : Bool := match m.partRec p with | some r => r.u8 7 == 1 | none => false

/-- Initiator IDs of the cores of a PARTITION record (R356, R358). -/
def recCores (coded : Bool) (r : Rec) : List Nat :=
  if r.u8 7 == 0 then onesOf 4 (r.u32 8)
  else if coded then (onesOf 6 (r.u32 8)).map (0x10 + 2 * ·) else (onesOf 12 (r.u32 8)).map (0x10 + ·)

def partCores (m : Mach) (p : Nat) : List Nat :=
  match m.partRec p with
  | some r => recCores m.fab.coded r
  | none => []

/-- Bent that holds a partition of safe cores: 0 A, 1 B. -/
def partBent (m : Mach) (p : Nat) : Option Nat :=
  if m.partSafe p then (m.partCores p).head?.map fun i => if i < 0x16 then 0 else 1 else none

def setPartState (m : Mach) (p st : Nat) : Mach := m.setFld (Rg.FAB_PART_STATUS p) 15 14 st

/-- Safe core of a context's initiator ID. -/
def safeOf (id : Nat) : Option Nat := if 0x10 ≤ id && id < 0x1C then some ((id - 0x10) / 2) else none

/-- Element of a core or context for the resets of R100. -/
def coreElem (id : Nat) : Nat × Nat := if id < 4 then (uFAB, id) else (uBENT, id - 0x10)

/-- Whether a reset, a checker hold or a bent hold keeps a core from running (R100, R385, R396). -/
def coreHeld (m : Mach) (id : Nat) : Bool :=
  let (u, i) := coreElem id
  m.elemHeld u i
  || (match safeOf id with
      | some c => m.fld (Rg.CHK_STATUS c) 2 0 == 3 || m.bentState (c / 3) != 1
      | none => false)

/-- A core shared by the two worlds (R406). -/
def isShared (c : Core) : Bool := c.sap.isSome && c.heart.isSome

/-- A running core of a partition remains (R383, R430). -/
def partRuns (m : Mach) (p : Nat) : Bool :=
  (m.partCores p).any fun i => match m.core i with | some c => c.run | none => false

/-- The answer to an initiator; a core request that ends with a fault reports its type (R361). -/
def respond (m : Mach) (init : Nat) (r : Resp) : Mach :=
  let m := m.answer r
  let fault := match r with | .busError => 1 | .gone => 2 | .poison => 3 | _ => 0
  if fault == 0 then m else m.modCore init fun c => { c with lastFault := fault }

/-! ### Interconnect -/

/-- Initiator IDs that table R356 assigns, by their low byte. -/
def assignedInit (i : Nat) : Bool :=
  i < 4 || (0x10 ≤ i && i < 0x1C) || i == 0x20 || i == 0x21 || (0x30 ≤ i && i < 0x34) || (0x40 ≤ i && i < 0x4C)
    || (0x50 ≤ i && i < 0x53) || i == 0x60 || i == 0x61 || i == 0xF0

/-- At a commit that brings the reserved slots above 192, every group written keeps its values (R360). -/
def qosCommit (m old : Mach) : Mach :=
  if 192 < sumNat ((List.range 32).map fun g => m.fld (Rg.FAB_QOS_CFG g) 7 0) then
    (m.forAll (List.range 32) fun m g =>
      (m.wr (Rg.FAB_QOS_CFG g) (old.rd (Rg.FAB_QOS_CFG g))).wr (Rg.FAB_QOS_BW g) (old.rd (Rg.FAB_QOS_BW g))).fire Rg.FAB_IRQ_STATUS 0
  else m

/-! ### Interrupt sources -/

/-- A status bit and its enable are both 1. -/
def both (m : Mach) (st en : Nat) (mask : Nat := 0xFFFFFFFF) : Bool := m.rd st &&& m.rd en &&& mask != 0

/-- Level of the source of one MBUS channel (R281). -/
def mbusLevel (m : Mach) (c i : Nat) : Bool :=
  let masks : List Nat := [0x1, 0x2, 0xC, 0x30, 0x1C0, 0x600, 0x800]
  if i == 7 then m.rd (Rg.MBUS_QUEUE_EVENT c) != 0
  else m.both (Rg.MBUS_IRQ_STATUS c) (Rg.MBUS_IRQ_EN c) (masks.getD i 0)

/-- A source of a block in reset, which is deasserted (R101). -/
def irqHeld (m : Mach) (n : Nat) : Bool :=
  if 24 ≤ n && n < 32 then m.unitHeld uBIST
  else if 64 ≤ n && n < 112 then m.elemHeld uLOAD (n - 64)
  else if 112 ≤ n && n < 118 then m.unitHeld uLOAD || m.bit Rg.RSTC_GROUP_RST (n - 112)
  else if n == 118 || n == 119 then m.unitHeld uLOAD
  else if 128 ≤ n && n < 132 then m.unitHeld uMEAS
  else if n == 192 then m.unitHeld uSWC
  else if 200 ≤ n && n < 222 then m.elemHeld uEPORT (n - 200)
  else if 256 ≤ n && n < 280 then m.unitHeld uPTP
  else if 320 ≤ n && n < 416 then m.elemHeld uMBUS ((n - 320) / 8)
  else if 416 ≤ n && n < 428 then m.elemHeld uLIN (n - 416)
  else if 428 ≤ n && n < 436 then m.elemHeld uSENT (n - 428)
  else if 448 ≤ n && n < 473 then m.unitHeld uNM
  else if n == 480 then m.unitHeld uGWY
  else if n == 584 then m.unitHeld uKEY
  else if 592 ≤ n && n < 609 then m.unitHeld uUPD
  else false

/-- Level of a source below 640, as its unit defines it. -/
def irqLevel (m : Mach) (n : Nat) : Bool :=
  let bit (st en k : Nat) : Bool := m.bit st k && m.bit en k
  if m.irqHeld n then false
  else if n < 7 then bit Rg.RSTC_IRQ_STATUS Rg.RSTC_IRQ_EN n
  else if n == 7 then m.both Rg.RSTC_IRQ_STATUS Rg.RSTC_IRQ_EN 0x180
  else if n < 16 then bit Rg.TICK_IRQ_STATUS Rg.TICK_IRQ_EN (n - 8)
  else if n < 24 then bit Rg.TRUSS_IRQ_STATUS Rg.TRUSS_IRQ_EN (n - 16)
  else if n < 32 then bit Rg.BIST_IRQ_STATUS Rg.BIST_IRQ_EN (n - 24)
  else if n < 38 then m.both (Rg.CHK_IRQ_STATUS (n - 32)) (Rg.CHK_IRQ_EN (n - 32))
  else if n == 48 then m.both Rg.BENT_IRQ_STATUS Rg.BENT_IRQ_EN
  else if 64 ≤ n && n < 112 then m.both (Rg.LOAD_IRQ_STATUS (n - 64)) (Rg.LOAD_IRQ_EN (n - 64))
  else if 112 ≤ n && n < 118 then
    m.both (Rg.LOAD_BANK_IRQ_STATUS (n - 112)) (Rg.LOAD_BANK_IRQ_EN (n - 112))
  else if n == 118 then m.both Rg.LOAD_BUDGET_IRQ_STATUS Rg.LOAD_BUDGET_IRQ_EN
  else if n == 119 then m.both Rg.LOAD_UNIT_IRQ_STATUS Rg.LOAD_UNIT_IRQ_EN
  else if n == 128 then m.both Rg.MEAS_IRQ_STATUS Rg.MEAS_IRQ_EN
  else if 129 ≤ n && n < 132 then m.both (Rg.MEAS_LIM_IRQ_STATUS (n - 129)) (Rg.MEAS_LIM_IRQ_EN (n - 129))
  else if n == 192 then m.both Rg.SWC_IRQ_STATUS Rg.SWC_IRQ_EN
  else if 200 ≤ n && n < 222 then m.both (Rg.EPORT_IRQ_STATUS (n - 200)) (Rg.EPORT_IRQ_EN (n - 200))
  else if n == 256 then m.both Rg.PTP_IRQ_STATUS Rg.PTP_IRQ_EN
  else if 257 ≤ n && n < 263 then
    let q := n - 257
    (m.bit (Rg.PTP_TXQ_STATUS q) 8 && m.bit (Rg.PTP_TXQ_IRQ_EN q) 0) || (m.bit (Rg.PTP_TXQ_STATUS q) 7 && m.bit (Rg.PTP_TXQ_IRQ_EN q) 1)
  else if 264 ≤ n && n < 272 then m.both (Rg.PTP_TIN_IRQ_STATUS (n - 264)) (Rg.PTP_TIN_IRQ_EN (n - 264))
  else if 272 ≤ n && n < 280 then m.both (Rg.PTP_TOUT_IRQ_STATUS (n - 272)) (Rg.PTP_TOUT_IRQ_EN (n - 272))
  else if 320 ≤ n && n < 416 then m.mbusLevel ((n - 320) / 8) ((n - 320) % 8)
  else if 416 ≤ n && n < 428 then m.both (Rg.LIN_IRQ_STATUS (n - 416)) (Rg.LIN_IRQ_EN (n - 416))
  else if 428 ≤ n && n < 436 then m.both (Rg.SENT_IRQ_STATUS (n - 428)) (Rg.SENT_IRQ_EN (n - 428))
  else if 448 ≤ n && n < 472 then m.both (Rg.NM_SEG_IRQ_STATUS (n - 448)) (Rg.NM_SEG_IRQ_EN (n - 448))
  else if n == 472 then m.both Rg.NM_IRQ_STATUS Rg.NM_IRQ_EN
  else if n == 480 then m.both Rg.GWY_IRQ_STATUS Rg.GWY_IRQ_EN
  else if n == 512 || n == 513 then m.both (Rg.LATH_IRQ_STATUS (n - 512)) (Rg.LATH_IRQ_EN (n - 512))
  else if n == 520 then m.both Rg.FAB_IRQ_STATUS Rg.FAB_IRQ_EN
  else if n == 521 then m.both Rg.MEM_IRQ_STATUS Rg.MEM_IRQ_EN
  else if n == 576 then m.both Rg.WORLD_IRQ_STATUS Rg.WORLD_IRQ_EN
  else if n == 584 then m.both Rg.KEY_IRQ_STATUS Rg.KEY_IRQ_EN
  else if n == 592 then m.both Rg.UPD_IRQ_STATUS Rg.UPD_IRQ_EN
  else if 593 ≤ n && n < 609 then m.bit (Rg.UPD_PART_STATUS (n - 593)) 30
  else false

/-- Pending sources (R363, R364): a claimed level source is active, not pending. -/
def irqPending (m : Mach) (n : Nat) : Bool :=
  if n < 640 then m.irqLevel n && !m.irq.active.any (·.1 == n) else m.irq.vec.contains n

def irqEnabled (m : Mach) (n : Nat) : Bool := m.bit (Rg.IRQ_SRC_CFG n) 31
def irqPrio (m : Mach) (n : Nat) : Nat := m.fld (Rg.IRQ_SRC_CFG n) 11 8
def irqTarget (m : Mach) (n : Nat) : Nat := m.fld (Rg.IRQ_SRC_CFG n) 3 0

/-- Owner of a source (R58, R499). -/
def irqOwner (m : Mach) (n : Nat) : Nat := m.ownerOr 4 n ((defaultUnit 4 n).getD uIRQ)

/-- A heartwood source (R410): owned by a unit or by a heartwood partition. -/
def heartSource (m : Mach) (n : Nat) : Bool :=
  let o := m.irqOwner n
  o / 0x1000 == 1 || (o / 0x1000 == 2 && m.partHeart (o % 0x1000))

/-- IRQ_PEND_w. -/
def irqPendWord (m : Mach) (w : Nat) : Nat := maskOfList ((List.range 32).filter fun j => m.irqPending (32 * w + j))

/-- Highest-priority pending source of a target, the lowest ID among equals (R364). -/
def irqBest (m : Mach) (t : Nat) : Option Nat :=
  (List.range 1024).foldl (fun best n =>
    if m.irqEnabled n && m.irqTarget n == t && m.irqPending n then
      match best with
      | some b => if m.irqPrio b < m.irqPrio n then some n else best
      | none => some n
    else best) none

/-- A read of IRQ_CLAIM_t (R364). -/
def irqClaimOf (m : Mach) (t : Nat) : Mach × Nat :=
  match m.irqBest t with
  | none => (m, 0x3FFFFFF)
  | some n =>
    let m := { m with irq := { m.irq with vec := m.irq.vec.filter (· != n), active := (n, t) :: m.irq.active } }
    (m.modCore (coreOfTarget t) fun c => { c with
      active := n :: c.active, recv := if c.recv == some n then none else c.recv }, n)

/-- A write of IRQ_EOI_t (R364). -/
def irqEnd (m : Mach) (t n : Nat) : Mach :=
  if m.irq.active.contains (n, t) then
    let m := { m with irq := { m.irq with active := m.irq.active.erase (n, t) } }
    m.modCore (coreOfTarget t) fun c => { c with active := c.active.erase n }
  else m

/-- A target accepted in coded mode has m = 0 (R363), and lies in the cores of the source's owner. -/
def targetOk (m : Mach) (n t : Nat) : Bool :=
  let o := m.irqOwner n
  let id := coreOfTarget t
  let mode := t < 4 || !m.fab.coded || (t - 4) % 2 == 0
  let mine := match o / 0x1000 with
    | 2 => (m.partCores (o % 0x1000)).contains id
    | 3 => match m.instPart (o % 0x1000) with | some p => (m.partCores p).contains id | none => false
    | _ => true
  mode && mine

/-! ### Memories -/

def setMemStatus (m : Mach) (b : Nat) (v : Bool) : Mach := m.setBit Rg.MEM_STATUS b v

/-- A correctable error (R365): the boot ROM and the xSPI have none. -/
def eccCe (m : Mach) (k : Nat) (n : Nat := 1) : Mach :=
  if 5 ≤ k || n == 0 then m else (m.bumpBy (Rg.MEM_CE_CNT k) n).fire Rg.MEM_IRQ_STATUS 1

/-- An uncorrectable error (R365). -/
def eccUe (m : Mach) (k a : Nat) : Mach :=
  if 6 ≤ k || m.memIndex a != some k then m
  else
    let w := a / 8 * 8
    let m := { m with memc := { m.memc with poison := if m.memc.poison.contains w then m.memc.poison else w :: m.memc.poison } }
    let m := m.bump (Rg.MEM_UE_CNT k)
    let m := if m.bit Rg.MEM_IRQ_STATUS 2 then m
      else (m.wr Rg.MEM_UE_ADDR_LO (a % 2 ^ 32)).wr Rg.MEM_UE_ADDR_HI (a / 2 ^ 32 % 256 ||| k <<< 8)
    (m.fire Rg.MEM_IRQ_STATUS 2).raise 0x115 k

/-- The MRAM bank that holds the running image (R465). -/
def activeBank (m : Mach) : Nat := m.fld Rg.TRUSS_STATUS 4 4

/-- Areas of MRAM that an initiator may write (R465): here SETTINGS, by heartwood; the engines write theirs
themselves. -/
def mramMay (m : Mach) (init a : Nat) : Bool :=
  inRange a bSETTINGS 0x40000 && (m.isHeart init || init == idLOADER)

/-- An MRAM write (R366). -/
def mramWrite (mem : Mem) (m : Mach) (init a : Nat) (bs : List Byte) : Mem × Mach :=
  let n := bs.length
  if m.rst.cReset then (mem, m.respond init .gone)
  else if m.memIndex a != some 3 || !m.memFits a n || a % 32 != 0 || n != 32 || !m.mramMay init a then
    (mem, m.respond init .busError)
  else if !m.accessAllowed init a n .write then (mem, (m.memViolation a init).respond init .busError)
  else (memWrite mem a bs, ((m.unpoison a n).chargeFab init n).respond init .done)

/-- Rights of the debug port in memory (R419). -/
def dbgBlocked (m : Mach) (init : Nat) (write : Bool) : Bool := init == idDEBUG && !m.dbgMay write

/-- As sapwood the debug port may access every region that is not heartwood_only (R419). -/
def fabAllowed (m : Mach) (init a n : Nat) (k : MemKind) : Bool :=
  if init == idDEBUG && !m.isHeart init then
    (List.range n).all fun i => !inRange (a + i) bKEYBLOB 0x10000
      && ((k == .read && inCal (a + i)) || (!(m.regionsAt (a + i)).isEmpty && !(m.regionsAt (a + i)).any (·.heartOnly)))
  else m.accessAllowed init a n k

/-- `n` free bytes: the KEYBLOB area holds entries whose layout the manual does not give (R444). -/
def freeBytes (m : Mach) : Nat → Mach × List Byte
  | 0 => (m, [])
  | n + 1 =>
    let (v, m1) := m.draw
    let (m2, bs) := m1.freeBytes n
    (m2, BitVec.ofNat 8 v.toNat :: bs)

/-- A request to memory (R360 to R362, R365, R366). -/
def fabricAccess (mem : Mem) (m : Mach) (init a n : Nat) (k : MemKind) (bs : List Byte) : Mem × Mach :=
  if m.rst.cReset then (mem, m.respond init .gone)
  else if m.dbgBlocked init (k == .write) || n == 0 || !m.memFits a n then (mem, m.respond init .busError)
  else if k == .write && m.memIndex a == some 3 then m.mramWrite mem init a (sliceBytes bs 0 n)
  else if k == .write && (m.memIndex a == some 5 || m.memIndex a == some 6 || inSnap a n) then (mem, m.respond init .busError)
  else if !m.fabAllowed init a n k then (mem, (m.memViolation a init).respond init .busError)
  else
    let m := m.chargeFab init n
    if k == .write then (m.memStore mem a (sliceBytes bs 0 n), (m.unpoison a n).respond init .done)
    else if m.poisoned a n then (mem, m.respond init .poison)
    else if inRange a bKEYBLOB 0x10000 then
      let (m, got) := m.freeBytes n
      (mem, m.respond init (.value (leNat got)))
    else (mem, m.respond init (.value (leNat (memRead mem a n))))

/-- A write of MEM_XSPI_CMD (R367). -/
def xspiStart (m : Mach) (v : Nat) : Mach :=
  if 256 < bitsOf v 19 9 || m.bit Rg.MEM_STATUS 2 then m.fire Rg.MEM_IRQ_STATUS 0
  else { m with memc := { m.memc with xspi := some v } }.setMemStatus 2 true

/-- An xSPI command completes (R367): bytes from the device go to MEM_XSPI_DATA. -/
def xspiDone (m : Mach) (bs : List Byte) : Mach :=
  match m.memc.xspi with
  | none => m
  | some v =>
    let n := bitsOf v 19 9
    let m := if bitOf v 20 then m
      else m.forAll (List.range n) fun m i =>
        m.setFld (Rg.MEM_XSPI_DATA (i / 4)) (8 * (i % 4) + 7) (8 * (i % 4)) (leAt bs i 1)
    ({ m with memc := { m.memc with xspi := none } }.setMemStatus 2 false).fire Rg.MEM_IRQ_STATUS 3

end Mach

end Sys2Proof.Machine
end

