-- ==== Sys2Proof/Machine/Lath.lean ====
section
/-! DEFINITION. The lath links: far register ranges and channels (R341), entries and held reads (R340, R343, R344),
read-ahead buffers (R348, R349), link states (R352 to R354). -/

namespace Sys2Proof.Machine

/-- Link of a far register (R341): 0 CL, 1 CP; none for an address on the C-die. -/
def farLink (a : Nat) : Option Nat :=
  match findReg a with
  | some h => match h.far a with
    | some .l => some 0
    | some .p => some 1
    | none => none
  | none => none

/-- Whether `[b, b + n)` overlaps a far register range of a link (R341). -/
def overlapsFar (link b n : Nat) : Bool :=
  let meets (x k : Nat) : Bool := b < x + k && x < b + n
  if link == 1 then meets 0x42000000 0x10000
  else (List.range 18).any (fun p => meets (0x41200000 + 0x1000 * p) 0x40)
    || (List.range 12).any (fun c => meets (0x41300300 + 0x10000 * c) 0x30)

/-- First lath channel of a link, and link of a channel (table R340). -/
def chan0 (link : Nat) : Nat := 16 * link
def linkOfChan (c : Nat) : Nat := if c < 16 then 0 else 1

/-- Table R340: far boundary, reserved entries per channel, shared entries, held reads per channel and per link. -/
def farBlock (link : Nat) : Nat := if link == 0 then 256 else 64
def resvEntries (link : Nat) : Nat := if link == 0 then 2 else 1
def sharedEntries (link : Nat) : Nat := if link == 0 then 32 else 8
def readsPerChan (link : Nat) : Nat := if link == 0 then 4 else 2
def readsPerLink (link : Nat) : Nat := if link == 0 then 32 else 8

/-- A register whose read has a side effect (R349). -/
def readEffects (a : Nat) : Bool :=
  match findReg a with
  | some h => h.d.flds.any (·.acc == .rc)
  | none => false

namespace Mach

def modLath (m : Mach) (f : LathSt → LathSt) : Mach := { m with lath := f m.lath }

def lathIrq (m : Mach) (link i : Nat) : Mach := m.fire (Rg.LATH_IRQ_STATUS link) i

/-- The region that decides channel and read-ahead of a far address (R341, R348). -/
def farRegion (m : Mach) (a : Nat) : Option Region := m.truss.regions.find? fun r => r.base ≤ a && a < r.base + r.size

/-- Lath channel of a near-initiated request to a far register (R341). -/
def farChan (m : Mach) (link a : Nat) : Nat :=
  match m.farRegion a with
  | none => chan0 link
  | some r =>
    if r.owner == ownUnit uLATH then chan0 link
    else
      match m.truss.claims.find? fun c => c.cls == 5 && c.owner == r.owner && linkOfChan c.idx == link with
      | some c => c.idx
      | none => chan0 link

/-- Entries in use and reads outstanding, as LATH_STATUS reports them. -/
def showLath (m : Mach) : Mach :=
  m.forAll [0, 1] fun m l =>
    let mine := m.lath.q.filter fun r => linkOfChan r.ch == l && !r.waiting
    let m := m.setFld (Rg.LATH_STATUS l) 23 16 (mine.countP (·.write))
    m.setFld (Rg.LATH_STATUS l) 15 8 (mine.countP fun r => !r.write && !r.late)

/-- The entry that a write of a channel can take: a reserved one first, then a shared one (R344). -/
def freeEntry (m : Mach) (ch : Nat) : Option Bool :=
  let l := linkOfChan ch
  let held := m.lath.q.filter fun r => r.write && !r.waiting
  if held.countP (fun r => r.ch == ch && !r.shared) < resvEntries l then some false
  else if held.countP (fun r => linkOfChan r.ch == l && r.shared) < sharedEntries l then some true
  else none

/-- A read slot of table R340 is free. -/
def freeRead (m : Mach) (ch : Nat) : Bool :=
  let l := linkOfChan ch
  let held := m.lath.q.filter fun r => !r.write && !r.waiting && !r.late
  held.countP (·.ch == ch) < readsPerChan l && held.countP (linkOfChan ·.ch == l) < readsPerLink l

/-- A request taken into the queue of its channel, waiting where no entry or slot is free (R343, R344). -/
def lathTake (m : Mach) (r : LReq) : Mach × Bool :=
  let behind := m.lath.q.any fun x => x.ch == r.ch && x.waiting && x.write == r.write
  let put (r : LReq) : Mach := (m.modLath fun s => { s with q := s.q ++ [r] }).showLath
  if r.write then
    match m.freeEntry r.ch with
    | some sh => if behind then (put { r with waiting := true }, false) else (put { r with shared := sh }, true)
    | none => (put { r with waiting := true }, false)
  else if m.freeRead r.ch && !behind then (put r, true)
  else (put { r with waiting := true }, false)

/-- The first waiting request that can be admitted now. -/
def lathAdmitOne (m : Mach) : List LReq → List LReq → Option (List LReq × LReq)
  | _, [] => none
  | pre, r :: t =>
    if !r.waiting || pre.any (fun x => x.ch == r.ch && x.waiting && x.write == r.write) then m.lathAdmitOne (pre ++ [r]) t
    else if r.write then
      match m.freeEntry r.ch with
      | some sh => some (pre ++ { r with waiting := false, shared := sh } :: t, r)
      | none => m.lathAdmitOne (pre ++ [r]) t
    else if m.freeRead r.ch then some (pre ++ { r with waiting := false } :: t, r)
    else m.lathAdmitOne (pre ++ [r]) t

/-- A piece of a burst has ended; the burst completes with its last piece (R346). -/
def burstPiece (m : Mach) (id : Nat) (ok : Bool) (words : List Nat) (write : Bool) : Mach :=
  match m.lath.bursts.find? (·.id == id) with
  | none => m
  | some b =>
    let b := { b with left := b.left - 1, failed := b.failed || !ok, words := b.words ++ words }
    if b.left == 0 then
      let m := m.modLath fun s => { s with bursts := s.bursts.filter (·.id != id) }
      m.answer (if b.failed then .busError else if write then .done else .words b.words)
    else m.modLath fun s => { s with bursts := s.bursts.map fun x => if x.id == id then b else x }

/-- Waiting requests admitted once an entry or a slot is free; an admitted write, or piece of one, completes at
the near side. -/
def lathAdmit (m : Mach) : Mach :=
  match m.lathAdmitOne [] m.lath.q with
  | some (q, r) =>
    let m := (m.modLath fun s => { s with q := q }).showLath
    if !r.write then m
    else match r.burst with
      | none => m.answer .done
      | some id => m.burstPiece id true [] true
  | none => m.showLath

/-- The oldest request of a channel that stands before the far die: a read whose limit has passed blocks nothing. -/
def lathHead (m : Mach) (ch : Nat) : Option LReq := m.lath.q.find? fun r => r.ch == ch && !r.late && !r.waiting

/-- A request taken out of the queue. -/
def lathDrop (m : Mach) (r : LReq) : Mach := (m.modLath fun s => { s with q := s.q.erase r }).lathAdmit

/-! ### Read-ahead buffers -/

/-- A buffer discarded: side effects that its registers have taken are logged unless the far registers return to their
cold values (R349, R354). -/
def bufDiscard (m : Mach) (ch : Nat) (log : Bool) : Mach :=
  match kget m.lath.bufs ch with
  | none => m
  | some b =>
    let m := m.modLath fun s => { s with bufs := kdel s.bufs ch }
    let l := linkOfChan ch
    if log then
      m.forAll (b.held.filter fun x => readEffects x.1) fun m x =>
        let m := m.bump (Rg.LATH_SIDE_CNT l)
        let m := if m.bit (Rg.LATH_IRQ_STATUS l) 3 then m
          else (m.wr (Rg.LATH_SIDE_ADDR l) (x.1 % 2 ^ 32)).wr (Rg.LATH_SIDE_INIT l) (ch <<< 16 ||| b.init)
        m.lathIrq l 3
    else m

/-- Buffers that satisfy a condition discarded. -/
def bufDiscardIf (m : Mach) (p : Nat → LBuf → Bool) (log : Bool) : Mach :=
  m.forAll (m.lath.bufs.filter fun x => p x.1 x.2) fun m x => m.bufDiscard x.1 log

/-- A commit edge discards every buffer (R349). -/
def lathEdge (m : Mach) : Mach := m.bufDiscardIf (fun _ _ => true) true

/-- A write to an address of the block discards a buffer (R349). -/
def bufWrite (m : Mach) (a : Nat) : Mach :=
  m.bufDiscardIf (fun ch b => b.block ≤ a && a < b.block + farBlock (linkOfChan ch)) true

/-- A reset of a far unit (R349): buffers that hold a register of it. -/
def bufReset (m : Mach) (u : Nat) : Mach :=
  m.bufDiscardIf (fun _ b => b.held.any fun x => match unitAt x.1 with | some (v, _) => u == v | none => false) true

/-! ### Link states -/

/-- What happens at the instant a link enters DOWN or HELD (R354). -/
def lathEnds (m : Mach) (l : Nat) : Mach :=
  let mine := m.lath.q.filter fun r => linkOfChan r.ch == l
  let posted := (mine.filter fun r => r.write && !r.waiting).length
  let m := m.bumpBy (Rg.LATH_GONE_CNT l) posted
  let m := m.goneDrop posted
  let anyWait := mine.any fun r => !r.late && (!r.write || r.waiting)
  let m := m.modLath fun s => { s with
    q := (s.q.filter fun r => linkOfChan r.ch != l || (!r.write && !r.waiting)).map fun r =>
      if linkOfChan r.ch == l then { r with late := true, gone := true } else r,
    bursts := s.bursts.filter fun b => !mine.any (·.burst == some b.id) }
  let m := m.bufDiscardIf (fun ch _ => linkOfChan ch == l) false
  let m := if anyWait then m.answer .gone else m
  m.showLath

/-- A link enters a state (R352, R354). -/
def setLink (m : Mach) (l st : Nat) : Mach :=
  let old := m.linkState l
  if old == st then m
  else
    let m := (m.setFld (Rg.LATH_STATUS l) 2 0 st).lathIrq l 8
    let m := if st != 1 then m.setBit (Rg.LATH_STATUS l) 3 false else m
    let m := m.modLath fun s => { s with replays := s.replays.modify l fun _ => 0 }
    if st ≤ 1 && 2 ≤ old then m.lathEnds l else m

/-- A flit fails its CRC (R353): a replay, or after four failed replays a retraining. -/
def flitError (m : Mach) (l : Nat) (replay : Bool) : Mach :=
  if m.linkState l != 3 then m
  else
    let n := if replay then m.lath.replays.getD l 0 + 1 else 0
    let m := m.modLath fun s => { s with replays := s.replays.modify l fun _ => n }
    if 4 ≤ n then (m.setLink l 4).lathIrq l 6
    else m.bump (Rg.LATH_REPLAY_CNT l)

/-- A retraining completes or fails; the third failure in a row holds the link (R353). -/
def retrained (m : Mach) (l : Nat) (ok : Bool) : Mach :=
  if m.linkState l != 4 then m
  else
    let n := if ok then 0 else m.lath.retrains.getD l 0 + 1
    let m := m.modLath fun s => { s with retrains := s.retrains.modify l fun _ => n % 3 }
    if ok then m.setLink l 3
    else if n < 3 then m.lathIrq l 6
    else
      let m := m.setLink l 1
      let m := (m.setBit (Rg.LATH_STATUS l) 3 true).lathIrq l 7
      m.raise 0x116 l

/-- The first address reported under R343, R345 or R350 since the matching status bit was last cleared. -/
def lathAddr (m : Mach) (l bit a : Nat) : Mach :=
  let m := if m.bit (Rg.LATH_IRQ_STATUS l) bit then m else m.wr (Rg.LATH_ERR_ADDR l) (a % 2 ^ 32)
  m.lathIrq l bit

/-- A posted write has failed at the far die only (R345). -/
def wrError (m : Mach) (l a : Nat) : Mach := (m.bump (Rg.LATH_WR_ERR_CNT l)).lathAddr l 2 a

/-- The oldest held read of a channel finds no reply within 2 µs (R343, R352). -/
def readTimeout (m : Mach) (ch : Nat) : Mach :=
  match m.lath.q.find? fun r => r.ch == ch && !r.write && !r.late with
  | none => m
  | some r =>
    let l := linkOfChan ch
    let m := (m.bump (Rg.LATH_TIMEOUT_CNT l)).lathAddr l 0 ((r.beats.head?).getD (0, 0)).1
    let rest := m.lath.q.erase r
    let m := m.modLath fun s => { s with
      q := if r.waiting then rest
           else s.q.takeWhile (· != r) ++ { r with late := true } :: (s.q.dropWhile (· != r)).drop 1 }
    let m := match r.burst with
      | some id => m.burstPiece id false [] false
      | none => m.answer .busError
    m.lathAdmit

/-- The oldest waiting write of a channel finds no entry within 2 µs (R344). -/
def entryTimeout (m : Mach) (ch : Nat) : Mach :=
  match m.lath.q.find? fun r => r.ch == ch && r.write && r.waiting with
  | none => m
  | some r =>
    let l := linkOfChan ch
    let m := (m.bump (Rg.LATH_TIMEOUT_CNT l)).lathIrq l 0
    let m := m.modLath fun s => { s with q := s.q.erase r }
    let m := match r.burst with
      | some id => m.burstPiece id false [] true
      | none => m.answer .busError
    m.showLath

end Mach

end Sys2Proof.Machine
end

