-- ==== Sys2Proof/Machine/World.lean ====
section
/-! DEFINITION. Heartwood and sapwood (R405 to R421): visits, heartwood states, partition restarts (R359), core starts
(R100), claims and leases, debug. -/

namespace Sys2Proof.Machine

/-- Codes that the MZ4820 writes into a register (R409). -/
def hwUnavailable : Nat := 0xFFFFFFF0
def hwBadReturn : Nat := 0xFFFFFFF1

/-- The word of PEG (R407). -/
def pegWord : Nat := 0xD0400000

/-- Debug enables that a lifecycle state gives at each release, and those that it allows by challenge (R417). Codes of
KEY_STATUS. -/
def dbgBase (lc : Nat) : Nat := if lc == 0 then 0xF else if lc == 2 then 0 else 3
def dbgByChallenge (lc : Nat) : Nat := if lc == 0 || lc == 4 then 0 else if lc == 2 then 0xF else 0xC

/-- An invasive enable makes the matching non-invasive enable 1 as well (R417). -/
def dbgClose (e : Nat) : Nat :=
  e ||| (if bitOf e 1 then 1 else 0) ||| (if bitOf e 3 then 4 else 0)

/-- One register of a bank set. -/
def setG (g : List Word) (i v : Nat) : List Word := g.set i (BitVec.ofNat 32 v)

/-- Registers g1 to g8 copied from one bank to another (R409). -/
def copyArgs (src dst : List Word) : List Word :=
  (List.range 32).map fun i => if 1 ≤ i && i ≤ 8 then src.getD i 0 else dst.getD i 0

/-- A bank with its state discarded. -/
def noRegs : List Word := List.replicate 32 0

namespace Mach

/-- Lifecycle code (R451): 0 BLANK, 1 PROVISIONED, 2 FIELD, 3 RETURNED, 4 DECOMMISSIONED. -/
def lifecycle (m : Mach) : Nat :=
  if m.key.lcD then 4 else if m.key.lcN == 0 then 0 else if m.key.lcN == 1 then 1 else if m.key.lcN % 2 == 0 then 2 else 3

def lcCount (m : Mach) : Nat := m.key.lcN + flagNat m.key.lcD

def modWorld (m : Mach) (f : WorldSt → WorldSt) : Mach := { m with world := f m.world }

/-! ### States of heartwood partitions -/

def hwState (m : Mach) (p : Nat) : Nat := m.fld (Rg.WORLD_HW_STATE p) 1 0

/-- WORLD_STATUS follows the states (R420). -/
def showWorld (m : Mach) : Mach :=
  let ready := maskOfList ((List.range 16).filter fun p => m.partHeart p && m.hwState p == 1)
  m.wr Rg.WORLD_STATUS (ready <<< 16 ||| maskOfList m.world.hung)

def setHw (m : Mach) (p st : Nat) : Mach := (m.setFld (Rg.WORLD_HW_STATE p) 1 0 st).showWorld

/-! ### Visits -/

/-- A core in heartwood on a visit. -/
def visiting (c : Core) : Bool := c.inHeart && c.visit.isSome

/-- The core's sapwood partition goes on, or starts where it was released or restarted in the meantime (R359, R406); `up`
says that it is in RUN. -/
def backToSap (up : Bool) (c : Core) : Core :=
  { c with
    inHeart := false, visit := none, run := c.sapReady && up, restartSap := c.restartSap && !up
    gSap := if c.restartSap then noRegs else c.gSap }

/-- A partition that a core carries is in RUN. -/
def partUp (m : Mach) (p : Option Nat) : Bool := match p with | some p => m.partState p == 2 | none => false

/-- A visit ended other than by WRET (R409, R411). -/
def abandonVisit (m : Mach) (id : Nat) : Mach :=
  m.modCore id fun c =>
    match c.visit with
    | none => c
    | some v =>
      let c := if v.byIrq || v.initial then c else { c with gSap := setG c.gSap v.gd hwUnavailable }
      backToSap (m.partUp c.sap) c

/-- Invasive debug is allowed in the world that a core executes (R419). -/
def mayHalt (m : Mach) (c : Core) : Bool := bitOf m.dbgEnables (if c.heartNow then 3 else 1)

/-- A coded core is in REPLAY. -/
def inReplay (m : Mach) (id : Nat) : Bool :=
  match safeOf id with | some k => m.fab.coded && m.fld (Rg.CHK_STATUS k) 2 0 == 2 | none => false

/-- A halt request that waits takes effect when the core enters an allowed world (R419), and not before every retired
instruction has been compared (R389). -/
def honourHalt (m : Mach) (id : Nat) : Mach :=
  match m.core id with
  | none => m
  | some c =>
    if c.haltReq && c.run && m.mayHalt c && !m.inReplay id then
      let m := m.modCore id fun c => { c with halted := true, haltReq := false }
      match safeOf id with
      | some k => if m.fab.coded && m.fld (Rg.CHK_STATUS k) 2 0 == 1 then m.setFld (Rg.CHK_STATUS k) 2 0 4 else m
      | none => m
    else m

/-- A visit starts (R406, R408, R410). A heartwood world that was restarted starts at its reset entry instead. -/
def startVisit (m : Mach) (id : Nat) (v : Visit) : Mach :=
  (m.modCore id fun c => { c with
    inHeart := true, visit := some v, run := true,
    gHeart := if c.restartHeart then noRegs else c.gHeart, restartHeart := false }).honourHalt id

/-- A core released from reset starts as at its release at start (R100, R385): a shared core by a visit of its
heartwood partition, any other at the reset entry of its one partition. Until that partition is in RUN the core stays in
reset. -/
def startCore (m : Mach) (id : Nat) : Mach :=
  match m.core id with
  | none => m
  | some c =>
    if c.run || m.coreHeld id then m
    else if isShared c then
      (if m.partUp c.heart then
        let m := m.modCore id fun c => { c with
          gSap := noRegs, gHeart := noRegs, active := [], recv := none, sapReady := m.partUp c.sap, held := false,
          restartHeart := false, restartSap := false }
        m.startVisit id { byIrq := true }
      else m)
    else if m.partUp c.sap || m.partUp c.heart then
      (m.modCore id fun c => { c with
        gSap := noRegs, gHeart := noRegs, active := [], recv := none, run := true, inHeart := false, visit := none,
        held := false, sapReady := true }).honourHalt id
    else m

/-- A running safe core in coded mode reads RUN, one in split mode SPLIT, one that does not run HELD; checker holds
and replays stay (R387, R388, R390). -/
def showChk (m : Mach) : Mach :=
  m.forAll (List.range 6) fun m k =>
    let st := m.fld (Rg.CHK_STATUS k) 2 0
    let runs := match m.core (0x10 + 2 * k) with | some c => c.run | none => false
    let runs' := match m.core (0x11 + 2 * k) with | some c => c.run | none => false
    if st == 3 then m
    else if !m.fab.coded then m.setFld (Rg.CHK_STATUS k) 2 0 (if runs || runs' then 5 else 0)
    else if !runs then m.setFld (Rg.CHK_STATUS k) 2 0 0
    else if st == 0 || st == 5 then m.setFld (Rg.CHK_STATUS k) 2 0 1
    else m

/-- Reads of the given initiators that the lath holds: their replies are dropped and counted (R101, R359). -/
def dropReads (m : Mach) (ids : List Nat) : Mach :=
  let mine (r : LReq) : Bool := !r.write && !r.late && ids.contains r.init
  let n := m.lath.q.countP mine
  let m := m.modLath fun s => { s with
    q := (s.q.filter fun r => !(mine r && r.waiting)).map fun r => if mine r then { r with late := true, gone := true } else r }
  (m.goneDrop n).showLath

/-- Requests that a core has issued when its reset asserts (R101): replies to come are dropped, and so are writes that have
not been accepted yet, each counted. -/
def dropIssued (m : Mach) (id : Nat) : Mach :=
  let mine (r : LReq) : Bool := r.write && r.waiting && r.init == id
  let n := m.lath.q.countP mine
  let gone := m.lath.q.filterMap fun r => if mine r then r.burst else none
  let m := m.modLath fun s => { s with
    q := s.q.filter fun r => !mine r, bursts := s.bursts.filter fun b => !gone.contains b.id }
  (m.goneDrop n).dropReads [id]

/-- A core enters reset by an element, a group or a hold (R100, R388): its requests end under R101, and its register state
is discarded at its next start. A replay of a safe core ends, and with it what the checker awaits. -/
def stopCore (m : Mach) (id : Nat) : Mach :=
  let m := match safeOf id with
    | some k => { m with chk := m.chk.modify k fun x => { x with dis := 0, pc := 0, inj := false, owed := false, csync := false } }
    | none => m
  (m.modCore id fun c => { c with
    run := false, inHeart := false, visit := none, halted := false, active := [], recv := none, held := true }).dropIssued id

/-- Cores that a reset now holds stop; cores released from a reset start (R100). -/
def followCores (m : Mach) (may : Bool) : Mach :=
  let m := m.forAll (m.fab.cores.map (·.1)) fun m i =>
    let was := match m.core i with | some c => c.held | none => true
    if m.coreHeld i then (if was then m else m.stopCore i) else if may && was then m.startCore i else m
  m.showChk

/-- PEG does nothing; WCALL (R408). `mem` tells whether the instruction at the target is PEG. -/
def wcall (mem : Mem) (m : Mach) (id gd gs : Nat) : Mach :=
  match m.core id with
  | none => m
  | some c =>
    if !c.run || c.halted then m
    else if !isShared c || c.heartNow then m.modCore id fun c => { c with lastFault := 5 }
    else
      let p := c.heart.getD 0
      let a := (c.gSap.getD gs 0).toNat
      if m.hwState p != 1 || m.partState p != 2 then m.modCore id fun c => { c with gSap := setG c.gSap gd hwUnavailable }
      else
        let inPeg := (List.range 32).any fun e =>
          let lo := m.rd (Rg.WORLD_PEG_LO e)
          let base := bitsOf (m.rd (Rg.WORLD_PEG_HI e)) 7 0 <<< 32 ||| bitsOf lo 31 12 <<< 12
          bitOf lo 0 && m.fld (Rg.WORLD_PEG_SIZE e) 19 16 == p
            && inRange a base (m.fld (Rg.WORLD_PEG_SIZE e) 15 0 * 4096)
        if inPeg && leNat (memRead mem a 4) == pegWord then
          (m.modCore id fun c => { c with gHeart := copyArgs c.gSap c.gHeart }).startVisit id { gd := gd }
        else
          let m := m.modCore id fun c => { c with lastFault := 4 }
          (m.bump Rg.WORLD_PEG_FAULT_CNT).fire Rg.WORLD_IRQ_STATUS 1

/-- WRET (R409). -/
def wret (m : Mach) (id gs : Nat) : Mach :=
  match m.core id with
  | none => m
  | some c =>
    if !c.run || c.halted then m
    else if !isShared c || !visiting c then m.modCore id fun c => { c with lastFault := 5 }
    else
      let v := c.visit.getD {}
      let m := m.modCore id fun c =>
        if v.byIrq || v.initial then backToSap (m.partUp c.sap) c
        else
          let x := (c.gHeart.getD gs 0).toNat
          let g := copyArgs c.gHeart c.gSap
          backToSap (m.partUp c.sap) { c with gSap := setG g v.gd (if hwUnavailable ≤ x then hwBadReturn else x) }
      (m.honourHalt id).showChk

/-- A core takes an enabled source that is pending for it with a priority above its active one (R364); a shared core in
the other world takes heartwood sources only, by a visit of a partition that is not RESTARTING (R410). -/
def irqTaken (m : Mach) (n : Nat) : Bool :=
  match m.core (coreOfTarget (m.irqTarget n)) with
  | none => false
  | some c =>
    m.irqEnabled n && m.irqPending n && c.run && !c.halted
      && (match c.active with | a :: _ => m.irqPrio a < m.irqPrio n | [] => true)
      && (!isShared c || (if m.heartSource n then c.heartNow || m.hwState (c.heart.getD 0) != 3 else !c.heartNow))

/-- A source reaches its target core (R364, R410). -/
def irqDeliver (m : Mach) (n : Nat) : Mach :=
  let id := coreOfTarget (m.irqTarget n)
  match m.core id with
  | none => m
  | some c =>
    if !m.irqTaken n then m
    else
      let m := m.modCore id fun c => { c with recv := some n }
      if isShared c && m.heartSource n && !c.heartNow then m.startVisit id { byIrq := true } else m

/-! ### Partition restart -/

/-- Pending RW/T writes that a partition issued, dropped (R359). -/
def dropStaged (m : Mach) (p : Nat) : Mach :=
  let keep (q : List Stg) : List Stg := q.filter fun e => e.part != some p || e.live
  { m with stage := { m.stage with
    c := keep m.stage.c, l := keep m.stage.l, p := keep m.stage.p } }

/-- The partition part of R359: its cores stop, its interrupts and staged writes are cleared.. -/
def restartPart (m : Mach) (p : Nat) : Mach :=
  if m.partState p != 2 then m
  else
    let ids := m.partCores p
    let heart := m.partHeart p
    let m := m.forAll ids fun m i =>
      match m.core i with
      | none => m
      | some c =>
        if heart && isShared c then
          let m := m.modCore i fun c => { c with restartHeart := true, gHeart := noRegs }
          if visiting c then m.abandonVisit i else m
        else if isShared c && c.heartNow then m.modCore i fun c => { c with restartSap := true, gSap := noRegs }
        else if c.run then m.modCore i fun c => { c with
          run := false, gSap := if heart then c.gSap else noRegs, gHeart := if heart then noRegs else c.gHeart, halted := false
          restartSap := isShared c }
        else m
    let own (n : Nat) : Bool := m.irqOwner n == ownPart p || (List.range 128).any fun i =>
      let v := m.fld (Rg.VDEV_INST_CFG i) 9 0
      v ≤ n && n < v + m.fld (Rg.VDEV_INST_CFG i) 22 16 && m.instPart i == some p
    let gone := (m.irq.active.filter fun x => own x.1).map (·.1)
    let m := { m with irq := { m.irq with
      vec := m.irq.vec.filter fun v => !own v, active := m.irq.active.filter fun x => !gone.contains x.1 } }
    let m := m.forAll ids fun m i => m.modCore i fun c => { c with active := c.active.filter fun n => !gone.contains n }
    let m := (m.dropStaged p).dropReads ids
    let m := { m with tick := { m.tick with due := m.tick.due.filter (· != 16 + p) } }
    let m := m.setPartState p 3
    let m := { m with fab := { m.fab with restarting := p :: m.fab.restarting } }
    let m := if heart then m.setHw p 3 else m
    m.showChk

/-- The restarted partition's cores resume at its reset entry (R359, R412). -/
def restartDone (m : Mach) (p : Nat) : Mach :=
  if m.partState p != 3 then m
  else
    let old := m.rd (Rg.FAB_PART_STATUS p)
    let m := m.wr (Rg.FAB_PART_STATUS p) (withBits old 31 16 (satInc 16 (bitsOf old 31 16)))
    let m := (m.setPartState p 2).fire Rg.FAB_IRQ_STATUS 2
    let m := { m with fab := { m.fab with restarting := m.fab.restarting.filter (· != p) } }
    let m := if m.partHeart p then (m.modWorld fun w => { w with hung := w.hung.filter (· != p) }).setHw p 0 else m
    let m := m.forAll (m.partCores p) fun m i =>
      match m.core i with
      | none => m
      | some c =>
        if c.run || m.coreHeld i then m
        else if c.held then m.startCore i
        else if isShared c && m.partHeart p then m
        else (m.modCore i fun c => { c with run := true, restartSap := false, sapReady := true }).honourHalt i
    m.showChk

/-- The visit timer of a core expires (R411). The caller carries out the restart of the heartwood partition. -/
def visitExpires (m : Mach) (id : Nat) : Mach :=
  match m.core id with
  | none => m
  | some c =>
    match c.visit, c.heart with
    | some v, some p =>
      if v.initial || c.halted then m
      else
        let m := (m.abandonVisit id).bump Rg.WORLD_TIMEOUT_CNT
        let m := m.fire Rg.WORLD_IRQ_STATUS 2
        if m.hwState p == 2 || m.hwState p == 3 then m
        else
          let old := m.rd (Rg.WORLD_HW_STATE p)
          let m := (m.wr (Rg.WORLD_HW_STATE p) (withBits old 31 16 (satInc 16 (bitsOf old 31 16)))).setHw p 2
          m.modWorld fun w => { w with hung := if w.hung.contains p then w.hung else p :: w.hung }
    | _, _ => m

/-! ### Claims -/

/-- A write of WORLD_CLAIM_k (R414); the caller has refused lease_ms = 0. -/
def worldClaim (m : Mach) (init k v : Nat) : Mach :=
  let m := m.wr (Rg.WORLD_CLAIM k) (v &&& 0xFFFF0001)
  if bitOf v 0 then
    let m := m.modWorld fun w => { w with lease := kput w.lease k (m.clk.lt + bitsOf v 31 16 * 1000000) }
    m.setFld (Rg.WORLD_CLAIM_LEFT k) 31 28 ((m.partOf init).getD 0)
  else m.modWorld fun w => { w with lease := kdel w.lease k }

/-- Time left of a lease in µs (WORLD_CLAIM_LEFT_k). -/
def leaseLeft (m : Mach) (k : Nat) : Nat :=
  match kget m.world.lease k with
  | some t => (t - m.clk.lt) / 1000
  | none => 0

/-- A lease lapses (R414). -/
def leaseExpires (m : Mach) (k : Nat) : Mach :=
  if (kget m.world.lease k).isSome then
    ((m.modWorld fun w => { w with lease := kdel w.lease k }).setBit (Rg.WORLD_CLAIM k) 0 false).fire Rg.WORLD_IRQ_STATUS 4
  else m

/-- Resources of RSTC_DOZE_MASK that heartwood holds under a claim. -/
def claimed (m : Mach) (k : Nat) : Bool := (kget m.world.lease k).isSome

/-! ### Peg windows -/

/-- First address and length of peg window `e` for a given WORLD_PEG_LO value. -/
def pegSpan (m : Mach) (e lo : Nat) : Nat × Nat :=
  (bitsOf (m.rd (Rg.WORLD_PEG_HI e)) 7 0 <<< 32 ||| bitsOf lo 31 12 <<< 12, m.fld (Rg.WORLD_PEG_SIZE e) 15 0 * 4096)

/-- Whether `[b, b + n)` lies wholly in regions that satisfy a condition (regions of one owner do not overlap those of
another, R59). -/
def coveredBy (m : Mach) (ok : Region → Bool) : Nat → Nat → Nat → Bool
  | 0, _, _ => false
  | fuel + 1, b, n =>
    match m.truss.regions.find? fun r => inRange b r.base r.size && ok r with
    | none => false
    | some r => let e := r.base + r.size; if b + n ≤ e then true else m.coveredBy ok fuel e (b + n - e)

/-- Conditions of R421 for setting enable. -/
def pegOk (m : Mach) (e lo : Nat) : Bool :=
  let (b, n) := m.pegSpan e lo
  let p := m.fld (Rg.WORLD_PEG_SIZE e) 19 16
  n != 0 && m.partHeart p
    && m.coveredBy (fun r => r.exec && r.heartOnly && r.owner == ownPart p) (m.truss.regions.length + 1) b n
    && (List.range 32).all fun o =>
        let x := m.rd (Rg.WORLD_PEG_LO o)
        let (ob, on) := m.pegSpan o x
        o == e || !bitOf x 0 || !(b < ob + on && ob < b + n)

/-- A write of WORLD_PEG_LO_e (R421). -/
def pegWrite (m : Mach) (e v : Nat) : Mach :=
  let old := m.rd (Rg.WORLD_PEG_LO e)
  let err (m : Mach) : Mach := m.fire Rg.WORLD_IRQ_STATUS 7
  if bitOf old 0 then
    let m := if bitsOf v 31 12 != bitsOf old 31 12 then err m else m
    m.setBit (Rg.WORLD_PEG_LO e) 0 (bitOf v 0)
  else if bitOf v 0 && !m.pegOk e v then err (m.wr (Rg.WORLD_PEG_LO e) (v &&& 0xFFFFF000))
  else m.wr (Rg.WORLD_PEG_LO e) (v &&& 0xFFFFF001)

/-! ### Debug -/

/-- WORLD_DBG_STATUS.enables: those that the lifecycle gave at the release, and the enables granted (R417, R418). -/
def showDbg (m : Mach) : Mach :=
  m.setFld Rg.WORLD_DBG_STATUS 3 0 (dbgClose (m.world.base ||| m.world.granted))

/-- The lifecycle gives the enables at a release of a module reset (R417). -/
def dbgRelease (m : Mach) : Mach := (m.modWorld fun w => { w with base := dbgBase m.lifecycle }).showDbg

/-- Every nonce void; the registers read 0 (R418). -/
def voidNonce (m : Mach) : Mach :=
  (m.forAll (List.range 4) fun m w => m.wr (Rg.WORLD_DBG_NONCE w) 0).modWorld fun w => { w with nonce := false }

/-- A write of WORLD_DBG_REQ: a fresh nonce of free value (R418). -/
def dbgRequest (m : Mach) (v : Nat) : Mach :=
  let m := m.forAll (List.range 4) fun m w =>
    let (x, m) := m.draw
    m.wr (Rg.WORLD_DBG_NONCE w) (x.toNat % 2 ^ 32)
  m.modWorld fun w => { w with nonce := true, req := v % 16, checking := false }

/-- A write of WORLD_DBG_LOCK, a lifecycle change or a reset withdraws what challenges granted (R418). -/
def dbgWithdraw (m : Mach) : Mach := (m.modWorld fun w => { w with granted := 0 }).showDbg

/-- The check of a response fails (R418). -/
def dbgFails (m : Mach) : Mach :=
  let f := min 8 (m.fld Rg.WORLD_DBG_STATUS 11 8 + 1)
  let m := (m.setFld Rg.WORLD_DBG_STATUS 11 8 f).fire Rg.WORLD_IRQ_STATUS 6
  if f == 8 then m.setBit Rg.WORLD_DBG_STATUS 12 true else m

/-- The key of a LOADED slot; a fuse error makes every slot read EMPTY (R441, R445). -/
def keySlot (m : Mach) (k : Nat) : Option KSlot := if m.key.fuseBad then none else kget m.key.slots k

/-- Key of the lowest-numbered LOADED slot whose usage includes a bit (R445). -/
def keyWith (m : Mach) (bit : Nat) : Option (List Byte) :=
  match (List.range 64).filter fun k => match m.keySlot k with | some s => bitOf s.usage bit | none => false with
  | k :: _ => (m.keySlot k).map (·.value)
  | [] => none

/-- UID as 16 bytes. -/
def uidBytes : List Byte := leBytes 16 Config.uid.toNat

/-- ASCII text as bytes. -/
def ascii (s : String) : List Byte := s.toList.map fun c => BitVec.ofNat 8 c.toNat

/-- KMAC256 with an output of `n` bytes. -/
def kmac (key : List Byte) (s : String) (x : List Byte) (n : Nat) : List Byte :=
  leBytes n (Config.kmac256 key (ascii s) x n)

/-- The challenge check ends (R418). -/
def dbgCheck (m : Mach) : Mach :=
  if !m.world.checking then m
  else
    let m := m.modWorld fun w => { w with checking := false }
    let words (r : Nat → Nat) (n : Nat) : List Byte := ((List.range n).map fun w => leBytes 4 (m.rd (r w))).flatten
    let x := words Rg.WORLD_DBG_NONCE 4 ++ uidBytes ++ leBytes 4 m.world.req
    match m.keyWith 5 with
    | none => m.dbgFails
    | some k =>
      if m.world.nonce && !m.bit Rg.WORLD_DBG_STATUS 12 && words Rg.WORLD_DBG_RESP 8 == kmac k "MZ4820-DEBUG" x 32 then
        let m := m.modWorld fun w => { w with granted := w.granted ||| (w.req &&& dbgByChallenge m.lifecycle) }
        (m.voidNonce.showDbg).fire Rg.WORLD_IRQ_STATUS 5
      else m.dbgFails

/-- A halt request for a core (R389, R419). -/
def haltCore (m : Mach) (id : Nat) : Mach := (m.modCore id fun c => { c with haltReq := !c.halted }).honourHalt id

/-- The debugger resumes a halted core (R389). -/
def resumeCore (m : Mach) (id : Nat) : Mach :=
  match m.core id with
  | some c =>
    if c.halted && m.mayHalt c then
      let m := m.modCore id fun c => { c with halted := false, haltReq := false }
      match safeOf id with
      | some k => if m.fld (Rg.CHK_STATUS k) 2 0 == 4 then m.setFld (Rg.CHK_STATUS k) 2 0 1 else m
      | none => m
    else { m with fab := { m.fab with cores := m.fab.cores.map fun x => if x.1 == id then (x.1, { x.2 with haltReq := false }) else x } }
  | none => m

/-- Boundary-scan EXTEST (R419): carried out with both invasive enables, once PINS assigns the JTAG balls. -/
def extest (m : Mach) : Mach :=
  let jtag := (List.range 5).all fun i => m.pinFn (ballNo 6 (22 + i)) == some 0x70
  if !jtag then m
  else if bitOf m.dbgEnables 1 && bitOf m.dbgEnables 3 then (m.modWorld fun w => { w with extest := true }).answer .done
  else m.answer .busError

end Mach

end Sys2Proof.Machine
end

