-- ==== Sys2Proof/Machine/Chk.lean ====
section
/-! DEFINITION. Coded execution (R369 to R390): disagreements, replays, checker faults, plumb tests, the control
instructions and coded-mode debug. -/

namespace Sys2Proof.Machine

namespace Mach

def chkOf (m : Mach) (c : Nat) : ChkCore := m.chk.getD c {}
def modChk (m : Mach) (c : Nat) (f : ChkCore → ChkCore) : Mach := { m with chk := m.chk.modify c f }

/-- State of a safe core: 0 HELD, 1 RUN, 2 REPLAY, 3 HALTED, 4 DEBUG_HALT, 5 SPLIT (CHK_STATUS). -/
def chkState (m : Mach) (c : Nat) : Nat := m.fld (Rg.CHK_STATUS c) 2 0
def setChk (m : Mach) (c st : Nat) : Mach := m.setFld (Rg.CHK_STATUS c) 2 0 st
def chkIrq (m : Mach) (c i : Nat) : Mach := m.fire (Rg.CHK_IRQ_STATUS c) i

/-- Group of the next plumb test (CHK_PLUMB). -/
def plumbGroup (m : Mach) (c : Nat) : Nat := m.fld (Rg.CHK_PLUMB c) 2 0

/-- A fault recorded while no record is valid (R379, CHK_FAULT_INFO). -/
def chkRecord (m : Mach) (c cause group lanes pc replays : Nat) (both : Bool) : Mach :=
  if m.bit (Rg.CHK_FAULT_INFO c) 31 then m
  else
    let info := 1 <<< 31 ||| flagNat both <<< 30 ||| group <<< 16 ||| min replays 255 <<< 8 ||| cause
    ((m.wr (Rg.CHK_FAULT_INFO c) info).wr64 (Rg.CHK_FAULT_PC_LO c) (Rg.CHK_FAULT_PC_HI c) pc).wr (Rg.CHK_LANES c) lanes

/-- A reaction places both contexts under a checker hold and raises its fault code (R383, R384); table R383 itself is
carried out with the fault. -/
def chkReact (m : Mach) (c code : Nat) : Mach :=
  (((m.stopCore (0x10 + 2 * c)).setChk c 3).chkIrq c 3).raise code c

/-- A checker fault (R379, R383): never replayed. -/
def checkerFault (m : Mach) (c cause group lanes pc : Nat) (both : Bool) : Mach :=
  let st := m.chkState c
  if st == 0 || st == 3 || st == 5 then m
  else
    let m := m.chkRecord c cause group lanes pc (m.chkOf c).dis both
    ((m.bump (Rg.CHK_CHECKER_CNT c)).chkIrq c 2).chkReact c 0x121

/-- Causes of the comparator groups (table R377). -/
def groupCause (g : Nat) : Nat := if g < 2 then 1 else if g == 2 then 2 else if g < 5 then 3 else 4

/-- A disagreement (R379, R382). `loads`: a load issued under R374 forbids the replay. -/
def disagree (m : Mach) (c group lanes pc : Nat) (loads : Bool) : Mach :=
  let st := m.chkState c
  if st != 1 && st != 2 then m
  else
    let x := m.chkOf c
    let injected := x.inj && group == 0 && lanes == 1
    let n := if st == 2 && x.pc == pc then x.dis + 1 else 1
    let cause := if injected then 5 else groupCause group
    let m := m.chkRecord c cause group lanes pc (n - 1) false
    let m := (m.bump (Rg.CHK_MISMATCH_CNT c)).chkIrq c 0
    let m := m.modChk c fun x => { x with dis := n, pc := pc, inj := x.inj && !injected }
    let m := m.modCore (0x10 + 2 * c) fun x => { x with pc := BitVec.ofNat 40 pc }
    let lim := m.fld (Rg.CHK_CTRL c) 1 0
    if lim == 0 || lim < n || loads then m.chkReact c 0x120 else m.setChk c 2

/-- One plumb test of the next group: passes, or fails on the given lanes (R380). -/
def plumb (m : Mach) (c : Nat) (fail : Option Nat) : Mach :=
  let m := m.modChk c fun x => { x with owed := false }
  match fail with
  | some lanes => m.checkerFault c 0xA (m.plumbGroup c) lanes 0 false
  | none =>
    let v := m.rd (Rg.CHK_PLUMB c)
    let v := withBits v 31 16 (satInc 16 (bitsOf v 31 16))
    (m.wr (Rg.CHK_PLUMB c) (withBits v 2 0 (bitsOf v 2 0 + 1))).modChk c fun x => { x with skips := 0 }

/-- Failing lanes of a core in a command's list. -/
def plumbOf (l : List (Fin 6 × Word)) (c : Nat) : Option Nat := (l.find? fun x => x.1.val == c).map fun x => x.2.toNat

/-- The plumb tests of a kerf start (R380, R381): a core in REPLAY or DEBUG_HALT owes its test. -/
def plumbKerf (m : Mach) (l : List (Fin 6 × Word)) : Mach :=
  m.forAll (List.range 6) fun m c =>
    let st := m.chkState c
    if st == 1 then m.plumb c (plumbOf l c)
    else if st == 2 || st == 4 then m.modChk c fun x => { x with owed := true }
    else m

/-- The plumb tests every 250 µs before the first edge (R380). -/
def plumbBoot (m : Mach) (l : List (Fin 6 × Word)) : Mach :=
  if m.tick.started then m
  else m.forAll (List.range 6) fun m c => if m.chkState c == 1 then m.plumb c (plumbOf l c) else m

/-- Tests that have not run by the edge are skipped (R381). -/
def plumbEdge (m : Mach) : Mach :=
  m.forAll (List.range 6) fun m c =>
    if !(m.chkOf c).owed then m
    else
      let st := m.chkState c
      let m := m.modChk c fun x => { x with owed := false }
      if st != 1 && st != 2 && st != 4 then m
      else
      let m := (m.bump (Rg.CHK_PLUMB_SKIP_CNT c)).chkIrq c 4
      if st == 4 then m
      else
        let n := (m.chkOf c).skips + 1
        let m := m.modChk c fun x => { x with skips := n }
        if 16 ≤ n then (m.modChk c fun x => { x with skips := 0 }).checkerFault c 0xA (m.plumbGroup c) 0 0 false else m

/-- The replayed instruction agrees (R382); an owed plumb test follows (R381), and a CSYNC that waits completes. -/
def replayOk (m : Mach) (c : Nat) (fail : Option Nat) : Mach :=
  if m.chkState c != 2 then m
  else
    let x := m.chkOf c
    let m := m.modChk c fun x => { x with dis := 0, pc := 0, csync := false }
    let m := ((m.bump (Rg.CHK_REPLAY_OK_CNT c)).chkIrq c 1).setChk c 1
    let m := if x.csync then m.answer .done else m
    (if x.owed then m.plumb c fail else m).honourHalt (0x10 + 2 * c)

/-- The checker hold ends (R385); the core starts once partition and bent allow. -/
def chkRelease (m : Mach) (c : Nat) : Mach :=
  if m.chkState c != 3 then m.chkIrq c 5
  else
    let m := m.setChk c 0
    (m.startCore (0x10 + 2 * c)).showChk

/-- The safe core that executes an instruction of R386 as `id`; none for a core that is not running it. -/
def coder (m : Mach) (id : Nat) : Option Nat :=
  match m.core id, safeOf id with
  | some c, some k => if c.run && !c.halted then some k else none
  | _, _ => none

/-- On an application core the instructions of R386 are illegal. -/
def illegalOnApp (m : Mach) (id : Nat) : Mach := if id < 4 then m.modCore id fun c => { c with lastFault := 5 } else m

/-- CSYNC (R386). -/
def csync (m : Mach) (id : Nat) : Mach :=
  match m.coder id with
  | none => m.illegalOnApp id
  | some k => if m.fab.coded && m.chkState k == 2 then m.modChk k fun x => { x with csync := true } else m.answer .done

/-- General register of the world that a core executes. -/
def setReg (m : Mach) (id g v : Nat) : Mach :=
  m.modCore id fun c => if c.heartNow then { c with gHeart := setG c.gHeart g v } else { c with gSap := setG c.gSap g v }

/-- CTEST (R386): all groups, or the first failing group and its lanes. -/
def ctest (m : Mach) (id gd : Nat) (fail : Option (Nat × Nat)) : Mach :=
  match m.coder id with
  | none => m.illegalOnApp id
  | some k =>
    if !m.fab.coded then m.setReg id gd 0xFFFFFFFF
    else match fail with
      | none => m.setReg id gd 0
      | some (g, lanes) => m.checkerFault k 0xA g lanes 0 false

/-- CINJ (R386). -/
def cinj (m : Mach) (id : Nat) : Mach :=
  match m.coder id with
  | none => m.illegalOnApp id
  | some k =>
    if m.fab.coded && m.isHeart id && m.bit (Rg.CHK_CTRL k) 2 then m.modChk k fun x => { x with inj := true } else m

/-- A debug write to a general register, the program counter or a system register of a core. -/
def debugSet (m : Mach) (id : Nat) (t : DbgTarget) (v : Nat) : Mach :=
  match t with
  | .g i => m.setReg id i v
  | .pc hi => m.modCore id fun c => { c with pc := BitVec.ofNat 40 (hi.toNat * 2 ^ 32 + v) }
  | .sys n => m.modCore id fun c => { c with sys := kput c.sys n (BitVec.ofNat 32 v) }

/-- A debug write to a tenon register (R389), which mortise takes complemented: accesses to mortise state are ignored; a
failure on the replay path is a checker fault on group 7. -/
def debugReg (m : Mach) (id : Nat) (t : DbgTarget) (v fail : Nat) : Mach :=
  match m.core id with
  | none => m
  | some c =>
    if !c.halted || !m.mayHalt c then m.answer .busError
    else
      match safeOf id with
      | some k =>
        if m.fab.coded && fail != 0 then m.checkerFault k 0xB 7 fail 0 false else (m.debugSet id t v).answer .done
      | none => (m.debugSet id t v).answer .done

/-- A debug single step (R389): a running core stops at the next boundary, a halted one executes one instruction and
stays halted. -/
def debugStep (m : Mach) (id : Nat) : Mach :=
  match m.core id with
  | some c => if c.halted then m else m.haltCore id
  | none => m

end Mach

end Sys2Proof.Machine
end

