-- ==== Sys2Proof/Machine/Load.lean ====
section
/-! DEFINITION. The load channels of the P-die: disposition states (R141 to R145), commands and PWM (R137 to R140),
the protection state machine (R153 to R165), sense codes (R152, R166, R167), bank droop (R168), budgets, derating
and shedding (R169 to R175). -/

namespace Sys2Proof.Machine

/-- Code of a protection state (table R153). -/
def Prot.code : Prot → Nat
  | .off => 0 | .inrush => 1 | .on => 2 | .retryWait => 3 | .demag => 4 | .cool => 5 | .latched => 6 | .supplyOff => 7

/-- States in which the switch conducts. -/
def Prot.conducts : Prot → Bool
  | .inrush | .on => true
  | _ => false

/-- Causes of table R163. -/
def cSHORT : Nat := 0x01
def cINRUSH : Nat := 0x02
def cOVERLOAD : Nat := 0x03
def cOVERTEMP : Nat := 0x04
def cNO_FREEWHEEL : Nat := 0x05
def cBUDGET_SHED : Nat := 0x06

/-- Sense step in mA, on-state open-load threshold in mA, on-resistance in 0.1 mΩ, by class (tables R130, R151). -/
def senseStep (n : Nat) : Nat := if n < 4 then 50 else if n < 16 then 20 else 5
def openThreshold (n : Nat) : Nat := if n < 4 then 200 else if n < 16 then 80 else 30
def ronOf (n : Nat) : Nat := if n < 4 then 25 else if n < 16 then 80 else 300

/-- Duty that an output calls for before the ceiling; ON counts as 1,000 (R171). -/
def Out.duty : Out → Nat
  | .off => 0
  | .on => 1000
  | .pwm d _ _ => d
  | .free d _ => d

/-- Demand of a channel (R154): its output under the ceiling in force conducts at duty 1,000, and otherwise while an on
interval of this or an earlier period covers the instant (R138). -/
def Chan.wants (c : Chan) : Bool :=
  !c.fellBack && match c.out with
  | .off => false
  | o => min o.duty c.ceilF == 1000 || 0 < c.onCnt || c.tail || c.lead

/-- Applied duty of R171. -/
def Chan.applied (c : Chan) : Nat := min c.out.duty c.ceiling

namespace Mach

/-- Load channel `n`. -/
def ch (m : Mach) (n : Nat) : Chan := m.load.ch.getD n {}

/-- Load channel `n` changed. -/
def modCh (m : Mach) (n : Nat) (f : Chan → Chan) : Mach :=
  { m with load := { m.load with ch := m.load.ch.modify n f } }

/-- Flags of LOAD_PROT_CFG. -/
def inductive? (m : Mach) (n : Nat) : Bool := m.bit (Rg.LOAD_PROT_CFG n) 0
def deratable? (m : Mach) (n : Nat) : Bool := m.bit (Rg.LOAD_PROT_CFG n) 1
def derateRank (m : Mach) (n : Nat) : Nat := m.fld (Rg.LOAD_DERATE_CFG n) 7 0

/-- A supply condition of R82 or R83 holds for channel `n`. -/
def supplyBad (m : Mach) (n : Nat) : Bool :=
  m.rst.ovp || m.rst.kl30 == .off || m.rst.kl30 == .retain || m.rst.kl30 == .low
    || (if n < 24 then m.rst.lowA else m.rst.lowB)

/-- Cause that LOAD_FAULT shows (R163). OVERVOLTAGE lasts as long as the channels stay off for it, up to the edge of R82;
the spec does not say whether its condition ends with KL30 below 28 V (DESIGN CHOICE, log entry 72). -/
def shownCause (m : Mach) (n : Nat) : Nat :=
  let c := m.ch n
  if c.cause != 0 then c.cause
  else if m.rst.ovp then 0x10
  else if c.ps == .cool then 0x11
  else if c.openOff then 0x12
  else if c.openOn then 0x13
  else 0

/-- LOAD commands are not accepted: SHUTDOWN or Stranded (R146). -/
def cmdBlocked (m : Mach) : Bool := m.fld Rg.RSTC_MODE 1 0 == 2 || m.bit Rg.RSTC_MODE 7

/-- An event of channel `n` in LOAD_IRQ_STATUS; in an element, bank or unit reset the register keeps its cold value
(R145). -/
def loadIrq (m : Mach) (n i : Nat) : Mach :=
  if m.load.inReset.contains n then m else m.fire (Rg.LOAD_IRQ_STATUS n) i

/-- LOAD_STATE.src: the first reason that applies. -/
def srcOf (m : Mach) (n : Nat) : Nat :=
  let c := m.ch n
  if c.ps == .latched then 5
  else if c.ps == .supplyOff || m.supplyBad n then 4
  else if m.bit Rg.RSTC_MODE 7 then 3
  else if m.fld Rg.RSTC_MODE 1 0 == 2 then 2
  else if c.unread then 6
  else if c.disp then 1
  else 0

/-- The view registers of channel `n` follow its state (LOAD_STATE, LOAD_APPLIED_DUTY, LOAD_FAULT.cause); in an
element, bank or unit reset they read their cold values with in_reset (R145). -/
def refresh (m : Mach) (n : Nat) : Mach :=
  let c := m.ch n
  let m := m.wr (Rg.LOAD_FAULT n) (m.shownCause n)
  if m.load.inReset.contains n then (m.wr (Rg.LOAD_STATE n) 0x81).wr (Rg.LOAD_APPLIED_DUTY n) 0
  else
    let mode := match c.out with
      | .off => 0
      | .on => if c.ceilF < 1000 || c.freeOn then 2 else 1
      | _ => 2
    let v := c.ps.code <<< 12 ||| flagNat (c.disp && c.hold) <<< 11 ||| flagNat (c.ceiling < 1000) <<< 6
      ||| mode <<< 4 ||| flagNat c.ps.conducts <<< 3 ||| m.srcOf n
    (m.wr (Rg.LOAD_STATE n) v).wr (Rg.LOAD_APPLIED_DUTY n) (min c.out.duty c.ceilF)

/-- Every channel's view registers. -/
def refreshAll (m : Mach) : Mach := m.forAll (List.range 48) (fun m n => m.refresh n)

/-- A droop of the bank freezes a channel that has not caused it and has allowance left (R168). -/
def freezes (m : Mach) (n : Nat) : Bool :=
  m.load.droop.contains (n / 8) && !(m.ch n).drooped && !(m.ch n).spent

/-- Entry into the destination of a turn-off; a latch sets the cause, reports it and raises LOAD_LATCH (R163); an attempt
in droop stays frozen in RETRY_WAIT (R168). -/
def enter (m : Mach) (n : Nat) (dest : Prot) (cause : Nat) : Mach :=
  let m := m.modCh n fun c => { c with
    ps := dest, frozen := dest == .retryWait && m.freezes n, openOff := false, turned := c.turned || c.ps.conducts }
  if dest == .latched then
    let m := m.modCh n fun c => { c with cause := cause }
    (m.loadIrq n 0).raise 0x110 (n * 256 + cause)
  else m

/-- "Turn-off" of table R154: an inductive channel passes through DEMAG (R159). -/
def turnOff (m : Mach) (n : Nat) (dest : Prot) (cause : Nat := 0) : Mach :=
  if m.inductive? n && (m.ch n).ps.conducts then
    m.modCh n fun c => { c with ps := .demag, dest := dest, destCause := cause, frozen := false, turned := true }
  else m.enter n dest cause

/-- A switch-on: INRUSH with the freeze allowance renewed; from OFF with no retry and no window, the inrush window
starts (R155, R168). -/
def switchOn (m : Mach) (n : Nat) : Mach :=
  let m := m.modCh n fun c => { c with
    ps := .inrush, window := c.window || c.retry == 0, spent := false, openOff := false, turned := true }
  m.modCh n fun c => { c with frozen := m.freezes n }

/-- A supply condition takes the channel to SUPPLY_OFF, unless it is latched or on its way there (R154, R159). -/
def supplyOff (m : Mach) (n : Nat) : Mach :=
  let c := m.ch n
  if c.ps == .latched || c.ps == .supplyOff || (c.ps == .demag && c.dest == .latched) then m
  else
    let m := m.modCh n fun c => { c with retry := 0, window := false }
    if c.ps == .demag then m.modCh n fun c => { c with dest := .supplyOff }
    else m.turnOff n .supplyOff

/-- The channel follows its supply and its demand (R154, DEMAND_START and DEMAND_END); an ON of a disposition state
keeps its free-running pattern until that state ends, or until the first period start of a PWM that ends it (R143,
R171). -/
def follow (m : Mach) (n : Nat) : Mach :=
  let m := m.modCh n fun c => { c with
    freeOn := c.out == .on && (c.freeOn && (c.disp || c.nxt.isSome) || c.disp && c.ceilF < 1000) }
  let m :=
    if m.supplyBad n then m.supplyOff n
    else
      let c := m.ch n
      match c.ps with
      | .off => if c.wants && !c.unread then m.switchOn n else m
      | .inrush | .on => if c.wants then m else m.turnOff n .off
      | _ => m
  m.refresh n

/-- Every channel of a list follows. -/
def followAll (m : Mach) (ns : List Nat) : Mach := m.forAll ns (fun m n => m.follow n)

/-! ### Rest pattern and disposition -/

/-- The latch copy in use: the higher sequence number among those with a correct CRC (R72). -/
def latchInUse (m : Mach) : Option LatchCopy :=
  let a := m.truss.latch.copy0
  let b := m.truss.latch.copy1
  if a.good && b.good then some (if a.seq < b.seq then b else a)
  else if a.good then some a
  else if b.good then some b
  else none

/-- Rest entry of channel `n`; with no valid copy, disposition OFF (R72). -/
def restOf (m : Mach) (n : Nat) : RestEnt :=
  match m.latchInUse with
  | some c => c.pat.getD n {}
  | none => {}

/-- Output of the rest value (R106). -/
def restOut (m : Mach) (n : Nat) : Out :=
  let e := m.restOf n
  if e.rest == 1 then .on else if e.rest == 2 then .free e.duty e.period else .off

/-- LOAD_DISP and the rest registers take the latch copy in use. -/
def showLatch (m : Mach) : Mach :=
  m.forAll (List.range 48) fun m n =>
    let e := m.restOf n
    ((m.wr (Rg.LOAD_DISP n) (e.hold <<< 4 ||| e.rest <<< 2 ||| e.disp)).wr (Rg.LOAD_REST_DUTY n) e.duty).wr
      (Rg.LOAD_REST_PERIOD n) e.period

/-- Phase of the period that starts now for a channel held to a pattern in µs (R138), reduced by N · T (R139). -/
def phaseOf (m : Mach) (n : Nat) (o : Out) : Nat :=
  match o with
  | .free _ _ => 0
  | .pwm _ k ph => ph % max 1 (k * m.load.period)
  | _ => m.fld (Rg.LOAD_PHASE n) 15 0 % max 1 (max 1 (m.fld (Rg.LOAD_PERIOD n) 9 0) * m.load.period)

/-- A disposition output taken now: no on interval yet. An ON under a ceiling below 1,000 free-runs from this instant
(R171). -/
def takeOut (m : Mach) (n : Nat) (o : Out) : Mach :=
  let ph := m.phaseOf n o
  m.modCh n fun c => { c with
    out := o, hold := false, free := false, tail := false, lead := false, phF := ph
    onCnt := flagNat (o == .on && 0 < c.ceilF && c.ceilF < 1000 && ph == 0) }

/-- A channel enters its disposition state (R141); an event inside the state changes nothing (R143). -/
def enterDisp (m : Mach) (n : Nat) : Mach :=
  if (m.ch n).disp then m
  else
    let e := m.restOf n
    let m := m.modCh n fun c => { c with disp := true, nxt := none, clear := false }
    let m :=
      if e.disp == 1 then m.modCh n fun c => { c with hold := true, free := match c.out with | .pwm .. => true | _ => false }
      else m.takeOut n (if e.disp == 2 then m.restOut n else .off)
    (m.loadIrq n 5).follow n

/-- At power-on, once the NV latch is read, HOLD and REST channels take the rest value (R72, R106). -/
def readLatch (m : Mach) : Mach :=
  let m := m.showLatch
  m.forAll (List.range 48) fun m n =>
    let e := m.restOf n
    let m := (m.modCh n fun c => { c with unread := false, disp := true }).takeOut n (if e.disp == 0 then .off else m.restOut n)
    (m.loadIrq n 5).follow n

/-- Expiry of the hold limit (R142). -/
def holdExpiry (m : Mach) (n : Nat) : Mach :=
  let c := m.ch n
  if c.disp && c.hold then
    ((m.takeOut n (m.restOut n)).loadIrq n 4).follow n
  else m

/-- A LOAD element, bank or unit reset of channel `n` asserts (R141, R145): disposition, then command, state and
interrupt registers at their cold values. Configuration and fault latch are kept. -/
def resetChannel (m : Mach) (n : Nat) : Mach :=
  let m := m.enterDisp n
  let m := { m with load := { m.load with inReset := if m.load.inReset.contains n then m.load.inReset
                                                     else n :: m.load.inReset } }
  let m := m.forAll [Rg.LOAD_CTRL n, Rg.LOAD_DUTY n, Rg.LOAD_PERIOD n, Rg.LOAD_PHASE n, Rg.LOAD_APPLIED_DUTY n,
    Rg.LOAD_CMD_EPOCH n, Rg.LOAD_IRQ_EN n, Rg.LOAD_IRQ_STATUS n] (fun m a => m.wr a (coldAt a))
  m.refresh n

/-- Release of that reset: the channel keeps its disposition until commanded. -/
def releaseChannel (m : Mach) (n : Nat) : Mach :=
  if m.elemHeld uLOAD n then m
  else
    let m := { m with load := { m.load with inReset := m.load.inReset.filter (· != n) } }
    m.refresh n

/-! ### Sync timers -/

/-- A sync timer's pulse starts at its source channel's selected edge (R149). `onEdge`: an on edge. -/
def syncEdge (m : Mach) (n : Nat) (onEdge : Bool) : Mach :=
  let commanded := !(m.ch n).disp && m.fld (Rg.LOAD_CTRL n) 1 0 == 2
  let ks := (List.range 8).filter fun k =>
    let a := Rg.LOAD_SYNC_CFG k
    commanded && m.bit a 7 && m.bit a 6 == onEdge && m.fld a 5 0 == n && m.fld a 15 8 != 0
  { m with load := { m.load with sync := m.load.sync.filter (fun k => !ks.contains k) ++ ks } }

/-- A sync pulse ends after its width (R149). -/
def syncPulseEnd (m : Mach) (k : Nat) : Mach := { m with load := { m.load with sync := m.load.sync.filter (· != k) } }

/-! ### PWM -/

/-- An edge whose count is a multiple of `k` has come (R138). -/
def gridDue (m : Mach) (k : Nat) : Bool := m.load.strobeCount % k == 0

/-- Whether a period of the pattern in force may start now: on the channel timer in a disposition state and, after it, up to
the first period start of a command; else on the grid of N ticks (R138, R143, R171). -/
def periodDue (m : Mach) (n : Nat) : Bool :=
  let c := m.ch n
  match c.out with
  | .off => false
  | .free _ _ => true
  | .on => (c.ceiling < 1000 || c.ceilF < 1000 || c.freeOn)
      && (c.disp || c.freeOn || m.gridDue (max 1 (m.fld (Rg.LOAD_PERIOD n) 9 0)))
  | .pwm _ k _ => c.disp || c.free || m.gridDue k

/-- The pattern whose period starts now: the commanded one at its first period start, else the one in force (R137). -/
def startingPattern (m : Mach) (n : Nat) : Option Out :=
  let c := m.ch n
  let own := if m.periodDue n then some c.out else none
  match c.nxt with
  | some (.pwm d k ph) => if m.gridDue k then some (.pwm d k ph) else own
  | _ => own

/-- A period start: the pattern and the ceiling come into force; with phase 0 the on interval starts with it (R137, R138,
R171). On intervals of earlier periods of the same pattern go on; those of another pattern end here (DESIGN CHOICE, log
entry 72). -/
def periodStart (m : Mach) (n : Nat) : Mach :=
  match m.startingPattern n with
  | none => m
  | some o =>
    let c := m.ch n
    let adopted := c.nxt == some o
    let same := match c.out, o with
      | .pwm _ k p, .pwm _ k' p' => k == k' && p == p'
      | .on, .on => true
      | .free _ _, .free _ _ => true
      | _, _ => false
    let ph := m.phaseOf n o
    let d := min o.duty c.ceiling
    let start := ph == 0 && 0 < d && d < 1000
    let full := match o with | .pwm .. => min c.out.duty c.ceilF == 1000 | _ => false
    let m := m.modCh n fun c => { c with
      out := o, nxt := if adopted then none else c.nxt, free := c.free && !adopted
      onCnt := (if same then c.onCnt else 0) + flagNat start
      tail := same && full && d < 1000 && c.phF != 0, lead := false, phF := ph
      fresh := if c.ceilF == c.ceiling then c.fresh else 0, ceilF := c.ceiling }
    let m := m.syncEdge n false
    let m := if start then m.syncEdge n true else m
    m.follow n

/-- Start of an on interval that does not begin with its period (R138). -/
def onEdge (m : Mach) (n : Nat) : Mach :=
  let c := m.ch n
  let d := min c.out.duty c.ceilF
  if 0 < d && d < 1000 && c.phF != 0 then
    ((m.modCh n fun c => { c with onCnt := c.onCnt + 1 }).syncEdge n true).follow n
  else m

/-- End of an on interval, the oldest one first (R138). -/
def offEdge (m : Mach) (n : Nat) : Mach :=
  (m.modCh n fun c => { c with tail := false, onCnt := if c.tail then c.onCnt else c.onCnt - 1 }).follow n

/-! ### Protection events -/

/-- A failed inrush attempt (R154): LATCHED when the retry count equals retry_max, else RETRY_WAIT; either way the count
increments and retry is set. -/
def attemptFails (m : Mach) (n : Nat) (counted : Bool) : Mach :=
  let last := (m.ch n).retry == m.fld (Rg.LOAD_PROT_CFG n) 11 8
  let m := m.modCh n fun c => { c with retry := if counted then c.retry + 1 else c.retry }
  (if last then m.turnOff n .latched cINRUSH else m.turnOff n .retryWait).loadIrq n 1

/-- INRUSH settles: ON, retry count and window back to 0. -/
def inrushSettle (m : Mach) (n : Nat) : Mach :=
  if (m.ch n).ps == .inrush then
    (m.modCh n fun c => { c with ps := .on, retry := 0, window := false, frozen := false }).refresh n
  else m

/-- The limiter has been active for t_lim: a failed attempt in INRUSH, OVERLOAD in ON. -/
def tLim (m : Mach) (n : Nat) : Mach :=
  match (m.ch n).ps with
  | .inrush => (m.attemptFails n true).refresh n
  | .on => (m.turnOff n .latched cOVERLOAD).refresh n
  | _ => m

/-- Start of droop of a bank: counted and reported; every other channel of the bank in INRUSH or RETRY_WAIT with
allowance left freezes its timers (R168). `by'` is the channel that caused it, if one did. -/
def droopStart (m : Mach) (b : Nat) (by' : Option Nat) : Mach :=
  if m.load.droop.contains b then m
  else
    let m := { m with load := { m.load with droop := b :: m.load.droop } }
    let m := ((m.bump16 (Rg.LOAD_BANK_DROOP_CNT b)).fire (Rg.LOAD_BANK_IRQ_STATUS b) 1).setBit (Rg.LOAD_BANK_STATUS b) 1 true
    m.forAll ((List.range 8).map (8 * b + ·)) fun m n =>
      let m := m.modCh n fun c => { c with drooped := some n == by' }
      let c := m.ch n
      if (c.ps == .inrush || c.ps == .retryWait) && m.freezes n then m.modCh n fun c => { c with frozen := true } else m

/-- End of droop. -/
def droopEnd (m : Mach) (b : Nat) : Mach :=
  if m.load.droop.contains b then
    let m := { m with load := { m.load with droop := m.load.droop.filter (· != b) } }
    let m := m.setBit (Rg.LOAD_BANK_STATUS b) 1 false
    m.forAll ((List.range 8).map (8 * b + ·)) fun m n => m.modCh n fun c => { c with frozen := false, drooped := false }
  else m

/-- A fast trip (R156): droop of the bank starts at once; SHORT in ON, a failed attempt in INRUSH that is not
counted while the channel is frozen (R168). -/
def fastTrip (m : Mach) (n : Nat) : Mach :=
  let c := m.ch n
  if c.ps.conducts then
    let frozen := c.frozen
    let m := m.droopStart (n / 8) (some n)
    (if c.ps == .on then m.turnOff n .latched cSHORT else m.attemptFails n (!frozen)).refresh n
  else m

/-- The inrush window reaches 100 ms: LATCHED with cause INRUSH. `same`: in one supervisor cycle with a condition of the
channel that has acted; a failed attempt of that cycle ranks higher, and the expiry is discarded (R158). -/
def windowExpiry (m : Mach) (n : Nat) (same : Bool) : Mach :=
  let c := m.ch n
  if c.window && (c.ps == .inrush || (c.ps == .retryWait && !same)) then
    ((m.modCh n fun c => { c with window := false }).turnOff n .latched cINRUSH).refresh n
  else m

/-- t_retry has elapsed: INRUSH with a demand, OFF otherwise; retry count and window are kept. -/
def tRetry (m : Mach) (n : Nat) : Mach :=
  let c := m.ch n
  if c.ps == .retryWait then
    (if c.wants then m.switchOn n else m.enter n .off 0).refresh n
  else m

/-- DEMAG ends at its destination; a waiting demand then switches the channel on (R159). -/
def demagEnd (m : Mach) (n : Nat) : Mach :=
  let c := m.ch n
  if c.ps == .demag then (m.enter n c.dest c.destCause).follow n else m

/-- DEMAG finds no freewheel path and ends in LATCHED; a DEMAG on its way there keeps its cause (R154, R159). `same`: in
one supervisor cycle with a condition of the channel that has acted; a supply condition ranks higher (R158). -/
def noFreewheel (m : Mach) (n : Nat) (same : Bool) : Mach :=
  let c := m.ch n
  if c.ps == .demag && !(same && c.dest == .supplyOff) then
    (m.enter n .latched (if c.dest == .latched then c.destCause else cNO_FREEWHEEL)).refresh n
  else m

/-- Over-temperature in INRUSH or ON (R157). -/
def overtemp (m : Mach) (n : Nat) : Mach :=
  let c := m.ch n
  if c.ps.conducts then
    let m := m.modCh n fun c => { c with hot := true }
    let lim := m.fld (Rg.LOAD_DERATE_CFG n) 15 8
    (if m.bit (Rg.LOAD_PROT_CFG n) 2 || c.restart == lim then m.turnOff n .latched cOVERTEMP
     else (m.modCh n fun c => { c with restart := c.restart + 1 }).turnOff n .cool).refresh n
  else m.modCh n fun c => { c with hot := true }

/-- Channel Tj at or below 150 °C: COOL ends with a new inrush window; the retry count stays (R154, R155). -/
def coolEnd (m : Mach) (n : Nat) : Mach :=
  let m := m.modCh n fun c => { c with hot := false }
  let c := m.ch n
  if c.ps == .cool then
    let m := m.modCh n fun c => { c with window := true }
    (if c.wants then m.switchOn n else m.enter n .off 0).refresh n
  else m

/-- Clearing accepted at the next commit: the latch and its counts return to 0 (R154, R165). -/
def clearLatch (m : Mach) (n : Nat) : Mach :=
  let c := m.ch n
  let m := m.modCh n fun c => { c with clear := false }
  if c.clear && c.ps == .latched then
    (m.modCh n fun c => { c with ps := .off, cause := 0, retry := 0, window := false, restart := 0 }).follow n
  else m

/-! ### Budget scopes -/

end Mach

/-- The scopes in the order bank 0 to 5, posts A and B, module current, heat. -/
def allScopes : List Scope :=
  [.bank 0, .bank 1, .bank 2, .bank 3, .bank 4, .bank 5, .post 0, .post 1, .modCurrent, .heat]

/-- Channels of a scope (R169). -/
def Scope.chans : Scope → List Nat
  | .bank k => (List.range 8).map (8 * k.val + ·)
  | .post p => (List.range 24).map (24 * p.val + ·)
  | _ => List.range 48

/-- Scope number of the fault codes LOAD_BUDGET and LOAD_SHED (R126). -/
def Scope.code : Scope → Nat
  | .bank k => k.val
  | .post p => 0x10 + p.val
  | .heat => 0xFE
  | .modCurrent => 0xFF

namespace Mach

/-- State of a scope. -/
def scope (m : Mach) (s : Scope) : ScopeSt :=
  ((m.load.scopes.find? fun e => e.1 == s).map (·.2)).getD {}

def setScope (m : Mach) (s : Scope) (v : ScopeSt) : Mach :=
  { m with load := { m.load with scopes := (s, v) :: m.load.scopes.filter fun e => e.1 != s } }

/-- Value of a scope: mean current in mA, or the heat estimate in 2^-20 cW. -/
def scopeVal (m : Mach) (s : Scope) : Nat :=
  match s with
  | .heat => m.load.heat
  | s => sumNat (s.chans.map fun n => (m.ch n).mean)

/-- Limit of a scope in the same unit. -/
def scopeLim (m : Mach) (s : Scope) : Nat :=
  match s with
  | .bank k => 100 * m.rd (Rg.LOAD_BANK_LIMIT k.val)
  | .post _ => 75000
  | .modCurrent => 100 * m.rd Rg.LOAD_MOD_LIMIT
  | .heat => m.rd Rg.LOAD_HEAT_LIMIT * 2 ^ 20

/-- LOAD_BANK_STATUS.derating: a member's ceiling is below 1,000 (R177). -/
def showDerating (m : Mach) (k : Nat) : Mach :=
  m.setBit (Rg.LOAD_BANK_STATUS k) 2 (((List.range 8).map (8 * k + ·)).any fun n => (m.ch n).ceiling < 1000)

/-- A channel's ceiling set, with derate reported when it leaves or returns to 1,000 (R172); a disposition output
ON takes a first ceiling below 1,000 at once, its first period starting there (R171). -/
def setCeiling (m : Mach) (n v : Nat) : Mach :=
  let c := m.ch n
  let crosses := (c.ceiling == 1000) != (v == 1000)
  let m := m.modCh n fun c => { c with ceiling := v }
  let m := if c.disp && c.out == .on && c.ceilF == 1000 && v < 1000 then
      let ph := m.phaseOf n .on
      m.modCh n fun c => { c with ceilF := v, fresh := 0, phF := ph, onCnt := flagNat (ph == 0 && 0 < v) }
    else m
  let m := if c.out == .off then m.modCh n fun c => { c with ceilF := v } else m
  ((if crosses then m.loadIrq n 3 else m).follow n).showDerating (n / 8)

/-- Deratable channels of a scope with an applied duty above 0. -/
def derateSet (m : Mach) (s : Scope) : List Nat :=
  s.chans.filter fun n => m.deratable? n && 0 < (m.ch n).applied

/-- Least and greatest element of a list of numbers. -/
def leastOf (l : List Nat) : Nat := l.foldl min (l.headD 0)
def greatestOf (l : List Nat) : Nat := l.foldl max 0

/-- Channels to step for one over scope: the lowest rank among the derate set (R171). -/
def stepSet (m : Mach) (s : Scope) : List Nat :=
  let ds := m.derateSet s
  let r := leastOf (ds.map m.derateRank)
  ds.filter fun n => m.derateRank n == r

/-- Gain of the heat filter per evaluation in units of 2^-20 (R170): a time constant of 100 ms updated every 1 ms gives a
gain between 1/101 and 1/100, whatever the discrete form; which, is free. -/
def heatGain : Nat := 10382 + Config.heatGain.toNat % 105

/-- Mean current of each channel from its last 20 samples, and the filtered heat estimate (R169, R170): squares
of mA times 0.1 mΩ times the temperature factor in thousandths give 10^-11 cW. -/
def formMeans (m : Mach) (tj : List Int) : Mach :=
  let m := m.forAll (List.range 48) fun m n =>
    m.modCh n fun c => { c with mean := sumNat (c.samples.take 20) / 20 }
  let terms := (List.range 48).map fun n =>
    let i := (m.ch n).mean
    i * i * ronOf n * (1000 + 4 * (tj.getD n 25 - 25)).toNat
  let x := sumNat terms * 2 ^ 20 / 100000000000
  let k := heatGain
  let y := m.load.heat
  let y' := if y ≤ x then y + (x - y) * k / 2 ^ 20 else y - (y - x) * k / 2 ^ 20
  { m with load := { m.load with heat := y' } }

/-- Status registers of one scope after an evaluation. -/
def showScope (m : Mach) (s : Scope) (old new : ScopeSt) : Mach :=
  let rise := new.isOver && !old.isOver
  let exh := new.exhausted && !old.exhausted
  match s with
  | .bank k =>
    let a := Rg.LOAD_BANK_STATUS k.val
    let m := (m.setBit a 0 new.isOver).setBit a 3 new.exhausted
    let m := if rise then m.fire (Rg.LOAD_BANK_IRQ_STATUS k.val) 0 else m
    let m := if exh then m.fire (Rg.LOAD_BANK_IRQ_STATUS k.val) 2 else m
    m.wr (Rg.LOAD_BANK_CURRENT k.val) (m.scopeVal s / 100 % 65536)
  | s =>
    let bit := match s with | .post p => 1 + p.val | .modCurrent => 3 | _ => 4
    let m := m.setBit Rg.LOAD_BUDGET_STATUS bit new.isOver
    let m := if rise then m.fire Rg.LOAD_BUDGET_IRQ_STATUS 0 else m
    let m := if exh then m.fire Rg.LOAD_BUDGET_IRQ_STATUS 1 else m
    match s with
    | .post p => m.wr (if p.val == 0 then Rg.LOAD_POST_A_CURRENT else Rg.LOAD_POST_B_CURRENT) (m.scopeVal s / 100 % 65536)
    | .modCurrent => m.wr Rg.LOAD_MOD_CURRENT (m.scopeVal s / 100 % 65536)
    | _ => m.wr Rg.LOAD_HEAT (m.scopeVal s / 2 ^ 20 % 65536)

/-- One scope compared with its limit (R171, R173). -/
def judgeScope (m : Mach) (s : Scope) : Mach :=
  let old := m.scope s
  let v := m.scopeVal s
  let lim := m.scopeLim s
  let isOver := lim < v
  let exhausted := isOver && (m.derateSet s).isEmpty
  let new : ScopeSt := { isOver, exhausted, far := lim * 110 < v * 100, shedding := old.shedding && isOver }
  let m := (m.setScope s new).showScope s old new
  if exhausted && !old.exhausted then m.raise 0x111 s.code else m

/-- Summary bits that follow the scopes and ceilings. -/
def showBudget (m : Mach) : Mach :=
  let any (f : ScopeSt → Bool) (l : List Scope) := l.any fun s => f (m.scope s)
  let m := m.setBit Rg.LOAD_BUDGET_STATUS 5 (any (·.exhausted) [.post 0, .post 1, .modCurrent, .heat])
  let m := m.setBit Rg.LOAD_BUDGET_STATUS 6 (any (·.shedding) [.post 0, .post 1, .heat])
  m.forAll (List.range 6) fun m k => m.showDerating k

/-- Consecutive evaluations below 90 % in every scope of each channel (R172). -/
def countCalm (m : Mach) : Mach :=
  let below (s : Scope) := m.scopeVal s * 100 < m.scopeLim s * 90
  m.forAll (List.range 48) fun m n =>
    let ok := allScopes.all fun s => !s.chans.contains n || below s
    m.modCh n fun c => { c with calm := if ok then min 10 (c.calm + 1) else 0 }

/-- Raising of ceilings (R172). -/
def raiseCeilings (m : Mach) : Mach :=
  let q := (List.range 48).filter fun n => (m.ch n).calm == 10 && (m.ch n).ceiling < 1000
  let r := greatestOf (q.map m.derateRank)
  m.forAll (q.filter fun n => m.derateRank n == r) fun m n => m.setCeiling n (min 1000 ((m.ch n).ceiling + 100))

/-- One evaluation (R169 to R173): means, scopes, derate steps, raises. -/
def evaluate (m : Mach) (tj : List Int) : Mach :=
  let m := m.formMeans tj
  let m := m.forAll allScopes (fun m s => m.judgeScope s)
  let step := (allScopes.filter fun s => (m.scope s).isOver).flatMap m.stepSet
  let ready := (List.range 48).filter fun n =>
    step.contains n && (m.ch n).fresh == 20 && (m.ch n).ceilF == (m.ch n).ceiling
  let m := m.forAll ready fun m n =>
    let c := m.ch n
    (m.setCeiling n (min c.ceiling c.applied - 100)).modCh n fun c => { c with fresh := 0 }
  let m := m.countCalm
  let m := m.raiseCeilings
  m.showBudget

/-- Scope of the shedding rows: post A, post B, heat. -/
def shedScope (i : Nat) : Scope := if i == 0 then .post 0 else if i == 1 then .post 1 else .heat

/-- Shedding starts after 100 ms above 110 % while exhausted (R173). -/
def shedStart (m : Mach) (i : Nat) : Mach :=
  let s := shedScope i
  let v := m.scope s
  if v.exhausted && v.far then (m.setScope s { v with shedding := true }).showBudget else m

/-- One shed step: the conducting non-deratable channel of the lowest rank, the highest number among equals. -/
def shedStep (m : Mach) (i : Nat) : Mach :=
  let s := shedScope i
  if (m.scope s).shedding then
    let cs := s.chans.filter fun n => (m.ch n).ps.conducts && !m.deratable? n
    let r := leastOf (cs.map m.derateRank)
    match (cs.filter fun n => m.derateRank n == r).getLast? with
    | none => m
    | some n =>
      let m := (m.turnOff n .latched cBUDGET_SHED).refresh n
      ((m.fire Rg.LOAD_BUDGET_IRQ_STATUS 2).bump16 Rg.LOAD_SHED_CNT).raise 0x112 s.code
  else m

/-- The fallback comparator of a post trips (R175): every channel that was deratable goes off without a latch; its ceiling
of 0 comes with the supervisor. -/
def fallbackTrip (m : Mach) (post : Nat) : Mach :=
  if m.bit Rg.LOAD_BUDGET_STATUS 0 then
    m.forAll ((List.range 24).map (24 * post + ·)) fun m n =>
      if (m.ch n).derKept then (m.modCh n fun c => { c with fellBack := true }).follow n else m
  else m

/-! ### Sense samples -/

/-- Level of SENSE_OUT in 0.1 mV (R167); a PIN record of function NONE leaves the ball undriven. -/
def senseLevel (m : Mach) : Option Nat :=
  if m.pinFn (ballNo 6 39) == some 0 then none
  else if m.bit Rg.LOAD_SENSE_SEL 7 then
    let c := (m.ch (m.fld Rg.LOAD_SENSE_SEL 5 0)).code
    some (if c ≤ 0xBFF then 20000 * c / 3071 else 30000)
  else some 0

def showSense (m : Mach) : Mach := { m with load := { m.load with senseOut := m.senseLevel } }

/-- Sense code of a current (R166). A channel that shows a cause and does not conduct meets two of the rule's points; the
model gives it the cause (DESIGN CHOICE, log entry 72). -/
def senseCode (m : Mach) (n mA : Nat) : Nat :=
  let cause := m.shownCause n
  if cause != 0 then 0xF00 ||| cause
  else if (m.ch n).ps.conducts then min 0xBFF (mA / senseStep n) else 0

/-- Open load in the on state: 40 consecutive samples taken in ON (R161). -/
def openOnSample (m : Mach) (n mA : Nat) : Mach :=
  let c := m.ch n
  if m.bit (Rg.LOAD_PROT_CFG n) 3 && c.ps == .on then
    if mA < openThreshold n then
      let m := m.modCh n fun c => { c with lowRun := min 40 (c.lowRun + 1), highRun := 0 }
      if (m.ch n).lowRun == 40 && !c.openOn then
        ((m.modCh n fun c => { c with openOn := true }).loadIrq n 2).refresh n
      else m
    else
      let m := m.modCh n fun c => { c with highRun := min 40 (c.highRun + 1), lowRun := 0 }
      if (m.ch n).highRun == 40 && c.openOn then (m.modCh n fun c => { c with openOn := false }).refresh n else m
  else m

/-- The supervisor's sample of every channel (R152). A current of a channel that does not conduct counts as 0. -/
def sample (m : Mach) (mA : List Nat) : Mach :=
  let m := m.forAll (List.range 48) fun m n =>
    let i := if (m.ch n).ps.conducts then mA.getD n 0 else 0
    let code := m.senseCode n i
    (m.modCh n fun c => { c with samples := (i :: c.samples).take 20, code := code, fresh := min 20 (c.fresh + 1) }
      ).openOnSample n i
  m.showSense

/-- At a tick edge LOAD_SENSE takes the last sample before it (R152). -/
def senseAtEdge (m : Mach) : Mach :=
  if m.bit Rg.LOAD_BUDGET_STATUS 0 then m
  else m.forAll (List.range 48) fun m n => m.wr (Rg.LOAD_SENSE n) (m.ch n).code

/-- The condition of table R165 under which a clear acts. -/
def clearable (m : Mach) (n : Nat) : Bool :=
  let c := m.ch n
  if c.ps != .latched then false
  else if c.cause == cOVERTEMP then !c.hot
  else if c.cause == cBUDGET_SHED then
    !(allScopes.any fun s => s.chans.contains n && (m.scope s).shedding)
  else c.cause != 0

/-! ### Commit on the P-die -/

/-- Members of an alias window and the channel offset within it (R132); a channel's own window has one member. -/
def loadWindow (a : Nat) : Option (List Nat × Nat) :=
  let o := a - 0x42000000
  if a < 0x42000000 then none
  else if o < 0x3000 then some ([o / 0x100], o % 0x100)
  else if 0x8000 ≤ o && o < 0x8600 then some ((List.range 8).map (8 * ((o - 0x8000) / 0x100) + ·), o % 0x100)
  else if 0x9000 ≤ o && o < 0x9100 then some (List.range 4, o % 0x100)
  else if 0x9100 ≤ o && o < 0x9200 then some ((List.range 12).map (4 + ·), o % 0x100)
  else if 0x9200 ≤ o && o < 0x9300 then some ((List.range 32).map (16 + ·), o % 0x100)
  else if 0xA000 ≤ o && o < 0xA100 then some (List.range 48, o % 0x100)
  else none

/-- Offsets of the command registers (table R135). -/
def isCommand (o : Nat) : Bool := o == 0 || o == 2 || o == 4 || o == 6

/-- Report of a rejected value of a channel (R139). -/
def loadReject (m : Mach) (n : Nat) : Mach := (m.loadIrq n 6).fire Rg.LOAD_UNIT_IRQ_STATUS 0

/-- A stale command dropped (R148). -/
def staleDrop (m : Mach) (n : Nat) : Mach :=
  ((m.bump16 Rg.LOAD_STALE_CNT).loadIrq n 7).fire Rg.LOAD_UNIT_IRQ_STATUS 1

/-- Duty that owns a channel, if its owner code names one. -/
def chanDuty (m : Mach) (n : Nat) : Option Nat :=
  let o := m.rd (Rg.LOAD_OWNER n)
  if o / 0x1000 == 4 then some (o % 0x1000) else none

/-- Owner and epoch of a duty that the P-die holds (R147). -/
def pOwner (m : Mach) (d : Nat) : Nat := m.fld (Rg.LOAD_DUTY_OWNER (d / 16)) (d % 16) (d % 16)
def pEpoch (m : Mach) (d : Nat) : Nat := m.rd (Rg.LOAD_DUTY_EPOCH d)

/-- The arbiter's check of a command for one member (R148): the tag of the member's duty must name the owner and
the epoch that the P-die holds. Channels with another kind of owner, and live application, are not checked. -/
def epochOk (m : Mach) (e : Stg) (n : Nat) : Bool :=
  e.live || match m.chanDuty n with
  | none => true
  | some d => e.tags.any fun t => t.1 == d && t.2.1 == m.pOwner d && t.2.2 == m.pEpoch d

/-- The arbiter's checks before a command acts on one member (R146, R148), and what a refusal leaves behind. -/
def arbiter (m : Mach) (e : Stg) (n : Nat) : Mach × Bool :=
  if m.cmdBlocked then (m.fire Rg.LOAD_UNIT_IRQ_STATUS 2, false)
  else if !m.epochOk e n then (m.staleDrop n, false)
  else ((match m.chanDuty n with
    | some d => m.wr (Rg.LOAD_CMD_EPOCH n) (m.pEpoch d)
    | none => m), true)

/-- Values that the P-die accepts for a channel register at an offset (R139, table R135); the phase is checked
afterwards. -/
def loadValueOk (o v : Nat) : Bool :=
  if o == 0x00 then bitsOf v 1 0 != 3
  else if o == 0x02 then bitsOf v 9 0 ≤ 1000
  else if o == 0x04 then bitsOf v 9 0 != 0
  else if o == 0x18 then 50 ≤ bitsOf v 9 0 && bitsOf v 9 0 ≤ 800
  else if o == 0x1A then 100 ≤ bitsOf v 10 0 && bitsOf v 10 0 ≤ 2000
  else true

/-- The pattern that the command registers of a channel call for. -/
def commanded (m : Mach) (n : Nat) : Out :=
  match m.fld (Rg.LOAD_CTRL n) 1 0 with
  | 0 => .off
  | 1 => .on
  | _ => .pwm (m.fld (Rg.LOAD_DUTY n) 9 0) (max 1 (m.fld (Rg.LOAD_PERIOD n) 9 0)) (m.fld (Rg.LOAD_PHASE n) 15 0)

/-- A command in force acts on the output (table R137): `ctrl` says that LOAD_CTRL was accepted, which ends the
disposition state (R142). ON conducts from the commit; under a ceiling below 1,000 it does so until its first period
start, from which its derated pattern runs (R171). -/
def applyCommand (m : Mach) (n : Nat) (ctrl : Bool) : Mach :=
  let c := m.ch n
  let m := if ctrl then m.modCh n fun c => { c with disp := false, hold := false } else m
  if c.disp && !ctrl then m
  else
    let o := m.commanded n
    match o with
    | .pwm .. => (m.modCh n fun c => { c with nxt := if c.out == o && !c.free then none else some o }).follow n
    | o =>
      if ctrl then
        (m.modCh n fun c => { c with out := o, nxt := none, onCnt := 0, tail := false, free := false, ceilF := c.ceiling
                                     lead := o == .on && 0 < c.ceiling && c.ceiling < 1000
                                     fresh := if c.ceilF == c.ceiling then c.fresh else 0 }).follow n
      else m.refresh n

/-- What a newly written protection configuration ends (R161, R162). -/
def applyProt (m : Mach) (n : Nat) : Mach :=
  let m := if m.bit (Rg.LOAD_PROT_CFG n) 3 then m
    else m.modCh n fun c => { c with openOn := false, lowRun := 0, highRun := 0 }
  let m := if m.bit (Rg.LOAD_PROT_CFG n) 4 then m else m.modCh n fun c => { c with openOff := false }
  m.refresh n

/-- Command registers that a commit has brought into force: channel, and whether LOAD_CTRL (R30, R142). -/
abbrev Acts := List (Nat × Bool)

/-- One staged write of a channel register applied to one member in the first pass of a commit: phases wait for the
second pass (R139, R140). `again`: a later write of the commit shares its staging entry, so that the arbiter has one
command before it and not two (R33, R148). -/
def applyMember (x : Mach × Acts) (e : Stg) (o : Nat) (again : Bool) (n : Nat) : Mach × Acts :=
  let a := 0x42000000 + 0x100 * n + o
  let go (m : Mach) : Mach × Acts :=
    if o == 0x1C && 15 < bitsOf e.val 15 8 && e.mask &&& 0xFF00 != 0 then
      ((m.wr a (mergeBits (m.rd a) e.val (e.mask &&& 0xFF))).loadReject n, x.2)
    else if loadValueOk o e.val then
      let m := m.wr a (mergeBits (m.rd a) e.val e.mask)
      (if o == 0x16 then m.applyProt n else m, if isCommand o then x.2 ++ [(n, o == 0)] else x.2)
    else (m.loadReject n, x.2)
  if isCommand o then
    match x.1.arbiter e n with
    | (m, true) => if o == 6 then (m, x.2) else go m
    | (m, false) => (if again then x.1 else m, x.2)
  else go x.1

/-- A phase write of one member, against the N and T that come into force with the same commit (R139). -/
def applyPhase (x : Mach × Acts) (e : Stg) (n : Nat) : Mach × Acts :=
  let m := x.1
  if m.cmdBlocked || !m.epochOk e n then x
  else if e.val < m.fld (Rg.LOAD_PERIOD n) 9 0 * m.load.period then (m.wr (Rg.LOAD_PHASE n) e.val, x.2 ++ [(n, false)])
  else (m.loadReject n, x.2)

/-- A staged write of a LOAD register outside the channel windows. -/
def applyUnitReg (m : Mach) (e : Stg) : Mach :=
  let is (n : RegName) : Bool := regIs e.addr n
  let ok : Bool :=
    if is .LOAD_SYNC_CFG then bitsOf e.val 5 0 ≤ 47
    else if is .LOAD_BANK_LIMIT then 1 ≤ e.val && e.val ≤ 750
    else if is .LOAD_MOD_LIMIT then 1 ≤ e.val && e.val ≤ 1500
    else if is .LOAD_HEAT_LIMIT then 1 ≤ e.val && e.val ≤ 1800
    else true
  if ok then m.bring e
  else
    let m := m.fire Rg.LOAD_UNIT_IRQ_STATUS 0
    if is .LOAD_SYNC_CFG then m.wr e.addr (mergeBits (m.rd e.addr) e.val (e.mask &&& 0xFFC0)) else m

/-- Members of a staged write still reachable at the commit: blocks in reset, or reset since the write was staged, drop
theirs (R101, R145). -/
def liveMembers (m : Mach) (e : Stg) : List Nat := e.members.filter fun n => !m.elemHeld uLOAD n && !e.cut.contains n

/-- The first pass of a commit over the staged writes in their order: registers take their values. -/
def applyLoads (x : Mach × Acts) : List Stg → Mach × Acts
  | [] => x
  | e :: t =>
    let y := match loadWindow e.addr with
      | some (_, o) =>
        let live := x.1.liveMembers e
        live.foldl (fun x n => applyMember x e o (t.any (Stg.sameEntry e)) n)
          (x.1.goneDrop (e.members.length - live.length), x.2)
      | none => (x.1.applyUnitReg e, x.2)
    applyLoads y t

/-- The second pass: phases. -/
def applyPhases (x : Mach × Acts) (e : Stg) : Mach × Acts :=
  match loadWindow e.addr with
  | some (_, o) => if o == 6 then (x.1.liveMembers e).foldl (fun x n => applyPhase x e n) x else x
  | none => x

/-- Phases in force that a new N or T leaves at or above N · T (R139). -/
def phasesInForce (m : Mach) (old : Mach) : Mach :=
  let hit := (List.range 48).any fun n =>
    let nt (m : Mach) : Nat × Nat := (m.fld (Rg.LOAD_PERIOD n) 9 0, m.load.period)
    nt m != nt old && (nt m).1 * (nt m).2 ≤ m.rd (Rg.LOAD_PHASE n) && m.rd (Rg.LOAD_PHASE n) != 0
  if hit then m.fire Rg.LOAD_UNIT_IRQ_STATUS 0 else m

/-- The P-die applies a commit: the writes in their order of acceptance, then phases; each channel then follows the command
that the last writes have left, and accepted clears take effect (R139, R140, R165). `period` and `count` are what the
strobe carries. -/
def commitP (m : Mach) (es : List Stg) (period count : Nat) : Mach :=
  let old := m
  let m := { m with load := { m.load with period := period, strobeCount := count } }
  let x := es.foldl applyPhases (applyLoads (m, []) es)
  let m := x.1.phasesInForce old
  let m := m.forAll (List.range 48) fun m n =>
    if x.2.any (·.1 == n) then m.applyCommand n (x.2.contains (n, true)) else m
  let m := m.forAll (List.range 48) fun m n => if (m.ch n).clear then m.clearLatch n else m
  m.showSense.refreshAll

/-- LOAD_FAULT.clear arrives for one member (R165). -/
def faultClear (m : Mach) (e : Stg) (n : Nat) : Mach :=
  match m.arbiter e n with
  | (m, false) => m
  | (m, true) => if m.clearable n then m.modCh n fun c => { c with clear := true } else m

/-- Owners and epochs of duties arrive over the control lane (R147, R398). -/
def laneArrives (m : Mach) : Mach :=
  let m := m.forAll m.bent.lane fun m (d, y, ep) =>
    (m.setFld (Rg.LOAD_DUTY_OWNER (d / 16)) (d % 16) (d % 16) y).wr (Rg.LOAD_DUTY_EPOCH d) ep
  { m with bent := { m.bent with lane := [] } }

/-- The overlap window ends: the owners and epochs have arrived, so no command of the old owner takes effect any more
(R398). -/
def overlapEnds (m : Mach) : Mach :=
  if m.bent.overlap == 0 then m
  else
    let m := m.laneArrives
    { m with bent := { m.bent with overlap := 0 } }

/-- A window that an edge found open has ended long before the next one. -/
def overlapEdge (m : Mach) : Mach :=
  if m.bent.overlap == 1 then { m with bent := { m.bent with overlap := 2 } } else m.overlapEnds

/-! ### Open load in the off state, freezes -/

/-- OPEN_LOAD_OFF starts (R162). -/
def openOffStart (m : Mach) (n : Nat) : Mach :=
  let c := m.ch n
  if m.bit (Rg.LOAD_PROT_CFG n) 4 && c.ps == .off && !c.openOff then
    ((m.modCh n fun c => { c with openOff := true }).loadIrq n 2).refresh n
  else m

def openOffEnd (m : Mach) (n : Nat) : Mach :=
  (m.modCh n fun c => { c with openOff := false }).refresh n

/-- The freeze allowance of 200 µs of one attempt is spent (R168). -/
def freezeSpent (m : Mach) (n : Nat) : Mach :=
  if (m.ch n).frozen then m.modCh n fun c => { c with frozen := false, spent := true } else m

/-- OFF for 100 ms: retry count and window back to 0 (R155). -/
def offIdle (m : Mach) (n : Nat) : Mach :=
  if (m.ch n).ps == .off then m.modCh n fun c => { c with retry := 0, window := false } else m

/-- 10 s in INRUSH or ON since the last over-temperature (R157). -/
def restartReset (m : Mach) (n : Nat) : Mach :=
  if (m.ch n).ps.conducts then m.modCh n fun c => { c with restart := 0 } else m

/-! ### Resets of the P-die's LOAD part -/

/-- Every LOAD register at its cold value, the latch copy in use and the banks in droop shown again. -/
def coldLoad (m : Mach) : Mach :=
  let m := m.coldUnit uLOAD
  let m := { m with load := { m.load with inReset := [], sync := [] } }
  m.showLatch.forAll m.load.droop fun m b => m.setBit (Rg.LOAD_BANK_STATUS b) 1 true

/-- The interrupt registers of the given banks, and of the unit and its budgets, at their cold values; SENSE_OUT at 0 V
(R101, R106, R167). -/
def coldIrqs (m : Mach) (banks unit : List Nat) : Mach :=
  let m := m.forAll (banks.flatMap fun k => [Rg.LOAD_BANK_IRQ_EN k, Rg.LOAD_BANK_IRQ_STATUS k]) fun m a => m.wr a (coldAt a)
  let m := m.forAll unit fun m a => m.wr a (coldAt a)
  (m.setBit Rg.LOAD_SENSE_SEL 7 false).showSense

/-- A bank's group reset asserts, its channels apart. -/
def resetBank (m : Mach) (k : Nat) : Mach := m.coldIrqs [k] []

/-- The LOAD unit reset asserts (R102, R106, R145). -/
def resetLoadUnit (m : Mach) : Mach :=
  (m.forAll (List.range 48) fun m n => m.resetChannel n).coldIrqs (List.range 6)
    [Rg.LOAD_UNIT_IRQ_EN, Rg.LOAD_UNIT_IRQ_STATUS, Rg.LOAD_BUDGET_IRQ_EN, Rg.LOAD_BUDGET_IRQ_STATUS]

/-- Assertion of a warm or cold reset as far as the P-die goes: dispositions, cold LOAD registers, ceilings and derating
state (R102, R104, R176). The supervisor goes on with its detections, and a running period keeps the ceiling that it has
up to the next one. disp_entered and derate, set by this assertion itself, are seen after the registers have taken their
cold values (DESIGN CHOICE, log entry 72). -/
def loadModuleReset (m : Mach) : Mach :=
  let enter := (List.range 48).filter fun n => !(m.ch n).disp
  let raised := (List.range 48).filter fun n => (m.ch n).ceiling < 1000
  let m := m.forAll (List.range 48) fun m n =>
    m.modCh n fun c => { c with ceiling := 1000, ceilF := if c.out == .off then 1000 else c.ceilF, calm := 0, fresh := 20,
                                clear := false }
  let m := m.forAll (List.range 48) (fun m n => m.enterDisp n)
  let fb := m.bit Rg.LOAD_UNIT_STATUS 2
  let m := m.coldLoad.forAll enter fun m n => m.loadIrq n 5
  let m := m.forAll raised fun m n => m.loadIrq n 3
  let m := m.setBit Rg.LOAD_UNIT_STATUS 2 fb
  let m := m.setBit Rg.LOAD_BUDGET_STATUS 0 fb
  let m := { m with load := { m.load with scopes := [] } }
  m.showSense.refreshAll

/-- Assertion of a die reset of the P-die: dispositions, cold registers, the hardware fallback of R175. -/
def loadDieDown (m : Mach) : Mach :=
  let m := m.forAll (List.range 48) fun m n => m.modCh n fun c => { c with derKept := m.deratable? n }
  let m := m.loadModuleReset
  let m := m.forAll (List.range 48) fun m n => m.modCh n fun c => { c with samples := [], mean := 0, lowRun := 0, highRun := 0 }
  let m := { m with load := { m.load with heat := 0 } }
  let m := m.setBit Rg.LOAD_UNIT_STATUS 2 true
  (m.setBit Rg.LOAD_BUDGET_STATUS 0 true).refreshAll

/-- The supervisor runs again (R99, R175): the fallback ends, channels it switched off return with ceiling 0. -/
def loadSupervisorUp (m : Mach) : Mach :=
  let m := m.setBit Rg.LOAD_UNIT_STATUS 2 false
  let m := (m.setBit Rg.LOAD_BUDGET_STATUS 0 false).fire Rg.LOAD_UNIT_IRQ_STATUS 3
  m.forAll ((List.range 48).filter fun n => (m.ch n).fellBack) fun m n =>
    let m := m.modCh n fun c => { c with ceilF := 0, onCnt := 0, tail := false, lead := false }
    (m.setCeiling n 0).modCh n (fun c => { c with fellBack := false }) |>.follow n

/-! ### Alias reads -/

/-- Register value that a read through an alias compares, with the reader's right to -HW registers (R5, R134). -/
def memberVal (m : Mach) (heart : Bool) (o n : Nat) : Nat :=
  match findReg (0x42000000 + 0x100 * n + o) with
  | some h => m.rd (0x42000000 + 0x100 * n + o) &&& (if heart then 0xFFFF else h.d.maskIf (fun f => !f.hw))
  | none => 0

/-- LOAD_MEMBER_DIFF word `w` of the register at offset `x` (R134). -/
def memberDiff (m : Mach) (heart : Bool) (members : List Nat) (x w : Nat) : Nat :=
  match members with
  | [] => 0
  | n0 :: _ =>
    if 0x24 < x || x % 2 != 0 then 0
    else
      let v0 := m.memberVal heart x n0
      let bits := (List.range 16).filter fun j =>
        match members[16 * w + j]? with
        | some n => m.memberVal heart x n != v0
        | none => false
      maskOfList bits

end Mach

end Sys2Proof.Machine
end

