-- ==== Sys2Proof/Machine/Bents.lean ====
section
/-! DEFINITION. Bents (R391 to R403) beside the switch-over of `Stage`: planned switch-over, divergence, repair and
resynchronisation, bents at start. -/

namespace Sys2Proof.Machine

namespace Mach

def bentIrq (m : Mach) (i : Nat) : Mach := m.fire Rg.BENT_IRQ_STATUS i
def modBent (m : Mach) (f : BentSt → BentSt) : Mach := { m with bent := f m.bent }

/-- BIST partitions of a bent (table R396). -/
def bentParts (b : Nat) : List Nat := if b == 0 then [6, 7, 8, 12] else [9, 10, 11, 13]

/-- A failure signal from outside the checker (R396): GROUP_RESET with the group bit, PARTITION with restart_fails,
BIST at the start. -/
def bentSignal (m : Mach) (b src core : Nat) : Mach :=
  if src == 0 || src == 4 then m
  else (m.bentFailure b src (if src == 1 then core else 7)).followCores true

/-- A planned switch-over away from a bent is accepted (R400): a failure signal of source COMMAND, without effect for a
bent that is FAILED or HELD (R396). -/
def plan (m : Mach) (b : Nat) : Mach :=
  if m.bentState b == 0 || m.bentState b == 2 then m
  else (m.recordFail b 4 7).raise 0x130 b |>.modBent fun x => { x with planned := x.planned ++ [b] }

/-- A BENT_CMD write (R400, R402, R404). -/
def bentCmd (m : Mach) (v : Nat) : Mach :=
  let b := bitsOf v 8 8
  let op := bitsOf v 1 0
  let y := 1 - b
  if bitsOf v 31 16 != 0xB3E7 then m.bentIrq 6
  else if op == 1 then
    if m.bentState y == 1 then m.plan b else m.bentIrq 6
  else if op == 2 then
    let held := m.bit Rg.RSTC_GROUP_RST (25 + b) || [0, 1, 2].any fun k => m.chkState (3 * b + k) == 3
    if m.bentState b == 2 && m.bentState y == 1 && !held then m.setBent b 3 else m.bentIrq 6
  else m.bentIrq 6

/-- A repair fails: the bent returns to FAILED (R402). -/
def repairFails (m : Mach) (b : Nat) : Mach :=
  (((m.setBent b 2).modBent fun x => { x with copied := none }).bentIrq 4).raise 0x133 b

/-- The bent in a given state, if any. -/
def bentIn (m : Mach) (st : Nat) : Option Nat := [0, 1].find? fun b => m.bentState b == st

/-- BIST result of a partition as BIST_RESULT shows it: 0 NOT_RUN, 1 PASS, 2 FAIL. -/
def bistShown (m : Mach) (p : Nat) : Nat := m.fld (Rg.BIST_RESULT_0 + 4 * (p / 16)) (2 * (p % 16) + 1) (2 * (p % 16))

/-- The comparator tests of a repair end (R402 steps 3 and 4). -/
def repairTested (m : Mach) (ok : Bool) : Mach :=
  match m.bentIn 3 with
  | none => m
  | some b => if ok && (bentParts b).all fun p => m.bistShown p == 1 then m.setBent b 4 else m.repairFails b

/-- Offsets 0 to 0xE_FFFF of one bent's TCM copied into the other's (R402). -/
def copyTcm (mem : Mem) (x : Nat) : Mem :=
  let src := bTCM (1 - x)
  let dst := bTCM x
  let clean := memClear mem dst 0xF0000
  (mem.filter fun c => src ≤ c.1 && c.1 < src + 0xF0000).foldl (fun acc c => memSet acc (c.1 - src + dst) c.2) clean

/-- The copy of a resynchronisation is complete (R402 step 4); from here on `Mach.memStore` writes to both TCMs. -/
def copyDone (mem : Mem) (m : Mach) : Mem × Mach :=
  match m.bentIn 4 with
  | none => (mem, m)
  | some b => (copyTcm mem b, (m.unpoison (bTCM b) 0xF0000).modBent fun x => { x with copied := some b })

/-- At the first edge after the copy the bent returns to RUN (R402 step 5): every later write to the other TCM has been
mirrored, so the two are identical. -/
def resyncEdge (mem : Mem) (m : Mach) : Mem × Mach :=
  match m.bent.copied with
  | none => (mem, m)
  | some b =>
    if m.bentState b != 4 then (mem, m.modBent fun x => { x with copied := none })
    else
      let mem := copyTcm mem b
      let m := ((m.modBent fun x => { x with copied := none }).setBent b 1).bentIrq 3
      let m := m.setBit Rg.BENT_STATUS (8 + b) true
      (mem, m.followCores true)

/-- Value of an (address, value) log for the signature of R395, in order of acceptance. -/
def sigOf (l : List (Nat × Nat × Nat)) (d : Nat) : List Byte :=
  ((l.filter (·.1 == d)).map fun x => leBytes 4 x.2.1 ++ leBytes 4 x.2.2).flatten

/-- The signatures of the tick compared at the edge that ends it (R395). `skip`: duties served by an updated partition
during a hand-over (R474). -/
def divergence (m : Mach) (skip : List Nat) : Mach :=
  let ran := m.tick.started && m.bentState 0 == 1 && m.bentState 1 == 1
  let m := if !ran then m else m.forAll ((List.range 64).filter fun d => m.dutyValid d && !skip.contains d) fun m d =>
    if Config.crc32 (sigOf m.bent.ownLog d) == Config.crc32 (sigOf m.bent.sbLog d) then
      (m.setBit (Rg.BENT_DUTY d) 30 false).modBent fun x => { x with runs := kdel x.runs d, reported := x.reported.filter (· != d) }
    else
      let n := kgetD m.bent.runs d 0 + 1
      let m := ((m.setBit (Rg.BENT_DUTY d) 30 true).bump Rg.BENT_DIVERGE_CNT).bentIrq 2
      let m := m.modBent fun x => { x with runs := kput x.runs d n }
      let lim := m.fld Rg.BENT_CFG 15 8
      if lim != 0 && lim ≤ n && !m.bent.reported.contains d then
        (m.modBent fun x => { x with reported := d :: x.reported }).raise 0x132 d
      else m
  m.modBent fun x => { x with ownLog := [], sbLog := [], shadowA := [], shadowB := [] }

/-- One planned switch-over at the edge (R400): nothing is promoted or dropped; the P-die learns owner and epoch after its
acknowledgement. -/
def plannedMove (m : Mach) (b : Nat) : Mach :=
  let y := 1 - b
  let ds := m.dutiesOf b
  if m.bentState y != 1 || ds.isEmpty then m
  else
    let m := m.forAll ds fun m d => m.moveDuty y d
    let m := m.forAll ds fun m d => m.retarget d
    let m := m.modBent fun x => { x with laneHeld := x.laneHeld ++ ds.map fun d => (d, y, m.dutyEpoch d) }
    ((m.bump Rg.BENT_SWITCH_CNT).wr Rg.BENT_SWITCH_TICK (m.rd Rg.TICK_COUNT_LO)).bentIrq 0

/-- The planned switch-overs of an edge, in the order of their commands (R400). -/
def plannedSwitch (m : Mach) : Mach :=
  (m.modBent fun x => { x with planned := [] }).forAll m.bent.planned fun m b => m.plannedMove b

/-- The held owners and epochs go onto the control lane once the P-die has acknowledged, or at 10 µs (R400). -/
def sendHeldLane (m : Mach) : Mach :=
  m.modBent fun x => { x with lane := x.lane ++ x.laneHeld, laneHeld := [] }

/-- The bents at step 12 of table R112 (R401): a bent with a held BIST partition starts FAILED, its duties in the other
bent at epoch 2. -/
def bentsStart (m : Mach) : Mach :=
  let bad (b : Nat) : Bool := (bentParts b).any fun p => m.rst.bistHeld.contains p
  let m := m.forAll [0, 1] fun m b =>
    if bad b then (((m.recordFail b 5 7).raise 0x130 b).setBent b 2).bentIrq 1 else m.setBent b 1
  let m := m.forAll (List.range 64) fun m d => if m.dutyValid d then (m.setFld (Rg.BENT_DUTY d) 15 0 1) else m
  let m := m.forAll [0, 1] fun m b =>
    if bad b && !bad (1 - b) then m.forAll (m.dutiesOf b) fun m d => m.moveDuty (1 - b) d else m
  let ds := (List.range 64).filter m.dutyValid
  let m := m.forAll ds fun m d => m.retarget d
  { m with bent := { m.bent with lane := ds.map fun d => (d, m.dutyOwner d, m.dutyEpoch d) } }.laneArrives

end Mach

end Sys2Proof.Machine
end

