-- ==== Sys2Proof/Machine/Swc.lean ====
section
/-! DEFINITION. The switch core (R192 to R217) with the gPTP frame handling of R241 to R246: ingress steps, buffer
admission, MAC table, stream meters, elimination, gates, shapers, egress selection, flush. Rates are in kb/s. -/

namespace Sys2Proof.Machine

/-- Nominal rate of a port in kb/s (table R192). -/
def portRate (p : Nat) : Nat :=
  if p < 2 then 10000000 else if p < 6 then 1000000 else if p < 12 then 100000 else if p < 16 then 10000
  else if p < 19 then 10000000 else 2500000

/-- Fields of an Ethernet frame: destination, source, tag control information, EtherType, offset of the payload. -/
structure EthHdr where
  dst : Nat
  src : Nat
  tci : Option Nat
  etype : Nat
  off : Nat
  deriving DecidableEq, Repr

/-- Destination and source are numbers with octet 0 in the low byte, as the switch registers hold them. -/
def ethHdr (b : List Byte) : EthHdr :=
  let t := beNat (sliceBytes b 12 2)
  if t == 0x8100 then ⟨leAt b 0 6, leAt b 6 6, some (beNat (sliceBytes b 14 2)), beNat (sliceBytes b 16 2), 18⟩
  else ⟨leAt b 0 6, leAt b 6 6, none, t, 14⟩

/-- A reserved destination 01-80-C2-00-00-00 to 01-80-C2-00-00-0F (R196). -/
def reservedDst (d : Nat) : Bool := d % 0x10000000000 == 0xC28001 && d / 0x10000000000 < 16

/-- The gPTP destination 01-80-C2-00-00-0E. -/
def gptpDst (d : Nat) : Bool := d == 0x0E0000C28001

/-- A gPTP frame (R241). -/
def isGptp (b : List Byte) : Bool :=
  let h := ethHdr b
  gptpDst h.dst && h.etype == 0x88F7 && leAt b h.off 1 / 16 == 1

/-- A one-step Sync message (R244). -/
def oneStepSync (b : List Byte) : Bool :=
  let h := ethHdr b
  leAt b h.off 1 % 16 == 0 && !bitOf (leAt b (h.off + 6) 1) 1

/-- domainNumber of a gPTP message. -/
def gptpDomain (b : List Byte) : Nat := leAt b ((ethHdr b).off + 4) 1

/-- The bits a frame of `len` bytes occupies on the line with preamble, start delimiter and interframe gap. -/
def lineBits (len : Nat) : Nat := (len + 20) * 8

namespace Mach

def modSwc (m : Mach) (f : SwcSt → SwcSt) : Mach := { m with swc := f m.swc }

/-! ### Counters and buffer figures -/

/-- A 64-bit port counter advanced (R217). -/
def count (m : Mach) (p k : Nat) (n : Nat := 1) : Mach :=
  m.wr64 (Rg.SWC_CNT_LO p k) (Rg.SWC_CNT_HI p k) (m.rd64 (Rg.SWC_CNT_LO p k) (Rg.SWC_CNT_HI p k) + n)

def minOf (m : Mach) (p c : Nat) : Nat := m.fld (Rg.SWC_PORT_MIN p c) 15 0

/-- used(p,c): cells held by frames of an ingress port and class (R200). -/
def usedOf (m : Mach) (p c : Nat) : Nat :=
  sumNat ((m.swc.frames.filter fun f => f.inp == p && f.cls == c && !f.mgmt).map (·.cells))

/-- Cells held from the management reserve (R196). -/
def mgmtUsed (m : Mach) : Nat := sumNat ((m.swc.frames.filter (·.mgmt)).map (·.cells))

def sharedOf (m : Mach) (p : Nat) : Nat := sumNat ((List.range 8).map fun c => m.usedOf p c - m.minOf p c)

def sharedUsed (m : Mach) : Nat := sumNat ((List.range 22).map m.sharedOf)

/-- S of R200. -/
def sharedSize (m : Mach) : Nat :=
  49152 - 512 - sumNat ((List.range 22).flatMap fun p => (List.range 8).map fun c => m.minOf p c)

/-- The buffer registers follow the stored frames. -/
def showBuffer (m : Mach) : Mach :=
  let m := m.forAll (List.range 22) fun m p =>
    let m := m.forAll (List.range 8) fun m c => m.wr (Rg.SWC_PORT_USED p c) (m.usedOf p c)
    m.setFld (Rg.SWC_PORT_STATUS p) 31 16 (m.sharedOf p)
  let held := sumNat (m.swc.frames.map (·.cells))
  (m.wr Rg.SWC_BUF_STATUS (m.sharedUsed <<< 16 ||| (49152 - held))).wr Rg.SWC_SHARED_SIZE m.sharedSize

/-- Cells of a frame admitted one after another under R201: used(p,c), shared(p) and shared_used grow with each. -/
def admitCells (min ceil pool : Nat) : Nat → Nat → Nat → Nat → Nat
  | 0, _, _, _ => 0
  | n + 1, used, sh, all =>
    if used < min then admitCells min ceil pool n (used + 1) sh all + 1
    else if all < pool && sh < ceil then admitCells min ceil pool n (used + 1) (sh + 1) (all + 1) + 1
    else 0

/-- Number of `n` cells that R201 admits for a frame of port `p`, class `c`. -/
def admitted (m : Mach) (p c : Nat) (yellow : Bool) (n : Nat) : Nat :=
  let s := m.sharedSize
  let pool := if yellow then s - m.fld Rg.SWC_YELLOW_RESERVE 15 0 else s
  admitCells (m.minOf p c) (m.fld (Rg.SWC_PORT_CEIL p) 15 0) pool n (m.usedOf p c) (m.sharedOf p) m.sharedUsed

/-- `got` cells of a frame taken: shared_full as they bring shared_used to S, whether or not the frame is then kept
(R201). -/
def takeCells (m : Mach) (p c got : Nat) : Mach :=
  let above (n : Nat) : Nat := n - m.minOf p c
  let peak := m.sharedUsed + (above (m.usedOf p c + got) - above (m.usedOf p c))
  if m.sharedUsed < m.sharedSize && m.sharedSize ≤ peak then m.fire Rg.SWC_IRQ_STATUS 2 else m

/-! ### MAC table -/

/-- A port that forwarding treats as down (R207). -/
def isDown (m : Mach) (p : Nat) : Bool := m.bit (Rg.SWC_PORT_STATUS p) 1

def portEnabled (m : Mach) (p : Nat) : Bool := m.bit (Rg.SWC_PORT_CFG p) 0

def macFind (m : Mach) (mac vid : Nat) : Option MacEnt := m.swc.macs.find? fun e => e.mac == mac && e.vid == vid

/-- SWC_MAC_COUNT follows the table. -/
def showMacs (m : Mach) : Mach :=
  let s := (m.swc.macs.filter (·.static)).length
  m.wr Rg.SWC_MAC_COUNT (s <<< 16 ||| (m.swc.macs.length - s))

def setMacs (m : Mach) (l : List MacEnt) : Mach := (m.modSwc fun s => { s with macs := l }).showMacs

def learnDrop (m : Mach) : Mach := (m.bump Rg.SWC_LEARN_DROP_CNT).fire Rg.SWC_IRQ_STATUS 3

/-- Packet engine `k` does no work: gated in Doze (R215), or held by its BIST partition (R119, R123). -/
def engineOff (m : Mach) (k : Nat) : Bool := m.rst.gated.contains 3 || m.rst.bistHeld.contains (16 + k)

/-- A learning request of R197 queued. -/
def requestLearn (m : Mach) (mac vid p : Nat) : Mach :=
  if m.engineOff 0 || 256 ≤ m.swc.learn.length then m.learnDrop
  else m.modSwc fun s => { s with learn := s.learn ++ [(mac, vid, p)] }

/-- Packet engine 0 carries out the oldest learning request. -/
def learnOne (m : Mach) : Mach :=
  match m.swc.learn with
  | [] => m
  | (mac, vid, p) :: rest =>
    if m.engineOff 0 then m
    else
      let m := m.modSwc fun s => { s with learn := rest }
      match m.macFind mac vid with
      | some e =>
        if e.static then m
        else m.setMacs (m.swc.macs.map fun x : MacEnt =>
          if x.mac == mac && x.vid == vid then { x with mask := 2 ^ p, fresh := m.clk.lt } else x)
      | none =>
        if 8192 ≤ m.swc.macs.length then m.learnDrop
        else m.setMacs (m.swc.macs ++ [⟨mac, vid, 2 ^ p, false, m.clk.lt⟩])

/-- A dynamic entry without a refresh for `n` · age_s (R198). -/
def aged (m : Mach) (n : Nat) (e : MacEnt) : Bool :=
  let s := m.fld Rg.SWC_CTRL 15 0
  !e.static && s != 0 && e.fresh + n * s * 1000000000 ≤ m.clk.lt

/-- An aged dynamic entry removed, at the earliest age_s after its last refresh (R198). -/
def ageOut (m : Mach) (mac vid : Nat) : Mach :=
  if m.engineOff 0 then m
  else m.setMacs (m.swc.macs.filter fun e => !(m.aged 1 e && e.mac == mac && e.vid == vid))

/-- Aging up to local time `lt` of an edge: no entry stays beyond 2 · age_s (R198), and the time in which packet engine 0
does no work does not count (R215). -/
def ageAll (m : Mach) : Mach :=
  if m.engineOff 0 then
    let d := m.clk.lt - m.tick.edgeLt
    m.modSwc fun s => { s with macs := s.macs.map fun e => if e.static then e else { e with fresh := e.fresh + d } }
  else if m.swc.macs.any (m.aged 2) then m.setMacs (m.swc.macs.filter fun e => !m.aged 2 e)
  else m

/-- A write of SWC_MAC_CMD starts a command (R198); it has no effect while one runs. -/
def macStart (m : Mach) (v : Nat) : Mach :=
  if !m.bit Rg.SWC_MAC_RESULT 31 then m.fire Rg.SWC_IRQ_STATUS 0
  else if bitsOf v 1 0 == 0 then m
  else
    let mac := m.rd Rg.SWC_MAC_ADDR_LO + 2 ^ 32 * m.fld Rg.SWC_MAC_ADDR_HI 15 0
    (m.modSwc fun s => { s with cmd := some ⟨bitsOf v 1 0, mac, m.fld Rg.SWC_MAC_ADDR_HI 27 16, bitsOf v 29 8⟩ }).wr
      Rg.SWC_MAC_RESULT 0

/-- The running MAC command completes and its result is posted (R198). -/
def macFinish (m : Mach) : Mach :=
  match m.swc.cmd with
  | none => m
  | some c =>
    if m.engineOff 0 then m
    else
      let old := m.macFind c.mac c.vid
      let others := m.swc.macs.filter fun e => !(e.mac == c.mac && e.vid == c.vid)
      let (macs, err) : List MacEnt × Bool :=
        if c.op == 2 then
          if old.isNone && 8192 ≤ m.swc.macs.length then (m.swc.macs, true)
          else (others ++ [⟨c.mac, c.vid, c.mask, true, 0⟩], false)
        else if c.op == 3 then (others, old.isNone)
        else (m.swc.macs, false)
      let m := (m.modSwc fun s => { s with cmd := none }).setMacs macs
      let r := match old with
        | some e => 1 <<< 30 ||| flagNat e.static <<< 29 ||| e.mask
        | none => 0
      (m.wr Rg.SWC_MAC_RESULT (1 <<< 31 ||| flagNat err <<< 28 ||| r)).fire Rg.SWC_IRQ_STATUS 4

/-! ### References -/

/-- A frame's reference for port `p` released; its cells return with the last reference (R203). -/
def release (m : Mach) (i p : Nat) : Mach :=
  m.modSwc fun s => { s with
    frames := (s.frames.map fun f : Frame =>
      if f.id == i then { f with refs := f.refs.filter (· != p) } else f).filter fun f : Frame => f.id != i || !f.refs.isEmpty }

def frameOf (m : Mach) (i : Nat) : Option Frame := m.swc.frames.find? (·.id == i)

def txOf (m : Mach) (p : Nat) : Option TxCur := m.swc.tx.find? (·.port == p)

def dropTx (m : Mach) (p : Nat) : Mach := m.modSwc fun s => { s with tx := s.tx.filter (·.port != p) }

/-- The egress port has begun to send its copy of a frame. -/
def begun (m : Mach) (i p : Nat) : Bool := m.swc.tx.any fun t => t.port == p && t.id == i

/-- The timestamp entry of a copy discarded before its transmission, where one was requested (R246). -/
def stampDropped (m : Mach) (f : Frame) (p : Nat) : Mach :=
  match f.tsId with
  | some i => if m.begun f.id p then m else m.stampEntry f.inp i p 0 true
  | none => m

/-- A copy discarded: its timestamp entry, and its reference released (R203, R246). -/
def discardCopy (m : Mach) (f : Frame) (p : Nat) : Mach := (m.stampDropped f p).release f.id p

/-- The FCS that follows the bytes of a frame on the line: their CRC-32, stomped where the frame ended badly (R205). -/
def fcsOf (b : List Byte) (bad : Bool) : List Byte :=
  leBytes 4 ((Config.crc32 b).toNat ^^^ (if bad then 0xFFFFFFFF else 0))

/-- What a port has ended on its line. -/
def lineEnd (m : Mach) (p : Nat) (b : List Byte) (bad : Bool) : Mach :=
  m.modSwc fun s => { s with sent := kput s.sent p (b ++ fcsOf b bad) }

/-- A frame in transmission ended with a stomped FCS after the bytes sent by now (R208). -/
def stompTx (m : Mach) (t : TxCur) : Mach :=
  let n := (m.clk.lt - t.t0) * portRate t.port / 8000000
  ((m.lineEnd t.port (t.out.take n) true).count t.port 6).dropTx t.port

/-- Relay copies and tagged frames in transmission end with a PTP unit reset (R253). -/
def endPtpFrames (m : Mach) : Mach :=
  m.forAll m.swc.tx fun m t =>
    match m.frameOf t.id with
    | some f => if f.relay.isSome || f.vid.isNone then (m.stompTx t).release f.id t.port else m
    | none => m

/-! ### Shapers -/

/-- Key of a port and class. -/
def pcKey (p c : Nat) : Nat := 8 * p + c

/-- Gate state of a class: open while no list operates (R209). -/
def gateOf (m : Mach) (p : Nat) : GateSt := kgetD m.swc.gates p {}

def gateOpen (m : Mach) (p c : Nat) : Bool :=
  let g := m.gateOf p
  if g.running && m.bit (Rg.SWC_PORT_GATE p) 0 then bitOf (g.list.getD g.cur (0xFF, 0)).1 c else true

/-- Copies that wait for an egress port in a class. -/
def waiting (m : Mach) (p c : Nat) : List Frame :=
  m.swc.frames.filter fun f => f.cls == c && f.refs.contains p
    && !(m.swc.tx.any fun t => t.port == p && t.id == f.id)

/-- Credit of a shaped class carried on to local time `lt` (R212). -/
def creditAt (m : Mach) (p c lt : Nat) : Int :=
  let (cr, t0) := kgetD m.swc.credit (pcKey p c) ((0 : Int), lt)
  let dt : Int := ((lt - t0 : Nat) : Int)
  let slope : Int := m.fld (Rg.SWC_PORT_SHAPER p c) 23 0
  let sending := match m.txOf p with | some t => t.cls == c | none => false
  if sending then cr + (slope - portRate p) * dt
  else if !m.gateOpen p c then cr
  else if (m.waiting p c).isEmpty then (if cr < 0 then min 0 (cr + slope * dt) else 0)
  else cr + slope * dt

/-- The credits of a port brought up to `lt`. -/
def shapersRun (m : Mach) (p lt : Nat) : Mach :=
  m.forAll ((List.range 8).filter fun c => m.fld (Rg.SWC_PORT_SHAPER p c) 23 0 != 0) fun m c =>
    m.modSwc fun s => { s with credit := kput s.credit (pcKey p c) (m.creditAt p c lt, lt) }

/-! ### Streams -/

/-- Whether a frame matches a stream context (R213). -/
def inStream (m : Mach) (h : EthHdr) (vid pcp port s : Nat) : Bool :=
  m.bit (Rg.SWC_STR_ADDR_HI s) 31
  && h.dst == m.rd (Rg.SWC_STR_ADDR_LO s) + 2 ^ 32 * m.fld (Rg.SWC_STR_ADDR_HI s) 15 0
  && (let k := m.rd (Rg.SWC_STR_MATCH s)
      (bitsOf k 15 0 == 0xFFFF || bitsOf k 15 0 == vid) && (bitsOf k 23 16 == 0xFF || bitsOf k 23 16 == pcp)
        && (bitsOf k 31 24 == 0xFF || bitsOf k 31 24 == port))

/-- The lowest-numbered stream context that a frame matches (R213). -/
def streamOf (m : Mach) (h : EthHdr) (vid pcp port : Nat) : Option Nat := (List.range 2048).find? (m.inStream h vid pcp port)

/-- Level of a stream's token bucket at `lt`, in kb/s · ns (R213). A bucket starts full as its meter is switched on: the
spec states no level there (DESIGN CHOICE, log entry 72). -/
def bucketAt (m : Mach) (s lt : Nat) : Nat :=
  let cap := m.fld (Rg.SWC_STR_CBS s) 23 0 * 8000000
  let (lev, t0) := kgetD m.swc.bucket s (cap, lt)
  min cap (lev + m.rd (Rg.SWC_STR_CIR s) * (lt - t0))

/-- The token bucket of a stream meters a frame of `len` bytes at `lt` (R213). -/
def meter (m : Mach) (s len lt : Nat) : Mach × Bool :=
  let cir := m.rd (Rg.SWC_STR_CIR s)
  if cir == 0 then (m, true)
  else
    let lev := m.bucketAt s lt
    let need := len * 8000000
    if need ≤ lev then (m.modSwc fun w => { w with bucket := kput w.bucket s (lev - need, lt) }, true)
    else ((m.modSwc fun w => { w with bucket := kput w.bucket s (lev, lt) }).bump (Rg.SWC_STR_DROP_CNT s), false)

/-- The enabled FRER context that names a stream (R214). -/
def frerOf (m : Mach) (s : Nat) : Option Nat :=
  (List.range 256).find? fun f => m.bit (Rg.SWC_FRER_CFG f) 31 && m.fld (Rg.SWC_FRER_CFG f) 26 16 == s

end Mach

/-- The vector recovery algorithm on one sequence number: whether the frame passes (R214). -/
def FrerSt.accept (x : FrerSt) (len seq : Nat) : FrerSt × Bool :=
  if x.takeAny then (⟨false, seq, true :: List.replicate (len - 1) false, 0⟩, true)
  else
    let d := signedOf 16 ((seq + 65536 - x.seq) % 65536)
    if (len : Int) ≤ d || d ≤ -(len : Int) then (x, false)
    else if d ≤ 0 then
      let k := d.natAbs
      if x.hist.getD k false then (x, false) else ({ x with hist := x.hist.set k true, idle := 0 }, true)
    else (⟨false, seq, (true :: (List.replicate (d.toNat - 1) false ++ x.hist)).take len, 0⟩, true)

namespace Mach

/-- Elimination of a frame by its R-TAG (R214). -/
def eliminate (m : Mach) (f : Nat) (b : List Byte) : Mach × Bool :=
  let h := ethHdr b
  let discard (m : Mach) : Mach × Bool := (m.bump (Rg.SWC_FRER_DISCARD_CNT f), false)
  if h.etype != 0xF1C1 then discard m
  else
    let seq := beNat (sliceBytes b (h.off + 2) 2)
    let len := m.fld (Rg.SWC_FRER_CFG f) 5 0
    let (x, ok) := (kgetD m.swc.frer f {}).accept len seq
    let m := m.modSwc fun s => { s with frer := kput s.frer f x }
    if ok then (m.bump (Rg.SWC_FRER_PASS_CNT f), true) else discard m

/-- Every context counts one edge without a passed frame. -/
def frerCount (m : Mach) : Mach :=
  m.modSwc fun s => { s with frer := s.frer.map fun x => (x.1, { x.2 with idle := x.2.idle + 1 }) }

/-- The history of a context is reset once no frame has passed for reset_ticks edges. -/
def frerReset (m : Mach) (f : Nat) : Mach :=
  if m.fld (Rg.SWC_FRER_RESET f) 15 0 ≤ (kgetD m.swc.frer f {}).idle then m.modSwc fun s => { s with frer := kdel s.frer f } else m

/-! ### Ingress -/

/-- A frame stored with references to its egress ports. -/
def store (m : Mach) (f : Frame) (lt : Nat) : Mach × Nat :=
  let i := m.swc.nextId
  let m := m.forAll f.refs fun m p => m.shapersRun p lt
  let m := m.modSwc fun s => { s with
    frames := s.frames ++ [{ f with id := i }], nextId := i + 1 }
  (m.showBuffer, i)

/-- Reception under way on a port noted: stored copies and what to learn. -/
def noteRx (m : Mach) (p : Nat) (ids : List Nat) (learn : Option (Nat × Nat)) : Mach :=
  m.modSwc fun s => { s with rx := ⟨p, ids, learn⟩ :: s.rx.filter (·.port != p) }

/-- A frame for the management reserve: trapped or delivered to the PTP host port (R196, R242). -/
def storeMgmt (m : Mach) (f : Frame) (lt : Nat) : Mach × List Nat :=
  if m.mgmtUsed + f.cells ≤ 512 then
    let (m, i) := m.store { f with mgmt := true } lt
    (m, [i])
  else (m.count f.inp 12, [])

/-- Trailer of a gPTP frame delivered to the PTP host port (table R242). -/
def trailer (ts : Int) (p : Nat) (relayed : Bool) : List Byte :=
  leBytes 8 (unsignedOf 64 ts) ++ [BitVec.ofNat 8 p, BitVec.ofNat 8 (flagNat relayed), 0, 0]

/-- Cells of a frame of `len` bytes with FCS (R193). -/
def cellsOf (len : Nat) : Nat := ceilDiv len 128

/-- A store-and-forward frame stored where all its cells are admitted, else dropped whole (R201, R202). -/
def storeWhole (m : Mach) (f : Frame) (lt : Nat) : Mach × List Nat :=
  let got := m.admitted f.inp f.cls f.yellow f.cells
  let m := m.takeCells f.inp f.cls got
  if got < f.cells then (m.count f.inp (if f.yellow then 13 else 12), [])
  else
    let (m, i) := m.store f lt
    (m, [i])

/-- Slots that relay a one-step Sync frame of a port (R244). -/
def relaySlots (m : Mach) (p : Nat) (b : List Byte) : List Nat :=
  (List.range 2).filter fun k =>
    m.bit (Rg.PTP_DOM_CFG k) 31 && m.fld (Rg.PTP_DOM_CFG k) 4 0 == p && oneStepSync b
      && gptpDomain b == m.fld (Rg.PTP_DOM_CFG k) 23 16

/-- The copies of one relaying slot (R244). -/
def relayCopy (m : Mach) (f : Frame) (k lt : Nat) : Mach × List Nat :=
  let outs := (onesOf 18 (m.fld (Rg.PTP_DOM_PORTS k) 21 0)).filter fun e => e != f.inp && !m.isDown e
  if outs.isEmpty then (m, []) else m.storeWhole { f with refs := outs, relay := some k } lt

/-- A gPTP frame without an egress tag (R241, R242, R244). -/
def gptpIngress (m : Mach) (p : Nat) (b : List Byte) (vid pcp : Nat) (yellow : Bool) (learn : Option (Nat × Nat))
    (tmac : Nat) : Mach :=
  if 18 ≤ p then m.tagDrop.noteRx p [] learn
  else
    let ts := m.rxStamp p tmac
    let f : Frame := {
      id := 0, inp := p, cls := pcp, yellow := yellow, vid := some vid, tsRx := ts, bytes := b, len := b.length + 4,
      cells := cellsOf (b.length + 4) }
    let (m, js) := (m.relaySlots p b).foldl
      (fun (m, js) k => let (m, l) := m.relayCopy f k tmac; (m, js ++ l)) (m, [])
    let bt := b ++ trailer ts p !js.isEmpty
    let (m, is) := m.storeMgmt { f with
      bytes := bt, len := bt.length + 4, cells := cellsOf (bt.length + 4), refs := [m.fld Rg.PTP_CTRL 20 16] } tmac
    m.noteRx p (is ++ js) learn

/-- A frame with an egress tag (R243): checked, its tag removed, stored for the named port. -/
def taggedIngress (m : Mach) (p : Nat) (b : List Byte) (reqId : Option Nat) (tmac : Nat) : Mach :=
  let ctl := beNat (sliceBytes b 14 2)
  let e := bitsOf ctl 4 0
  let cls := bitsOf ctl 10 8
  let bad := ctl &&& 0x38E0 != 0 || bitsOf ctl 13 11 != 0 || bitsOf ctl 7 5 != 0
  if p < 16 || bad || 17 < e || m.isDown e then m.tagDrop.noteRx p [] none
  else
    let inner := b.take 12 ++ b.drop 18
    let inner := inner ++ List.replicate (60 - inner.length) 0
    let tsId := if bitOf ctl 15 then some (beNat (sliceBytes b 16 2)) else reqId
    let (m, is) := m.storeWhole {
        id := 0, inp := p, cls := cls, bytes := inner, len := inner.length + 4, cells := cellsOf (b.length + 4),
        refs := [e], tsRx := m.rxStamp p tmac, insert := bitOf ctl 14, tsId := tsId } tmac
    m.noteRx p is none

/-- Destination ports of step 6 and 7, with the counts of flooded frames and of down ports (R197). -/
def destinations (m : Mach) (p : Nat) (h : EthHdr) (vid : Nat) : Mach × List Nat :=
  let members := m.fld (Rg.SWC_VLAN_MEMBER vid) 21 0
  let multi := bitOf h.dst 0
  let (m, set) := match m.macFind h.dst vid with
    | some e => (m, e.mask)
    | none => (m.count p (if multi then 20 else 19), members)
  let all := onesOf 22 set
  let kept := all.filter fun e => e != p && bitOf members e
  let up := kept.filter fun e => !m.isDown e
  (if up.isEmpty && kept.length == all.length then m.forAll kept (fun m e => m.count e 15) else m, up)

/-- Whether a frame may be sent cut-through (R204): no stream context that it matches, applied or not, carries a meter or a
FRER context. -/
def cutThrough (m : Mach) (p vid cls : Nat) (h : EthHdr) (dst : List Nat) : Bool :=
  match dst with
  | [e] =>
    bitOf (m.fld (Rg.SWC_PORT_CFG p) 19 12) cls && portRate e ≤ portRate p && !(12 ≤ e && e < 16)
      && (List.range 2048).all fun s =>
        !m.inStream h vid cls p s || (m.rd (Rg.SWC_STR_CIR s) == 0 && (m.frerOf s).isNone)
  | _ => false

/-- Steps 5 to 9 of table R194 for an ordinary frame. -/
def forwardIngress (m : Mach) (p : Nat) (b : List Byte) (h : EthHdr) (vid cls : Nat) (yellow : Bool)
    (learn : Option (Nat × Nat)) (reqId : Option Nat) (tmac : Nat) : Mach :=
  let len := b.length + 4
  let stream := m.streamOf h vid cls p
  let (m, ok) := match stream with
    | none => (m, true)
    | some s =>
      let (m, ok) := (m.bump (Rg.SWC_STR_MATCH_CNT s)).meter s len tmac
      if !ok then (m.count p 10, false)
      else match m.frerOf s with
        | none => (m, true)
        | some f =>
          let (m, ok) := m.eliminate f b
          (if ok then m else m.count p 11, ok)
  if !ok then m.noteRx p [] learn
  else
    let (m, dst) := m.destinations p h vid
    if dst.isEmpty then m.noteRx p [] learn
    else
      let ct := m.cutThrough p vid cls h dst
      let len' := min len 2048
      let n := cellsOf len'
      let got := m.admitted p cls yellow n
      let m := m.takeCells p cls got
      if got == 0 || (got < n && !ct) then (m.count p (if yellow then 13 else 12)).noteRx p [] learn
      else
        let cut := got < n
        let m := if cut then m.count p 14 else m
        let (m, i) := m.store {
          id := 0, inp := p, cls := cls, yellow := yellow, vid := some vid
          bytes := if cut then b.take (128 * got) else b.take 2044
          len := if cut then 128 * got else len', cells := got, ct := ct, bad := cut || 2048 < len, refs := dst
          tsRx := m.rxStamp p tmac, tsId := reqId
          cutAt := if cut then some (tmac + 128 * got * 8000000 / portRate p) else none } tmac
        m.noteRx p [i] (if 2048 < len then none else learn)

/-- Steps 2 to 9 of table R194. -/
def classify (m : Mach) (p : Nat) (b : List Byte) (reqId : Option Nat) (tmac : Nat) : Mach :=
  let len := b.length + 4
  let h := ethHdr b
  if h.tci.isNone && h.etype == 0x88B5 then m.taggedIngress p b reqId tmac
  else
    let cfg := m.rd (Rg.SWC_PORT_CFG p)
    let tagVid := match h.tci with | some t => t % 4096 | none => 0
    let vid := if tagVid == 0 then bitsOf cfg 31 20 else tagVid
    let cls := match h.tci with | some t => t / 8192 | none => bitsOf cfg 11 9
    let yellow := match h.tci with | some t => bitOf t 12 | none => false
    let acc := bitsOf cfg 8 7
    let bad := (acc == 1 && tagVid == 0) || (acc == 2 && tagVid != 0)
      || !bitOf (m.fld (Rg.SWC_VLAN_MEMBER vid) 21 0) p
    let learn := if bitOf cfg 1 then some (h.src, vid) else none
    if bad then (m.count p 8).noteRx p [] none
    else if isGptp b then m.gptpIngress p b vid cls yellow learn tmac
    else if reservedDst h.dst then
      let m := m.count p 9
      let (m, is) := m.storeMgmt {
        id := 0, inp := p, cls := cls, yellow := yellow, vid := some vid, bytes := b,
        len := len, cells := cellsOf len, refs := [m.fld Rg.SWC_CTRL 20 16], tsRx := m.rxStamp p tmac,
        tsId := reqId } tmac
      m.noteRx p is learn
    else m.forwardIngress p b h vid cls yellow learn reqId tmac

/-- Step 1 of table R194 for an oversize frame (R193): a frame that the later steps send cut-through is ended at 2,048
bytes; any other is dropped here and takes no later step. -/
def oversize (m : Mach) (p : Nat) (b : List Byte) (reqId : Option Nat) (tmac : Nat) : Mach :=
  let x := m.classify p b reqId tmac
  if x.swc.frames.any fun f => f.ct && m.swc.nextId ≤ f.id then x.count p 7 else (m.count p 7).noteRx p [] none

/-- Reception of a frame on a port (R194); `reqId` is a descriptor's timestamp request (R243). A 10BASE-T1S port is half
duplex and receives nothing while it sends (R220). -/
def ingress (m : Mach) (p : Nat) (b : List Byte) (tmac : Nat) (reqId : Option Nat := none) : Mach :=
  let m := m.advance tmac
  if m.isDown p || !m.portEnabled p || m.unitHeld uSWC || m.bit (Rg.SWC_PORT_STATUS p) 2
      || (portType p == 3 && (m.txOf p).isSome) then m
  else
    let len := b.length + 4
    if len < 64 then m
    else
      let m := (m.count p 0).count p 1 len
      if 2048 < len then m.oversize p b reqId tmac else m.classify p b reqId tmac

/-- Frames that no egress port has begun to send, dropped whole. -/
def dropUnsent (m : Mach) (sel : Frame → Bool) : Mach :=
  m.forAll (m.swc.frames.filter fun f => sel f && !f.refs.any (m.begun f.id)) fun m f =>
    m.forAll f.refs fun m p => m.discardCopy f p

/-- Truncated cut-through frames whose egress port has not begun to send them as the first cell that was not admitted
arrives are dropped whole (R202). -/
def dropCut (m : Mach) (lt : Nat) : Mach := m.dropUnsent fun f => match f.cutAt with | some t => t ≤ lt | none => false

/-- The last byte of a frame arrives (R197, R202, R205). -/
def receiveEnd (m : Mach) (p : Nat) (how : RxEnd) : Mach :=
  match m.swc.rx.find? (·.port == p) with
  | none => m
  | some r =>
    let m := m.modSwc fun s => { s with rx := s.rx.filter (·.port != p) }
    let m := m.dropUnsent fun f => r.ids.contains f.id && f.cutAt.isSome
    let fs := m.swc.frames.filter fun f => r.ids.contains f.id
    if how == .good then
      let m := m.modSwc fun s => { s with
        frames := s.frames.map fun f : Frame => if r.ids.contains f.id then { f with done := true } else f }
      let m := if fs.any (·.bad) then m.count p 5 else m
      match r.learn with
      | some (mac, vid) => (m.requestLearn mac vid p).showBuffer
      | none => m.showBuffer
    else
      let m := if fs.any (·.ct) then m.count p 5 else if fs.isEmpty then m else m.count p 4
      let m := m.forAll (fs.filter (!·.ct)) fun m f => m.forAll f.refs fun m e => m.discardCopy f e
      let m := m.modSwc fun s => { s with
        frames := s.frames.map fun f : Frame =>
          if r.ids.contains f.id && f.ct then { f with bad := true, done := true } else f }
      m.showBuffer

/-! ### Gates -/

/-- Administrative gate list of a port. -/
def adminList (m : Mach) (p : Nat) : List (Nat × Nat) :=
  (List.range (m.fld (Rg.SWC_PORT_GATE p) 7 1)).map fun e =>
    (m.fld (Rg.SWC_GATE_STATES p e) 7 0, m.fld (Rg.SWC_GATE_DUR p e) 23 0)

/-- Cycle length of a list in ticks of the TICK_PERIOD in force (R209): none where the sum is no whole number of them from
1 to 1,023. -/
def cycleTicks (m : Mach) (l : List (Nat × Nat)) : Option Nat :=
  let sum := sumNat (l.map (·.2))
  let per := 1000 * m.fld Rg.TICK_PERIOD 13 0
  if sum % per != 0 || sum == 0 || 1023 < sum / per then none else some (sum / per)

/-- Whether the administrative list of a port is valid (R210). -/
def gateValid (m : Mach) (p : Nat) : Bool :=
  let l := m.adminList p
  m.fld (Rg.SWC_PORT_GATE p) 7 1 ≤ 64 && l.all (fun e => 1000 ≤ e.2 && e.2 ≤ 10000000) && (m.cycleTicks l).isSome

def modGate (m : Mach) (p : Nat) (f : GateSt → GateSt) : Mach :=
  m.modSwc fun s => { s with gates := kmod s.gates p {} f }

/-- Whether a gate list operates on a port (R209): its first cycle has started, and gate_enable is 1. -/
def gating (m : Mach) (p : Nat) : Bool := (m.gateOf p).running && m.bit (Rg.SWC_PORT_GATE p) 0

/-- gate_active and pending follow the port's lists. -/
def showGate (m : Mach) (p : Nat) : Mach :=
  (m.setBit (Rg.SWC_PORT_STATUS p) 3 (m.gating p)).setBit (Rg.SWC_PORT_STATUS p) 4 (m.gateOf p).pend.isSome

/-- Packet engine 1 validates the changed list of a port (R210), whatever gate_enable holds. Registers that name no entry
while gate_enable is 0 hold no list: nothing is judged and none waits (DESIGN CHOICE, log entry 72). -/
def validateGates (m : Mach) (p : Nat) : Mach :=
  let m := m.modGate p fun g => { g with dirty := false }
  if m.fld (Rg.SWC_PORT_GATE p) 7 0 == 0 then (m.modGate p fun g => { g with pend := none }).showGate p
  else if !m.gateValid p then (m.setBit (Rg.SWC_PORT_STATUS p) 5 true).fire Rg.SWC_IRQ_STATUS 0
  else ((m.modGate p fun g => { g with pend := some (m.adminList p) }).setBit (Rg.SWC_PORT_STATUS p) 5 false).showGate p

/-- A cycle start at an edge with count `c`: a waiting list comes into operation with the TICK_PERIOD in force, entry 0
starts (R209, R210). The credits run up to the edge under the gates before it (R212). A waiting list that no longer makes
whole ticks goes on waiting (DESIGN CHOICE, log entry 72). -/
def gateEdge (m : Mach) (p c : Nat) : Mach :=
  let g := m.gateOf p
  let due (n : Nat) : Bool := n != 0 && c % n == 0
  let new := match g.pend with
    | some l => (match m.cycleTicks l with | some n => if due n then some (l, n) else none | none => none)
    | none => none
  if new.isNone && (g.list.isEmpty || !due g.ticks) then m
  else
    let m := m.shapersRun p m.clk.lt
    let m := match new with
      | some (l, n) =>
        let m := m.modGate p fun g => { g with list := l, ticks := n, pend := none }
        (m.setFld (Rg.SWC_PORT_GATE p) 31 22 n).fire Rg.SWC_IRQ_STATUS 5
      | none => m
    (m.modGate p fun g => { g with running := true, cur := 0, start := m.wtNs }).showGate p

/-- The next entry of the operating list starts, once working time has reached it (R209); within the 1 ns resolution of
the clocks. -/
def gateNext (m : Mach) (p : Nat) : Mach :=
  let g := m.gateOf p
  let at' : Int := g.start + sumNat ((g.list.take (g.cur + 1)).map (·.2))
  if g.running && g.cur + 1 < g.list.length && at' ≤ m.wtNs + 1 then
    (m.shapersRun p m.clk.lt).modGate p fun g => { g with cur := g.cur + 1 }
  else m

/-- Lengths of consecutive entries with class `c` open from the head of a list, stopping at the first closed one. -/
def openRun (c : Nat) : List (Nat × Nat) → Nat
  | [] => 0
  | (s, d) :: t => if bitOf s c then d + openRun c t else 0

/-- The longest continuous open interval of a class in a list; none when it never closes. -/
def longestOpen (c : Nat) (l : List (Nat × Nat)) : Option Nat :=
  if l.all fun e => bitOf e.1 c then none
  else some (((List.range l.length).map fun i => openRun c (l.drop i ++ l)).foldl max 0)

/-- Time in ns for which the operating list keeps gate `c` open from now on; none for no limit. -/
def openNow (m : Mach) (p c : Nat) : Option Nat :=
  let g := m.gateOf p
  if !g.running || (longestOpen c g.list).isNone then none
  else
    let pos := (m.wtNs - g.start).toNat
    let ended := sumNat ((g.list.take (g.cur + 1)).map (·.2))
    if bitOf (g.list.getD g.cur (0, 0)).1 c then some (ended - pos + openRun c (g.list.drop (g.cur + 1) ++ g.list))
    else some 0

/-- Time in ns up to the edge at which the waiting list of a port comes into operation. -/
def takeover (m : Mach) (p : Nat) : Option (List (Nat × Nat) × Nat) :=
  match (m.gateOf p).pend with
  | none => none
  | some l =>
    match m.cycleTicks l with
    | none => none
    | some n =>
      let pos := (m.wtNs - (m.rd64 Rg.TICK_EDGE_TIME_LO Rg.TICK_EDGE_TIME_HI : Int)).toNat
      some (l, (n - m.rd64 Rg.TICK_COUNT_LO Rg.TICK_COUNT_HI % n) * 1000 * m.fld Rg.TICK_PERIOD 13 0 - pos)

/-- Time in ns for which gate `c` stays open from now on, into the first cycle of a list that takes over meanwhile
(R211); none for no limit. -/
def openLeft (m : Mach) (p c : Nat) : Option Nat :=
  if !m.bit (Rg.SWC_PORT_GATE p) 0 then none
  else
    let now := m.openNow p c
    match m.takeover p with
    | none => now
    | some (l, t) =>
      match now with
      | some a => if a < t then some a else some (t + openRun c (l ++ l))
      | none => if (longestOpen c l).isNone then none else some (t + openRun c (l ++ l))

/-- Whether `len` bytes fit in `ns` at the port's rate. -/
def fitsIn (p len : Nat) (ns : Option Nat) : Bool :=
  match ns with
  | none => true
  | some t => lineBits len * 1000000 ≤ t * portRate p

/-! ### Egress -/

/-- Head of the VOQ (ingress, egress, class) among complete and cut-through frames. -/
def voqHead (m : Mach) (i p c : Nat) : Option Frame := (m.waiting p c).find? fun f => f.inp == i

/-- A copy that may be selected: complete, or cut-through. -/
def candidate (f : Frame) : Bool := f.done || f.ct

/-- Bytes of a copy on the line under R195; a frame with an egress tag is sent as it is. -/
def lineBytes (m : Mach) (f : Frame) (p : Nat) : List Byte :=
  match f.vid with
  | none => f.bytes
  | some vid =>
    let h := ethHdr f.bytes
    let body := f.bytes.drop (if h.tci.isSome then 16 else 12)
    if bitOf (m.fld (Rg.SWC_VLAN_UNTAG vid) 21 0) p then f.bytes.take 12 ++ body
    else
      let tci := f.cls <<< 13 ||| flagNat f.yellow <<< 12 ||| vid
      f.bytes.take 12 ++ [0x81, 0x00] ++ beBytes 2 tci ++ body

/-- Length that the gates of an egress port count for a frame (R211): as the port sends it. -/
def gateLen (m : Mach) (f : Frame) (p : Nat) : Nat := if f.ct then 2048 else (m.lineBytes f p).length + 4

/-- Head frames too long for any window of their class are dropped (R211); at most `n` of them. -/
def gateDrops (m : Mach) (p : Nat) : Nat → Mach
  | 0 => m
  | n + 1 =>
    let g := m.gateOf p
    if !m.gating p then m
    else
      let hit := (List.range 8).findSome? fun c =>
        (List.range 22).findSome? fun i =>
          match m.voqHead i p c with
          | some f => if candidate f && !fitsIn p (m.gateLen f p) (longestOpen c g.list) then some f else none
          | none => none
      match hit with
      | some f => ((m.count p 18).discardCopy f p).gateDrops p n
      | none => m

/-- Ingress ports in round-robin order after the one last served (R199). -/
def rrOrder (m : Mach) (p c : Nat) : List Nat :=
  let last := kgetD m.swc.rr (pcKey p c) 21
  (List.range 22).map fun k => (last + 1 + k) % 22

/-- The frame that an egress port selects (R199). -/
def selectFrame (m : Mach) (p lt : Nat) : Option Frame :=
  ((List.range 8).map (7 - ·)).findSome? fun c =>
    let shaped := m.fld (Rg.SWC_PORT_SHAPER p c) 23 0 != 0
    if shaped && m.creditAt p c lt < 0 then none
    else
      (m.rrOrder p c).findSome? fun i =>
        match m.voqHead i p c with
        | some f => if candidate f && fitsIn p (m.gateLen f p) (m.openLeft p c) then some f else none
        | none => none

/-- C of R244 in 2^-16 ns, rounded with halves away from zero. -/
def residence (d rr : Int) (delay : Nat) : Int :=
  let x := d * 65536 * (oneNs + rr)
  (if 0 ≤ x then (x + oneNs / 2) / oneNs else -((-x + oneNs / 2) / oneNs)) + delay

/-- Content changes of a copy as it starts (R244, R245): none says that the copy is dropped instead. -/
def startCopy (m : Mach) (f : Frame) (p : Nat) (ts : Int) : Mach × Option (List Byte) :=
  let b := m.lineBytes f p
  let o := (ethHdr b).off
  match f.relay with
  | some k =>
    let d := ts - f.tsRx
    if 1000000 < d then ((m.bump Rg.PTP_RES_DROP_CNT).fire Rg.PTP_IRQ_STATUS 4, none)
    else
      let c := residence d (signedOf 32 (m.rd (Rg.PTP_DOM_RR k))) (m.rd (Rg.PTP_PORT_LINK_DELAY f.inp))
      let old := signedOf 64 (beNat (sliceBytes b (o + 8) 8))
      (m, some (patchBytes b (o + 8) (beBytes 8 (unsignedOf 64 (old + c)))))
  | none =>
    if f.insert then
      let slot := (List.range 2).find? fun k =>
        m.bit (Rg.PTP_DOM_CFG k) 31 && m.fld (Rg.PTP_DOM_CFG k) 23 16 == gptpDomain b
      match slot with
      | some k =>
        if isGptp b && oneStepSync b then
          let v := clockNs (m.domClock k + (ts - (m.clk.lt : Int)) * (oneNs + m.domRate k))
          (m, some (patchBytes b (o + 34) (beBytes 6 (v / 1000000000) ++ beBytes 4 (v % 1000000000))))
        else (m.tagDrop, none)
      | none => (m.tagDrop, none)
    else (m, some b)

/-- Capacity of the token bucket of R230, in kb/s · ns. -/
def paceCap : Nat := 16384 * 8000000

/-- Level of the token bucket of an internal port's direction at `lt` (R230): 1 to the endpoint, 0 from it. -/
def paceAt (m : Mach) (p dir lt : Nat) : Nat :=
  let (lev, t0) := kgetD m.swc.pace (2 * p + dir) (paceCap, lt)
  min paceCap (lev + portRate p * (lt - t0))

def paceSet (m : Mach) (p dir lev lt : Nat) : Mach := m.modSwc fun s => { s with pace := kput s.pace (2 * p + dir) (lev, lt) }

/-- The instant from which the bucket of a direction holds the tokens of `len` bytes. -/
def paceFrom (m : Mach) (p dir len : Nat) : Nat :=
  let (lev, t0) := kgetD m.swc.pace (2 * p + dir) (paceCap, m.clk.lt)
  t0 + ceilDiv (len * 8000000 - lev) (portRate p)

/-- The tokens of `len` bytes taken at `lt`. -/
def paceTake (m : Mach) (p dir len lt : Nat) : Mach := m.paceSet p dir (m.paceAt p dir lt - len * 8000000) lt

/-- Rings of an internal port that take a frame (R229): all enabled RX rings for a group address. -/
def rxRings (m : Mach) (p : Nat) (b : List Byte) : List Nat :=
  let en (r : Nat) : Bool := m.bit (Rg.EPORT_RING_CTRL p r) 1
  let dst := (ethHdr b).dst
  if p == 18 then
    if bitOf dst 0 then (List.range 8).filter en
    else
      match (List.range 8).find? fun r => r != 0 && en r
          && dst == m.rd (Rg.EPORT_RX_MAC_LO p r) + 2 ^ 32 * m.fld (Rg.EPORT_RX_MAC_HI p r) 15 0 with
      | some r => [r]
      | none => [0]
  else [0]

/-- An idle egress port starts its next frame (R199); `allowed` says that the medium lets it start (R224). An internal port
waits for the tokens of the frame (R230). -/
def transmitStart (m : Mach) (p tmac : Nat) (allowed : Bool) : Mach :=
  let m := m.advance tmac
  if m.isDown p || !m.portEnabled p || (m.txOf p).isSome || !allowed || m.unitHeld uSWC then m
  else
    let m := (((m.dropCut tmac).shapersRun p tmac).gateDrops p m.swc.frames.length).showBuffer
    match m.selectFrame p tmac with
    | none => m
    | some f =>
      let len := (m.lineBytes f p).length + 4
      if 18 ≤ p && m.paceAt p 1 tmac < len * 8000000 then m
      else
      let m := if 18 ≤ p then m.paceTake p 1 len tmac else m
      let m := m.modSwc fun s => { s with rr := kput s.rr (pcKey p f.cls) f.inp }
      let ts := m.txStamp p tmac
      match m.startCopy f p ts with
      | (m, none) => (m.discardCopy f p).showBuffer
      | (m, some out) =>
        let m := match f.tsId with
          | some i => m.stampEntry f.inp i p ts false
          | none => m
        m.modSwc fun s => { s with
          tx := ⟨p, f.id, out, f.cls, if 18 ≤ p && p < 21 then m.rxRings p out else [], tmac⟩ :: s.tx }

/-- A copy's last byte has been sent (R203, R205). A frame for rings waits until every ring has taken or dropped it. -/
def transmitEnd (m : Mach) (p lt : Nat) : Mach :=
  let m := m.advance lt
  match m.txOf p with
  | none => m
  | some t =>
    if !t.rings.isEmpty then m
    else match m.frameOf t.id with
      | none => m.dropTx p
      | some f =>
        if !f.done then m
        else
          let m := m.shapersRun p lt
          let m := ((m.count p 2).count p 3 (t.out.length + 4))
          let m := if f.ct then m.count p 21 else m
          let m := if f.bad then m.count p 6 else m
          (((m.lineEnd p t.out f.bad).dropTx p).release f.id p).showBuffer

/-! ### Port down, flush, reset -/

/-- A port goes down (R207): transmission abandoned, reception ended, every VOQ of the port flushed. -/
def goDown (m : Mach) (p : Nat) : Mach :=
  let m := m.setBit (Rg.SWC_PORT_STATUS p) 1 true
  let m := match m.swc.rx.find? (·.port == p) with
    | some _ => m.receiveEnd p .linkLoss
    | none => m
  let copies := m.swc.frames.filter fun f => f.refs.contains p
  let m := (m.forAll copies fun m f => ((m.count p 16).count p 17 f.cells).discardCopy f p).dropTx p
  let m := m.modSwc fun s => { s with purge := p :: s.purge.filter (· != p) }
  (m.setBit (Rg.SWC_PORT_STATUS p) 2 true).showBuffer

/-- The flush of a port is complete; a port that has come up meanwhile is up from here. -/
def flushDone (m : Mach) (p : Nat) : Mach :=
  if m.bit (Rg.SWC_PORT_STATUS p) 2 then
    let m := (m.setBit (Rg.SWC_PORT_STATUS p) 2 false).fire Rg.SWC_IRQ_STATUS 1
    if m.bit (Rg.SWC_PORT_STATUS p) 0 && m.portEnabled p then m.setBit (Rg.SWC_PORT_STATUS p) 1 false else m
  else m

/-- Packet engine 0 removes the dynamic entries that name a down port (R207). -/
def purgeMacs (m : Mach) (p : Nat) : Mach :=
  if m.swc.purge.contains p && !m.engineOff 0 then
    (m.modSwc fun s => { s with purge := s.purge.filter (· != p) }).setMacs
      (m.swc.macs.filter fun e => e.static || !bitOf e.mask p)
  else m

/-- The link of a port as EPORT reports it. A port that comes up without having gone down in the switch goes down first. -/
def linkReport (m : Mach) (p : Nat) (up : Bool) : Mach :=
  let m := if up && !m.bit (Rg.SWC_PORT_STATUS p) 0 && !m.isDown p then m.goDown p else m
  let m := m.setBit (Rg.SWC_PORT_STATUS p) 0 up
  if up && m.portEnabled p && !m.bit (Rg.SWC_PORT_STATUS p) 2 then m.setBit (Rg.SWC_PORT_STATUS p) 1 false else m

/-- SWC unit reset (R208): frames in transmission end with a stomped FCS, everything is cold; the ports' links stay as
EPORT reports them. -/
def resetSwc (m : Mach) : Mach :=
  let m := m.forAll m.swc.frames fun m f => m.forAll f.refs fun m p => m.stampDropped f p
  let m := m.forAll m.swc.tx fun m t => m.stompTx t
  let links := (List.range 22).filter fun p => m.bit (Rg.SWC_PORT_STATUS p) 0
  let m := { m.coldUnit uSWC with swc := { sent := m.swc.sent } }
  m.forAll links fun m p => m.setBit (Rg.SWC_PORT_STATUS p) 0 true

/-- Counters of a port cleared by its element or group reset (R208). -/
def clearCounts (m : Mach) (p : Nat) : Mach := m.coldRange (Rg.SWC_CNT_LO p 0) 0x100

/-! ### Commit checks -/

/-- Credits and token buckets run up to a commit under the values before it (R212, R213); a shaper switched on starts
with credit 0. -/
def meterCommit (m old : Mach) : Mach :=
  let lt := m.clk.lt
  let m := m.forAll (List.range 22) fun m p => m.forAll (List.range 8) fun m c =>
    let a := old.fld (Rg.SWC_PORT_SHAPER p c) 23 0
    let b := m.fld (Rg.SWC_PORT_SHAPER p c) 23 0
    let k := pcKey p c
    if b == 0 then (if a == 0 then m else m.modSwc fun s => { s with credit := kdel s.credit k })
    else m.modSwc fun s => { s with credit := kput s.credit k (if a == 0 then 0 else old.creditAt p c lt, lt) }
  m.forAll (m.swc.bucket.map (·.1)) fun m s =>
    let a := old.rd (Rg.SWC_STR_CIR s)
    let b := m.rd (Rg.SWC_STR_CIR s)
    if a == b && old.rd (Rg.SWC_STR_CBS s) == m.rd (Rg.SWC_STR_CBS s) then m
    else if a == 0 || b == 0 then m.modSwc fun w => { w with bucket := kdel w.bucket s }
    else m.modSwc fun w => { w with
      bucket := kput w.bucket s (min (m.fld (Rg.SWC_STR_CBS s) 23 0 * 8000000) (old.bucketAt s lt), lt) }

/-- Commit of SWC values: guarantees whose sum is above 40,960, and shapers above 75 % of a port's rate, stay at
their values in force (R200, R212). -/
def swcCommit (m old : Mach) : Mach :=
  let mins := (List.range 22).flatMap fun p => (List.range 8).map fun c => Rg.SWC_PORT_MIN p c
  let m := if 40960 < sumNat (mins.map fun a => m.fld a 15 0) then
      (m.forAll mins fun m a => m.wr a (old.rd a)).fire Rg.SWC_IRQ_STATUS 0 else m
  let m := m.forAll (List.range 22) fun m p =>
    let rs := (List.range 8).map fun c => Rg.SWC_PORT_SHAPER p c
    if portRate p * 3 < 4 * sumNat (rs.map fun a => m.fld a 23 0) then
      (m.forAll rs fun m a => m.wr a (old.rd a)).fire Rg.SWC_IRQ_STATUS 0 else m
  let m := m.forAll (List.range 22) fun m p =>
    let changed := old.fld (Rg.SWC_PORT_GATE p) 7 0 != m.fld (Rg.SWC_PORT_GATE p) 7 0
      || (List.range 64).any fun e => old.rd (Rg.SWC_GATE_STATES p e) != m.rd (Rg.SWC_GATE_STATES p e)
        || old.rd (Rg.SWC_GATE_DUR p e) != m.rd (Rg.SWC_GATE_DUR p e)
    if changed then (m.modGate p fun g => { g with dirty := true }).showGate p else m
  let full (m : Mach) : Bool := m.sharedSize ≤ m.sharedUsed
  let m := if full m && !full old then m.fire Rg.SWC_IRQ_STATUS 2 else m
  (m.meterCommit old).showBuffer

/-- Tick work of packet engine 1: changed lists validated, unless the engine does no work (R210, R215). -/
def gateWork (m : Mach) : Mach :=
  if m.engineOff 1 then m
  else m.forAll ((m.swc.gates.filter (·.2.dirty)).map (·.1)) fun m p => m.validateGates p

/-- A read of SWC_CNT_LO holds the high word for the next read of SWC_CNT_HI (R217). -/
def holdCounter (m : Mach) (p k : Nat) : Mach :=
  m.modSwc fun s => { s with held := kput s.held (Rg.SWC_CNT_HI p k) (m.rd (Rg.SWC_CNT_HI p k)) }

end Mach

end Sys2Proof.Machine
end

