-- ==== Sys2Proof/Machine/Eport.lean ====
section
/-! DEFINITION. Ethernet ports (R219 to R235): link states and their transitions, faults, PLCA, USXGMII, cable
diagnostics, and the descriptor rings of the internal ports. -/

namespace Sys2Proof.Machine

namespace Mach

def port (m : Mach) (p : Nat) : PortSt := m.eport.ports.getD p {}

def modPort (m : Mach) (p : Nat) (f : PortSt → PortSt) : Mach :=
  { m with eport := { m.eport with ports := m.eport.ports.modify p f } }

/-- State of a port: 0 DISABLED, 1 HELD, 2 TRAINING, 3 UP, 4 DIAG (table R221). -/
def portState (m : Mach) (p : Nat) : Nat := m.fld (Rg.EPORT_STATUS p) 2 0

/-- Bents under a bent hold (R396): FAILED, REPAIR or RESYNC. -/
def bentHeld (m : Mach) (b : Nat) : Bool := 2 ≤ m.bentState b

/-- The port's reset is asserted (tables R207, R221). -/
def portHeld (m : Mach) (p : Nat) : Bool :=
  if p < 18 then m.elemHeld uEPORT p || m.dieHeld .l
  else m.elemHeld uEPORT p
    || (if p == 18 then m.bit Rg.RSTC_GROUP_RST 27
        else if p == 19 then m.bit Rg.RSTC_GROUP_RST 25 || m.bentHeld 0
        else if p == 20 then m.bit Rg.RSTC_GROUP_RST 26 || m.bentHeld 1
        else m.unitHeld uGWY)

def portRole (m : Mach) (p : Nat) : Nat := m.fld (Rg.EPORT_CFG p) 3 2
def plcaOn (m : Mach) (p : Nat) : Bool := portType p == 3 && m.portRole p == 1
/-- PLCA node number in force. -/
def plcaNode (m : Mach) (p : Nat) : Nat := bitsOf (m.port p).plca 7 0
/-- PLCA status OK: a coordinator always is (R224). -/
def plcaOk (m : Mach) (p : Nat) : Bool := m.plcaOn p && (m.plcaNode p == 0 || !(m.port p).plcaFail)

/-- Rate code of an up port (EPORT_STATUS.rate). -/
def rateCode (m : Mach) (p : Nat) : Nat :=
  let t := portType p
  if t == 0 then 1 else if t == 1 then 4 else if t == 2 then 5 else if t == 3 then 6
  else if t == 4 then
    let f := m.fld (Rg.EPORT_CFG p) 19 16
    if f != 0 then f else if m.portRole p == 1 then (m.port p).usxRate else 1
  else if p == 18 then 1 else 3

/-- Fault code of a port: the lowest condition of table R232 present. -/
def faultCode (m : Mach) (p : Nat) : Nat :=
  let s := m.port p
  let st := m.portState p
  if st == 1 then 0
  else if st == 2 && p < 18 && !s.energy then 1
  else if s.trainTimeout then 2
  else if s.linkLost then 3
  else if s.remoteFault then 4
  else if s.plcaDup then 5
  else if m.plcaOn p && !m.plcaOk p then 6
  else if p < 12 && st == 3 && s.sqi < m.fld (Rg.EPORT_CFG p) 22 20 then 7
  else 0

/-- EPORT_STATUS beside its state follows the port, and in HELD the rest of it is cleared (R234); a change of fault is
reported (R232). -/
def showPort (m : Mach) (p : Nat) : Mach :=
  let s := m.port p
  let a := Rg.EPORT_STATUS p
  let st := m.portState p
  let up := st == 3
  let f := m.faultCode p
  let old := m.fld a 11 8
  let v := (if up then m.rateCode p else 0) <<< 20 ||| (if up && p < 12 then s.sqi else 0) <<< 16 ||| f <<< 8
    ||| flagNat (m.plcaOk p) <<< 5 ||| flagNat (s.energy && p < 18) <<< 4 ||| st
  let m := m.wr a (if st == 1 then 1 else v)
  if f != old then m.fire (Rg.EPORT_IRQ_STATUS p) 1 else m

/-- A port enters a state (R222): the change is reported, the switch learns the link. -/
def enterPort (m : Mach) (p st : Nat) : Mach :=
  let old := m.portState p
  let m := m.setFld (Rg.EPORT_STATUS p) 2 0 st
  let m := if st == 2 then m
    else if st == 4 then m
    else m.modPort p fun s => { s with trainTimeout := false, linkLost := false }
  let m := if st == 3 then m else m.modPort p fun s => { s with sqi := 0 }
  let m := if st == old then m else m.fire (Rg.EPORT_IRQ_STATUS p) 0
  (m.linkReport p (st == 3)).showPort p

/-- Where a port goes when it would enter TRAINING: balls with function NONE leave it DISABLED; a T1S port is up on
entry (tables R221, R223). -/
def toTraining (m : Mach) (p : Nat) : Mach :=
  if p < 18 && m.portFn p == 0 then m.enterPort p 0
  else
    let m := m.enterPort p 2
    if portType p == 3 then m.enterPort p 3 else m

/-- A diagnostic in progress ends with ABORTED (R222, R233). -/
def abortDiag (m : Mach) (p : Nat) : Mach :=
  if m.portState p == 4 then
    (m.wr (Rg.EPORT_DIAG_RESULT p) (5 <<< 13)).fire (Rg.EPORT_IRQ_STATUS p) 2
  else m

/-- Ring enables, HEAD and TAIL of a port cleared (R231, R234). -/
def clearRings (m : Mach) (p : Nat) : Mach :=
  if p < 18 || 21 ≤ p then m
  else
    let m := { m with eport := { m.eport with stopped := m.eport.stopped.filter (·.1 != p) } }
    m.forAll (List.range (if p == 18 then 8 else 1)) fun m r =>
      m.forAll [Rg.EPORT_RING_CTRL p r, Rg.EPORT_TX_HEAD p r, Rg.EPORT_TX_TAIL p r, Rg.EPORT_RX_HEAD p r, Rg.EPORT_RX_TAIL p r]
        (fun m a => m.wr a 0)

/-- The port follows its reset (R222); with the reset of its endpoint an internal port loses its rings (R231). -/
def portReset (m : Mach) (p : Nat) : Mach :=
  if m.portHeld p then (if m.portState p == 1 then m else (m.clearRings p).enterPort p 1)
  else if m.portState p == 1 then (if m.portEnabled p then m.toTraining p else m.enterPort p 0)
  else m

/-- Every port follows its reset. -/
def portResets (m : Mach) : Mach := m.forAll (List.range 22) fun m p => m.portReset p

/-- A commit on the C-die that changes enable (R222); a diagnostic started from DISABLED goes on. -/
def enableCommit (m old : Mach) : Mach :=
  m.forAll (List.range 22) fun m p =>
    let a := old.portEnabled p
    let b := m.portEnabled p
    if a == b || m.portState p == 1 then m
    else if b then (if m.portState p == 0 then m.toTraining p else m)
    else (m.abortDiag p).enterPort p 0

/-- A commit on the die that holds EPORT_CFG and EPORT_PLCA (R222, R225). -/
def roleCommit (m old : Mach) : Mach :=
  m.forAll (List.range 22) fun m p =>
    let key (m : Mach) := (m.portRole p, m.fld (Rg.EPORT_CFG p) 19 16)
    let st := m.portState p
    let changed := key m != key old
    let m := if changed && m.plcaOn p then m.modPort p fun s => { s with
        plca := m.rd (Rg.EPORT_PLCA p), plcaFail := true, opp := 0, burst := 0 } else m
    if changed && (st == 2 || st == 3) then m.toTraining p else m.showPort p

/-- Both directions of ring pair 0 are enabled. -/
def ringsOn (m : Mach) (p : Nat) : Bool := m.fld (Rg.EPORT_RING_CTRL p 0) 1 0 == 3

/-- The condition of table R223 is met. -/
def linkUpNow (m : Mach) (p : Nat) : Mach :=
  let usxOk := portType p != 4 || m.portRole p == 0 || m.fld (Rg.EPORT_CFG p) 19 16 != 0
    || (!(m.port p).usxLinkDown && (m.port p).usxRate != 0)
  let ringOk := !(18 ≤ p && p < 21) || m.ringsOn p
  if m.portState p == 2 && usxOk && ringOk && !((m.port p).usxLinkDown && portType p == 4) then m.enterPort p 3 else m

/-- Link loss of a port in UP (R222); a T1S port has none, an internal port loses its link with ring pair 0. -/
def linkLoss (m : Mach) (p : Nat) : Mach :=
  if m.portState p == 3 && portType p != 3 && p != 21 && !(18 ≤ p && m.ringsOn p) then
    let m := m.modPort p fun s => { s with linkLost := true }
    (m.bump (Rg.EPORT_LINK_DOWN_CNT p)).enterPort p 2
  else m

/-- The training timeout expires: training restarts. -/
def trainTimeout (m : Mach) (p : Nat) : Mach :=
  if m.portState p == 2 && portType p != 3 then
    ((m.modPort p fun s => { s with trainTimeout := true }).bump (Rg.EPORT_TRAIN_FAIL_CNT p)).showPort p
  else m

/-! ### PLCA and USXGMII -/

/-- A BEACON from another node (R224, R225): a coordinator reports a duplicate; a node takes the cycle and its new
parameters. -/
def beacon (m : Mach) (p : Nat) : Mach :=
  if !m.plcaOn p then m
  else if m.plcaNode p == 0 then (m.modPort p fun s => { s with plcaDup := true }).showPort p
  else (m.modPort p fun s => { s with plcaFail := false, opp := 0, burst := 0, plca := m.rd (Rg.EPORT_PLCA p) }).showPort p

/-- The invalid-beacon timer expires. -/
def beaconTimeout (m : Mach) (p : Nat) : Mach :=
  if m.plcaOn p && m.plcaNode p != 0 then (m.modPort p fun s => { s with plcaFail := true }).showPort p else m

/-- The next transmit opportunity (R224). After node_count of them the coordinator sends its BEACON for a new cycle, at which
new parameters take effect (R225). -/
def nextOpportunity (m : Mach) (p : Nat) : Mach :=
  m.modPort p fun s =>
    let n := s.opp + 1
    if m.plcaNode p == 0 && bitsOf s.plca 15 8 ≤ n then
      { s with opp := 0, burst := 0, plca := m.rd (Rg.EPORT_PLCA p), plcaFail := false }
    else { s with opp := n, burst := 0 }

/-- The port is receiving a frame. -/
def receiving (m : Mach) (p : Nat) : Bool := m.swc.rx.any (·.port == p)

/-- An unused opportunity ends. -/
def opportunityEnds (m : Mach) (p : Nat) : Mach :=
  if m.plcaOk p && (m.txOf p).isNone && !m.receiving p then m.nextOpportunity p else m

/-- Whether the medium of a port lets it start a frame: 10BASE-T1S is half duplex (R220), so it is free of a reception, and
under PLCA the port sends in its own opportunity (R224). -/
def mediumFree (m : Mach) (p : Nat) : Bool :=
  !(portType p == 3 && m.receiving p) && (!m.plcaOk p || (m.port p).opp == m.plcaNode p)

/-- The reception of another node's frame has ended: its opportunity is used up, unless `more` frames of its burst follow
(R224). -/
def heardFrame (m : Mach) (p : Nat) (more : Bool) : Mach := if m.plcaOk p && !more then m.nextOpportunity p else m

/-- After a frame under PLCA: further frames up to max_burst, then the next opportunity. -/
def afterFrame (m : Mach) (p : Nat) : Mach :=
  if !m.plcaOk p then m
  else if (m.port p).burst < bitsOf (m.port p).plca 31 24 then m.modPort p fun s => { s with burst := s.burst + 1 }
  else m.nextOpportunity p

/-- 1 s since the last foreign BEACON. -/
def dupEnds (m : Mach) (p : Nat) : Mach := (m.modPort p fun s => { s with plcaDup := false }).showPort p

/-- The partner's USXGMII word (R226); a word that reports link down keeps the port in TRAINING. -/
def usxWord (m : Mach) (p : Nat) (up : Bool) (rate : Nat) (remote : Bool) : Mach :=
  if portType p != 4 then m
  else
    let m := m.modPort p fun s => { s with
      usxLinkDown := !up, remoteFault := remote, usxRate := if m.portRole p == 1 then rate else s.usxRate }
    m.showPort p

/-- Energy from the partner appears or disappears (R232). -/
def setEnergy (m : Mach) (p : Nat) (on : Bool) : Mach := (m.modPort p fun s => { s with energy := on }).showPort p

/-- A new signal quality value of a T1 port in UP (R232). -/
def setSqi (m : Mach) (p q : Nat) : Mach :=
  if p < 12 && m.portState p == 3 then (m.modPort p fun s => { s with sqi := q }).showPort p else m

/-! ### Cable diagnostics -/

/-- A write of EPORT_DIAG_CMD (R233). -/
def diagStart (m : Mach) (p v : Nat) : Mach :=
  if !bitOf v 0 then m
  else
    let vf := bitsOf v 14 8
    let st := m.portState p
    if st == 1 || st == 4 || 12 ≤ p || !(vf == 0 || (50 ≤ vf && vf ≤ 90)) then m.fire (Rg.EPORT_IRQ_STATUS p) 7
    else (m.modPort p fun s => { s with vf := if vf == 0 then 68 else vf }).enterPort p 4

/-- Distance of an echo in 0.1 m (R233). -/
def distDm (vf echo : Nat) : Nat := (vf * echo * 2998 + 100000) / 200000

/-- The result of a diagnostic: code and measured echo. -/
def diagEnd (m : Mach) (p code echo : Nat) : Mach :=
  if m.portState p != 4 then m
  else
    let far := code == 2 || code == 3
    let d := if far then min 511 (distDm (m.port p).vf echo) else 0
    let m := m.wr (Rg.EPORT_DIAG_RESULT p) ((if far then echo else 0) <<< 16 ||| code <<< 13 ||| d)
    let m := m.fire (Rg.EPORT_IRQ_STATUS p) 2
    if m.portEnabled p then m.toTraining p else m.enterPort p 0

/-! ### Rings (R227 to R229) -/

/-- Fabric initiator of a port's ring engine. -/
def ringInit (p : Nat) : Nat := 0x50 + (p - 18)

/-- Owner of a ring (R405): the instance that holds its pair, else unit EPORT. -/
def ringOwner (m : Mach) (p r : Nat) : Nat :=
  match if p == 18 then m.slotOf kRING r else none with
  | some s => ownInst s.inst
  | none => ownUnit uEPORT

/-- Where the rings and buffers of a port may lie (R227). -/
def ringMemOk (m : Mach) (p a n : Nat) : Bool :=
  m.memFits a n && (match m.memIndex a with
    | some k => k == 0 || (k == 4 && p == 18) || (k == 1 && p == 19) || (k == 2 && p == 20)
    | none => false)

/-- A ring's event: the port's status bit, and the event of the slot that holds a ring pair of port 18 (R429). -/
def ringEvent (m : Mach) (p r irq ev : Nat) : Mach :=
  let m := m.fire (Rg.EPORT_IRQ_STATUS p) irq
  if p == 18 then
    match m.slotOf kRING r with
    | some s => m.slotEvent s ev
    | none => m
  else m

/-- The engine serves a ring: one of port 18 in a slot only while its instance is in RUN (R430, R434). -/
def ringServed (m : Mach) (p r : Nat) : Bool := p != 18 || m.served kRING r

/-- A bus error on a ring (R228): the ring's enable clears. -/
def ringError (m : Mach) (p r : Nat) (tx : Bool) (a n : Nat) (k : MemKind) : Mach :=
  ((m.dmaNote (ringInit p) a n k (m.ringOwner p r)).setBit (Rg.EPORT_RING_CTRL p r) (if tx then 0 else 1) false).ringEvent p r 3 3

def ringBase (m : Mach) (p r : Nat) (tx : Bool) : Nat :=
  if tx then m.rd (Rg.EPORT_TX_BASE_LO p r) + 2 ^ 32 * m.fld (Rg.EPORT_TX_BASE_HI p r) 7 0
  else m.rd (Rg.EPORT_RX_BASE_LO p r) + 2 ^ 32 * m.fld (Rg.EPORT_RX_BASE_HI p r) 7 0

def ringHead (p r : Nat) (tx : Bool) : Nat := if tx then Rg.EPORT_TX_HEAD p r else Rg.EPORT_RX_HEAD p r
def ringTail (p r : Nat) (tx : Bool) : Nat := if tx then Rg.EPORT_TX_TAIL p r else Rg.EPORT_RX_TAIL p r
def ringSize (p r : Nat) (tx : Bool) : Nat := if tx then Rg.EPORT_TX_SIZE p r else Rg.EPORT_RX_SIZE p r

/-- HEAD moved to the next descriptor. -/
def ringStep (m : Mach) (p r : Nat) (tx : Bool) : Mach :=
  m.wr (ringHead p r tx) ((m.rd (ringHead p r tx) + 1) % max 1 (m.rd (ringSize p r tx)))

end Mach

namespace Mach

/-- A ring stops at a descriptor with own = 0 until its TAIL is written (R228). -/
def ringStop (m : Mach) (p r : Nat) (tx : Bool) : Mach :=
  { m with eport := { m.eport with stopped := (p, r, tx) :: m.eport.stopped.filter (· != (p, r, tx)) } }

def ringStopped (m : Mach) (p r : Nat) (tx : Bool) : Bool := m.eport.stopped.contains (p, r, tx)

/-- A TAIL written lets a stopped ring go on. -/
def ringGo (m : Mach) (p r : Nat) (tx : Bool) : Mach :=
  { m with eport := { m.eport with stopped := m.eport.stopped.filter (· != (p, r, tx)) } }

/-- A TX ring has work (R228): enabled, between HEAD and TAIL, not stopped, served, and its port up; the spec does not say
that a ring waits for the link (DESIGN CHOICE, log entry 72). -/
def txRuns (m : Mach) (p r : Nat) : Bool :=
  m.bit (Rg.EPORT_RING_CTRL p r) 0 && m.rd (Rg.EPORT_TX_HEAD p r) != m.rd (Rg.EPORT_TX_TAIL p r)
    && !m.ringStopped p r true && m.ringServed p r && m.portState p == 3

end Mach

/-- Descriptors from HEAD towards TAIL of a TX ring, at most `n` (R228): frames enter the switch one by one, as the tokens of
the port allow up to local time `lt` (R230). A bus error discards the frame in flight. -/
def txRing (mem : Mem) (m : Mach) (p r lt : Nat) : Nat → Mem × Mach
  | 0 => (mem, m)
  | n + 1 =>
    if !m.txRuns p r then (mem, m)
    else
      let a := m.ringBase p r true + 16 * m.rd (Rg.EPORT_TX_HEAD p r)
      let i := Mach.ringInit p
      match if m.ringMemOk p a 16 then m.dmaRead mem i a 16 (m.ringOwner p r) else none with
      | none => (mem, m.ringError p r true a 16 .read)
      | some d =>
        let m := m.chargeFab i 16
        let flags := leAt d 11 1
        if !bitOf flags 7 then (mem, m.ringStop p r true)
        else
          let len := leAt d 8 2
          let buf := leAt d 0 8
          let at' := m.paceFrom p 0 (len + 4)
          let finish (m : Mach) (err : Bool) (sent : Mach → Mach) : Mem × Mach :=
            match m.dmaWrite mem i (a + 11) [BitVec.ofNat 8 (flags % 128 / 2 * 2 + flagNat err)] (m.ringOwner p r) with
            | none => (mem, m.ringError p r true (a + 11) 1 .write)
            | some (mem, m) => txRing mem (((sent m).ringStep p r true).ringEvent p r 5 1) p r lt n
          if len < 60 || 2044 < len then finish (m.bump (Rg.EPORT_RING_ERR_CNT p)) true id
          else if lt < at' then (mem, m)
          else match if m.ringMemOk p buf len then m.dmaRead mem i buf len (m.ringOwner p r) else none with
            | none => (mem, m.ringError p r true buf len .read)
            | some bytes =>
              let m := (m.chargeFab i len).paceTake p 0 (len + 4) at'
              let m := if p == 18 then m.charge kRING r (len + 16) else m
              let req := if bitOf flags 1 then some (leAt d 12 2) else none
              finish m false fun m => (m.ingress p bytes at' req).receiveEnd p .good

/-- The TX rings of a port go on as far as its tokens allow up to `lt` (R230). -/
def txRings (mem : Mem) (m : Mach) (p lt : Nat) : Mem × Mach :=
  (List.range (if p == 18 then 8 else 1)).foldl (fun (x : Mem × Mach) r => txRing x.1 x.2 p r lt 4096) (mem, m)

/-- A TX ring gets new work by `f`, a write of its TAIL or its enable: what it held before has gone on up to now, and the
tokens count from now. -/
def txKick (mem : Mem) (m : Mach) (p r : Nat) (f : Mach → Mach) : Mem × Mach :=
  let lt := m.clk.lt
  let (mem, m) := txRings mem m p lt
  txRing mem (f (m.paceSet p 0 (m.paceAt p 0 lt) lt)) p r lt 4096

/-- A received frame written to one RX ring (R228), and whether the ring has taken it or a bus error has discarded it: not
where the ring has no free descriptor. -/
def rxRing (mem : Mem) (m : Mach) (p r : Nat) (bytes : List Byte) : Mem × Mach × Bool :=
  let head := m.rd (Rg.EPORT_RX_HEAD p r)
  if !m.bit (Rg.EPORT_RING_CTRL p r) 1 || head == m.rd (Rg.EPORT_RX_TAIL p r) || m.ringStopped p r false then (mem, m, false)
  else
    let a := m.ringBase p r false + 16 * head
    let i := Mach.ringInit p
    match if m.ringMemOk p a 16 then m.dmaRead mem i a 16 (m.ringOwner p r) else none with
    | none => (mem, m.ringError p r false a 16 .read, true)
    | some d =>
      let m := m.chargeFab i 16
      let flags := leAt d 11 1
      if !bitOf flags 7 then (mem, m.ringStop p r false, false)
      else
        match if m.ringMemOk p (leAt d 0 8) bytes.length then m.dmaWrite mem i (leAt d 0 8) bytes (m.ringOwner p r) else none with
        | none => (mem, m.ringError p r false (leAt d 0 8) bytes.length .write, true)
        | some (mem, m) =>
          let m := if p == 18 then m.charge kRING r (bytes.length + 16) else m
          let fl : Byte := BitVec.ofNat 8 (flags % 128 / 2 * 2)
          match m.dmaWrite mem i (a + 8) (leBytes 2 bytes.length ++ [0, fl]) (m.ringOwner p r) with
          | none => (mem, m.ringError p r false (a + 8) 4 .write, true)
          | some (mem, m) => (mem, (m.ringStep p r false).ringEvent p r 6 0, true)

namespace Mach

/-- No free descriptor for 100 µs: the frame is dropped for that ring (R229). -/
def rxNobuf (m : Mach) (p r : Nat) : Mach :=
  match m.txOf p with
  | none => m
  | some t =>
    if t.rings.contains r then
      let m := m.modSwc fun s => { s with
        tx := s.tx.map fun x : TxCur => if x.port == p then { x with rings := x.rings.filter (· != r) } else x }
      (m.bump (Rg.EPORT_RX_NOBUF_CNT p)).ringEvent p r 4 2
    else m

end Mach

/-- The frame in transmission on an internal port offered to each ring that still waits for it (R229). -/
def rxDeliver (mem : Mem) (m : Mach) (p : Nat) : Mem × Mach :=
  match m.txOf p with
  | none => (mem, m)
  | some t =>
    t.rings.foldl (fun (mem, m) r =>
      if !m.ringServed p r then (mem, m.rxNobuf p r)
      else
        let (mem, m, taken) := rxRing mem m p r t.out
        (mem, m.doIf taken fun m => m.modSwc fun s => { s with
          tx := s.tx.map fun x : TxCur => if x.port == p then { x with rings := x.rings.filter (· != r) } else x }))
      (mem, m)

namespace Mach

/-! ### Resets -/

/-- Element or group reset of a port asserts (R208, R234). -/
def resetPort (m : Mach) (p : Nat) : Mach :=
  let m := m.modPort p fun s => { plca := s.plca, plcaFail := true, energy := s.energy }
  let m := m.forAll [Rg.EPORT_LINK_DOWN_CNT p, Rg.EPORT_TRAIN_FAIL_CNT p, Rg.EPORT_FEC_CORR_CNT p,
    Rg.EPORT_FEC_UNCORR_CNT p, Rg.EPORT_SYMBOL_ERR_CNT p, Rg.EPORT_COLLISION_CNT p, Rg.EPORT_RX_NOBUF_CNT p,
    Rg.EPORT_RING_ERR_CNT p, Rg.EPORT_DIAG_RESULT p] (fun m a => m.wr a 0)
  (((m.clearCounts p).clearRings p).portReset p).showPort p

/-- The EPORT registers of ports 0 to 17 on the L-die at their cold values (R234). -/
def coldEportL (m : Mach) : Mach :=
  m.forAll (List.range 18) fun m p =>
    let m := m.coldRange (0x41200000 + 0x1000 * p) 0x40
    let m := m.setFld (Rg.EPORT_STATUS p) 2 0 1
    let m := m.modPort p fun s => { energy := s.energy }
    m.linkReport p false

/-- EPORT_CFG and EPORT_PLCA written from the PIN records (R219). -/
def loadPorts (m : Mach) : Mach :=
  m.forAll (List.range 18) fun m p =>
    let f := m.portFn p
    let role := if f == 0x41 || (0x50 ≤ f && f < 0x58) || f == 0x59 then 1 else 0
    let m := m.setFld (Rg.EPORT_CFG p) 3 2 role
    if 0x50 ≤ f && f < 0x58 then
      let m := m.setFld (Rg.EPORT_PLCA p) 7 0 (f - 0x50)
      m.modPort p fun s => { s with plca := m.rd (Rg.EPORT_PLCA p), plcaFail := true }
    else m

end Mach

end Sys2Proof.Machine
end

