-- ==== Sys2Proof/Machine/Meas.lean ====
section
/-! DEFINITION. The measurement engine: conversions, calibration, filters, limits and their captures (R178 to
R191). -/

namespace Sys2Proof.Machine

/-- Index of an input's constants among the 64 pairs of R183. -/
def calIdx (i : Nat) : Nat := if i < 48 then i else if i < 80 then 48 + Mach.adcOf i else 56 + Mach.adcOf i

/-- Conversion constants of R184: numerator factor, rounding term and divisor. -/
def convOf (i : Nat) : Int × Int × Int :=
  if i < 48 then (1000 * (senseStep i : Int), 81920000, 163840000)
  else if i < 80 then (3000, 33554432, 67108864)
  else (48000, 33554432, 67108864)

/-- The value of a raw code under an offset and a gain (R184). -/
def convert (i c : Nat) (off : Int) (gain : Nat) : Nat :=
  let x := ((c : Int) - off) * gain
  let (f, r, d) := convOf i
  (max 0 (min 65535 ((x * f + r).tdiv d))).toNat

/-- Raw code of a tick from its samples (R181). -/
def rawCode (os : Nat) (s : List Nat) : Nat :=
  if os == 0 then s.headD 0 else (sumNat s + 2 ^ (os - 1)) / 2 ^ os

/-- Median of the last three samples; with fewer than three, the latest (R186). -/
def median3 : List Nat → Nat
  | a :: b :: c :: _ => max (min a b) (min (max a b) c)
  | a :: _ => a
  | [] => 0

/-- One fresh sample enters a filter (table R186). -/
def MIn.filter (x : MIn) (code param v : Nat) : MIn :=
  let hist := (v :: x.hist).take 16
  let iir : Int := if x.valid then x.iir + (256 * (v : Int) - x.iir) / (2 ^ param : Nat) else 256 * (v : Int)
  let y : Nat :=
    if code == 1 then ((iir + 128) / 256).toNat
    else if code == 2 then
      let w := hist.take (2 ^ param)
      (sumNat w + w.length / 2) / w.length
    else if code == 3 then median3 hist
    else v
  { x with hist, iir, y, valid := true }

/-- One evaluated tick of the limit check (R188). -/
def MIn.judge (x : MIn) (low high deb : Nat) : MIn :=
  let c := if x.y < low && low != 0 then 1 else if high < x.y && high != 0xFFFF then 2 else 0
  if c == x.lim then { x with cnt := 0, cand := c }
  else
    let n := if c == x.cand then x.cnt + 1 else 1
    if max 1 deb ≤ n then { x with lim := c, cand := c, cnt := 0 } else { x with cand := c, cnt := n }

namespace Mach

def measIn (m : Mach) (i : Nat) : MIn := m.meas.inp.getD i {}

def modIn (m : Mach) (i : Nat) (f : MIn → MIn) : Mach :=
  { m with meas := { m.meas with inp := m.meas.inp.modify i f } }

/-- Whether an input takes a sample in this tick (R182). -/
def hasSample (m : Mach) (i : Nat) : Bool :=
  !m.meas.lost.contains i && !m.meas.timedOut.contains (adcOf i) && !m.elemHeld uMEAS i && !m.dieHeld .l

/-- The sample point: all ADCs start with position 0 (R178, R179). -/
def adcStart (m : Mach) : Mach :=
  let m := m.forAll (List.range 48) fun m n => m.modCh n fun c => { c with turned := false }
  { m with meas := { m.meas with
      started := true, held := false, smp := []
      lost := (List.range 96).filter fun i => m.elemHeld uMEAS i || m.dieHeld .l
      cond := (List.range 48).map fun n => (m.ch n).ps.conducts
      caused := (List.range 48).map fun n => m.shownCause n != 0 } }

/-- Conducting flag latched with the first sample of a channel sense (R178, R181): at position 0, and where the switch has
not turned since, the flag of the sample point; else `flags` says on which side of the turn the sample was taken. -/
def condFlag (m : Mach) (flags : BitVec 48) (n : Nat) : Bool :=
  if n % 6 == 0 || !(m.ch n).turned then m.meas.cond.getD n false else flags.getLsbD n

/-- Samples of an input: the P-die drives a channel sense to fault level while its channel shows a cause (R166, R181),
here one shown from the sample point on, or at the sample point for the first sample of position 0. -/
def drivenSamples (m : Mach) (i : Nat) (v : List Nat) : List Nat :=
  if i < 48 && m.meas.caused.getD i false then
    if m.shownCause i != 0 then v.map (max 0xE00)
    else if i % 6 == 0 then (v.take 1).map (max 0xE00) ++ v.drop 1 else v
  else v

/-- All samples held on the C-die (step 4 of table R179); `s` gives each input's samples. -/
def adcHeld (m : Mach) (s : List (List (BitVec 12))) (flags : BitVec 48) : Mach :=
  if !m.meas.started then m
  else
    let os := m.fld Rg.MEAS_CTRL 2 0
    let take := (List.range 96).filter fun i => m.hasSample i && 2 ^ os ≤ (s.getD i []).length
    let smp := take.map fun i =>
      let v := m.drivenSamples i (((s.getD i []).take (2 ^ os)).map (·.toNat))
      (i, rawCode os v, decide (i < 48) && v.any (0xE00 ≤ ·), i < 48 && m.condFlag flags i)
    let m := { m with meas := { m.meas with smp, held := true, started := false } }
    let m := m.forAll smp fun m (i, c, _, k) => m.wr (Rg.MEAS_RAW i) (flagNat k * 2 ^ 12 + c)
    let m := m.setFld Rg.MEAS_STATUS 15 8 (maskOfList m.meas.timedOut)
    if smp.any (·.2.2.1) then m.fire Rg.MEAS_IRQ_STATUS 2 else m

/-- An ADC reports no end of conversion (R182). -/
def adcTimeout (m : Mach) (k : Nat) : Mach :=
  if m.meas.started && !m.meas.timedOut.contains k then
    let m := { m with meas := { m.meas with timedOut := k :: m.meas.timedOut } }
    (m.setBit Rg.MEAS_STATUS (8 + k) true).fire Rg.MEAS_IRQ_STATUS 0
  else m

/-- One input in the filter and limit pass (R186, R188, R189). -/
def measInput (m : Mach) (i : Nat) : Mach :=
  let cfg := m.rd (Rg.MEAS_IN_CFG i)
  let lim := m.rd (Rg.MEAS_IN_LIMIT i)
  match if m.hasSample i then m.meas.smp.find? (·.1 == i) else none with
  | none => m.modIn i fun x => { x with fresh := false, fault := false, cond := false }
  | some (_, c, fault, cond) =>
    let skip := fault || (i < 48 && bitOf cfg 7 && !cond)
    let m := m.modIn i fun x => { x with fresh := !skip, fault := fault, cond := cond }
    if skip then m
    else
      let (off, gain) := m.meas.cal.getD (calIdx i) (0, 16384)
      let m := m.modIn i fun x => x.filter (bitsOf cfg 6 4) (bitsOf cfg 3 0) (convert i c off gain)
      let link := bitsOf cfg 13 8
      let linked := match if m.hasSample (link - 1) then m.meas.smp.find? (·.1 == link - 1) else none with
        | some (_, _, _, k) => k
        | none => false
      if link != 0 && !linked then m
      else
        let old := (m.measIn i).lim
        let m := m.modIn i fun x => x.judge (bitsOf lim 15 0) (bitsOf lim 31 16) (bitsOf cfg 31 16)
        let new := (m.measIn i).lim
        let act := bitsOf cfg 15 14
        if old == new || act == 0 then m
        else
          let m := m.fire (Rg.MEAS_LIM_IRQ_STATUS (i / 32)) (i % 32)
          if act == 2 && new != 0 then m.raise 0x113 i else m

/-- The filter and limit pass completes; after an overrun the tick's work has stopped (R39, R179). -/
def measPass (m : Mach) (ns : Nat) : Mach :=
  if !m.meas.held || m.tick.ovr.contains 1 then m
  else
    let m := m.forAll (List.range 96) (fun m i => m.measInput i)
    let m := { m with meas := { m.meas with held := false, done := true } }
    (m.setBit Rg.MEAS_STATUS 1 false).clientDone 1 ns

/-- Captured value register of an input (R189). -/
def measValue (m : Mach) (i : Nat) : Nat :=
  let x := m.measIn i
  flagNat x.valid <<< 31 ||| flagNat (m.bit Rg.MEAS_STATUS 0) <<< 30 ||| flagNat x.fault <<< 29
    ||| flagNat x.cond <<< 28 ||| x.lim <<< 26 ||| flagNat x.fresh <<< 25 ||| x.y

/-- State maps of the inputs (MEAS_LOW_w, MEAS_HIGH_w). -/
def showMeasMaps (m : Mach) : Mach :=
  m.forAll (List.range 3) fun m w =>
    let bits (k : Nat) := maskOfList ((List.range 32).filter fun j => m.fld (Rg.MEAS_VALUE (32 * w + j)) 27 26 == k)
    (m.wr (Rg.MEAS_LOW w) (bits 1)).wr (Rg.MEAS_HIGH w) (bits 2)

/-- The edge captures the results of the ending tick and the WAKE levels (R27, R185, R189) and makes ready for the
next tick; a new calibration set is loaded and every filter restarts (R190). -/
def measEdge (m : Mach) : Mach :=
  let m := if m.meas.done then
      (m.forAll (List.range 96) fun m i => m.wr (Rg.MEAS_VALUE i) (m.measValue i)).showMeasMaps
    else m
  let m := m.wr Rg.MEAS_WAKE_LEVEL m.meas.wakeAck
  let m := { m with meas := { m.meas with started := false, held := false, done := false, smp := [], timedOut := [], lost := [] } }
  match m.meas.calNew with
  | none => m
  | some cal =>
    let m := { m with meas := { m.meas with
      cal := cal, calNew := none, inp := m.meas.inp.map fun x : MIn => { x with hist := [], iir := 0, valid := false } } }
    (m.setBit Rg.MEAS_STATUS 0 false).fire Rg.MEAS_IRQ_STATUS 1

/-- Effects of configuration that has changed at a commit (R190). -/
def measCfgChanged (m old : Mach) : Mach :=
  m.forAll (List.range 96) fun m i =>
    let x := m.rd (Rg.MEAS_IN_LIMIT i)
    let m := if bitsOf x 31 16 < bitsOf x 15 0 then
        (m.wr (Rg.MEAS_IN_LIMIT i) (old.rd (Rg.MEAS_IN_LIMIT i))).fire Rg.MEAS_IRQ_STATUS 3 else m
    let a := old.rd (Rg.MEAS_IN_CFG i)
    let b := m.rd (Rg.MEAS_IN_CFG i)
    let m := if bitsOf a 6 0 != bitsOf b 6 0 then
        m.modIn i fun x => { x with hist := [], iir := 0, valid := false } else m
    if bitsOf a 31 8 != bitsOf b 31 8 || old.rd (Rg.MEAS_IN_LIMIT i) != m.rd (Rg.MEAS_IN_LIMIT i) then
      m.modIn i fun x => { x with lim := 0, cand := 0, cnt := 0 }
    else m

/-- Element reset of an input, or group reset of its ADC (R190). -/
def resetInput (m : Mach) (i : Nat) : Mach :=
  let m := { m with meas := { m.meas with lost := i :: m.meas.lost } }
  ((m.modIn i fun _ => ({} : MIn)).wr (Rg.MEAS_VALUE i) 0).showMeasMaps

/-- Unit MEAS in reset: registers and engine at their cold values; the constants loaded at start stay. -/
def resetMeas (m : Mach) : Mach :=
  let m := m.coldUnit uMEAS
  { m with meas := { cal := m.meas.cal, wakeNow := m.meas.wakeNow, wakeAck := m.meas.wakeAck, calNew := m.meas.calNew } }

/-- Field values of MEAS_IN_CFG that are refused (table R186, R187): a mask of the fields to leave unchanged. -/
def measCfgBad (i v old : Nat) : Nat :=
  let f := bitsOf v 6 4
  let p := bitsOf v 3 0
  let badF := 3 < f
  let f' := if badF then bitsOf old 6 4 else f
  let okP := if f' == 1 then 1 ≤ p && p ≤ 8 else if f' == 2 then 1 ≤ p && p ≤ 4 else p == 0
  (if badF then maskOf 6 4 else 0) ||| (if okP then 0 else maskOf 3 0)
    ||| (if bitOf v 7 && 48 ≤ i then maskOf 7 7 else 0)
    ||| (if (i < 48 && bitsOf v 13 8 != 0) || 48 < bitsOf v 13 8 then maskOf 13 8 else 0)
    ||| (if bitsOf v 15 14 == 3 then maskOf 15 14 else 0)

end Mach

end Sys2Proof.Machine
end

