-- ==== Sys2Proof/Machine/Gwy.lean ====
section
/-! DEFINITION. The signal gateway (chapter 16): capture, route evaluation, release, the bent snapshot area,
Ethernet PDUs, table commands, restarts and resets. -/

namespace Sys2Proof.Machine

/-- Value of the field at the given bit positions (R322). -/
def getField (bs : List Byte) (be : Bool) (pos : List Nat) : Nat :=
  let bits := pos.map fun k => bitOf (bs.getD (k / 8) 0).toNat (k % 8)
  (if be then bits else bits.reverse).foldl (fun v b => 2 * v + flagNat b) 0

/-- One bit of a byte string set. -/
def putBit (bs : List Byte) (k : Nat) (b : Bool) : List Byte :=
  bs.modify (k / 8) fun x => BitVec.ofNat 8 (withBits x.toNat (k % 8) (k % 8) (flagNat b))

/-- A field of width `w` at the given bit positions set to the low bits of `v`. -/
def putField (bs : List Byte) (be : Bool) (pos : List Nat) (v : Nat) : List Byte :=
  let n := pos.length
  (pos.zipIdx).foldl (fun bs (k, i) => putBit bs k (bitOf v (if be then n - 1 - i else i))) bs

/-- Destination range of a route (R323). -/
def rtRange (r : Rec) : Int × Int :=
  let w := rtDstW r
  if rtFlag r 3 then (-(2 ^ (w - 1) : Nat), (2 ^ (w - 1) : Nat) - 1) else (0, (2 ^ w : Nat) - 1)

/-- Result of a route for a raw source field, and whether it saturated (R323). -/
def rtResult (r : Rec) (raw : Nat) : Int × Bool :=
  let x : Int := if rtFlag r 1 then signedOf (rtSrcW r) raw else raw
  let v := x * rtA r + rtB r
  let s := rtShift r
  let y := if rtFlag r 4 && s != 0 then (v + (2 ^ (s - 1) : Nat)) / ((2 ^ s : Nat) : Int) else v / ((2 ^ s : Nat) : Int)
  let (lo, hi) := rtRange r
  if y < lo then (lo, true) else if hi < y then (hi, true) else (y, false)

namespace Mach

def modGwy (m : Mach) (f : GwySt → GwySt) : Mach := { m with gwy := f m.gwy }
def pduOf (m : Mach) (n : Nat) : Option GPdu := kget m.gwy.pdus n
def modPdu (m : Mach) (n : Nat) (f : GPdu → GPdu) : Mach :=
  m.modGwy fun g => { g with pdus := g.pdus.map fun (k, p) => if k == n then (k, f p) else (k, p) }
def gwyIrq (m : Mach) (i : Nat) : Mach := m.fire Rg.GWY_IRQ_STATUS i

/-- A PDU that starts anew with a record (R337). -/
def newPdu (r : Rec) : GPdu := { rc := r, out := if pduTx r then List.replicate (pduLen r) 0 else [], cap := List.replicate (pduLen r) 0 }

/-! ### Capture (R319, R326) -/

/-- Bytes of a bent output buffer (R330). -/
def boutBytes (m : Mach) (bent d n : Nat) : List Byte :=
  ((List.range (ceilDiv n 4)).map fun w =>
    leBytes 4 (m.rd (if bent == 0 then Rg.GWY_BOUT_A d w else Rg.GWY_BOUT_B d w))).flatten.take n

/-- Content of a receive PDU at an edge, where there is new content; `measNew` says that a filter and limit pass has
completed in the ending tick. -/
def pduNews (m : Mach) (p : GPdu) (measNew : Bool) : Option (List Byte) :=
  let k := pduKind p.rc
  let x := pduIndex p.rc
  if k == 1 then (if m.mbus.fresh.contains x then kget m.mbus.objs x else none)
  else if k == 2 then
    (if (m.lch x).fresh.contains (pduId p.rc) then kget (m.lch x).objs (pduId p.rc) else none)
  else if k == 3 then (if (m.sin x).capFresh then some (leBytes 4 (m.sin x).cap) else none)
  else if k == 4 then (if (m.sin x).slowFresh then some (leBytes 4 (m.rd (Rg.SENT_SLOW x))) else none)
  else if k == 5 then (if p.ethNew then some p.eth else none)
  else if k == 6 then (if measNew then some (leBytes 4 (m.rd (Rg.MEAS_VALUE x))) else none)
  else if k == 7 then
    (if m.gwy.ackNew then some (((m.gwy.ack.getD x []).map (leBytes 2)).flatten) else none)
  else if k == 9 then some (m.boutBytes (m.dutyOwner x) x (pduLen p.rc))
  else none

/-- A receive PDU without a fresh capture for timer_ticks edges becomes timed out (R326). -/
def timeOutPdu (m : Mach) (n : Nat) : Mach :=
  match m.pduOf n with
  | some p =>
    if !pduTx p.rc && !p.timedOut && pduTimer p.rc != 0 && pduTimer p.rc ≤ p.age then
      ((m.modPdu n fun p => { p with timedOut := true }).bump Rg.GWY_TIMEOUT_CNT).gwyIrq 2
    else m
  | none => m

/-- The capture of one receive PDU by buffer exchange. -/
def capturePdu (m : Mach) (n : Nat) (p : GPdu) (measNew : Bool) : Mach :=
  let kept := p.fresh && !m.gwy.worked
  match m.pduNews p measNew with
  | some bs =>
    m.modPdu n fun p => { p with
      cap := sliceBytes bs 0 (pduLen p.rc), fresh := true, timedOut := false, never := false, age := 0, ethNew := false }
  | none =>
    m.modPdu n fun p => { p with fresh := kept, age := min (p.age + 1) 0xFFFF }

/-- Every timeout that is due is carried out. -/
def timeOutPdus (m : Mach) : Mach := m.forAll m.gwy.pdus fun m x => m.timeOutPdu x.1

/-- The gateway's capture at an edge, and the timeouts that are due there (R326). -/
def gwyCapture (m : Mach) (measNew : Bool) : Mach :=
  let m := m.forAll (m.gwy.pdus.filter fun x => !pduTx x.2.rc) fun m x => m.capturePdu x.1 x.2 measNew
  let m := { m with mbus := { m.mbus with fresh := [] } }
  let m := m.forAll (List.range 12) fun m c => m.modLch c fun x => { x with fresh := [] }
  m.timeOutPdus.modGwy fun g => { g with ackNew := false, worked := false, done := false, loadSent := [] }

/-- A commit acknowledgement of the P-die returns the status words of every channel (R319). -/
def gwyAck (m : Mach) : Mach :=
  m.modGwy fun g => { g with
    ack := (List.range 48).map fun n => [m.rd (Rg.LOAD_STATE n), m.rd (Rg.LOAD_APPLIED_DUTY n), m.rd (Rg.LOAD_SENSE n), m.rd (Rg.LOAD_FAULT n)]
    ackNew := true }

/-! ### Routes (R325, R326) -/

/-- A route's result written into its field. -/
def writeRoute (m : Mach) (r : Rec) (v : Int) : Mach :=
  match m.pduOf (rtDst r) with
  | none => m
  | some p =>
    let out := putField p.out (rtFlag r 2) (rtDstBits r) (unsignedOf (rtDstW r) v)
    m.modPdu (rtDst r) fun p => { p with out := out, written := true, pend := p.pend || out != p.out }

/-- R323 for a raw field. -/
def computeRoute (m : Mach) (r : Rec) (raw : Nat) : Mach :=
  let (y, sat) := rtResult r raw
  let m := if sat then (m.bump Rg.GWY_SAT_CNT).gwyIrq 3 else m
  m.writeRoute r y

/-- A due route (R325, R326). -/
def runRoute (m : Mach) (r : Rec) : Mach :=
  match m.pduOf (rtSrc r) with
  | none => m
  | some p =>
    if p.timedOut then
      if rtSubst r == 1 then m.computeRoute r 0
      else if rtSubst r == 2 then
        m.writeRoute r (if rtFlag r 3 then -((2 ^ (rtDstW r - 1) : Nat) : Int) else (2 ^ rtDstW r : Nat) - 1)
      else m
    else if p.fresh && (rtUpd r == 0 || getField p.cap false [rtUpd r - 1] == 1) then
      m.computeRoute r (getField p.cap (rtFlag r 0) (fieldBits (rtFlag r 0) (rtSrcBit r) (rtSrcW r)))
    else m

/-- Routes due in tick `c`, in ascending index order. -/
def dueRoutes (m : Mach) (c : Nat) : List Rec :=
  (m.gwy.routes.map (·.2)).filter fun r => c % max 1 (rtDiv r) == rtOffset r

/-- A lane's registers after its work (R334). -/
def showLane (m : Mach) (k due used : Nat) : Mach :=
  let u := min used (24 * due)
  let m := (m.wr (Rg.GWY_LANE_DUE k) due).wr (Rg.GWY_LANE_USED k) u
  m.wr (Rg.GWY_LANE_PEAK k) (max u (m.rd (Rg.GWY_LANE_PEAK k)))

/-! ### Release (R327 to R329) -/

/-- A transmit PDU is to be released at the edge that ends tick `c`. -/
def relDue (p : GPdu) (c : Nat) : Bool :=
  let md := pduMode p.rc
  let cyc := (md == 0 || md == 2) && c % max 1 (pduCycle p.rc) == pduOffset p.rc
  let chg := (md == 1 || md == 2) && p.pend && (!p.released || pduTimer p.rc ≤ p.age + 1)
  pduTx p.rc && (cyc || chg)

/-- Content as released, with its update bit. -/
def relBytes (p : GPdu) : List Byte :=
  if pduUpd p.rc == 0 then p.out else putBit p.out (pduUpd p.rc - 1) p.written

def relDrop (m : Mach) : Mach := (m.bump Rg.GWY_REL_DROP_CNT).gwyIrq 4

/-- A release has been made. -/
def markReleased (m : Mach) (n : Nat) : Mach :=
  m.modPdu n fun p => { p with pend := false, written := false, released := true, age := 0, seq := (p.seq + 1) % 65536 }

/-- A write of the gateway to a LOAD register of a channel it owns (R329); false: the staging queue is full. -/
def gwyLoadWrite (m : Mach) (a n v : Nat) : Mach × Bool :=
  m.stageWrite (some .p) { addr := a, mask := 0xFFFF, val := v, init := idGATEWAY, members := [n] }

/-- LOAD_CMD PDUs that the end of tick `c` releases are written once the lanes are done (R329). -/
def loadCommands (m : Mach) (c : Nat) : Mach :=
  let ps := m.gwy.pdus.filter fun x => pduKind x.2.rc == 8 && relDue x.2 c
  m.forAll ((List.range 48).flatMap fun ch => ps.filter fun x => pduIndex x.2.rc == ch) fun m (n, p) =>
    let ch := pduIndex p.rc
    let bs := relBytes p
    if m.elemHeld uLOAD ch || m.dieHeld .p || !m.linkUp 1 then (m.relDrop.markReleased n).modGwy fun g => { g with loadSent := n :: g.loadSent }
    else
      let (m, ok) := m.gwyLoadWrite (Rg.LOAD_CTRL ch) ch (leAt bs 0 2)
      let m := if ok then m else m.relDrop
      let (m, ok') := m.gwyLoadWrite (Rg.LOAD_DUTY ch) ch (leAt bs 2 2)
      let m := if ok' then m else m.relDrop
      if ok && ok' then (m.markReleased n).modGwy fun g => { g with loadSent := n :: g.loadSent }
      else m.modPdu n fun p => { p with pend := true }

/-- GATEWAY_LANES_DONE: the due routes of the tick take effect and client 0 is done (R325, R334, R335). -/
def lanesDone (m : Mach) (ns : Nat) (used : List Nat) : Mach :=
  if m.unitHeld uGWY || m.gwy.done || !m.tick.due.contains 0 || m.tick.ovr.contains 0 then m
  else
    let c := m.tickCount
    let due := m.dueRoutes c
    let m := m.forAll due fun m r => m.runRoute r
    let m := m.forAll (List.range 4) fun m k => m.showLane k (due.countP (rtLane · == k)) (used.getD k 0)
    let m := m.modGwy fun g => { g with done := true, worked := true }
    let m := m.setBit Rg.GWY_STATUS 0 false
    (m.loadCommands c).clientDone 0 ns

/-- The frame of an Ethernet PDU (R332), from the destination address to the last pad byte. -/
def ethPduFrame (m : Mach) (p : GPdu) : List Byte :=
  let h := pduIndex p.rc
  let hi := m.rd (Rg.GWY_ETH_DST_HI h)
  let addr (lo hi : Nat) : List Byte := leBytes 4 lo ++ leBytes 2 hi
  let vid := bitsOf hi 27 16
  let tag : List Byte := if vid == 0 then [] else ([0x81, 0] : List Byte) ++ beBytes 2 (bitsOf hi 30 28 <<< 13 ||| vid)
  let bs := addr (m.rd (Rg.GWY_ETH_DST_LO h)) hi ++ addr (m.rd Rg.GWY_ETH_SRC_LO) (m.rd Rg.GWY_ETH_SRC_HI) ++ tag
    ++ beBytes 2 (m.fld Rg.GWY_ETH_TYPE 15 0) ++ beBytes 4 (pduId p.rc) ++ beBytes 2 (pduLen p.rc) ++ beBytes 2 p.seq
    ++ relBytes p
  bs ++ List.replicate (60 - bs.length) 0

/-- One CAN frame of an MBUS PDU (R328). -/
def canPduFrame (p : GPdu) : CanFrame :=
  let r := p.rc
  let f := r.u8 7
  let v := pduId r
  let bs := relBytes p
  let n := pduLen r
  if pduFormat r == 2 then
    { id := bitsOf v 10 0, format := 2, vcid := bitsOf v 18 11, sdt := bitsOf v 26 19, af := pduNo r, data := bs }
  else
    { id := v, ide := bitOf f 6, format := pduFormat r, brs := bitOf f 5, data := bs,
      dlc := if n ≤ 8 then n else 9 + ([12, 16, 20, 24, 32, 48, 64].findIdx (· == n)) }

end Mach

/-- Delivery of a released PDU to its sink (table R328); `lt` is the local time of the edge. -/
def deliverPdu (mem : Mem) (m : Mach) (p : GPdu) (lt : Nat) : Mem × Mach :=
  let k := pduKind p.rc
  let x := pduIndex p.rc
  if k == 1 then
    match m.nmIsolated 1 x with
    | some s => (mem, m.nmIsoDrop s)
    | none => (mem, if m.elemHeld uMBUS x then m.relDrop else m.pushH x { f := Mach.canPduFrame p })
  else if k == 2 then
    match m.nmIsolated 2 x with
    | some s => (mem, m.nmIsoDrop s)
    | none =>
      if m.elemHeld uLIN x then (mem, m.relDrop)
      else
        let bs := Mach.relBytes p
        (mem, ((m.wr (Rg.LIN_FRAME_DATA_LO x (pduId p.rc)) (leAt bs 0 4)).wr (Rg.LIN_FRAME_DATA_HI x (pduId p.rc))
          (leAt bs 4 4)).linRefresh x)
  else if k == 5 then
    if !m.bit (Rg.GWY_ETH_DST_HI x) 31 || m.unitHeld uSWC || m.elemHeld uEPORT 21 then (mem, m.relDrop)
    else (mem, (m.ingress 21 (m.ethPduFrame p) lt).receiveEnd 21 .good)
  else if k == 0xA then
    let bs := Mach.relBytes p
    let mem := memWrite mem (bTCM 0 + 0xF0000 + 8 * x) bs
    (memWrite mem (bTCM 1 + 0xF0000 + 8 * x) bs, m)
  else (mem, m)

/-- Releases at the edge that ends tick `c` (R327, R335): LOAD_CMD PDUs have been written before. -/
def gwyRelease (mem : Mem) (m : Mach) (c lt : Nat) : Mem × Mach :=
  if m.unitHeld uGWY then (mem, m)
  else
    m.gwy.pdus.foldl (fun (mem, m) (n, p) =>
      if !pduTx p.rc then (mem, m)
      else if pduKind p.rc == 8 then
        (mem, if m.gwy.loadSent.contains n then m else m.modPdu n fun p => { p with
          age := min (p.age + 1) 0xFFFF, pend := p.pend || Mach.relDue p c })
      else if Mach.relDue p c then
        let (mem, m) := deliverPdu mem m p lt
        (mem, m.markReleased n)
      else (mem, m.modPdu n fun p => { p with age := min (p.age + 1) 0xFFFF }))
      (mem, m)

/-- The snapshot header that the edge ending tick `c` writes in both bents (R331, R335, R338). -/
def gwyHeader (mem : Mem) (m : Mach) (c : Nat) : Mem :=
  let held := m.unitHeld uGWY
  let ovr := m.tick.ovr.contains 0
  let flags := flagNat (m.gwy.done && !held) + 2 * flagNat ovr + 4 * flagNat held
  let bs := leBytes 8 c ++ leBytes 4 flags ++ leBytes 4 0
  memWrite (memWrite mem (bTCM 0 + 0xF0000) bs) (bTCM 1 + 0xF0000) bs

namespace Mach

/-! ### Ethernet PDUs received (R333) -/

def ethDrop (m : Mach) : Mach := (m.bump Rg.GWY_RX_DROP_CNT).gwyIrq 5

/-- A frame delivered to port 21. -/
def ethPduIn (m : Mach) (b : List Byte) : Mach :=
  let tagged := beNat (sliceBytes b 12 2) == 0x8100
  let o := if tagged then 16 else 12
  let typ := beNat (sliceBytes b o 2)
  let pid := beNat (sliceBytes b (o + 2) 4)
  let len := beNat (sliceBytes b (o + 6) 2)
  let hit := m.gwy.pdus.find? fun x => pduKind x.2.rc == 5 && !pduTx x.2.rc && pduId x.2.rc == pid && pduLen x.2.rc == len
  match hit with
  | some (n, _) =>
    if typ == m.fld Rg.GWY_ETH_TYPE 15 0 then
      m.modPdu n fun p => { p with eth := sliceBytes b (o + 10) len, ethNew := true }
    else m.ethDrop
  | none => m.ethDrop

/-- GWY_ETH_RECEIVE: the frame in transmission on port 21. -/
def ethReceive (m : Mach) : Mach :=
  match m.txOf 21 with
  | some t => if m.unitHeld uGWY then m else m.ethPduIn t.out
  | none => m

/-! ### Table commands (R336, R337) -/

/-- Records of a table in force together with the accepted commands. -/
def tblNext (m : Mach) (table : Nat) : List (Nat × Rec) :=
  let base := if table == 0 then m.gwy.pdus.map fun x => (x.1, x.2.rc) else m.gwy.routes
  m.gwy.staged.foldl (fun l (t, i, r) => if t != table then l else
    match r with
    | some r => kput l i r
    | none => kdel l i) base

/-- The GATEWAY section in force is FIXED. -/
def gwyFixed (m : Mach) : Bool :=
  match m.truss.image with
  | some i => (match i.sect sGATEWAY with | some s => !s.live | none => false)
  | none => false

/-- Code and offset of a WRITE or CLEAR checked on arrival; code 0 accepts. -/
def tblCheck (m : Mach) (table idx : Nat) (r : Option Rec) : Nat × Nat :=
  let img := m.truss.image.getD ⟨[], [], []⟩
  let pdus := m.tblNext 0
  let routes := m.tblNext 1
  let others (l : List (Nat × Rec)) : List Rec := (kdel l idx).map (·.2)
  let broken (ps : List Rec) : Option Nat :=
    (routes.filter fun x => rtSrc x.2 == idx || rtDst x.2 == idx).findSome? fun x =>
      routeFault ps ((kdel routes x.1).map (·.2)) x.2
  if m.gwyFixed then (0x13, 0xFF)
  else if table == 0 && 4096 ≤ idx then (0x17, 4)
  else match r with
    | none => if table == 0 then (match broken (others pdus) with | some o => (0x17, o) | none => (0, 0xFF)) else (0, 0xFF)
    | some r =>
      if table == 0 then
        let ps := others pdus ++ [r]
        match pduFault img (others pdus) r with
        | some o => (0x17, o)
        | none =>
          if pduNo r != idx then (0x17, 4)
          else match broken ps with
          | some o => (0x17, o)
          | none => if pduStore < sumNat (ps.map pduCost) then (0x18, 0xFF) else (0, 0xFF)
      else if rtNo r != idx then (0x17, 4)
      else match routeFault (pdus.map (·.2)) (others routes) r with
        | some o => (0x17, o)
        | none => (0, 0xFF)

/-- Status word of a PDU (GWY_TBL_STAT). -/
def pduStat (m : Mach) (n : Nat) : Nat :=
  match m.pduOf n with
  | none => 0
  | some p => 1 <<< 31 ||| flagNat p.fresh <<< 30 ||| flagNat p.timedOut <<< 29
      ||| flagNat (if pduTx p.rc then !p.released else p.never) <<< 28 ||| flagNat (pduTx p.rc && p.pend) <<< 27 ||| p.age

/-- The record that the data words spell; words 5 and 6 must be 0 for a PDU. -/
def tblRecord (table : Nat) (words : List Nat) : Option Rec :=
  let bs := (words.map (leBytes 4)).flatten
  if table == 0 then
    (if words.getD 5 0 == 0 && words.getD 6 0 == 0 then some ⟨0, 0, 1, [1, 0, 24, 0] ++ bs.take 20⟩ else none)
  else some ⟨0, 0, 2, [2, 0, 32, 0] ++ bs.take 28⟩

/-- A table command starts; one given while another runs has no effect. -/
def tblStart (m : Mach) (op table idx : Nat) (words : List Nat) (inst : Option Nat) : Mach :=
  if m.gwy.cmd.isSome || op == 0 then m
  else
    let begin' (m : Mach) (code off : Nat) : Mach :=
      ((m.modGwy fun g => { g with cmd := some ⟨op, table, idx, code, off, inst⟩ }).setBit Rg.GWY_STATUS 1 true).setBit
        Rg.GWY_TBL_RESULT 31 false
    if op == 1 then (if table == 0 && 4096 ≤ idx then begin' m 0x17 0xFF else begin' m 0 0xFF)
    else
      let r := if op == 2 then tblRecord table words else none
      let (code, off) := if op == 2 && r.isNone then (if m.gwyFixed then (0x13, 0xFF) else (0x17, 24)) else m.tblCheck table idx r
      let m := if code == 0 then m.modGwy fun g => { g with
          staged := (g.staged.filter fun x => !(x.1 == table && x.2.1 == idx)) ++ [(table, idx, r)] } else m
      begin' m code off

/-- A write of GWY_TBL_CMD. -/
def tblCmd (m : Mach) (v : Nat) : Mach :=
  m.tblStart (bitsOf v 31 30) (bitsOf v 29 29) (bitsOf v 12 0) ((List.range 7).map fun w => m.rd (Rg.GWY_TBL_DATA w)) none

/-- GWY_TBL_DONE: the result is shown; a READ has loaded the record. -/
def tblDone (m : Mach) : Mach :=
  match m.gwy.cmd with
  | none => m
  | some c =>
    let m := (m.modGwy fun g => { g with cmd := none }).setBit Rg.GWY_STATUS 1 false
    let m := m.wr Rg.GWY_TBL_RESULT (1 <<< 31 ||| flagNat (c.code != 0) <<< 30 ||| c.code <<< 8 ||| c.off)
    let m := if c.op == 1 && c.code == 0 then
        let rc := if c.table == 0 then (m.pduOf c.idx).map (·.rc) else kget m.gwy.routes c.idx
        let m := match rc with
          | some r => m.forAll (List.range 7) fun m w => m.wr (Rg.GWY_TBL_DATA w) (r.u32 (4 + 4 * w))
          | none => m
        if c.table == 0 then m.wr Rg.GWY_TBL_STAT (m.pduStat c.idx) else m
      else m
    let m := if c.code != 0 then m.gwyIrq 6 else m
    m.gwyIrq 0

/-- A PDU record takes force; one that is unchanged keeps its PDU as it is (R337). -/
def putPdu (m : Mach) (r : Rec) : Mach :=
  match m.pduOf (pduNo r) with
  | some p => if p.rc.bytes == r.bytes then m
    else m.modGwy fun g => { g with pdus := kput g.pdus (pduNo r) (newPdu r) }
  | none => m.modGwy fun g => { g with pdus := kput g.pdus (pduNo r) (newPdu r) }

/-- Accepted table commands come into force at a commit, of several to one index the last (R336). -/
def gwyCommit (m : Mach) : Mach :=
  let l := m.gwy.staged
  let m := m.modGwy fun g => { g with staged := [] }
  m.forAll l fun m (t, i, r) =>
    match t, r with
    | 0, some r => m.putPdu r
    | 0, none => m.modGwy fun g => { g with pdus := kdel g.pdus i }
    | _, some r => m.modGwy fun g => { g with routes := kput g.routes i r }
    | _, none => m.modGwy fun g => { g with routes := kdel g.routes i }

/-- The GATEWAY section of an image takes force: PDUs without a record end, unchanged ones keep their state. -/
def gwyApply (m : Mach) (i : Image) : Mach :=
  let ps := i.recs sGATEWAY 1
  let rs := i.recs sGATEWAY 2
  let m := m.modGwy fun g => { g with
    pdus := g.pdus.filter fun x => ps.any (pduNo · == x.1), routes := rs.foldl (fun l r => kput l (rtNo r) r) [] }
  m.forAll ps fun m r => m.putPdu r

/-- GWY unit reset (R338): its pending LOAD writes are dropped (R101). -/
def resetGwy (m : Mach) : Mach :=
  let mine (e : Stg) : Bool := e.init == idGATEWAY
  let m := m.goneDrop (stgCount (m.stage.p.filter mine))
  { m.coldUnit uGWY with gwy := {}, stage := { m.stage with p := m.stage.p.filter (!mine ·) } }

end Mach

end Sys2Proof.Machine
end

