-- ==== Sys2Proof/Machine/Claims.lean ====
section
/-! DEFINITION. The claims of table R58 with their conflicts (R59, R60), and the interrupt sources that follow them. -/

namespace Sys2Proof.Machine

/-! ### Claims (R58 to R60) -/

/-- Pin functions of claims beside the codes of R496: LIN, SENT and CAN. -/
def fnLIN : Nat := 0x101
def fnSENT : Nat := 0x102
def fnCAN : Nat := 0x103

/-- Function that a PIN record's claim carries (R58). -/
def claimFn (ball fn : Nat) : Nat :=
  if fn == 1 then match ballGroup ball with
    | .lin _ => fnLIN
    | .sent => fnSENT
    | .mb => fnCAN
    | _ => 1
  else if fn == 2 then fnSENT else fn

/-- TIME_OUT pin of a ball. -/
def timeOutBall (ball : Nat) : Option Nat := match ballGroup ball with | .timeOut k => some k | _ => none

/-- Claims of one record, classes 0x01 to 0x04, 0x06 and 0x07. The function of a class 0x07 claim is the world. -/
def recClaims (i : Image) (t : Nat) (r : Rec) : List Claim :=
  let mk (c x o : Nat) (fn : Nat := 0) : Claim := ⟨c, x, o, fn, r.sec, r.idx⟩
  match t, r.kind with
  | 1, _ =>
    let ball := r.u16 4
    let fn := r.u8 6
    (match timeOutBall ball with
      | some k => [mk 6 k (r.u16 8) fn]
      | none => [mk 1 ball (r.u16 8) (claimFn ball fn)])
    ++ (if inSpan fn 0x10 0x17 then [mk 2 (48 + fn - 0x10) (r.u16 8)] else [])
  | 3, 2 =>
    let b := if r.u8 7 == 1 then 0x80 else 0
    (onesOf 12 (r.u32 8)).map fun n => mk 7 (b + n) (ownPart (r.u8 4)) (r.u8 5)
  | 6, 1 => [mk 2 (r.u8 4) (r.u16 8)]
  | 8, 1 =>
    let p := r.u8 4
    if 18 ≤ p then []
    else
      let fn := ((Mach.portBalls p).findSome? fun b => (i.recBy sPINS 1 (·.u16 4) b).map (·.u8 6)).getD
        (if p < 12 then 0x40 else if p < 16 then 0x48 else 0x58)
      (Mach.portBalls p).map fun b => mk 1 b (ownUnit uSWC) fn
  | 9, 3 => [mk 6 (r.u8 4) (r.u16 6) 0x60]
  | 10, 1 => [mk 1 (ballNo (8 + 2 * r.u8 4) 2) (r.u16 6) fnCAN, mk 1 (ballNo (9 + 2 * r.u8 4) 2) (r.u16 6) fnCAN,
      mk 3 (r.u8 4) (r.u16 6)]
  | 11, 1 => [mk 1 (ballNo (8 + r.u8 4) 3) (r.u16 6) fnLIN, mk 3 (12 + r.u8 4) (r.u16 6)]
  | 12, _ =>
    let n := r.u8 4
    if n < 4 then [mk 1 (ballNo (20 + n) 3) (r.u16 6) fnSENT, mk 3 (24 + n) (r.u16 6)]
    else [mk 1 (ballNo (12 + n) 3) (r.u16 6) fnSENT, mk 3 (16 + n) (r.u16 6)]
  | 15, 1 => (List.range (r.u16 10)).map fun k => mk 4 (r.u16 8 + k) (ownInst (r.u8 4))
  | _, _ => []

/-- Every claim of an image, in section table order and then record order. -/
def imageClaims (i : Image) : List Claim := (i.sects.map fun s => (s.recs.map (recClaims i s.typ)).flatten).flatten

/-- Compatible claims of one resource (R59). -/
def Claim.fits (a b : Claim) : Bool :=
  (a.owner == b.owner && ((a.cls != 1 && a.cls != 6) || a.fn == b.fn)) || (a.cls == 7 && a.fn != b.fn)

/-- TRUSS_CONFLICT_A and _B layout. -/
def recRef (sec idx : Nat) : Nat := sec <<< 24 ||| idx <<< 8

/-- A conflict: resource ID and the two records. -/
abbrev Conflict := Nat × Nat × Nat

/-- The first conflict of a claim with an earlier one. -/
def conflictsOf (cs : List Claim) : List Conflict :=
  (cs.foldl (fun (acc : List Claim × List Conflict) b =>
    let out := match acc.1.find? fun a => a.cls == b.cls && a.idx == b.idx && !a.fits b with
      | some a => acc.2 ++ [(b.cls <<< 24 ||| b.idx, recRef a.sec a.recIdx, recRef b.sec b.recIdx)]
      | none => acc.2
    (acc.1 ++ [b], out)) ([], [])).2

/-- The conflict with the lowest resource ID, the earliest of equals. -/
def leastConflict : List Conflict → Option Conflict
  | [] => none
  | x :: t => match leastConflict t with
    | some y => if y.1 < x.1 then some y else some x
    | none => some x

/-- Channels of a link that owners may claim. -/
def linkChans (link : Nat) : List Nat := if link == 0 then (List.range 15).map (· + 1) else (List.range 7).map (· + 17)

/-- Claims of class 0x05 (R58) and, where an owner finds no channel, the conflict of R60. -/
def lathClaims (i : Image) (link : Nat) : List Claim × Option Conflict :=
  (i.recs sMEMORY 2).foldl (fun (acc : List Claim × Option Conflict) r =>
    let own := r.u16 16
    if acc.2.isSome || !overlapsFar link (r.u64 4) (r.u32 12) || own == ownUnit uLATH || acc.1.any (·.owner == own) then acc
    else match (linkChans link)[acc.1.length]? with
      | some ch => (acc.1 ++ [⟨5, ch, own, 0, r.sec, r.idx⟩], none)
      | none =>
        let lastClaim := acc.1.getLast?
        (acc.1, some (5 <<< 24 ||| (linkChans link).getLastD 0,
          (lastClaim.map fun c => recRef c.sec c.recIdx).getD 0, recRef r.sec r.idx))) ([], none)

/-- Span of a QUOTA record: first index and number of indices. -/
def quotaSpan (r : Rec) : Nat × Nat :=
  (r.u16 6, if r.u8 5 == kROUTES || r.u8 5 == kPDUS then r.u32 8 else 1)

/-- Conflicts of class 0x08 (R424). -/
def vdevConflicts (i : Image) : List Conflict :=
  ((i.recs sVDEV 2).foldl (fun (acc : List Rec × List Conflict) b =>
    let (bo, bn) := quotaSpan b
    let hits := acc.1.filter fun a =>
      let (ao, an) := quotaSpan a
      a.u8 5 == b.u8 5 && ao < bo + bn && bo < ao + an
    (acc.1 ++ [b], acc.2 ++ hits.map fun a =>
      (8 <<< 24 ||| b.u8 5 <<< 16 ||| max (quotaSpan a).1 bo, recRef a.sec a.idx, recRef b.sec b.idx))) ([], [])).2

/-- The first overlap of a REGION record with an earlier one of another owner (R60). -/
def regionConflicts (i : Image) : List Conflict :=
  ((i.recs sMEMORY 2).foldl (fun (acc : List Rec × List Conflict) b =>
    let out := match acc.1.find? fun a => a.u16 16 != b.u16 16 && a.u64 4 < b.u64 4 + b.u32 12 && b.u64 4 < a.u64 4 + a.u32 12 with
      | some a => acc.2 ++ [(9 <<< 24 ||| b.idx, recRef a.sec a.idx, recRef b.sec b.idx)]
      | none => acc.2
    (acc.1 ++ [b], out)) ([], [])).2

/-- Check 23. -/
def ownerConflict (i : Image) : Option Conflict :=
  leastConflict (conflictsOf (imageClaims i) ++ ([0, 1].filterMap fun l => (lathClaims i l).2) ++ vdevConflicts i ++ regionConflicts i)

/-- Common owner of the elements of a group, or the unit. -/
def commonOwner (cs : List Claim) (cls unit : Nat) (idx : List Nat) : Nat :=
  let own (n : Nat) : Nat := ((cs.find? fun c => c.cls == cls && c.idx == n).map (·.owner)).getD (ownUnit unit)
  match idx with
  | [] => ownUnit unit
  | x :: t => if t.all fun n => own n == own x then own x else ownUnit unit

/-- The common owner of the application cores, each the owner that R80 shows for it, or unit FAB. -/
def coreOwner (cs : List Claim) : Nat :=
  let own (n : Nat) : Nat :=
    let l := cs.filter fun c => c.cls == 7 && c.idx == n
    (((l.find? (·.fn == 0)).orElse fun _ => l.head?).map (·.owner)).getD (ownUnit uFAB)
  if [1, 2, 3].all fun n => own n == own 0 then own 0 else ownUnit uFAB

/-- The image's claims and those of class 0x05, a load channel that a slot holds at the slot's instance (R424, R433). -/
def baseClaims (i : Image) (slots : List VSlot) : List Claim :=
  (imageClaims i ++ (lathClaims i 0).1 ++ (lathClaims i 1).1).map fun c =>
    match if c.cls == 2 then slots.find? fun s => s.kind == kLOAD && s.idx == c.idx else none with
    | some s => { c with owner := ownInst s.inst }
    | none => c

/-- The claims in force under an image and slots: the base claims, and the interrupt sources that follow the owner of their
element or the common owner of their unit's elements (R58). R13 gives NM and PTP no elements; the model takes a segment,
a TIME_IN ball and a TIME_OUT pin as the elements that raise their sources (DESIGN CHOICE, log entry 72). -/
def installClaims (i : Image) (slots : List VSlot) : List Claim :=
  let cs := baseClaims i slots
  let own (cls n : Nat) : Option Nat := (cs.find? fun c => c.cls == cls && c.idx == n).map (·.owner)
  let src (n : Nat) (o : Option Nat) : List Claim := match o with | some o => [⟨4, n, o, 0, 0, 0⟩] | none => []
  let group (n cls unit : Nat) (idx : List Nat) : List Claim := [⟨4, n, commonOwner cs cls unit idx, 0, 0, 0⟩]
  let span (a n : Nat) : List Nat := (List.range n).map (a + ·)
  cs
  ++ ((span 0 48).map fun n => src (64 + n) (own 2 n)).flatten
  ++ ((span 0 6).map fun k => group (112 + k) 2 uLOAD (span (8 * k) 8)).flatten
  ++ group 118 2 uLOAD (span 0 48) ++ group 119 2 uLOAD (span 0 48)
  ++ ((span 0 96).map fun n => src (320 + n) (own 3 (n / 8))).flatten
  ++ ((span 0 12).map fun n => src (416 + n) ((i.recBy sLIN 1 (·.u8 4) n).map (·.u16 6))).flatten
  ++ ((span 0 8).map fun n => src (428 + n) ((i.recBy sSENT 1 (·.u8 4) n).map (·.u16 6))).flatten
  ++ ((span 0 8).map fun k => src (264 + k) ((i.recBy sPINS 1 (·.u16 4) (ballNo (26 + k) 37)).map (·.u16 8))).flatten
  ++ ((span 0 8).map fun k => src (272 + k) (own 6 k)).flatten
  ++ ((i.recs sNM 1).map fun s => src (448 + s.u8 4) (own 3 (if s.u16 8 / 256 == 2 then 12 + s.u16 8 % 256 else s.u16 8 % 256))).flatten
  ++ [⟨4, 520, coreOwner cs, 0, 0, 0⟩]
  ++ ((i.recs sPARTS 2).map fun p => src (593 + p.u8 4) (some (ownPart (p.u8 4)))).flatten

end Sys2Proof.Machine
end

