-- ==== Sys2Proof/Machine/Vdev.lean ====
section
/-! DEFINITION. Virtual device instances (R422 to R440): states and generations, commands, instance resets, budgets and
re-division, freeze, and the scarf records of SAVE and RESTORE. -/

namespace Sys2Proof.Machine

/-- Resource kinds that an instance type allows (table R422). -/
def kindAllowed (typ kind : Nat) : Bool :=
  if typ == 1 then kind == kRXQ || kind == kTXQ || kind == kBW
  else if typ == 2 then kind == kRING || kind == kBW
  else if typ == 3 then kind == kLOAD
  else if typ == 4 then kind == kROUTES || kind == kPDUS
  else typ == 5 && 1 ≤ kind && kind ≤ 7

/-- The range of amounts of a kind (table R423). -/
def amountOk (kind idx amt : Nat) : Bool :=
  if kind == kRXQ then inSpan amt 1 512
  else if kind == kTXQ then amt ≤ 255
  else if kind == kRING then inSpan amt 1 10000
  else if kind == kLOAD then amt == 0
  else if kind == kROUTES then inSpan amt 1 8192 && idx + amt ≤ 8192
  else if kind == kPDUS then inSpan amt 1 4096 && idx + amt ≤ 4096
  else kind == kBW && inSpan amt 1 (2 ^ 24 - 1)

/-- Usage bit SCARF_SEAL of a key (R445). -/
def uSCARF : Nat := 6

namespace Mach

def modVdev (m : Mach) (f : VdevSt → VdevSt) : Mach := { m with vdev := f m.vdev }
def inst (m : Mach) (i : Nat) : VInst := kgetD m.vdev.insts i {}
def instDefined (m : Mach) (i : Nat) : Bool := m.bit (Rg.VDEV_INST_CFG i) 31
def instType (m : Mach) (i : Nat) : Nat := m.fld (Rg.VDEV_INST_CFG i) 30 28
def setInst (m : Mach) (i st : Nat) : Mach := m.setFld (Rg.VDEV_INST_STATE i) 2 0 st
def instBusy (m : Mach) (i : Nat) : Bool := m.bit (Rg.VDEV_INST_STATE i) 8
def setBusy (m : Mach) (i : Nat) (b : Bool) : Mach := m.setBit (Rg.VDEV_INST_STATE i) 8 b
def instSlots (m : Mach) (i : Nat) : List VSlot := m.vdev.slots.filter (·.inst == i)
def instSlot (m : Mach) (i e : Nat) : Option VSlot := m.vdev.slots.find? fun s => s.inst == i && s.e == e
def definedInsts (m : Mach) : List Nat := (List.range 128).filter m.instDefined

/-- Vectors of an instance. -/
def instVecs (m : Mach) (i : Nat) : List Nat :=
  (List.range (m.fld (Rg.VDEV_INST_CFG i) 22 16)).map (m.fld (Rg.VDEV_INST_CFG i) 9 0 + ·)

/-- VDEV_RES_KIND_e and VDEV_RES_AMOUNT_e follow the slots. -/
def showSlots (m : Mach) (i : Nat) : Mach :=
  m.forAll (List.range 16) fun m e =>
    match m.instSlot i e with
    | some s => (m.wr (Rg.VDEV_RES_KIND i e) (s.kind <<< 24 ||| s.idx)).wr (Rg.VDEV_RES_AMOUNT i e) s.amt
    | none => (m.wr (Rg.VDEV_RES_KIND i e) 0).wr (Rg.VDEV_RES_AMOUNT i e) 0

/-- Result of an instance command: 0 is success. -/
def instResult (m : Mach) (i code detail : Nat) : Mach :=
  m.wr (Rg.VDEV_INST_RESULT i) (1 <<< 31 ||| flagNat (code != 0) <<< 30 ||| code <<< 8 ||| detail)

/-- Completion of an instance command (R429): cmd_done in VDEV_EVT_0, and vector first_vector in RUN. -/
def instDone (m : Mach) (i : Nat) : Mach :=
  let m := m.setBit (Rg.VDEV_EVT i 0) 31 true
  if m.instState i == 1 then m.setVec (m.vecOf i 0) else m

/-- Transmit budgets of an instance: the slots' amounts, or 0 in RESET (R431, R432). -/
def showBudgets (m : Mach) (i : Nat) : Mach :=
  m.forAll (m.instSlots i) fun m s =>
    if s.kind == kTXQ then
      m.wr (Rg.MBUS_TXQ_BUDGET (s.idx / 8) (s.idx % 8)) (if m.instState i == 4 then 0 else s.amt)
    else m

/-- Ring pair of port 18 cleared (R231). -/
def clearRing (m : Mach) (r : Nat) : Mach :=
  m.forAll [Rg.EPORT_RING_CTRL 18 r, Rg.EPORT_TX_HEAD 18 r, Rg.EPORT_TX_TAIL 18 r, Rg.EPORT_RX_HEAD 18 r, Rg.EPORT_RX_TAIL 18 r]
    fun m a => m.wr a 0

/-- Vectors withdrawn or ended, each counted in VDEV_DRAIN_CNT (R430). -/
def drainVecs (m : Mach) (i : Nat) : Mach :=
  let vs := m.instVecs i
  let held := popCount 32 (m.rd (Rg.VDEV_VEC_HELD i))
  let n := m.irq.vec.countP vs.contains + m.irq.active.countP (fun x => vs.contains x.1) + held
  let m := { m with irq := { m.irq with
    vec := m.irq.vec.filter (!vs.contains ·), active := m.irq.active.filter (!vs.contains ·.1) } }
  let m := m.forAll (m.fab.cores.map (·.1)) fun m c => m.modCore c fun k => { k with
    active := k.active.filter (!vs.contains ·), recv := k.recv.filter (!vs.contains ·) }
  (m.bumpBy (Rg.VDEV_DRAIN_CNT i) n).wr (Rg.VDEV_VEC_HELD i) 0

/-- A command that an instance reset finds running is aborted (R426). -/
def abortCmd (m : Mach) (i : Nat) : Mach :=
  if m.bit (Rg.VDEV_INST_RESULT i) 31 then m else (m.instResult i 0xA 0xFF).instDone i

/-- An instance reset (R430). -/
def instReset (m : Mach) (i : Nat) : Mach :=
  if !m.instDefined i then m
  else
    let m := m.wr (Rg.VDEV_INST_STATE i) (nextEpoch (m.instGen i) <<< 16 ||| 4)
    let m := m.drainVecs i
    let m := m.forAll (m.instSlots i) fun m s =>
      if s.kind == kRXQ || s.kind == kTXQ then m.resetQueue s.kind s.idx
      else if s.kind == kRING then m.clearRing s.idx
      else m
    let m := m.modInst i fun x => { x with cmd := none, job := none, ready := none, relWait := true, startRun := false }
    let m := (m.abortCmd i).showBudgets i
    { m with gwy := { m.gwy with cmd := m.gwy.cmd.map fun c => if c.inst == some i then { c with inst := none } else c } }

/-- Instances that a partition hosts. -/
def hostedBy (m : Mach) (p : Nat) : List Nat := m.definedInsts.filter fun i => m.instPart i == some p

/-- Reset of every instance of a partition (R359, R430). -/
def resetHosted (m : Mach) (p : Nat) : Mach := m.forAll (m.hostedBy p) fun m i => m.instReset i

/-! ### Commands -/

/-- Key that VDEV_SCARF_KEY names. -/
def scarfKey (m : Mach) : Option (List Byte) :=
  if m.bit Rg.VDEV_SCARF_KEY 31 then
    match m.keySlot (m.fld Rg.VDEV_SCARF_KEY 5 0) with
    | some s => if bitOf s.usage uSCARF then some s.value else none
    | none => none
  else none

/-- A write of VDEV_SCARF_KEY. -/
def scarfKeyWrite (m : Mach) (v : Nat) : Mach :=
  let ok : Bool := match m.keySlot (v % 64) with | some s => bitOf s.usage uSCARF | none => false
  if bitOf v 31 && !ok then m else m.wr Rg.VDEV_SCARF_KEY (v &&& 0x8000003F)

/-- Memory regions that an instance owns, in ascending base. -/
def instRegions (m : Mach) (i : Nat) : List Region :=
  let l := m.truss.regions.filter (·.owner == ownInst i)
  l.foldl (fun acc r => acc.takeWhile (fun x => x.base ≤ r.base) ++ [r] ++ acc.dropWhile (fun x => x.base ≤ r.base)) []

/-- Length of the scarf record of an instance (R435). -/
def scarfLen (m : Mach) (i : Nat) : Nat := 1120 + sumNat ((m.instRegions i).map fun r => 16 + r.size)

/-- A region that the partition may reach for the given kind: its own, its instances', its duties' or a shared one. -/
def regionReached (m : Mach) (p : Nat) (r : Region) : Bool :=
  (r.shared || m.partReaches p r.owner) && (!r.heartOnly || m.partHeart p)

/-- `[a, a + n)` lies in one region. -/
def inRegion (r : Region) (a n : Nat) : Bool := r.base ≤ a && a + n ≤ r.base + r.size

def instAddr (m : Mach) (i : Nat) : Nat := m.rd (Rg.VDEV_INST_ADDR_LO i) + 2 ^ 32 * m.fld (Rg.VDEV_INST_ADDR_HI i) 7 0

/-- The refusal code of a SAVE (R437); 0 accepts. -/
def saveCode (m : Mach) (i : Nat) : Nat :=
  if m.scarfKey.isNone then 4
  else if m.truss.regions.any fun r => inRegion r (m.instAddr i) (m.scarfLen i) && r.write && r.owner != ownInst i
      && (r.shared || (m.instPart i).any fun p => r.owner == ownPart p) then 0
  else 3

/-- A route of the instance, and its dst_pdu, lie in its ranges (R425). -/
def gwyInRange (m : Mach) (i op table idx : Nat) (words : List Nat) : Bool :=
  let within (kind n : Nat) : Bool := (m.instSlots i).any fun s => s.kind == kind && s.idx ≤ n && n < s.idx + s.amt
  table == 1 && within kROUTES idx
    && (if op == 7 then match tblRecord 1 words with | some r => within kPDUS (rtDst r) | none => true
        else match kget m.gwy.routes idx with | some r => within kPDUS (rtDst r) | none => true)

/-- A GWY_WRITE or GWY_CLEAR of an instance (R425): refused with RANGE, with BUSY while GWY_TBL_CMD runs, or forwarded. -/
def instGwy (m : Mach) (i v : Nat) : Mach :=
  let op := bitsOf v 3 0
  let table := bitsOf v 29 29
  let idx := bitsOf v 28 16
  let words := (List.range 7).map fun w => m.rd (Rg.VDEV_GWY_DATA i w)
  if !m.gwyInRange i op table idx words then m.instResult i 0xB 0xFF
  else if m.gwy.cmd.isSome then m.instResult i 1 0xFF
  else ((m.setBusy i true).setBit (Rg.VDEV_INST_RESULT i) 31 false).tblStart (op - 5) table idx words (some i)

/-- The forwarded command is done: any code of R336 is returned in the detail byte (R425). -/
def instGwyDone (m : Mach) (i code : Nat) : Mach :=
  ((m.setBusy i false).instResult i (if code == 0 then 0 else 0xC) (if code == 0 then 0xFF else code)).instDone i

/-- GWY_TBL_DONE: the result is shown (R336), and returned to the instance that the command came from (R425). -/
def tblEnd (m : Mach) : Mach :=
  match m.gwy.cmd with
  | none => m
  | some c =>
    match c.inst with
    | some i => m.tblDone.instGwyDone i c.code
    | none => m.tblDone

/-- A command that waits for the next edge starts. -/
def instWaits (m : Mach) (i op : Nat) : Mach :=
  ((m.modInst i fun x => { x with cmd := some op }).setBusy i true).setBit (Rg.VDEV_INST_RESULT i) 31 false

/-- A SAVE or RESTORE starts. -/
def instJob (m : Mach) (i op : Nat) : Mach :=
  ((m.modInst i fun x => { x with job := some (op, m.instAddr i) }).setBusy i true).setBit (Rg.VDEV_INST_RESULT i) 31 false

/-- RESET of an instance (R426, R430): it aborts a SAVE or RESTORE with ABORTED and turns away what waits for the edge. -/
def instResetCmd (m : Mach) (i : Nat) : Mach :=
  let x := m.inst i
  let code := if x.job.isSome || x.ready.isSome then 0xA else 0
  let m := (m.instReset i).modInst i fun x => { x with resetNow := true }
  (m.instResult i code 0xFF).instDone i

/-- A write of VDEV_INST_CMD (R426). -/
def instCmd (m : Mach) (i v : Nat) : Mach :=
  let op := bitsOf v 3 0
  let st := m.instState i
  let x := m.inst i
  let refuse (m : Mach) (c : Nat) : Mach := m.instResult i c 0xFF
  if !m.instDefined i then m
  else if op == 3 then
    (if st != 4 || x.job.isSome || x.ready.isSome then m.instResetCmd i else refuse m 2)
  else
    let allowed : Bool :=
      if st == 1 then op == 1 || op == 7 || op == 8
      else if st == 3 then op == 2 || op == 5
      else if st == 4 then op == 4 || op == 6 || op == 7 || op == 8
      else false
    if !allowed || x.resetNow || x.ready.isSome then refuse m 2
    else if m.instBusy i then refuse m 1
    else if op == 1 || op == 2 || op == 4 then m.instWaits i op
    else if op == 5 then (let c := m.saveCode i; if c != 0 then refuse m c else m.instJob i 5)
    else if op == 6 then m.instJob i 6
    else m.instGwy i v

/-- A write of VDEV_INST_CMD and memory: a SAVE writes the magic last (R437), so a record that an abort or a reset cuts off
holds none; what else of it has been written by then is not modelled (DESIGN CHOICE, log entry 72). -/
def instCmdMem (mem : Mem) (m : Mach) (i v : Nat) : Mem × Mach :=
  let m' := m.instCmd i v
  match (m.inst i).job, (m'.inst i).job with
  | none, some (5, a) => (m.memStore mem a (List.replicate 4 0), m')
  | _, _ => (mem, m')

/-- A freezing instance is quiet (R434): its pending vectors are withdrawn into VDEV_VEC_HELD. -/
def instFrozen (m : Mach) (i : Nat) : Mach :=
  if m.instState i != 2 then m
  else
    let first := m.fld (Rg.VDEV_INST_CFG i) 9 0
    let held := maskOfList (((m.instVecs i).filter m.irq.vec.contains).map (· - first))
    let m := { m with irq := { m.irq with vec := m.irq.vec.filter (!(m.instVecs i).contains ·) } }
    let m := (m.wr (Rg.VDEV_VEC_HELD i) held).setInst i 3
    ((m.setBusy i false).instResult i 0 0xFF).instDone i

/-! ### Scarf records -/

def qBytes (m : Mach) (lo hi : Nat) : List Byte := leBytes 8 (m.rd lo + 2 ^ 32 * m.fld hi 7 0)

/-- State area of a slot (table R436). -/
def slotArea (m : Mach) (s : VSlot) : List Byte :=
  let c := s.idx / 8
  let q := s.idx % 8
  let r := s.idx
  if s.kind == kRXQ then
    m.qBytes (Rg.MBUS_RXQ_BASE_LO c q) (Rg.MBUS_RXQ_BASE_HI c q) ++ leBytes 2 (m.rxqSize c q)
      ++ leBytes 2 (m.rxqWr c q) ++ leBytes 2 (m.rxqHeld c q) ++ [BitVec.ofNat 8 (m.fld (Rg.MBUS_RXQ_CTRL c q) 1 0)]
  else if s.kind == kTXQ then
    m.qBytes (Rg.MBUS_TXQ_BASE_LO c q) (Rg.MBUS_TXQ_BASE_HI c q) ++ leBytes 2 (m.rd (Rg.MBUS_TXQ_SIZE c q))
      ++ leBytes 2 (m.txqHead c q) ++ leBytes 2 (m.txqTail c q) ++ [BitVec.ofNat 8 (m.fld (Rg.MBUS_TXQ_CTRL c q) 0 0)]
  else if s.kind == kRING then
    m.qBytes (Rg.EPORT_TX_BASE_LO 18 r) (Rg.EPORT_TX_BASE_HI 18 r) ++ m.qBytes (Rg.EPORT_RX_BASE_LO 18 r) (Rg.EPORT_RX_BASE_HI 18 r)
      ++ ([Rg.EPORT_TX_SIZE 18 r, Rg.EPORT_TX_HEAD 18 r, Rg.EPORT_TX_TAIL 18 r, Rg.EPORT_RX_SIZE 18 r, Rg.EPORT_RX_HEAD 18 r,
           Rg.EPORT_RX_TAIL 18 r].map fun a => leBytes 2 (m.rd a)).flatten
      ++ [BitVec.ofNat 8 (m.rd (Rg.EPORT_RING_CTRL 18 r)), 0] ++ leBytes 4 (m.rd (Rg.EPORT_RX_MAC_LO 18 r))
      ++ leBytes 2 (m.rd (Rg.EPORT_RX_MAC_HI 18 r))
  else if s.kind == kLOAD then
    ([Rg.LOAD_CTRL r, Rg.LOAD_DUTY r, Rg.LOAD_PERIOD r, Rg.LOAD_PHASE r].map fun a => leBytes 2 (m.rd a)).flatten
  else []

/-- The 64 bytes of slot `e` of an instance (R436). -/
def slotRecord (m : Mach) (i e : Nat) : List Byte :=
  match m.instSlot i e with
  | none => List.replicate 64 0
  | some s => sliceBytes ([BitVec.ofNat 8 s.kind, 0] ++ leBytes 2 s.idx ++ leBytes 4 s.amt ++ leBytes 4 (m.rd (Rg.VDEV_EVT i e))
      ++ leBytes 4 0 ++ m.slotArea s) 0 64

/-- u16 attr of the MEMORY REGION record of a region. -/
def regionAttr (m : Mach) (r : Region) : Nat :=
  match m.truss.image with
  | some i => ((i.recBy sMEMORY 2 (·.u64 4) r.base).map (·.u16 18)).getD 0
  | none => 0

/-- A scarf record without its tag (R435). -/
def scarfBody (mem : Mem) (m : Mach) (i : Nat) : List Byte :=
  let rs := m.instRegions i
  leBytes 4 0x53434631 ++ leBytes 2 1 ++ [BitVec.ofNat 8 (m.instType i), BitVec.ofNat 8 rs.length]
    ++ leBytes 4 (m.scarfLen i) ++ [BitVec.ofNat 8 i, BitVec.ofNat 8 (m.fld (Rg.VDEV_INST_CFG i) 22 16)]
    ++ leBytes 2 (m.instGen i) ++ uidBytes ++ leBytes 8 m.tickCount ++ leBytes 4 (m.rd (Rg.VDEV_VEC_HELD i))
    ++ List.replicate 20 0 ++ ((List.range 16).map (m.slotRecord i)).flatten
    ++ (rs.map fun r => leBytes 8 r.base ++ leBytes 4 r.size ++ leBytes 2 (m.regionAttr r) ++ [0, 0] ++ memRead mem r.base r.size).flatten

/-- The record of a SAVE is complete (R437). -/
def saveDone (mem : Mem) (m : Mach) (i : Nat) : Mem × Mach :=
  match (m.inst i).job with
  | some (5, a) =>
    match m.scarfKey with
    | none => (mem, (((m.modInst i fun x => { x with job := none }).setBusy i false).instResult i 4 0xFF).instDone i)
    | some k =>
      let body := scarfBody mem m i
      let mem := m.memStore mem a (body ++ kmac k "MZ4820-SCARF" body 32)
      let m := (m.unpoison a (body.length + 32)).modInst i fun x => { x with job := none }
      (mem, ((m.setBusy i false).instResult i 0 0xFF).instDone i)
  | _ => (mem, m)

/-- Offsets of the regions of a record: base, size and offset of the content. -/
def recRegions (b : List Byte) : Nat → Nat → List (Nat × Nat × Nat)
  | 0, _ => []
  | n + 1, o => (leAt b o 8, leAt b (o + 8) 4, o + 16) :: recRegions b n (o + 16 + leAt b (o + 8) 4)

/-- The checks of a RESTORE in their order (R438): code and detail; 0 accepts. -/
def restoreCode (mem : Mem) (m : Mach) (i a : Nat) : Nat × Nat :=
  let len := leNat (memRead mem (a + 8) 4)
  let p := (m.instPart i).getD 0
  let may (r : Region) : Bool := m.partHeart p || (r.read && m.regionReached p r)
  if !(m.truss.regions.any fun r => inRegion r a 12 && inRegion r a len && may r) then (3, 0xFF)
  else
    let b := memRead mem a len
    if leAt b 0 4 != 0x53434631 || leAt b 4 2 != 1 then (5, 0xFF)
    else match m.scarfKey with
      | none => (4, 0xFF)
      | some k =>
        let body := b.take (len - 32)
        if len < 1120 || kmac k "MZ4820-SCARF" body 32 != b.drop (len - 32) then (6, 0xFF)
        else if leAt b 6 1 != m.instType i then (7, 0xFF)
        else
          let slotOk (e : Nat) : Bool :=
            let o := 64 + 64 * e
            match m.instSlot i e with
            | some s => leAt b o 1 == s.kind && leAt b (o + 4) 4 == s.amt
            | none => leAt b o 1 == 0
          match (List.range 16).find? fun e => !slotOk e with
          | some e => (8, e)
          | none =>
            let mine := m.instRegions i
            let got := recRegions b (leAt b 7 1) 1088
            if got.length != mine.length then (9, min got.length mine.length)
            else match (List.range mine.length).find? fun k => (mine[k]?.map (·.size)) != (got[k]?.map (·.2.1)) with
              | some k => (9, k)
              | none => (0, 0xFF)

/-- The end of a RESTORE whose checks answered a code and a detail (R438): region contents are in place, the rest waits
for the commit. -/
def restoreEnds (mem : Mem) (m : Mach) (i a code detail : Nat) : Mem × Mach :=
  let m := (m.modInst i fun x => { x with job := none }).setBusy i false
  if code != 0 then (mem, (m.instResult i code detail).instDone i)
  else
    let b := memRead mem a (leNat (memRead mem (a + 8) 4))
    let pairs := (m.instRegions i).zip (recRegions b (leAt b 7 1) 1088)
    let mem := pairs.foldl (fun mem x => m.memStore mem x.1.base (sliceBytes b x.2.2.2 x.2.2.1)) mem
    let m := m.forAll pairs fun m x => m.unpoison x.1.base x.1.size
    (mem, ((m.modInst i fun x => { x with ready := some b }).instResult i 0 0xFF).instDone i)

/-- The checks and the copy of a RESTORE are over (R438). -/
def restoreDone (mem : Mem) (m : Mach) (i : Nat) : Mem × Mach :=
  match (m.inst i).job with
  | some (6, a) => restoreEnds mem m i a (restoreCode mem m i a).1 (restoreCode mem m i a).2
  | _ => (mem, m)

/-- A base of the record moved with its region (R438). -/
def moveBase (m : Mach) (i : Nat) (b : List Byte) (x : Nat) : Nat :=
  let pairs := (m.instRegions i).zip (recRegions b (leAt b 7 1) 1088)
  match pairs.find? fun p => inRange x p.2.1 p.2.2.1 with
  | some p => x - p.2.1 + p.1.base
  | none => x

/-- State area of a record written to a slot (R436, R438). -/
def slotApply (m : Mach) (i : Nat) (b : List Byte) (s : VSlot) : Mach :=
  let o := 64 + 64 * s.e + 16
  let c := s.idx / 8
  let q := s.idx % 8
  let r := s.idx
  let base (m : Mach) (lo hi off : Nat) : Mach := m.wr64 lo hi (m.moveBase i b (leAt b off 8) % 2 ^ 40)
  if s.kind == kRXQ then
    let m := base m (Rg.MBUS_RXQ_BASE_LO c q) (Rg.MBUS_RXQ_BASE_HI c q) o
    let m := (m.wr (Rg.MBUS_RXQ_SIZE c q) (leAt b (o + 8) 2 % 1024)).wr (Rg.MBUS_RXQ_STATUS c q)
      ((leAt b (o + 12) 2 % 1024) <<< 16 ||| leAt b (o + 10) 2 % 1024)
    m.setFld (Rg.MBUS_RXQ_CTRL c q) 1 0 (leAt b (o + 14) 1)
  else if s.kind == kTXQ then
    let m := base m (Rg.MBUS_TXQ_BASE_LO c q) (Rg.MBUS_TXQ_BASE_HI c q) o
    let m := m.wr (Rg.MBUS_TXQ_SIZE c q) (leAt b (o + 8) 2 % 1024)
    let m := (m.wr (Rg.MBUS_TXQ_HEAD c q) (leAt b (o + 10) 2 % 256)).wr (Rg.MBUS_TXQ_TAIL c q) (leAt b (o + 12) 2 % 256)
    m.setFld (Rg.MBUS_TXQ_CTRL c q) 0 0 (leAt b (o + 14) 1)
  else if s.kind == kRING then
    let m := base m (Rg.EPORT_TX_BASE_LO 18 r) (Rg.EPORT_TX_BASE_HI 18 r) o
    let m := base m (Rg.EPORT_RX_BASE_LO 18 r) (Rg.EPORT_RX_BASE_HI 18 r) (o + 8)
    let regs := [Rg.EPORT_TX_SIZE 18 r, Rg.EPORT_TX_HEAD 18 r, Rg.EPORT_TX_TAIL 18 r, Rg.EPORT_RX_SIZE 18 r, Rg.EPORT_RX_HEAD 18 r,
      Rg.EPORT_RX_TAIL 18 r]
    let m := m.forAll (List.range 6) fun m k => m.wr (regs.getD k 0) (leAt b (o + 16 + 2 * k) 2 % 8192)
    let m := m.wr (Rg.EPORT_RING_CTRL 18 r) (leAt b (o + 28) 1 % 4)
    (m.wr (Rg.EPORT_RX_MAC_LO 18 r) (leAt b (o + 30) 4)).wr (Rg.EPORT_RX_MAC_HI 18 r) (leAt b (o + 34) 2)
  else if s.kind == kLOAD then
    let put (m : Mach) (a k : Nat) : Mach := m.wr a (leAt b (o + 2 * k) 2)
    let m := put (put (put (put m (Rg.LOAD_CTRL r) 0) (Rg.LOAD_DUTY r) 1) (Rg.LOAD_PERIOD r) 2) (Rg.LOAD_PHASE r) 3
    m.applyCommand r true
  else m

/-- A RESTORE takes effect at the commit (R438). -/
def restoreApply (m : Mach) (i : Nat) : Mach :=
  match (m.inst i).ready with
  | none => m
  | some b =>
    let m := m.forAll (m.instSlots i) fun m s =>
      (m.slotApply i b s).wr (Rg.VDEV_EVT i s.e) (leAt b (64 + 64 * s.e + 8) 4)
    let m := m.wr (Rg.VDEV_VEC_HELD i) (leAt b 40 4)
    let m := m.wr (Rg.VDEV_INST_STATE i) (nextEpoch (m.instGen i) <<< 16 ||| 3)
    (m.modInst i fun x => { x with ready := none }).showBudgets i

/-! ### Re-division -/

/-- The first empty slots of an instance. -/
def emptySlots (l : List VSlot) (j : Nat) : List Nat :=
  (List.range 16).filter fun e => !l.any fun s => s.inst == j && s.e == e

/-- The slots after an operation (R433). -/
def redivApply (l : List VSlot) (r : Rediv) : List VSlot :=
  if r.op == 1 then l.map fun s => if s.inst == r.i && s.e == r.e then { s with amt := r.amt } else s
  else if r.op == 2 then
    let e' := (emptySlots l r.j).headD 0
    l.map fun s => if s.inst == r.i && s.e == r.e then { s with inst := r.j, e := e' } else s
  else
    let src := (List.range 16).filter fun e => l.any fun s => s.inst == r.i && s.e == e
    let pairs := src.zip (emptySlots l r.j)
    l.map fun s => if s.inst == r.i then
      match kget pairs s.e with
      | some e' => { s with inst := r.j, e := e' }
      | none => s
      else s

/-- Sums of table R423 over the slots: channel sizes, ring rates; those of an instance in RESET are not reserved once its
release has taken place (R432). -/
def sumsOk (m : Mach) (l : List VSlot) (kind idx : Nat) : Bool :=
  let holds (s : VSlot) : Bool := m.instState s.inst != 4 || (m.inst s.inst).relWait
  if kind == kRXQ then
    let c := idx / 8
    sumNat ((List.range 8).map fun q =>
      match l.find? fun s => s.kind == kRXQ && s.idx == 8 * c + q with
      | some s => s.amt
      | none => m.rxqSize c q) ≤ 512
  else if kind == kRING then
    sumNat ((l.filter fun s => s.kind == kRING && (holds s || s.idx == idx)).map (·.amt)) ≤ 10000
  else true

/-- Check of an operation on arrival (R433): code and slot; 0 accepts. -/
def redivCode (m : Mach) (l : List VSlot) (r : Rediv) : Nat × Nat :=
  let slot := l.find? fun s => s.inst == r.i && s.e == r.e
  let st := m.instState r.i
  if r.op == 1 then
    match slot with
    | none => (0xB, r.e)
    | some s =>
      if amountOk s.kind s.idx r.amt && m.sumsOk (redivApply l r) s.kind s.idx then (0, 0xFF) else (0xB, r.e)
  else if !(st == 3 || st == 4) || m.instState r.j == 0 then (2, if r.op == 2 then r.e else 0xFF)
  else if r.op == 2 then
    match slot with
    | none => (0xB, r.e)
    | some s => if kindAllowed (m.instType r.j) s.kind && !(emptySlots l r.j).isEmpty then (0, 0xFF) else (7, r.e)
  else
    let src := (List.range 16).filterMap fun e => l.find? fun s => s.inst == r.i && s.e == e
    match src.find? fun s => !kindAllowed (m.instType r.j) s.kind with
    | some s => (7, s.e)
    | none =>
      let room := (emptySlots l r.j).length
      if src.length ≤ room then (0, 0xFF) else (7, ((src[room]?).map (·.e)).getD 0xFF)

/-- VDEV_STATUS. -/
def showVdev (m : Mach) : Mach :=
  m.wr Rg.VDEV_STATUS (flagNat (!m.vdev.rediv.isEmpty) <<< 8 ||| m.definedInsts.length)

/-- An accepted write of VDEV_REDIV (R433). -/
def redivCmd (m : Mach) (v : Nat) : Mach :=
  let op := bitsOf v 31 30
  if op == 0 then m
  else
    let r : Rediv := ⟨op, bitsOf v 29 23, bitsOf v 22 16, bitsOf v 15 12, m.fld Rg.VDEV_REDIV_AMOUNT 23 0⟩
    let l := m.vdev.rediv.foldl redivApply m.vdev.slots
    let (code, detail) := m.redivCode l r
    let m := if code == 0 then m.modVdev fun x => { x with rediv := x.rediv ++ [r] } else m
    (m.wr Rg.VDEV_REDIV_RESULT (1 <<< 31 ||| flagNat (code != 0) <<< 30 ||| code <<< 8 ||| detail)).showVdev

/-- Who may write VDEV_REDIV (R433): heartwood, and a hypervisor partition that hosts every instance named. -/
def redivAdmits (m : Mach) (init v : Nat) : Bool :=
  let hosts (p i : Nat) : Bool := m.instPart i == some p
  m.isHeart init || init == idLOADER
    || match m.partOf init with
       | some p => m.partHyper p && hosts p (bitsOf v 29 23) && (bitsOf v 31 30 == 1 || hosts p (bitsOf v 22 16))
       | none => false

/-- Owner of a load channel shown at a commit (R146, R433). LOAD_CMD_EPOCH reads 0 for an owner that is no duty (R148). -/
def setLoadOwner (m : Mach) (n own : Nat) : Mach :=
  let m := if own / 0x1000 == 4 then m else m.wr (Rg.LOAD_CMD_EPOCH n) 0
  m.wr (Rg.LOAD_OWNER n) own

/-- The claims of the image in force with the load channels of the slots given (R424, R433). -/
def reclaim (m : Mach) (slots : List VSlot) : Mach :=
  match m.truss.image with
  | some i => { m with truss := { m.truss with claims := installClaims i slots } }
  | none => m

/-- The accepted operations at a commit (R433): slots move, sizes and budgets follow; a transmit queue whose assignment
changes is aborted (R277). -/
def redivCommit (mem : Mem) (m : Mach) : Mem × Mach :=
  let old := m.vdev.slots
  let l := m.vdev.rediv.foldl redivApply old
  let moved (s : VSlot) : Bool := !old.any fun o => o.kind == s.kind && o.idx == s.idx && o.inst == s.inst && o.e == s.e
  let was (s : VSlot) : Option VSlot := old.find? fun o => o.kind == s.kind && o.idx == s.idx
  let ops := m.vdev.rediv
  let evts := (l.filter moved).filterMap fun s => (was s).map fun o => (s, m.rd (Rg.VDEV_EVT o.inst o.e) % 16, o)
  let m := m.forAll evts fun m x => m.setFld (Rg.VDEV_EVT x.2.2.inst x.2.2.e) 3 0 0
  let m := m.forAll evts fun m x => m.setFld (Rg.VDEV_EVT x.1.inst x.1.e) 3 0 x.2.1
  let m := m.modVdev fun x => { x with slots := l, rediv := [] }
  let m := m.reclaim l
  let m := m.forAll (l.filter fun s => ops.any fun r => r.op == 1 && r.i == s.inst && r.e == s.e) fun m s =>
    if s.kind == kRXQ then m.wr (Rg.MBUS_RXQ_SIZE (s.idx / 8) (s.idx % 8)) s.amt else m
  let m := m.forAll ((l.filter moved).filter (·.kind == kLOAD)) fun m s => m.setLoadOwner s.idx (ownInst s.inst)
  let (mem, m) := ((l.filter moved).filter (·.kind == kTXQ)).foldl
    (fun (x : Mem × Mach) s => txqAbort x.1 x.2 (s.idx / 8) (s.idx % 8)) (mem, m)
  let m := m.forAll m.definedInsts fun m i => if ops.isEmpty then m else (m.showSlots i).showBudgets i
  (mem, m.showVdev)

/-! ### Edges -/

/-- RW/T writes issued through the window of an instance in RESET (R425, R430): those of the tick in which its reset
started, and later those of the LOAD command registers. -/
def vdevDropped (m : Mach) (e : Stg) (n : Nat) : Bool :=
  match m.slotOf kLOAD n with
  | some s =>
    m.instState s.inst == 4 && e.part == m.instPart s.inst && !m.isHeart e.init && !e.live
      && ((m.inst s.inst).relWait
          || match loadWindow e.addr with | some (_, o) => isCommand o | none => false)
  | none => false

/-- What a commit drops for instances in RESET. -/
def vdevDrops (m : Mach) : Mach :=
  let cut (e : Stg) : Stg := { e with members := e.members.filter fun n => !m.vdevDropped e n }
  let n := stgCount (m.stage.p.filter fun e => e.members.any (m.vdevDropped e))
  let q := (m.stage.p.map cut).filter fun e => !(e.members.isEmpty && (loadWindow e.addr).isSome)
  { m with stage := { m.stage with p := if n == 0 then m.stage.p else q } }.goneDrop n

/-- The state command of an instance at an edge (R426, R434). -/
def instEdge (m : Mach) (i : Nat) : Mach :=
  let x := m.inst i
  let m := m.modInst i fun x => { x with cmd := none, resetNow := false, relWait := false, startRun := false }
  let ok (m : Mach) (st : Nat) : Mach := (((m.setInst i st).setBusy i false).showBudgets i).instResult i 0 0xFF
  match x.cmd with
  | some 1 => m.setInst i 2
  | some 2 =>
    let m := (ok m 1).instDone i
    let first := m.fld (Rg.VDEV_INST_CFG i) 9 0
    let m := m.forAll (onesOf 32 (m.rd (Rg.VDEV_VEC_HELD i))) fun m k => m.setVec (first + k)
    let m := m.wr (Rg.VDEV_VEC_HELD i) 0
    m.forAll (List.range 16) fun m e => if m.rd (Rg.VDEV_EVT i e) != 0 then m.setVec (m.vecOf i e) else m
  | some 4 => (ok m 1).instDone i
  | _ => if x.startRun && m.instState i == 4 then (m.setInst i 1).showBudgets i else m

/-- VDEV at a commit: re-division, restores, state commands; budgets refill. -/
def vdevCommit (mem : Mem) (m : Mach) : Mem × Mach :=
  let (mem, m) := if m.vdev.rediv.isEmpty then (mem, m) else redivCommit mem m
  let m := m.forAll m.definedInsts fun m i => (m.instEdge i).restoreApply i
  (mem, m.modVdev fun x => { x with bw := [] })

/-- LATE_COMPLETION (R428): a completion or event that carries another generation than the one in force. -/
def lateCompletion (m : Mach) (i g : Nat) : Mach := if m.instDefined i && m.instGen i != g then m.lateDrop i else m

/-- VIRTUAL_EVENT (R429). -/
def virtualEvent (m : Mach) (i e bit : Nat) : Mach :=
  match m.instSlot i e with
  | some s =>
    let bits := if s.kind == kRXQ || s.kind == kTXQ then 2 else if s.kind == kRING then 4 else if s.kind == kLOAD || s.kind == kBW then 1 else 0
    if bit < bits then m.slotEvent s bit else m
  | none => m

/-- New bits of LOAD_IRQ_STATUS whose enable is 1 are events of the slot that holds the channel (R429). -/
def loadEvents (m old : Mach) : Mach :=
  m.forAll (m.vdev.slots.filter (·.kind == kLOAD)) fun m s =>
    let now := m.rd (Rg.LOAD_IRQ_STATUS s.idx) &&& m.rd (Rg.LOAD_IRQ_EN s.idx)
    let was := old.rd (Rg.LOAD_IRQ_STATUS s.idx) &&& old.rd (Rg.LOAD_IRQ_EN s.idx)
    if bitsOutside now was != 0 then m.slotEvent s 0 else m

/-! ### The VDEV section -/

/-- Slots of the QUOTA records, in record order (R423). -/
def quotaSlots (img : Image) : List VSlot :=
  (img.recs sVDEV 2).foldl (fun (l : List VSlot) r => match emptySlots l (r.u8 4) with
    | e :: _ => l ++ [⟨r.u8 4, e, r.u8 5, r.u16 6, r.u32 8⟩]
    | [] => l) []

/-- VDEV_INST_CFG from an INSTANCE record. -/
def instCfg (r : Rec) : Nat := 1 <<< 31 ||| r.u8 5 <<< 28 ||| r.u8 6 <<< 24 ||| r.u8 10 <<< 16 ||| r.u16 8

/-- A queue or ring that no slot holds any longer returns to its cold values (R67). -/
def slotGone (m : Mach) (s : VSlot) : Mach :=
  let c := s.idx / 8
  let q := s.idx % 8
  if s.kind == kRXQ then
    let m := (m.resetQueue s.kind s.idx).forAll [Rg.MBUS_RXQ_BASE_LO c q, Rg.MBUS_RXQ_BASE_HI c q, Rg.MBUS_RXQ_CTRL c q] fun m a => m.wr a 0
    m.wr (Rg.MBUS_RXQ_SIZE c q) 0
  else if s.kind == kTXQ then
    (m.resetQueue s.kind s.idx).forAll [Rg.MBUS_TXQ_BASE_LO c q, Rg.MBUS_TXQ_BASE_HI c q, Rg.MBUS_TXQ_SIZE c q,
      Rg.MBUS_TXQ_BUDGET c q] fun m a => m.wr a 0
  else if s.kind == kRING then m.clearRing s.idx
  else m

/-- Slots, queue sizes and budgets follow the section. -/
def vdevSlots (m : Mach) (img : Image) : Mach :=
  let new := quotaSlots img
  let m := m.forAll (m.vdev.slots.filter fun s => !new.any fun n => n.kind == s.kind && n.idx == s.idx) fun m s => m.slotGone s
  let m := m.modVdev fun x => { x with slots := new }
  let m := m.forAll m.vdev.slots fun m s =>
    if s.kind == kRXQ then m.wr (Rg.MBUS_RXQ_SIZE (s.idx / 8) (s.idx % 8)) s.amt else m
  (m.forAll m.definedInsts fun m i => (m.showSlots i).showBudgets i).showVdev

/-- An instance with a record starts in RESET (R422, R426). -/
def instStart (m : Mach) (r : Rec) : Mach :=
  let i := r.u8 4
  ((m.wr (Rg.VDEV_INST_CFG i) (instCfg r)).wr (Rg.VDEV_INST_STATE i) 0x10004).modInst i fun _ => { startRun := bitOf (r.u8 7) 0 }

/-- The VDEV section of an image written at a start (R422, R423). -/
def vdevLoad (m : Mach) (img : Image) : Mach :=
  let m := { m with vdev := {} }
  (m.forAll (img.recs sVDEV 1) fun m r => m.instStart r).vdevSlots img

/-- The VDEV section at the commit of a live application (R67): an instance without a record returns to NONE, one that
is new or whose record changes starts as at a start, the others keep their state. -/
def vdevLive (m : Mach) (img : Image) : Mach :=
  let rs := img.recs sVDEV 1
  let gone := m.definedInsts.filter fun i => !rs.any (·.u8 4 == i)
  let m := m.forAll gone fun m i =>
    let m := m.instReset i
    let b := Rg.VDEV_INST_CFG i
    { m with regs := m.regs.filter fun e => !(b ≤ e.1 && e.1 < b + 0x100), vdev := { m.vdev with insts := kdel m.vdev.insts i } }
  let m := m.forAll rs fun m r => if m.rd (Rg.VDEV_INST_CFG (r.u8 4)) == instCfg r then m else m.instStart r
  m.vdevSlots img

end Mach

end Sys2Proof.Machine
end

