-- ==== Sys2Proof/Machine/TrussChk.lean ====
section
/-! DEFINITION. Verification of a truss image (R43 to R60): parsing, the checks of table R56 in their order with the
codes and detail words of R57, and the claims of table R58 with their conflicts. -/

namespace Sys2Proof.Machine

/-- The outcome of a verification: code and detail word of R57, and the conflicting records (R59). -/
structure Verdict where
  code : Nat
  detail : Nat
  confA : Nat := 0
  confB : Nat := 0
  img : Option Image := none
  deriving DecidableEq, Repr

/-! ### Parsing -/

/-- Lengths of the record kinds of table R50; 0 for the variable length of SETTINGS DEFAULT; none for an unknown kind. -/
def recLen (typ kind : Nat) : Option Nat :=
  let ls : List Nat := match typ with
    | 1 => [12] | 2 => [12] | 3 => [8, 16] | 4 => [12, 24] | 5 => [16, 16] | 6 => [24, 12] | 7 => [16]
    | 8 => [16, 8, 16, 16, 24, 12, 12, 12] | 9 => [12, 12, 16] | 10 => [24, 16, 32] | 11 => [12, 12] | 12 => [12]
    | 13 => [16] | 14 => [24, 32] | 15 => [16, 16] | 16 => [12] | 17 => [8, 8] | 18 => [12] | 19 => [0]
    | _ => []
  if kind == 0 then none else ls[kind - 1]?

/-- Keys of the record kinds: offsets and sizes of their key fields; `none` for an exactly-one kind. -/
def recKey (typ kind : Nat) : Option (List (Nat × Nat)) :=
  match typ, kind with
  | 1, _ => some [(4, 2)]
  | 3, 1 => none
  | 4, 1 => none
  | 4, _ => some [(4, 8)]
  | 5, 1 => none
  | 7, _ => some [(4, 1), (5, 1)]
  | 8, 2 => some [(4, 1), (5, 1)]
  | 8, 3 => some [(4, 2)]
  | 8, 4 => some [(4, 6), (10, 2)]
  | 8, 5 => some [(4, 2)]
  | 8, 6 => some [(4, 1), (5, 1)]
  | 8, 7 => some [(4, 1), (5, 1)]
  | 8, 8 => some [(4, 2)]
  | 10, 2 => some [(4, 2)]
  | 11, 2 => some [(4, 1), (5, 1), (6, 1)]
  | 14, _ => some [(4, 2)]
  | 15, 2 => some [(4, 1), (5, 1), (6, 2)]
  | 17, 1 => some [(4, 2)]
  | 19, _ => some [(4, 2)]
  | _, _ => some [(4, 1)]

/-- The length that a record of a kind must have; `b` begins at the record. -/
def wantLen (typ : Nat) (b : List Byte) : Option Nat :=
  (recLen typ (leAt b 0 1)).map fun n => if n == 0 then 8 + ceilDiv (leAt b 6 2) 4 * 4 else n

/-- Records of a body as far as they parse, at most `fuel`. -/
def parseRecs (sec typ : Nat) : Nat → Nat → List Byte → List Rec
  | 0, _, _ => []
  | fuel + 1, i, b =>
    match wantLen typ b with
    | none => []
    | some n =>
      if b.length < n || leAt b 2 2 != n then []
      else ⟨sec, i, leAt b 0 1, b.take n⟩ :: parseRecs sec typ fuel (i + 1) (b.drop n)

/-- Fields of section table entry `i`. -/
def entAt (b : List Byte) (i o n : Nat) : Nat := leAt b (0x100 + 48 * i + o) n

/-- Body of section `i`. -/
def bodyAt (b : List Byte) (i : Nat) : List Byte := sliceBytes b (entAt b i 4 4) (entAt b i 8 4)

/-- The image that bytes spell. -/
def parseImage (b : List Byte) : Image :=
  let n := leAt b 0x12 2
  ⟨b.take 256, (List.range n).map fun i =>
    let body := bodyAt b i
    ⟨entAt b i 0 2, bitOf (entAt b i 2 2) 0, sliceBytes b (0x100 + 48 * i + 16) 32,
      parseRecs i (entAt b i 0 2) (body.length / 4) 0 body⟩, sliceBytes b (leAt b 0x20 4 + 40) 64⟩

/-- Header fields of a parsed image. -/
def Image.serial (i : Image) : Nat := leAt i.hdr 0x1C 4
def Image.counter (i : Image) : Nat := leAt i.hdr 0x18 4
def Image.settingsFmt (i : Image) : Nat := leAt i.hdr 0x14 4
def Image.sectIdx (i : Image) (typ : Nat) : Nat := (i.sects.findIdx? (·.typ == typ)).getD 0

/-- Section types that are FIXED only, and those that every image carries (table R46). -/
def fixedOnly (t : Nat) : Bool := t ≤ 4 || 16 ≤ t
def requiredSect (t : Nat) : Bool := t ≤ 6 || t == 16 || t == 17

/-! ### Field values (R51, check 21c) -/

/-- Range of an owner code (R49). -/
def ownerOk (o : Nat) : Bool :=
  let k := o / 0x1000
  let i := o % 0x1000
  (k == 1 && i < 24) || (k == 2 && i < 16) || (k == 3 && i < 128) || (k == 4 && i < 64)

/-- The kinds of owner of an MBUS, LIN or SENT channel. -/
def ownerPD (o : Nat) : Bool := ownerOk o && (o / 0x1000 == 2 || o / 0x1000 == 4)

/-- Bent of a PARTITION record of safe cores. -/
def recBent (split : Bool) (r : Rec) : Option Nat :=
  let mask := r.u32 8
  let a := if split then 0x3F else 7
  let full := if split then 0xFFF else 0x3F
  if r.u8 7 != 1 || mask == 0 || mask &&& full != mask then none
  else if mask &&& a == mask then some 0
  else if mask &&& a == 0 then some 1
  else none

def Image.split (i : Image) : Bool := (i.recs sPARTS 1).head?.any fun r => r.u8 4 == 1
def Image.part (i : Image) (p : Nat) : Option Rec := i.recBy sPARTS 2 (·.u8 4) p
def Image.partBent (i : Image) (p : Nat) : Option Nat := (i.part p).bind (recBent i.split)

/-- brp and N of a bit rate on the 80 MHz CAN clock (R256). -/
def canTiming (rate nmin nmax bmax : Nat) : Option (Nat × Nat) :=
  (List.range bmax).findSome? fun k =>
    let d := (k + 1) * rate
    if d != 0 && 80000000 % d == 0 && nmin ≤ 80000000 / d && 80000000 / d ≤ nmax then some (k + 1, 80000000 / d) else none

/-- Partners of an owner of a TCM region in bent `b` (R403). -/
def Image.partner (i : Image) (own peer b : Nat) : Bool :=
  if own / 0x1000 != 2 then own == peer
  else if peer / 0x1000 != 2 then false
  else
    let p := own % 0x1000
    let q := peer % 0x1000
    let served := (i.recs sBENT 1).filter fun d => d.u8 (6 + b) == p
    if served.isEmpty then i.partBent q == some (1 - b) else served.any fun d => d.u8 (7 - b) == q

/-- Bent whose TCM holds a whole region. -/
def tcmOf (r : Rec) : Option Nat :=
  [0, 1].find? fun b => bTCM b ≤ r.u64 4 && r.u64 4 + r.u32 12 ≤ bTCM b + nTCM

/-- The twin of a TCM region (R403). -/
def Image.twin (i : Image) (r : Rec) (b : Nat) : Option Rec :=
  (i.recs sMEMORY 2).find? fun x => x.u64 4 == r.u64 4 - bTCM b + bTCM (1 - b)
    && x.u32 12 == r.u32 12 && x.u16 18 == r.u16 18 && i.partner (r.u16 16) (x.u16 16) b

/-- Whether the base field of a TCM region fails (R403, R57): it has no twin; of two records at one offset that both lack
one, the later. -/
def Image.twinBad (i : Image) (r : Rec) : Bool :=
  match tcmOf r with
  | none => false
  | some b =>
    (i.twin r b).isNone
      && match (i.recs sMEMORY 2).find? fun x => x.u64 4 == r.u64 4 - bTCM b + bTCM (1 - b) with
         | none => true
         | some x => x.idx < r.idx || (i.twin x (1 - b)).isSome

/-- Allowed reactions of table R126. -/
def reactionsOf (code : Nat) : Option (List Nat) :=
  kget ([(0x100, [0, 4]), (0x101, [0]), (0x102, [0]), (0x103, [0]), (0x104, [0]), (0x105, [0, 1, 3, 4]),
    (0x106, [0, 1, 2, 3, 4]), (0x107, [0, 1, 2, 3, 4]), (0x110, [0, 3, 4]), (0x111, [0, 3, 4]), (0x112, [0, 3, 4]),
    (0x113, [0, 3, 4]), (0x114, [0, 1, 3, 4]), (0x115, [0, 3, 4]), (0x116, [0, 1, 3, 4]), (0x120, [1, 2, 3, 4]),
    (0x121, [1, 2, 3, 4]), (0x130, [0, 3, 4]), (0x131, [3, 4]), (0x132, [0, 3, 4]), (0x133, [0, 3, 4]),
    (0x140, [0, 4])] : List (Nat × List Nat)) code

/-- Default reactions of table R126. -/
def defaultReaction (code : Nat) : Nat :=
  if code == 0x116 then 4 else if code == 0x120 || code == 0x121 then 2 else if code == 0x131 then 3 else 0

/-- Algorithm and usage of a key (R445). -/
def usageOk (alg usage : Nat) : Bool :=
  (if alg == 2 then usage &&& 3 == usage else usage &&& 3 == 0) && usage / 4096 == 0
    && (usage &&& 0xF00 == 0 || bitOf usage 3)

/-- Sections of channel control and structure: PINS to LOAD and MEAS. `bef` holds the records before it in its section.
The spec gives a REGION no lower bound of size and no upper bound of base + size; the model rejects a size of 0 at +12 and
a region past the 40-bit address space at +4 (DESIGN CHOICE, log entry 72). -/
def faultBase (i : Image) (bef : List Rec) (t : Nat) (r : Rec) : Option Nat :=
  match t, r.kind with
  | 1, _ =>
    let g := ballGroup (r.u16 4)
    let port : Option Nat := match g with | .eth p => some p | .hx l => some (16 + l) | _ => none
    let same := match port with
      | some p => bef.all fun b => !(Mach.portBalls p).contains (b.u16 4) || b.u8 6 == r.u8 6
      | none => true
    firstBad [(4, g != .noSignal && g != .depopulated), (6, g.accepts (r.u8 6) && same), (7, g.electricalOk (r.u8 7)),
      (8, ownerOk (r.u16 8) && (port.isNone || r.u16 8 == ownUnit uSWC)), (10, r.u16 10 == 0)]
  | 2, _ =>
    let v := r.u16 6
    let ok : Bool := match r.u8 4 with
      | 0 => inSpan v 400 1600 && v % 100 == 0
      | 2 => v == 3200 || v == 4267 || v == 5500 || v == 6400
      | _ => inSpan v 25 200
    firstBad [(4, r.u8 4 ≤ 3), (5, r.u8 5 == 0), (6, ok), (8, r.u32 8 == 0)]
  | 3, 1 => firstBad [(4, r.u8 4 ≤ 1), (5, if r.u8 4 == 1 then r.u8 5 == 0 else inSpan (r.u8 5) 4 16), (6, r.u16 6 == 0)]
  | 3, _ =>
    let safe := r.u8 7 == 1
    firstBad [(4, r.u8 4 < 16), (5, r.u8 5 ≤ 1), (6, r.u8 6 ≤ 3 && (!bitOf (r.u8 6) 1 || r.u8 7 == 0)), (7, r.u8 7 ≤ 1),
      (8, if safe then (recBent i.split r).isSome else inSpan (r.u32 8) 1 15), (12, r.u32 12 == 0)]
  | 4, 1 => firstBad [(4, [0, 1, 2, 4, 8].contains (r.u16 4)), (6, [0, 1, 2, 4, 8, 16, 32, 64, 128, 256].contains (r.u16 6)),
      (8, r.u32 8 == 0)]
  | 4, _ =>
    let b := r.u64 4
    let n := r.u32 12
    let far := overlapsFar 0 b n || overlapsFar 1 b n
    firstBad [(4, b + n ≤ 2 ^ 40 && !i.twinBad r), (12, n != 0 && n % 4096 == 0), (16, ownerOk (r.u16 16)),
      (18, r.u16 18 < 128 && !(far && r.u16 18 &&& 0x34 != 0)), (20, r.u32 20 == 0)]
  | 5, 1 => firstBad [(4, inSpan (r.u16 4) 50 10000), (6, r.u16 6 < r.u16 4), (8, inSpan (r.u16 8) 5 (r.u16 4 / 4)),
      (10, 1 ≤ r.u16 10), (12, r.u8 12 ≤ 1), (13, leAt r.bytes 13 3 == 0)]
  | 5, _ =>
    let k := r.u8 4
    firstBad [(4, k < 32), (5, inSpan (r.u8 5) 1 64 && (k != 1 || r.u8 5 == 1)), (6, r.u8 6 < r.u8 5),
      (8, r.u8 8 ≤ 2 && (r.u8 7 != 0 || r.u8 8 == 0)), (9, r.u8 9 ≤ 1 && !(r.u8 9 == 1 && inSpan k 6 15)), (10, r.u16 10 == 0),
      (12, r.u32 12 < 2 ^ 24)]
  | 6, 1 =>
    let pwm := r.u8 6 == 2
    let hold := r.u8 5 == 1
    firstBad [(4, r.u8 4 < 48), (5, r.u8 5 ≤ 2), (6, r.u8 6 ≤ 2 && (r.u8 5 != 0 || r.u8 6 == 0)), (7, r.u8 7 < 32),
      (8, ownerOk (r.u16 8)), (11, if bitOf (r.u8 7) 2 then r.u8 11 == 0 else r.u8 11 ≤ 15), (12, if pwm then inSpan (r.u16 12) 1 999 else r.u16 12 == 0),
      (14, inSpan (r.u16 14) 50 800), (16, inSpan (r.u16 16) 100 2000), (18, r.u8 18 ≤ 15),
      (19, if hold then inSpan (r.u8 19) 1 200 else r.u8 19 == 0),
      (20, if pwm then inSpan (r.u16 20) 500 10000 else r.u16 20 == 0), (22, r.u16 22 == 0)]
  | 6, _ =>
    let bank := r.u8 4 < 6
    firstBad [(4, bank || r.u8 4 == 0xFF), (5, r.u8 5 == 0), (6, inSpan (r.u16 6) 1 (if bank then 750 else 1500)),
      (8, if bank then r.u16 8 == 0 else inSpan (r.u16 8) 1 1800), (10, r.u16 10 == 0)]
  | 7, _ =>
    let k := r.u8 4
    let f := r.u8 6
    let code := f % 8
    let p := r.u8 7
    let pOk : Bool := if code == 1 then inSpan p 1 8 else if code == 2 then inSpan p 1 4 else p == 0
    firstBad [(4, k ≤ 2), (5, r.u8 5 < (if k == 0 then 48 else if k == 1 then 32 else 16)),
      (6, code ≤ 3 && bitsOf f 6 3 == 0 && (!bitOf f 7 || k == 0)), (7, pOk), (8, r.u16 8 ≤ r.u16 10), (14, r.u8 14 ≤ 2),
      (15, if k == 0 then r.u8 15 == 0 else r.u8 15 ≤ 48)]
  | _, _ => none

/-- Sections of the networks: SWITCH, PTP, MBUS, LIN, SENT and NM (R216, R240, R250, R280, R293, R315). -/
def faultNet (i : Image) (bef : List Rec) (t : Nat) (r : Rec) : Option Nat :=
  let kin := bef.filter (·.kind == r.kind)
  let high (v : Nat) : Bool := v / 2 ^ 22 == 0
  match t, r.kind with
  | 8, 1 => firstBad [(4, r.u8 4 < 22), (5, bitsOf (r.u8 5) 3 2 ≤ 2 && !bitOf (r.u8 5) 4), (6, inSpan (r.u16 6) 1 4094),
      (9, r.u8 9 == 0), (10, r.u16 10 ≤ 49152), (12, r.u32 12 == 0)]
  | 8, 2 => firstBad [(4, r.u8 4 < 22), (5, r.u8 5 < 8),
      (6, r.u16 6 ≤ 49152 && r.u16 6 + sumNat (kin.map (·.u16 6)) ≤ 40960)]
  | 8, 3 => firstBad [(4, inSpan (r.u16 4) 1 4094), (6, r.u16 6 == 0), (8, high (r.u32 8)), (12, r.u32 12 &&& r.u32 8 == r.u32 12)]
  | 8, 4 => firstBad [(10, inSpan (r.u16 10) 1 4094), (12, high (r.u32 12))]
  | 8, 5 => firstBad [(4, r.u16 4 < 2048), (6, r.u16 6 ≤ 4094 || r.u16 6 == 0xFFFF), (14, r.u8 14 < 8 || r.u8 14 == 0xFF),
      (15, r.u8 15 < 22 || r.u8 15 == 0xFF), (16, r.u32 16 ≤ 10000000),
      (20, if r.u32 16 == 0 then r.u32 20 == 0 else inSpan (r.u32 20) 2048 16777215)]
  | 8, 6 =>
    let all := (i.recs sSWITCH 6).filter fun x => x.u8 4 == r.u8 4
    let lastOne := (all.getLast?).any fun x => x.idx == r.idx
    let sum := sumNat (all.map (·.u32 8))
    let unit := 1000 * (((i.recs sTICK 1).head?.map (·.u16 4)).getD 0)
    let fits : Bool := unit != 0 && sum % unit == 0 && inSpan (sum / unit) 1 1023
    firstBad [(4, r.u8 4 < 22), (5, r.u8 5 < 64 && r.u8 5 < all.length), (7, r.u8 7 == 0),
      (8, inSpan (r.u32 8) 1000 10000000 && (!lastOne || fits))]
  | 8, 7 =>
    let mine := kin.filter fun x => x.u8 4 == r.u8 4
    firstBad [(4, r.u8 4 < 22), (5, r.u8 5 < 8), (6, r.u16 6 == 0),
      (8, r.u32 8 != 0 && 4 * (r.u32 8 + sumNat (mine.map (·.u32 8))) ≤ 3 * portRate (r.u8 4))]
  | 8, _ => firstBad [(4, r.u16 4 < 256),
      (6, r.u16 6 < 2048 && (i.recBy sSWITCH 5 (·.u16 4) (r.u16 6)).isSome && !kin.any fun x => x.u16 6 == r.u16 6), (8, inSpan (r.u16 8) 1 32),
      (10, 1 ≤ r.u16 10)]
  | 9, 1 => firstBad [(4, r.u8 4 < 2), (5, r.u8 5 < 128), (7, r.u8 7 == 0), (8, high (r.u32 8))]
  | 9, 2 =>
    let trim (o : Nat) : Bool := (signedOf 16 (r.u16 o)).natAbs ≤ 1000
    firstBad [(4, r.u8 4 < 22), (5, r.u8 5 == 0), (6, trim 6), (8, trim 8), (10, r.u16 10 == 0)]
  | 9, _ => firstBad [(4, r.u8 4 < 8), (5, [0, 2, 4, 6].contains (r.u8 5)), (6, ownerOk (r.u16 6)),
      (8, inSpan (r.u32 8) 1000 4000000000), (12, inSpan (r.u32 12) 16 (r.u32 8 - 16))]
  | 10, 1 =>
    let p := r.u8 5 % 4
    let data : Bool := if p == 0 then r.u32 12 == 0
      else inSpan (r.u32 12) 1000000 (if p == 1 then 8000000 else 20000000) && (canTiming (r.u32 12) 4 128 8).isSome
    firstBad [(4, r.u8 4 < 12), (5, p ≤ 2 && (!bitOf (r.u8 5) 3 || p == 2) && r.u8 5 < 128), (6, ownerPD (r.u16 6)),
      (8, inSpan (r.u32 8) 10000 1000000 && (canTiming (r.u32 8) 8 256 32).isSome
        && (r.u8 20 != 2 || [125000, 250000, 500000, 1000000].contains (r.u32 8))), (12, data), (16, inSpan (r.u16 16) 500 900),
      (18, 1 ≤ r.u8 18), (20, r.u8 20 ≤ 2), (21, r.u8 21 == 0), (22, inSpan (r.u16 22) 1 512)]
  | 10, 2 =>
    let w := [11, 29, 11, 32].getD (r.u8 7 % 4) 32
    firstBad [(4, r.u16 4 < 8192), (6, r.u8 6 < 12 && (i.recBy sMBUS 1 (·.u8 4) (r.u8 6)).isSome), (7, r.u8 7 < 128), (8, r.u32 8 < 2 ^ w),
      (12, r.u32 12 < 2 ^ w)]
  | 10, _ =>
    let dlc := r.u8 5
    firstBad [(4, r.u8 4 < 12 && (i.recBy sMBUS 1 (·.u8 4) (r.u8 4)).any fun c => c.u8 20 == 2), (5, dlc ≤ 8), (6, r.u16 6 == 0),
      (8, r.u32 8 < 2 ^ 30), (12, r.u32 12 < 2 ^ 29), (16, dlc != 0 || r.u64 16 == 0), (24, r.u64 24 < 2 ^ (8 * min 8 dlc))]
  | 11, 1 => firstBad [(4, r.u8 4 < 12), (5, r.u8 5 ≤ 1), (6, ownerPD (r.u16 6)), (8, inSpan (r.u32 8) 1000 20000)]
  | 11, _ => firstBad [(4, r.u8 4 < 12 && (i.recBy sLIN 1 (·.u8 4) (r.u8 4)).any fun c => c.u8 5 == 0), (5, r.u8 5 < 4), (6, r.u8 6 < 64),
      (7, r.u8 7 ≤ 0x3D), (8, inSpan (r.u16 8) 1 1023), (10, r.u16 10 < r.u16 8)]
  | 12, _ =>
    let f := r.u8 5
    firstBad [(4, r.u8 4 < 8), (5, inSpan (f % 8) 1 6 && bitsOf f 6 5 ≤ 2 && f < 128), (6, ownerPD (r.u16 6)),
      (8, inSpan (r.u32 8) 3000 90000)]
  | 13, _ =>
    let lin := r.u16 8 / 256 == 2
    let ch := r.u16 8 % 256
    let net : Bool := if lin then (i.recBy sLIN 1 (·.u8 4) ch).isSome else r.u16 8 / 256 == 1 && (i.recBy sMBUS 1 (·.u8 4) ch).isSome
    firstBad [(4, r.u8 4 < 24), (5, r.u8 5 ≤ 1 && (!lin || r.u8 5 == 1)), (6, r.u8 6 ≤ 1 && (!lin || r.u8 6 == 1)),
      (7, r.u8 7 < 64 && (!lin || r.u8 7 == 0)), (8, net && !kin.any fun x => x.u16 8 == r.u16 8), (10, 100 ≤ r.u16 10),
      (12, if lin then r.u16 12 == 0 else inSpan (r.u16 12) 10 10000), (14, r.u16 14 == 0)]
  | _, _ => none

/-- VDEV QUOTA (R423). -/
def faultQuota (i : Image) (kin : List Rec) (r : Rec) : Option Nat :=
  let k := r.u8 5
  let x := r.u16 6
  let amt := r.u32 8
  let inst := i.recBy sVDEV 1 (·.u8 4) (r.u8 4)
  let host := inst.bind fun n => i.part (n.u8 6)
  let c := x / 8
  let chan := i.recBy sMBUS 1 (·.u8 4) c
  let same := kin.filter (·.u8 5 == k)
  let idxOk : Bool :=
    if k == kRXQ || k == kTXQ then chan.isSome && x % 8 != 0
    else if k == kRING then inSpan x 1 7
    else if k == kLOAD then (i.recBy sLOAD 1 (·.u8 4) x).any fun l => l.u16 8 == ownInst (r.u8 4)
    else if k == kROUTES then x < 8192
    else if k == kPDUS then x < 4096
    else x == 0
  let sum : Bool :=
    if k == kRXQ then
      amt + sumNat ((same.filter (·.u16 6 / 8 == c)).map (·.u32 8)) + ((chan.map (·.u16 22)).getD 0) ≤ 512
    else if k == kRING then amt + sumNat (same.map (·.u32 8)) ≤ 10000
    else true
  firstBad [(4, r.u8 4 < 128 && inst.isSome),
    (5, inst.any (fun n => kindAllowed (n.u8 5) k) && (k != kRING || host.any fun p => p.u8 7 == 0)), (6, idxOk),
    (8, amountOk k x amt && sum), (12, r.u32 12 == 0)]

/-- The lowest failing field of a record (check 21c). -/
def fieldFault (i : Image) (bef : List Rec) (t : Nat) (r : Rec) : Option Nat :=
  let kin := bef.filter (·.kind == r.kind)
  match t, r.kind with
  | 14, 1 => pduFault i kin r
  | 14, _ => routeFault (i.recs sGATEWAY 1) kin r
  | 15, 1 => firstBad [(4, r.u8 4 < 128), (5, inSpan (r.u8 5) 1 5), (6, (i.part (r.u8 6)).isSome), (7, r.u8 7 ≤ 1),
      (8, inSpan (r.u16 8) 640 1023), (10, inSpan (r.u16 10) 1 32 && r.u16 8 + r.u16 10 ≤ 1024), (12, r.u32 12 == 0)]
  | 15, _ => faultQuota i kin r
  | 16, _ => firstBad [(4, r.u8 4 < 64), (5, r.u8 5 ≤ 1), (6, i.partBent (r.u8 6) == some 0), (7, i.partBent (r.u8 7) == some 1),
      (8, r.u32 8 == 0)]
  | 17, 1 =>
    let ok := reactionsOf (r.u16 4)
    firstBad [(4, ok.isSome), (6, ok.any (·.contains (r.u8 6))), (7, r.u8 7 == 0)]
  | 17, _ => firstBad [(4, r.u8 4 < 38), (5, r.u8 5 ≤ 1), (6, r.u16 6 == 0)]
  | 18, _ => firstBad [(4, r.u8 4 < 64), (5, r.u8 5 == 1 || (r.u8 5 == 2 && r.u8 4 < 16)), (6, usageOk (r.u8 5) (r.u16 6)),
      (8, ownerOk (r.u16 8)), (10, r.u16 10 == 0)]
  | 19, _ => firstBad [(4, r.u16 4 < 4096), (6, inSpan (r.u16 6) 1 1024), (8, (r.bytes.drop (8 + r.u16 6)).all (· == 0))]
  | _, _ => if t ≤ 7 then faultBase i bef t r else faultNet i bef t r

/-! ### The checks of table R56 -/

/-- Details of R57. -/
def detHdr (o : Nat) : Nat := 0xFFFFFF00 ||| o
def detSig (o : Nat) : Nat := 0xFE000000 ||| o
def detRec (s r o : Nat) : Nat := s <<< 24 ||| r <<< 8 ||| o

/-- The lifecycle accepts a key kind (R54). -/
def kindAccepted (lc kind : Nat) : Bool :=
  if lc == 0 then kind == 0 else if lc == 1 || lc == 2 then kind == 1 else if lc == 3 then kind ≤ 1 else false

/-- Public key that a key_ref selects, with a usage bit (R54). -/
def Mach.pubKey (m : Mach) (ref bit : Nat) : Option (List Byte) :=
  if ref / 256 == 0 then some Config.romKey
  else match m.keySlot (ref % 256) with
    | some s => if s.alg == 2 && bitOf s.usage bit then some s.value else none
    | none => none

/-- A key_ref names a valid key kind and slot (R57). -/
def keyRefOk (ref : Nat) : Bool := ref == 0 || (ref / 256 == 1 && ref % 256 < 64)

/-- Steps 7 to 11: the signature block `s` over the digest `d`, with the usage bit of the key: step and offset of the
failure, 7 being the signature block itself. -/
def Mach.sigFault (m : Mach) (s d : List Byte) (bit : Nat) : Option (Nat × Nat) :=
  let ref := leAt s 6 2
  match firstBad [(0, leAt s 0 4 == 0x53494731), (4, leAt s 4 2 == 0x87), (6, keyRefOk ref), (4731, leAt s 4731 5 == 0)] with
  | some o => some (7, o)
  | none =>
    if !kindAccepted m.lifecycle (ref / 256) then some (8, 6)
    else match m.pubKey ref bit with
      | none => some (9, 6)
      | some pk =>
        if leBytes 32 (Config.sha3x256 pk).toNat != sliceBytes s 8 32 then some (9, 8)
        else if d != sliceBytes s 40 64 then some (10, 40)
        else if !Config.mldsaVerify pk d (sliceBytes s 104 4627) then some (11, 104)
        else none

/-- Truss counter floor (R55). -/
def Mach.floor (m : Mach) : Nat := (m.key.hdr.map (·.2)).getD 0

/-- Steps 1 to 13. -/
def Mach.headFault (m : Mach) (b : List Byte) : Option (Nat × Nat) :=
  let sig := leAt b 0x20 4
  let len := leAt b 8 4
  let step := Config.stepping.toNat
  let bound := bitOf (leAt b 0x24 4) 0
  if leAt b 0 4 != 0x54525553 then some (1, detHdr 0)
  else if leAt b 4 2 != 3 then some (2, detHdr 4)
  else match firstBad [(6, leAt b 6 2 == 0x100), (0x24, leAt b 0x24 4 ≤ 1), (0x28, bound || leAt b 0x28 16 == 0),
      (0x58, (sliceBytes b 0x58 168).all (· == 0))] with
  | some o => some (3, detHdr o)
  | none =>
    match firstBad [(8, len == sig + 4736 && len ≤ 0x200000), (0x20, sig % 16 == 0 && 0x280 ≤ sig)] with
    | some o => some (4, detHdr o)
    | none =>
      if leAt b 0xC 4 != 0x4D5A4820 then some (5, detHdr 0xC)
      else if step < leAt b 0x10 1 then some (6, detHdr 0x10)
      else if leAt b 0x11 1 < step then some (6, detHdr 0x11)
      else match m.sigFault (sliceBytes b sig 4736) (leBytes 64 (Config.sha3x512 (b.take sig)).toNat) 0 with
      | some (c, o) => some (c, detSig o)
      | none =>
        if leAt b 0x18 4 < m.floor then some (0xC, detHdr 0x18)
        else if bound && sliceBytes b 0x28 16 != uidBytes then some (0xD, detHdr 0x28)
        else none

/-- The bytes between the table and sig_offset that no body covers are zero (R47). -/
def padsZero (b : List Byte) (n sig : Nat) : Bool :=
  let ends := (0x100 + 48 * n) :: (List.range n).map fun i => entAt b i 4 4 + entAt b i 8 4
  let starts := ((List.range n).map fun i => entAt b i 4 4) ++ [sig]
  (ends.zip starts).all fun x => (sliceBytes b x.1 (x.2 - x.1)).all (· == 0)

/-- Steps 14 to 20. -/
def tableFault (b : List Byte) : Option (Nat × Nat) :=
  let n := leAt b 0x12 2
  let sig := leAt b 0x20 4
  let is := List.range n
  let typ (i : Nat) : Nat := entAt b i 0 2
  let ent (f : Nat → Option Nat) : Option (Nat × Nat) := is.findSome? fun i => (f i).map fun o => (i, o)
  if !inSpan n 8 64 then some (0xE, 0xFFFFFFFF)
  else match ent fun i => firstBad [(0, i == 0 || typ (i - 1) ≤ typ i), (2, entAt b i 2 2 ≤ 1),
      (4, entAt b i 4 4 % 16 == 0 && (if i == 0 then 0x100 + 48 * n else entAt b (i - 1) 4 4 + entAt b (i - 1) 8 4) ≤ entAt b i 4 4),
      (8, entAt b i 8 4 % 4 == 0 && 4 ≤ entAt b i 8 4), (14, entAt b i 14 2 == 0)] with
  | some (i, o) => some (0xF, detRec i 0xFFFF o)
  | none =>
    if sig != ceilDiv (entAt b (n - 1) 4 4 + entAt b (n - 1) 8 4) 16 * 16 || !padsZero b n sig then
      some (0xF, detRec (n - 1) 0xFFFF 0xFF)
    else match is.find? fun i => !inSpan (typ i) 1 19 with
    | some i => some (0x10, detRec i 0xFFFF 0)
    | none => match is.find? fun i => 0 < i && typ i == typ (i - 1) with
    | some i => some (0x11, detRec i 0xFFFF 0)
    | none => match (List.range 20).find? fun t => 0 < t && requiredSect t && !is.any (typ · == t) with
    | some t => some (0x12, 0xFFFF0000 ||| t)
    | none =>
      if (leAt b 0x14 4 == 0) == is.any (typ · == 19) then some (0x12, 0xFFFF0013)
      else match is.find? fun i => fixedOnly (typ i) && bitOf (entAt b i 2 2) 0 with
      | some i => some (0x13, detRec i 0xFFFF 2)
      | none => match is.find? fun i =>
          leBytes 32 (Config.sha3x256 (bodyAt b i)).toNat != sliceBytes b (0x100 + 48 * i + 16) 32 with
        | some i => some (0x14, detRec i 0xFFFF 16)
        | none => none

/-- Value of a record's key. -/
def keyOf (t : Nat) (r : Rec) : Option (List Nat) := (recKey t r.kind).map fun l => l.map fun f => leAt r.bytes f.1 f.2

/-- Checks 21a to 21c of the records of section `s` in order, from record `k` on; `b` is the rest of the body. -/
def recordFault (i : Image) (s t count : Nat) : Nat → Nat → List Byte → List Rec → Option (Nat × Nat)
  | 0, _, _, _ => none
  | fuel + 1, k, b, bef =>
    if b.isEmpty then (if k < count then some (0x15, detRec s 0xFFFF 12) else none)
    else if count ≤ k then some (0x15, detRec s count 0xFF)
    else match wantLen t b with
      | none => some (0x15, detRec s k 0)
      | some n =>
        if leAt b 1 1 != 0 then some (0x15, detRec s k 1)
        else if leAt b 2 2 != n || b.length < n then some (0x15, detRec s k 2)
        else
          let r : Rec := ⟨s, k, leAt b 0 1, b.take n⟩
          let twice := bef.any fun x => x.kind == r.kind && keyOf t x == keyOf t r
          if twice then some (0x16, detRec s k (match recKey t r.kind with | some (f :: _) => f.1 | _ => 0xFF))
          else match fieldFault i bef t r with
            | some o => some (0x17, detRec s k o)
            | none => recordFault i s t count fuel (k + 1) (b.drop n) (bef ++ [r])

/-- Check 21 over every section. -/
def recordsFault (i : Image) (b : List Byte) : Option (Nat × Nat) :=
  (List.range (leAt b 0x12 2)).findSome? fun s =>
    let body := bodyAt b s
    recordFault i s (entAt b s 0 2) (entAt b s 12 2) (body.length + 1) 0 body []

/-- The record at which the running sum of a weight first exceeds a limit. -/
def overAt (l : List Rec) (w : Rec → Nat) (lim : Nat) : Option Nat :=
  ((l.foldl (fun (acc : Nat × Option Nat) r =>
    let s := acc.1 + w r
    (s, if acc.2.isNone && lim < s then some r.idx else acc.2)) (0, none))).2

/-- The first of the records at which limits are exceeded. -/
def firstOf (l : List (Option Nat)) : Option Nat :=
  l.foldl (fun acc x => match acc, x with | some a, some b => some (min a b) | some a, none => some a | none, b => b) none

/-- Check 22 for one section: the record at which a count or sum first exceeds its limit. -/
def capacityFault (s : Nat) (x : Sect) : Option (Nat × Nat) :=
  let kin (k : Nat) : List Rec := x.recs.filter (·.kind == k)
  let one (k : Nat) : Option Nat := if (kin k).isEmpty then some 0xFFFF else none
  let at' : Option Nat :=
    if x.typ == sPARTS || x.typ == sMEMORY || x.typ == sTICK then one 1
    else if x.typ == sSWITCH then overAt (kin 4) (fun _ => 1) 8192
    else if x.typ == sSETTINGS then overAt x.recs (fun r => r.bytes.length) 262080
    else if x.typ == sGATEWAY then
      firstOf [overAt (kin 1) (fun _ => 1) 4096, overAt (kin 1) pduCost pduStore, overAt (kin 2) (fun _ => 1) 8192]
    else if x.typ == sVDEV then
      firstOf ((List.range 128).map fun i => overAt ((kin 2).filter (·.u8 4 == i)) (fun _ => 1) 16)
    else none
  at'.map fun k => (0x18, detRec s k 0xFF)

/-- Check 24 against the running image. -/
def fixedFault (run new : Image) : Option (Nat × Nat) :=
  (List.range 20).findSome? fun t =>
    let fixed (i : Image) : Bool := (i.sect t).any fun s => !s.live
    if !fixed run && !fixed new then none
    else match run.sect t, new.sect t with
      | _, none => some (0x1A, 0xFFFF0000 ||| t)
      | none, some _ => some (0x1A, detRec (new.sectIdx t) 0xFFFF 0xFF)
      | some a, some b =>
        if a.live != b.live then some (0x1A, detRec (new.sectIdx t) 0xFFFF 2)
        else if a.digest != b.digest then some (0x1A, detRec (new.sectIdx t) 0xFFFF 16)
        else none

/-- The verification of R56 over the bytes of a truss slot; check 24 against the running image when one is given. -/
def Mach.verify (m : Mach) (b : List Byte) (run : Option Image) : Verdict :=
  match m.headFault b with
  | some (c, d) => { code := c, detail := d }
  | none => match tableFault b with
  | some (c, d) => { code := c, detail := d }
  | none =>
    let i := parseImage b
    match recordsFault i b with
    | some (c, d) => { code := c, detail := d }
    | none => match (List.range i.sects.length).findSome? fun s => (i.sects[s]?).bind (capacityFault s) with
    | some (c, d) => { code := c, detail := d }
    | none => match ownerConflict i with
    | some (d, x, y) => { code := 0x19, detail := d, confA := x, confB := y }
    | none => match run.bind (fixedFault · i) with
    | some (c, d) => { code := c, detail := d }
    | none => { code := 0, detail := 0, img := some i }

/-- Bytes of the truss slot of a bank, as far as its header says (R43). -/
def slotBytes (mem : Mem) (bank : Nat) : List Byte :=
  let a := bank * 0x1000000 + 0xE00000
  let h := memRead mem a 0x100
  if leAt h 0 4 != 0x54525553 then h else memRead mem a (max 0x100 (min 0x200000 (leAt h 8 4)))

end Sys2Proof.Machine
end

