-- ==== Sys2Proof/Machine/Store.lean ====
section
/-! DEFINITION. The common area of MRAM: the update journal with its header (R480), the calibration set (R74, R76,
R183) and the settings store (R77, R78). -/

namespace Sys2Proof.Machine

/-! ### Update journal -/

/-- Fields of the journal header (R480). -/
structure JHdr where
  bank : Nat := 0
  stranded : Bool := false
  why : Nat := 0
  next : Nat := 0
  port : Nat := 0x10
  etype : Nat := 0x9A4D
  deriving DecidableEq, Repr

/-- The header's magic, format and CRC-32 are correct. -/
def jValid (mem : Mem) : Bool :=
  let h := memRead mem bJOURNAL 256
  leAt h 0 4 == 0x4A524E31 && leAt h 4 2 == 1 && leAt h 252 4 == (Config.crc32 (h.take 252)).toNat

/-- The header as stored; an invalid one gives the values of a new journal, with the service descriptor of
UPD_SVC_CFG. -/
def readHdr (mem : Mem) : JHdr :=
  let h := memRead mem bJOURNAL 256
  if jValid mem then
    { bank := leAt h 6 1, stranded := leAt h 7 1 != 0, why := leAt h 8 1, next := leAt h 12 4, port := leAt h 16 2,
      etype := leAt h 18 2 }
  else {}

/-- The header's bytes. -/
def JHdr.bytes (h : JHdr) : List Byte :=
  let b := leBytes 4 0x4A524E31 ++ leBytes 2 1 ++ leBytes 1 h.bank ++ leBytes 1 (flagNat h.stranded) ++ leBytes 4 h.why
    ++ leBytes 4 h.next ++ leBytes 2 h.port ++ leBytes 2 h.etype ++ List.replicate 232 0
  b ++ leBytes 4 (Config.crc32 b).toNat

def writeHdr (mem : Mem) (h : JHdr) : Mem := memWrite mem bJOURNAL h.bytes

/-- Address of entry number `n`. -/
def jAddr (n : Nat) : Nat := bJOURNAL + 256 + 32 * (n % 2040)

/-- One entry made (R480). -/
def jAppend (mem : Mem) (count : Nat) (e : JEntry) : Mem :=
  let h := readHdr mem
  let b := leBytes 4 h.next ++ leBytes 2 e.code ++ leBytes 2 0 ++ leBytes 8 count ++ leBytes 4 e.arg0 ++ leBytes 4 e.arg1
    ++ leBytes 4 e.arg2
  writeHdr (memWrite mem (jAddr h.next) (b ++ leBytes 4 (Config.crc32 b).toNat)) { h with next := (h.next + 1) % 2 ^ 32 }

/-- The valid entries, oldest first (R480). -/
def jEntries (mem : Mem) : List (List Byte) :=
  let n := (readHdr mem).next
  if !jValid mem then []
  else ((List.range (min n 2040)).map fun k => (n - min n 2040 + k, memRead mem (jAddr (n - min n 2040 + k)) 32)).filterMap
    fun (i, b) => if leAt b 0 4 == i && leAt b 28 4 == (Config.crc32 (b.take 28)).toNat then some b else none

/-! ### Calibration set -/

/-- Offsets and gains of the set in table R183's order. -/
def calConstants (b : List Byte) : List (Int × Nat) :=
  (List.range 64).map fun n => (signedOf 16 (leAt b (64 + 4 * n) 2), leAt b (66 + 4 * n) 2)

/-- format and length of R183, and every constant in its range. -/
def calFormOk (b : List Byte) : Bool :=
  leAt b 4 2 == 1 && leAt b 12 4 == 256
    && (calConstants b).all fun (o, g) => decide (-512 ≤ o) && decide (o ≤ 511) && inSpan g 8192 32767

/-- CRC of a set (R74). -/
def calCrc (b : List Byte) : Nat := (Config.crc32 (sliceBytes b 0 32 ++ sliceBytes b 64 256)).toNat

/-- The failing check of R76: 1 magic, 2 uid, 3 crc. -/
def calFault (b : List Byte) : Option Nat :=
  if leAt b 0 4 != 0x43414C31 then some 1
  else if sliceBytes b 16 16 != Mach.uidBytes then some 2
  else if !calFormOk b || leAt b 32 4 != calCrc b then some 3
  else none

/-- The set in the CAL area. -/
def calSet (mem : Mem) : List Byte := memRead mem bCAL 320

/-! ### Settings store -/

/-- Header of the store: valid magic and CRC (R77). -/
def settingsValid (mem : Mem) : Bool :=
  let h := memRead mem bSETTINGS 64
  leAt h 0 4 == 0x53455431 && leAt h 12 4 == (Config.crc32 (h.take 12)).toNat && (h.drop 16).all (· == 0)

def settingsFormat (mem : Mem) : Nat := leAt (memRead mem bSETTINGS 64) 4 4

/-- Why the store is reset to defaults (R78). -/
def settingsReason (mem : Mem) (i : Image) : Option Nat :=
  if !settingsValid mem then some 2
  else if (i.sect sSETTINGS).isNone && settingsFormat mem != 0 then some 3
  else if settingsFormat mem != i.settingsFmt then some 1
  else none

/-- The store written from an image's defaults (R78). -/
def settingsDefault (mem : Mem) (i : Image) : Mem :=
  let items := ((i.recs sSETTINGS 1).map (·.bytes)).flatten
  let h := leBytes 4 0x53455431 ++ leBytes 4 i.settingsFmt ++ leBytes 4 items.length
  memWrite (memClear mem bSETTINGS 0x40000) bSETTINGS
    (h ++ leBytes 4 (Config.crc32 h).toNat ++ List.replicate 48 0 ++ items)

namespace Mach

/-- Journal entries made by a step, written to MRAM (R480). -/
def flushJournal (mem : Mem) (m : Mach) : Mem × Mach :=
  (m.jq.foldl (fun mem e => jAppend mem (m.rd64 Rg.TICK_COUNT_LO Rg.TICK_COUNT_HI) e) mem, { m with jq := [] })

/-- The calibration set judged at a start (R76, R183). -/
def checkCal (mem : Mem) (m : Mach) : Mach :=
  let b := calSet mem
  match calFault b with
  | none =>
    let m := (m.setBit Rg.TRUSS_STORE_STATUS 2 true).setFld Rg.TRUSS_STORE_STATUS 1 0 (leAt b 6 1 % 4)
    let m := { m with truss := { m.truss with calValid := true }, meas := { m.meas with cal := calConstants b, calNew := none } }
    m.setBit Rg.MEAS_STATUS 0 false
  | some c =>
    let m := (m.setBit Rg.TRUSS_STORE_STATUS 2 false).setFld Rg.TRUSS_STORE_STATUS 1 0 0
    let m := { m with
      truss := { m.truss with calValid := false },
      meas := { m.meas with cal := List.replicate 64 (0, 16384), calNew := none } }
    (((m.setBit Rg.MEAS_STATUS 0 true).fire Rg.TRUSS_IRQ_STATUS 5).journal 0x32 c).raise 0x101 c

/-- A complete set written through a Buile session (R75, R190, R461). -/
def calWrite (mem : Mem) (m : Mach) (b : List Byte) (session : Nat) : Mem × Mach :=
  let old := calSet mem
  let n := (if leAt old 0 4 == 0x43414C31 then leAt old 8 4 + 1 else 1) % 2 ^ 32
  let b := patchBytes (patchBytes (b.take 320) 6 (leBytes 1 2)) 8 (leBytes 4 n)
  let b := patchBytes b 32 (leBytes 4 (calCrc b))
  let m := (m.setBit Rg.TRUSS_STORE_STATUS 2 true).setFld Rg.TRUSS_STORE_STATUS 1 0 2
  let m := { m with truss := { m.truss with calValid := true }, meas := { m.meas with calNew := some (calConstants b) } }
  (memWrite mem bCAL b, m.journal 0x30 n session 0)

/-- The settings store compared with an image at a cold start, or at the first start after a commit (R78). -/
def checkSettings (mem : Mem) (m : Mach) (i : Image) : Mem × Mach :=
  let m := m.setBit Rg.TRUSS_STORE_STATUS 3 true
  match settingsReason mem i with
  | none => (mem, m)
  | some r => (settingsDefault mem i, (m.journal 0x31 (settingsFormat mem) i.settingsFmt r).fire Rg.TRUSS_IRQ_STATUS 6)

end Mach

end Sys2Proof.Machine
end

