-- ==== Sys2Proof/Machine/Keys.lean ====
section
/-! DEFINITION. The security engine: derived keys (R442), slots and key-update messages (R444 to R450), the
lifecycle (R451), the operation queue (R453), the state block (R456), and its resets (R462). -/

namespace Sys2Proof.Machine

/-- Byte strings combined bit by bit. -/
def xorBytes (a b : List Byte) : List Byte := List.zipWith (· ^^^ ·) a b

/-- Key-update authority kinds that a lifecycle accepts (step 5 of table R448). -/
def authAccepted (lc kind : Nat) : Bool :=
  (kind == 0 && (lc == 0 || lc == 1 || lc == 3)) || (kind == 1 && (lc == 1 || lc == 2 || lc == 3))

namespace Mach

def modKey (m : Mach) (f : KeySt → KeySt) : Mach := { m with key := f m.key }

/-- The engine runs: the C-die has left reset and unit KEY is not held. -/
def keyRuns (m : Mach) : Bool := !m.rst.cReset && !m.unitHeld uKEY

def rootBytes : List Byte := leBytes 32 Config.rootSecret.toNat

/-- Identity seed and manufacturing key (R442); a fuse error leaves none (R441). -/
def idSeed : List Byte := kmac rootBytes "MZ4820-ID-SEED" uidBytes 32
def mfgKey (m : Mach) : Option (List Byte) := if m.key.fuseBad then none else some (kmac rootBytes "MZ4820-MFG" uidBytes 32)

/-- The identity public key (R443). -/
def idPublic : List Byte := (Config.mldsaPublic idSeed).take 2592

/-- KEYS SLOT record of a slot in the running image, and the slot's owner (R446). -/
def slotRec (m : Mach) (k : Nat) : Option Rec := m.truss.image.bind (·.recBy sKEYS 1 (·.u8 4) k)
def keyOwner (m : Mach) (k : Nat) : Nat := ((m.slotRec k).map (·.u16 8)).getD (ownUnit uKEY)

def keyCounter (m : Mach) : Nat := (m.key.hdr.map (·.1)).getD 0

/-- KEY_STATUS follows the engine (R464). -/
def showKeyStatus (m : Mach) : Mach :=
  let k := m.key
  let v := flagNat k.lockout <<< 29 ||| flagNat k.hdr.isSome <<< 28 ||| k.sess.length <<< 24 ||| k.queue.length <<< 20
    ||| flagNat k.cur.isSome <<< 17 ||| m.lcCount <<< 8 ||| m.lifecycle
  m.wr Rg.KEY_STATUS (v ||| m.rd Rg.KEY_STATUS &&& 0x10000)

/-- The session registers follow the sessions. -/
def showSessions (m : Mach) : Mach :=
  (m.forAll (List.range 8) fun m s => m.wr (Rg.KEY_SESSION s)
    (match kget m.key.sess s with | some x => 0x80000000 ||| x.rights <<< 24 ||| x.keyRef | none => 0)).showKeyStatus

/-- The slot registers, counter and floor follow KEYBLOB and the KEYS section. -/
def showKeys (m : Mach) : Mach :=
  let loaded := (List.range 64).filter fun k => (m.keySlot k).isSome
  let m := (m.wr Rg.KEY_COUNTER m.keyCounter).wr Rg.KEY_TRUSS_FLOOR m.floor
  let m := (m.wr Rg.KEY_SLOT_MAP_LO (maskOfList (loaded.filter (· < 32)))).wr Rg.KEY_SLOT_MAP_HI
    (maskOfList ((loaded.filter (32 ≤ ·)).map (· - 32)))
  let m := m.forAll (List.range 64) fun m k =>
    let info := match m.keySlot k with | some s => 0x80000000 ||| s.alg <<< 24 ||| s.usage | none => 0
    (m.wr (Rg.KEY_SLOT_INFO k) (info ||| flagNat (m.slotRec k).isSome <<< 30)).wr (Rg.KEY_SLOT_OWNER k) (m.keyOwner k)
  m.showSessions

/-! ### Sessions end -/

/-- A session closes other than by CLOSE (R460). -/
def closeSession (m : Mach) (s : Nat) : Mach :=
  if (kget m.key.sess s).isSome then
    ((m.modKey fun k => { k with sess := kdel k.sess s }).fire Rg.KEY_IRQ_STATUS 5).showSessions
  else m

/-- Every session that a predicate selects closes. -/
def closeWhere (m : Mach) (p : Nat × Sess → Bool) : Mach :=
  m.forAll ((m.key.sess.filter p).map (·.1)) fun m s => m.closeSession s

/-! ### Key-update messages -/

/-- Key that authenticates a message (R447). -/
def authKey (m : Mach) (ref : Nat) : Option (List Byte) :=
  if ref == 0 then m.mfgKey else (m.keySlot (ref % 256)).map (·.value)

/-- A key of the given algorithm and usage suits a slot (R445, R446). -/
def slotTakes (m : Mach) (k alg usage : Nat) : Bool :=
  k < 64 && (alg == 1 || (alg == 2 && k < 16)) && usageOk alg usage
    && match m.slotRec k with | some r => r.u8 5 == alg && r.u16 6 == usage | none => true

/-- Length of a message's value padded to 8 (R447). -/
def kuPad (b : List Byte) : Nat := 8 * ceilDiv (leAt b 36 4) 8

/-- Code of table R448 for a message; 0 accepts it. -/
def kuCode (m : Mach) (b : List Byte) : Nat :=
  let op := leAt b 6 1
  let alg := leAt b 30 1
  let flags := leAt b 31 1
  let len := leAt b 36 4
  let ref := leAt b 28 2
  let kind := ref / 256
  let form : Bool := leAt b 4 2 == 1 && leAt b 34 2 == 0 && flags < 2 && b.length == 72 + kuPad b
    && ((op == 1 && alg == 1 && len == 32 && flags == 1) || (op == 1 && alg == 2 && len == 2592)
      || (op == 2 && alg == 0 && len == 0))
  let authSlot : Bool := kind == 0 || (match m.keySlot (ref % 256) with | some s => bitOf s.usage 2 | none => false)
  let tag : Bool := match m.authKey ref with
    | some k => b.drop (b.length - 32) == kmac k "MZ4820-KEYUPD-MAC" (b.take (b.length - 32)) 32
    | none => false
  let slotOk : Bool := if op == 2 then leAt b 7 1 < 64 && leAt b 32 2 == 0 else m.slotTakes (leAt b 7 1) alg (leAt b 32 2)
  if leAt b 0 4 != 0x4B555044 then 0x10
  else if !form then 0x11
  else if sliceBytes b 8 16 != uidBytes then 0x12
  else if m.lifecycle == 4 then 0x18
  else if !authAccepted m.lifecycle kind || (kind == 0 && ref != 0) then 0x13
  else if !authSlot then 0x14
  else if !tag then 0x15
  else if leAt b 24 4 ≤ m.keyCounter then 0x16
  else if !slotOk then 0x17
  else 0

/-- Consequences of a changed slot (R450). -/
def slotChanged (m : Mach) (k : Nat) : Mach :=
  let m := m.closeWhere fun (_, s) => s.keyRef == 0x100 + k
  let scarf : Bool := match m.keySlot k with | some s => bitOf s.usage uSCARF | none => false
  let m := if m.fld Rg.VDEV_SCARF_KEY 5 0 == k && !scarf then m.setBit Rg.VDEV_SCARF_KEY 31 false else m
  m.showKeys

/-- A key-update message judged and carried out (R448, R449): its code. -/
def keyUpdate (m : Mach) (b : List Byte) : Mach × Nat :=
  let code := m.kuCode b
  let slot := leAt b 7 1
  let cnt := leAt b 24 4
  if code != 0 then ((m.bump Rg.KEY_KU_REJECT_CNT).journal 0x41 code slot cnt, code)
  else
    let raw := sliceBytes b 40 (leAt b 36 4)
    let pad := kmac ((m.authKey (leAt b 28 2)).getD []) "MZ4820-KEYUPD-ENC" (uidBytes ++ leBytes 4 cnt ++ leBytes 1 slot) raw.length
    let val := if bitOf (leAt b 31 1) 0 then xorBytes raw pad else raw
    let m := m.modKey fun k : KeySt => { k with
      slots := if leAt b 6 1 == 1 then kput k.slots slot ⟨leAt b 30 1, leAt b 32 2, val, cnt, m.lcCount⟩ else kdel k.slots slot
      hdr := some (cnt, m.floor) }
    let m := (m.slotChanged slot).fire Rg.KEY_IRQ_STATUS 4
    (m.journal 0x40 slot cnt (leAt b 6 1 <<< 16 ||| leAt b 28 2), 0)

/-! ### Start and resets -/

/-- KEYBLOB at a start: entries of another lc_count are erased, a successor is installed, the counter is the largest
valid one (R444, R449, R452). A fuse error is kept for the SAFETY section, which comes into force later in the start
(R126, R441). -/
def keysBoot (m : Mach) : Mach :=
  let live := m.key.slots.filter fun e => e.2.lc == m.lcCount
  let slots := match m.key.succ with
    | some (k, s) => if s.lc == m.lcCount then kput live k s else live
    | none => live
  let cnt := slots.foldl (fun v e => max v e.2.counter) m.keyCounter
  let m := m.modKey fun k : KeySt => { k with
    slots := slots
    succ := none
    hdr := k.hdr.map fun h => (cnt, h.2) }
  let m := if m.key.fuseBad then
      let (w, m) := m.draw
      m.modKey fun k => { k with fuseFault := some (w.toNat % 8) }
    else m
  m.showKeys

/-- KEY_FUSE raised to the SAFETY section once the image that holds it is in force, or the start has ended Stranded without
one: only then does the reaction that a record chooses exist (R126, R441; DEDUCED, log entry 73). -/
def raiseFuse (m : Mach) : Mach :=
  match m.key.fuseFault with
  | some w => (m.modKey fun k => { k with fuseFault := none }).raise 0x140 w
  | none => m

/-- The identity has been regenerated (R443). -/
def identityReady (m : Mach) : Mach :=
  if !m.keyRuns || m.key.fuseBad then m
  else
    let d := leBytes 32 (Config.sha3x256 idPublic).toNat
    let m := m.forAll (List.range 8) fun m w => m.wr (Rg.KEY_ID_HASH w) (leAt d (4 * w) 4)
    m.setBit Rg.KEY_STATUS 16 true

/-- Operations lost to a reset of the engine (R462). -/
def dropOps (k : KeySt) : List Nat := k.aborted ++ (k.cur.toList ++ k.queue).map (·.1)

/-- Reset of unit KEY asserts (R462). -/
def resetKey (m : Mach) : Mach :=
  let m := m.modKey fun k : KeySt => { k with
    aborted := dropOps k
    cur := none
    queue := []
    start := []
    waits := []
    nonces := []
    sess := []
    reply := [] }
  (m.coldUnit uKEY).showKeys

/-- A cold or warm reset also clears the lockout (R462). -/
def resetKeyModule (m : Mach) : Mach :=
  (m.modKey fun k => { k with openFails := 0, lockout := false }).resetKey

/-- Status word of a descriptor that ends with a code (R453). -/
def descStatus (code : Nat) : List Byte := leBytes 4 (0x80000000 ||| code)

/-- Status ABORTED in every descriptor that a reset caught (R462). -/
def keyRelease (mem : Mem) (m : Mach) : Mem × Mach :=
  (m.key.aborted.foldl (fun mem a => if (m.memIndex (a + 4)).any (fun k => k == 0 || k == 1 || k == 2 || k == 4)
      then memWrite mem (a + 4) (descStatus 7) else mem) mem,
    (m.modKey fun k => { k with aborted := [] }).showKeys)

/-! ### State block and nonces -/

/-- The state block (R456). -/
def stateBlock (m : Mach) : List Byte :=
  let held := m.rd Rg.BIST_HELD_LO + 2 ^ 32 * m.rd Rg.BIST_HELD_HI
  let unver := (List.range 38).countP fun p => m.fld (Rg.BIST_RESULT_0 + 4 * (p / 16)) (2 * (p % 16) + 1) (2 * (p % 16)) == 0
  let img := m.truss.image
  uidBytes ++ [m.lifecycle, Config.stepping.toNat, m.activeBank, m.lcCount].map (BitVec.ofNat 8)
    ++ leBytes 4 m.keyCounter ++ leBytes 4 m.floor ++ leBytes 4 ((img.map (·.serial)).getD 0)
    ++ leBytes 8 (m.rd64 Rg.TICK_COUNT_LO Rg.TICK_COUNT_HI)
    ++ leBytes 2 (m.fld Rg.BIST_RUN_INFO 31 16) ++ leBytes 1 (popCount 38 held) ++ leBytes 1 unver
    ++ List.replicate 20 0 ++ sliceBytes ((img.map (·.dig)).getD []) 0 64

/-- `n` words of 8 bytes of free value. -/
def freeWords (m : Mach) : Nat → List Byte × Mach
  | 0 => ([], m)
  | n + 1 =>
    let (v, m) := m.draw
    let (t, m) := m.freeWords n
    (leBytes 8 v.toNat ++ t, m)

/-- A fresh device nonce, kept among the 8 newest (R459). -/
def freshNonce (m : Mach) : List Byte × Mach :=
  let (n, m) := m.freeWords 4
  (n, m.modKey fun k => { k with nonces := (n :: k.nonces).take 8 })

/-- The oldest nonce is 1 s old (R459). -/
def nonceExpires (m : Mach) : Mach := m.modKey fun k => { k with nonces := k.nonces.dropLast }

/-! ### The operation queue -/

/-- A write of KEY_SUBMIT (R453): the engine takes it at once when idle, else queues it; a full queue answers a bus
error. -/
def keySubmit (m : Mach) (init v : Nat) : Mach × Bool :=
  let a := v &&& 0xFFFFFFE0
  if m.key.cur.isSome && 8 ≤ m.key.queue.length then ((m.fire Rg.KEY_IRQ_STATUS 1).answer .busError, false)
  else if m.key.cur.isSome then ((m.modKey fun k => { k with queue := k.queue ++ [(a, init)] }).showKeyStatus, true)
  else ((m.modKey fun k => { k with cur := some (a, init), start := k.slots }).showKeyStatus, true)

/-- A descriptor ends: the output length, then the status, are written with the submitter's rights; done is set. -/
def descEnd (mem : Mem) (m : Mach) (a init code out : Nat) : Mem × Mach :=
  let (mem, m) := (m.dmaWrite mem init (a + 20) (leBytes 4 out)).getD (mem, m)
  let (mem, m) := (m.dmaWrite mem init (a + 4) (descStatus code)).getD (mem, m)
  (mem, m.fire Rg.KEY_IRQ_STATUS 0)

/-- The running operation leaves and the next one is taken. -/
def keyNext (m : Mach) : Mach :=
  (m.modKey fun k : KeySt => { k with cur := k.queue.head?, queue := k.queue.tail, start := k.slots }).showKeyStatus

/-- An unknown op answers BAD_OP as soon as it is taken (R454). -/
def keyTake (mem : Mem) (m : Mach) : Nat → Mem × Mach
  | 0 => (mem, m)
  | n + 1 =>
    match m.key.cur with
    | none => (mem, m)
    | some (a, init) =>
      match m.dmaRead mem init a 32 with
      | none => keyTake mem (m.fire Rg.KEY_IRQ_STATUS 0).keyNext n
      | some d =>
        let m := m.chargeFab init 32
        if inSpan (leAt d 0 1) 1 4 then (mem, m)
        else
          let (mem, m) := descEnd mem m a init 1 0
          keyTake mem m.keyNext n

/-- An operation's result reported: a refusal reports its code; otherwise the output buffer is judged first, and one
that is too small or not writable leaves everything else as it was (R453). -/
def keyAnswer (mem : Mem) (m : Mach) (a init : Nat) (d : List Byte) (r : Mem × Mach × Nat × List Byte) : Mem × Mach :=
  let (mem', m', code, out) := r
  if code != 0 then descEnd mem' m' a init code 0
  else if leAt d 20 4 < out.length then descEnd mem m a init 3 0
  else match (if out.isEmpty then some (mem', m') else m'.dmaWrite mem' init (leAt d 24 8) out) with
    | some (mem', m') => descEnd mem' m' a init 0 out.length
    | none => descEnd mem m a init 2 0

/-- Input buffer of a descriptor with the submitter's rights. -/
def keyInput (mem : Mem) (m : Mach) (init : Nat) (d : List Byte) : Option (List Byte) :=
  if leAt d 16 4 == 0 then some [] else m.dmaRead mem init (leAt d 8 8) (leAt d 16 4)

/-- A slot as the running operation found it at its start (R450). -/
def startSlot (m : Mach) (k : Nat) : Option KSlot := if m.key.fuseBad then none else kget m.key.start k

/-- Result of MAC over a descriptor (R454). -/
def macOp (mem : Mem) (m : Mach) (init : Nat) (d : List Byte) : Mach × Nat × List Byte :=
  match m.startSlot (leAt d 1 1) with
  | some s =>
    if !bitOf s.usage 7 then (m, 5, [])
    else if !m.admits init (m.keyOwner (leAt d 1 1)) then (m, 6, [])
    else match keyInput mem m init d with
      | some x => (m.chargeFab init x.length, 0, kmac s.value "MZ4820-APP" x 32)
      | none => (m, 2, [])
  | none => (m, 5, [])

/-- Result of UPDATE (R449). -/
def updateOp (mem : Mem) (m : Mach) (init : Nat) (d : List Byte) : Mach × Nat × List Byte :=
  match keyInput mem m init d with
  | some x => let (m, c) := (m.chargeFab init x.length).keyUpdate x; (m, c, [])
  | none => (m, 2, [])

/-- The running operation completes, when it is the given op; its effect is `f` of the submitter and the
descriptor. -/
def keyOp (mem : Mem) (m : Mach) (op : Nat) (f : Nat → List Byte → Mem × Mach × Nat × List Byte) : Mem × Mach :=
  if !m.keyRuns then (mem, m)
  else match m.key.cur with
    | none => (mem, m)
    | some (a, init) =>
      match m.dmaRead mem init a 32 with
      | none => keyTake mem (m.fire Rg.KEY_IRQ_STATUS 0).keyNext 9
      | some d =>
        if leAt d 0 1 != op then (mem, m)
        else
          let (mem, m) := keyAnswer mem m a init d (f init d)
          keyTake mem m.keyNext 9

/-- EXPORT_ID waits for the identity (R443, R454). -/
def exportOp (mem : Mem) (m : Mach) : Mem × Mach :=
  if m.bit Rg.KEY_STATUS 16 then keyOp mem m 3 fun _ _ => (mem, m, 0, idPublic) else (mem, m)

end Mach

end Sys2Proof.Machine
end

