-- ==== Sys2Proof/Machine/Apply.lean ====
section
/-! DEFINITION. The truss loader: the registers that each section writes (R136, R216, R250, R256, R280, R293, R315),
the ownership tables (R58, R69), and the application of an image at a start (R65). -/

namespace Sys2Proof.Machine

/-- A value that the loader writes: address and whole register value. -/
abbrev LoadW := Nat × Nat

/-- Bit timing register from brp, N and the sample point (R256). -/
def bitTiming (brp n pm : Nat) : Nat :=
  let t1 := roundDiv (n * pm) 1000 - 1
  let t2 := n - 1 - t1
  brp <<< 24 ||| t1 <<< 16 ||| t2 <<< 8 ||| t2

/-- MEAS input number of an INPUT record (R178). -/
def measNo (r : Rec) : Nat := r.u8 5 + (if r.u8 4 == 0 then 0 else if r.u8 4 == 1 then 48 else 80)

/-- Registers written from one record of a section. -/
def recWrite (i : Image) (t : Nat) (r : Rec) : List LoadW :=
  match t, r.kind with
  | 5, 1 => [(Rg.TICK_PERIOD, r.u16 4), (Rg.TICK_PHASE, r.u16 6), (Rg.TICK_KERF, r.u16 8), (Rg.TICK_LOCK, r.u16 10),
      (Rg.TICK_CTRL, r.u8 12 <<< 1)]
  | 5, 2 => [(Rg.TICK_CLIENT_CFG (r.u8 4), r.u8 7 <<< 16 ||| r.u8 8 <<< 14 ||| r.u8 6 <<< 8 ||| (r.u8 5 - 1) <<< 2 ||| r.u8 9),
      (Rg.TICK_CLIENT_BUDGET (r.u8 4), r.u32 12)]
  | 6, 1 =>
    let n := r.u8 4
    [(Rg.LOAD_PROT_CFG n, r.u8 18 <<< 8 ||| r.u8 7), (Rg.LOAD_T_LIM n, r.u16 14), (Rg.LOAD_T_RETRY n, r.u16 16),
      (Rg.LOAD_DERATE_CFG n, r.u8 11 <<< 8 ||| r.u8 10)]
  | 6, 2 =>
    if r.u8 4 < 6 then [(Rg.LOAD_BANK_LIMIT (r.u8 4), r.u16 6)]
    else [(Rg.LOAD_MOD_LIMIT, r.u16 6), (Rg.LOAD_HEAT_LIMIT, r.u16 8)]
  | 7, 1 =>
    let n := measNo r
    [(Rg.MEAS_IN_CFG n, r.u16 12 <<< 16 ||| r.u8 14 <<< 14 ||| r.u8 15 <<< 8 ||| bitsOf (r.u8 6) 7 7 <<< 7
        ||| bitsOf (r.u8 6) 2 0 <<< 4 ||| r.u8 7),
      (Rg.MEAS_IN_LIMIT n, r.u16 10 <<< 16 ||| r.u16 8)]
  | 8, 1 =>
    let p := r.u8 4
    let md := r.u8 5
    [(Rg.SWC_PORT_CFG p, r.u16 6 <<< 20 ||| r.u8 8 <<< 12 ||| bitsOf md 7 5 <<< 9 ||| bitsOf md 3 2 <<< 7 ||| bitsOf md 1 1 <<< 1
        ||| bitsOf md 0 0), (Rg.SWC_PORT_CEIL p, r.u16 10)]
  | 8, 2 => [(Rg.SWC_PORT_MIN (r.u8 4) (r.u8 5), r.u16 6)]
  | 8, 3 => [(Rg.SWC_VLAN_MEMBER (r.u16 4), r.u32 8), (Rg.SWC_VLAN_UNTAG (r.u16 4), r.u32 12)]
  | 8, 5 =>
    let s := r.u16 4
    [(Rg.SWC_STR_MATCH s, r.u8 15 <<< 24 ||| r.u8 14 <<< 16 ||| r.u16 6), (Rg.SWC_STR_ADDR_LO s, r.u32 8),
      (Rg.SWC_STR_ADDR_HI s, 0x80000000 ||| r.u16 12), (Rg.SWC_STR_CIR s, r.u32 16), (Rg.SWC_STR_CBS s, r.u32 20)]
  | 8, 6 =>
    let p := r.u8 4
    [(Rg.SWC_GATE_STATES p (r.u8 5), r.u8 6), (Rg.SWC_GATE_DUR p (r.u8 5), r.u32 8),
      (Rg.SWC_PORT_GATE p, ((i.recs sSWITCH 6).countP fun x => x.u8 4 == p) <<< 1 ||| 1)]
  | 8, 7 => [(Rg.SWC_PORT_SHAPER (r.u8 4) (r.u8 5), r.u32 8)]
  | 8, 8 => [(Rg.SWC_FRER_CFG (r.u16 4), 0x80000000 ||| r.u16 6 <<< 16 ||| r.u16 8), (Rg.SWC_FRER_RESET (r.u16 4), r.u16 10)]
  | 9, 1 => [(Rg.PTP_DOM_CFG (r.u8 4), 0x80000000 ||| r.u8 5 <<< 16 ||| r.u8 6 <<< 8 ||| 0x1F), (Rg.PTP_DOM_PORTS (r.u8 4), r.u32 8)]
  | 9, 2 => [(Rg.PTP_PORT_TRIM (r.u8 4), r.u16 8 <<< 16 ||| r.u16 6)]
  | 9, 3 =>
    let k := r.u8 4
    [(Rg.PTP_TOUT_CFG k, r.u8 5), (Rg.PTP_TOUT_START_LO k, 0), (Rg.PTP_TOUT_START_HI k, 0), (Rg.PTP_TOUT_PERIOD k, r.u32 8),
      (Rg.PTP_TOUT_WIDTH k, r.u32 12)]
  | 10, 1 =>
    let c := r.u8 4
    let md := r.u8 5
    let nb := (canTiming (r.u32 8) 8 256 32).map fun x : Nat × Nat => bitTiming x.1 x.2 (r.u16 16)
    let db := (canTiming (r.u32 12) 4 128 8).map fun x : Nat × Nat => bitTiming x.1 x.2 (r.u16 16)
    [(Rg.MBUS_CFG c, r.u8 18 <<< 24 ||| r.u8 19 <<< 16 ||| r.u8 20 <<< 8 ||| md % 128), (Rg.MBUS_RXQ_SIZE c 0, r.u16 22)]
      ++ (nb.toList.map fun v => (Rg.MBUS_NBT c, v)) ++ (db.toList.map fun v => (Rg.MBUS_DBT c, v))
  | 10, 2 =>
    let f := r.u16 4
    let fl := r.u8 7
    [(fltReg f 0, 0x80000000 ||| r.u8 6 <<< 8 ||| bitsOf fl 6 4 <<< 4 ||| bitsOf fl 3 3 <<< 3 ||| bitsOf fl 2 2 <<< 2 ||| bitsOf fl 1 0),
      (fltReg f 4, r.u32 8), (fltReg f 8, r.u32 12)]
  | 10, 3 =>
    let c := r.u8 4
    [(Rg.MBUS_WUF_ID c, r.u32 8), (Rg.MBUS_WUF_ID_MASK c, r.u32 12), (Rg.MBUS_WUF_DLC c, r.u8 5), (Rg.MBUS_WUF_DATA_LO c, r.u32 16),
      (Rg.MBUS_WUF_DATA_HI c, r.u32 20), (Rg.MBUS_WUF_MASK_LO c, r.u32 24), (Rg.MBUS_WUF_MASK_HI c, r.u32 28)]
  | 11, 1 => [(Rg.LIN_CFG (r.u8 4), r.u32 8 % 65536 <<< 16 ||| r.u8 5)]
  | 11, 2 => [(Rg.LIN_SLOT (r.u8 4) (r.u8 5) (r.u8 6), 0x80000000 ||| r.u16 8 <<< 20 ||| r.u16 10 <<< 10 ||| r.u8 7)]
  | 12, 1 => [(Rg.SENT_CFG (r.u8 4), r.u8 5 <<< 24 ||| r.u32 8)]
  | 13, 1 =>
    let s := r.u8 4
    [(Rg.NM_SEG_CFG s, 0x88000000 ||| r.u8 5 <<< 30 ||| r.u8 6 <<< 29 ||| r.u8 7 <<< 16 ||| r.u16 8),
      (Rg.NM_SEG_TIMING s, r.u16 10 <<< 16 ||| r.u16 12)]
  | 14, 1 =>
    if pduKind r == 2 && pduId r < 0x3E then
      [(Rg.LIN_FRAME_CFG (pduIndex r) (pduId r), bitsOf (r.u8 7) 7 7 <<< 8 ||| pduLen r <<< 4 ||| (if pduTx r then 1 else 2))]
    else []
  | _, _ => []

/-- Registers written from a section, in record order. -/
def sectWrites (i : Image) (t : Nat) : List LoadW :=
  match i.sect t with
  | some s => (s.recs.map (recWrite i t)).flatten
  | none => []

/-- The registers of a section's elements: whether one belongs to the section, so that it returns to its cold value
when no record gives it one (R67). Command registers of a channel return only with the channel's record gone (R146). -/
def ofSection (i : Image) (t : Nat) (h : Hit) : Bool :=
  let rec' (key : Nat) : Bool := match h.idx with | n :: _ => (i.recBy t 1 (·.u8 key) n).isSome | [] => true
  match t, h.d.name with
  | 5, .TICK_CLIENT_CFG | 5, .TICK_CLIENT_BUDGET => true
  | 6, .LOAD_PROT_CFG | 6, .LOAD_T_LIM | 6, .LOAD_T_RETRY | 6, .LOAD_DERATE_CFG | 6, .LOAD_BANK_LIMIT | 6, .LOAD_MOD_LIMIT
  | 6, .LOAD_HEAT_LIMIT => true
  | 6, .LOAD_CTRL | 6, .LOAD_DUTY | 6, .LOAD_PERIOD | 6, .LOAD_PHASE | 6, .LOAD_IRQ_EN | 6, .LOAD_IRQ_STATUS => !rec' 4
  | 7, .MEAS_IN_CFG | 7, .MEAS_IN_LIMIT => true
  | 8, .SWC_PORT_CFG | 8, .SWC_PORT_CEIL | 8, .SWC_PORT_MIN | 8, .SWC_PORT_SHAPER | 8, .SWC_PORT_GATE | 8, .SWC_GATE_STATES
  | 8, .SWC_GATE_DUR | 8, .SWC_VLAN_MEMBER | 8, .SWC_VLAN_UNTAG | 8, .SWC_STR_MATCH | 8, .SWC_STR_ADDR_LO
  | 8, .SWC_STR_ADDR_HI | 8, .SWC_STR_CIR | 8, .SWC_STR_CBS | 8, .SWC_FRER_CFG | 8, .SWC_FRER_RESET => true
  | 9, .PTP_DOM_CFG | 9, .PTP_DOM_PORTS | 9, .PTP_PORT_TRIM | 9, .PTP_TOUT_CFG | 9, .PTP_TOUT_START_LO | 9, .PTP_TOUT_START_HI
  | 9, .PTP_TOUT_PERIOD | 9, .PTP_TOUT_WIDTH => true
  | 9, .PTP_TOUT_IRQ_EN | 9, .PTP_TOUT_IRQ_STATUS =>
    (match h.idx with | n :: _ => (i.recBy t 3 (·.u8 4) n).isNone | [] => false)
  | 10, .MBUS_CFG | 10, .MBUS_NBT | 10, .MBUS_DBT | 10, .MBUS_FLT_CFG | 10, .MBUS_FLT_ID | 10, .MBUS_FLT_MASK | 10, .MBUS_WUF_ID
  | 10, .MBUS_WUF_ID_MASK | 10, .MBUS_WUF_DLC | 10, .MBUS_WUF_DATA_LO | 10, .MBUS_WUF_DATA_HI | 10, .MBUS_WUF_MASK_LO
  | 10, .MBUS_WUF_MASK_HI => true
  | 10, .MBUS_CTRL | 10, .MBUS_IRQ_EN | 10, .MBUS_IRQ_STATUS | 10, .MBUS_QUEUE_EVENT | 10, .MBUS_RXQ_SIZE | 10, .MBUS_RXQ_BASE_LO
  | 10, .MBUS_RXQ_BASE_HI | 10, .MBUS_RXQ_CTRL | 10, .MBUS_TXQ_SIZE | 10, .MBUS_TXQ_BASE_LO | 10, .MBUS_TXQ_BASE_HI
  | 10, .MBUS_TXQ_CTRL | 10, .MBUS_TXQ_TAIL => !rec' 4
  | 11, .LIN_CFG | 11, .LIN_SLOT => true
  | 11, .LIN_CTRL | 11, .LIN_IRQ_EN | 11, .LIN_IRQ_STATUS | 11, .LIN_FRAME_DATA_LO | 11, .LIN_FRAME_DATA_HI => !rec' 4
  | 12, .SENT_CFG => true
  | 12, .SENT_IRQ_EN | 12, .SENT_IRQ_STATUS => !rec' 4
  | 13, .NM_SEG_CFG | 13, .NM_SEG_TIMING => true
  | 13, .NM_SEG_MSG | 13, .NM_SEG_CTRL | 13, .NM_SEG_USER_LO | 13, .NM_SEG_USER_HI | 13, .NM_SEG_IRQ_EN | 13, .NM_SEG_IRQ_STATUS =>
    !rec' 4
  | 14, .LIN_FRAME_CFG => true
  | _, _ => false

/-- Mask of the fields that firmware or the loader may write. -/
def writable (d : RegDesc) : Nat := d.maskIf fun f => f.acc == .rw || f.acc == .rwt || f.acc == .w1s

namespace Mach

/-- Registers that a re-application of a section would change: those of its records, and those of its elements
without a record, which return to their cold values (R67). -/
def liveWrites (m : Mach) (i : Image) (t : Nat) : List LoadW :=
  let ws := sectWrites i t
  let known := m.regs.map (·.1) ++ m.stage.c.map (·.addr) ++ m.stage.l.map (·.addr) ++ m.stage.p.map (·.addr)
  let cold := (known.eraseDups).filterMap fun a =>
    if ws.any (·.1 == a) then none
    else match findReg a with
      | some h => if ofSection i t h then some (a, resetOf h) else none
      | none => none
  ws ++ cold

/-- Status bits of elements without a record return to their cold values with a re-application (R67, R146). -/
def liveStatus (m : Mach) (i : Image) (t : Nat) : Mach :=
  m.forAll (m.regs.map (·.1)) fun m a => match findReg a with
    | some h => if ofSection i t h then m.wr a (bitsOutside (m.rd a) (h.d.maskIf (·.acc == .w1c))) else m
    | none => m

/-- A register set by the loader at once: every writable field takes the value. -/
def loaderSet (m : Mach) (w : LoadW) : Mach :=
  match findReg w.1 with
  | some h => m.wr w.1 (mergeBits (m.rd w.1) w.2 (writable h.d))
  | none => m

/-! ### Ownership tables -/

/-- LATH_CHAN_OWNER and LOAD_OWNER follow the claims in force (R58). -/
def showOwners (m : Mach) : Mach :=
  let m := m.forAll (List.range 24) fun m c =>
    let a := Rg.LATH_CHAN_OWNER (c / 16) (c % 16)
    if c == 0 || c == 16 then m.wr a 0x1100C
    else match m.claimOf 5 c with
      | some o => m.wr a (0x10000 ||| o)
      | none => m.wr a 0
  m.forAll (List.range 48) fun m n => m.setLoadOwner n (m.ownerOr 2 n uLOAD)

/-- The ownership tables of the image in force, with the given slots, take force. -/
def installOwners (m : Mach) (slots : List VSlot) : Mach := (m.reclaim slots).showOwners

/-! ### Rest pattern (R71 to R73) -/

/-- The rest pattern of an image. -/
def restPattern (i : Image) : List RestEnt :=
  (List.range 48).map fun n => match i.recBy sLOAD 1 (·.u8 4) n with
    | some r => ⟨r.u8 5, r.u8 6, r.u16 12, r.u16 20, r.u8 19⟩
    | none => {}

/-- TRUSS_STORE_STATUS shows the latch. -/
def showStore (m : Mach) : Mach :=
  let l := m.truss.latch
  let m := m.setFld Rg.TRUSS_STORE_STATUS 5 4 (flagNat l.copy0.good ||| flagNat l.copy1.good <<< 1)
  m.setFld Rg.TRUSS_STORE_STATUS 31 16 ((m.latchInUse.map (·.seq)).getD 0)

/-- The loader hands the pattern to the P-die; a pattern that the copy in use holds is never rewritten. -/
def handOff (m : Mach) (i : Image) : Mach :=
  let p := restPattern i
  let same : Bool := match m.latchInUse with | some c => c.pat == p | none => false
  { m with truss := { m.truss with latch := { m.truss.latch with handoff := if same then none else some p, tries := 0 } } }

/-- Copy of the latch that the next write goes to: the one not in use, or copy 0. -/
def latchTarget (m : Mach) : Nat :=
  let l := m.truss.latch
  if l.copy0.good && (!l.copy1.good || l.copy1.seq < l.copy0.seq) then 1 else 0

/-- The P-die has written the pattern and verified it (R71 to R73). -/
def latchWrite (m : Mach) (ok : Bool) : Mach :=
  match m.truss.latch.handoff with
  | none => m
  | some p =>
    let k := m.latchTarget
    let l := m.truss.latch
    let seq := ((m.latchInUse.map (·.seq)).getD 0 + 1) % 2 ^ 32
    let put (c : LatchCopy) (l : LatchSt) : LatchSt := if k == 0 then { l with copy0 := c } else { l with copy1 := c }
    if ok then
      let m := { m with truss := { m.truss with latch := put ⟨seq, true, p⟩ { l with handoff := none, tries := 0 } } }
      (m.showLatch).showStore
    else if l.tries == 0 then
      ({ m with truss := { m.truss with latch := put ⟨seq, false, p⟩ { l with tries := 1 } } }).showStore
    else
      let m := { m with truss := { m.truss with latch := put ⟨seq, false, p⟩ { l with handoff := none, tries := 0 } } }
      (((m.fire Rg.TRUSS_IRQ_STATUS 4).journal 0x33 k seq).raise 0x100 k).showStore

/-! ### Sections at a start -/

/-- Cores of the PARTITION records: one entry per initiator, with its sapwood and its heartwood partition (R358). -/
def coresOf (i : Image) : List (Nat × Core) :=
  let coded := !i.split
  let named (id w : Nat) : Option Nat :=
    ((i.recs sPARTS 2).find? fun r => r.u8 5 == w && (recCores coded r).contains id).map (·.u8 4)
  ((List.range 4) ++ (List.range 12).map (0x10 + ·)).filterMap fun id =>
    let s := named id 0
    let h := named id 1
    if s.isSome || h.isSome then some (id, { sap := s, heart := h }) else none

/-- PARTITIONS: mode and cores; every partition with a record is held (R358, R369). -/
def applyParts (m : Mach) (i : Image) : Mach :=
  let d := ((i.recs sPARTS 1).head?.map (·.u8 5)).getD 8
  let m := { m with fab := { m.fab with cores := coresOf i, coded := !i.split } }
  let m := m.forAll (List.range 6) fun m c => m.wr (Rg.CHK_CFG c) (flagNat i.split <<< 8 ||| d)
  m.forAll (i.recs sPARTS 2) fun m r =>
    (m.setFld (Rg.FAB_PART_STATUS (r.u8 4)) 11 0 (r.u32 8)).setPartState (r.u8 4) 1

/-- A region from its record (R362). -/
def regionOf (r : Rec) : Region :=
  let a := r.u16 18
  ⟨r.u64 4, r.u32 12, r.u16 16, bitOf a 0, bitOf a 1, bitOf a 2, bitOf a 3, bitOf a 5, bitOf a 6⟩

/-- MEMORY: fitted memories and regions. -/
def applyMemory (m : Mach) (i : Image) : Mach :=
  let e := (i.recs sMEMORY 1).head?
  { m with
    memc := { m.memc with lpddrGib := (e.map (·.u16 4)).getD 0, xspiMib := (e.map (·.u16 6)).getD 0 }
    truss := { m.truss with regions := (i.recs sMEMORY 2).map regionOf } }

/-- Static MAC entries of a SWITCH section join the table (R216). Other static entries stay, as only what R198 lists removes
them, and dynamic entries as far as the table holds them. -/
def applyMacs (m : Mach) (i : Image) : Mach :=
  let st := (i.recs sSWITCH 4).map fun r => (⟨leAt r.bytes 4 6, r.u16 10, r.u32 12, true, 0⟩ : MacEnt)
  let rest := m.swc.macs.filter fun e => !st.any fun s => s.mac == e.mac && s.vid == e.vid
  m.setMacs ((st ++ rest.filter (·.static) ++ rest.filter (!·.static)).take 8192)

/-- BENT: the duties in their initial owners. -/
def applyDuties (m : Mach) (i : Image) : Mach :=
  let m := m.forAll (i.recs sBENT 1) fun m r =>
    let d := r.u8 4
    let m := m.wr (Rg.BENT_DUTY d) (0x80000000 ||| r.u8 5 <<< 29 ||| r.u8 7 <<< 24 ||| r.u8 6 <<< 20)
    if d < 32 then m.setFld Rg.BENT_OWNER_LO d d (r.u8 5) else m.setFld Rg.BENT_OWNER_HI (d - 32) (d - 32) (r.u8 5)
  m

/-- Reactions that the REACTION records of the image in force choose: code, reaction (R126). -/
def recReactions (m : Mach) : List (Nat × Nat) :=
  match m.truss.image with
  | some i => (i.recs sSAFETY 1).map fun r => (r.u16 4, r.u8 6)
  | none => []

/-- Reaction to a fault code: its REACTION record's or the default (R126). While a reset is asserting, the records are
those that were in force at its assertion (R128). -/
def reactionTo (m : Mach) (code : Nat) : Nat :=
  kgetD (if m.rst.cReset then m.rst.react else m.recReactions) code (defaultReaction code)

/-- SAFETY: the reactions shown by every checker (R384). -/
def applySafety (m : Mach) : Mach :=
  m.forAll (List.range 6) fun m c => m.wr (Rg.CHK_REACT c) (m.reactionTo 0x121 <<< 8 ||| m.reactionTo 0x120)

/-- Whether a held BIST partition keeps the loader from a section's element (R123). -/
def loaderSkips (m : Mach) (a : Nat) : Bool :=
  match findReg a, unitAt a with
  | some h, some (u, _) => m.bistBlock u none || (match h.elem a with | some (v, e) => m.bistBlock v (some e) | none => false)
  | _, _ => false

/-- One section written directly as values in force (R65). -/
def applySect (m : Mach) (i : Image) (t : Nat) : Mach :=
  let m := m.forAll (sectWrites i t) fun m w => if m.loaderSkips w.1 then m else m.loaderSet w
  if t == sPINS then
    ({ m with truss := { m.truss with pins := (i.recs sPINS 1).map fun r : Rec => (r.u16 4, r.u8 6, r.u8 7, r.u16 8) } }).loadPorts
  else if t == sPARTS then m.applyParts i
  else if t == sMEMORY then m.applyMemory i
  else if t == sSWITCH then (if m.bistBlock uSWC none then m else m.applyMacs i)
  else if t == sGATEWAY then (if m.bistBlock uGWY none then m else m.gwyApply i)
  else if t == sVDEV then (if m.bistBlock uVDEV none then m else m.vdevLoad i)
  else if t == sLOAD then m.forAll (List.range 48) fun m n => m.applyProt n
  else if t == sBENT then m.applyDuties i
  else if t == sSAFETY then m.applySafety
  else m

/-- A section of the running image, if it has one, written again at the release of its unit (R208, R253, R279, R294). -/
def reapply (m : Mach) (t : Nat) : Mach :=
  match m.truss.image with
  | some i => if (i.sect t).isSome then m.applySect i t else m
  | none => m

/-- Every section of an image applied in section table order, with its ownership tables (R65); a cold start hands off the
rest pattern (R71). -/
def applyImage (m : Mach) (i : Image) : Mach :=
  let m := { m with truss := { m.truss with image := some i } }
  let m := m.forAll i.sects fun m s => m.applySect i s.typ
  let m := if m.rst.warmStart then m else m.handOff i
  (m.installOwners m.vdev.slots).showKeys.showStore

end Mach

end Sys2Proof.Machine
end

