-- ==== Sys2Proof/Machine/Truss.lean ====
section
/-! DEFINITION. Live application (R66 to R70) and the ownership query (R58, R499). -/

namespace Sys2Proof.Machine

/-- LIVE sections of an image whose digest differs from the running image's section of the same type (R66). -/
def liveSections (run new : Image) : List Nat :=
  (new.sects.filter fun s => s.live && (match run.sect s.typ with | some o => o.digest != s.digest | none => true)).map (·.typ)

namespace Mach

/-- A command is under way or the command is taken (R66, R70). The spec does not say at which instant the slot is read into
the copy that is verified (R56); the model reads it with the command: `copy` holds its bytes (DESIGN CHOICE, log entry 72). -/
def liveCmd (m : Mach) (copy : List Byte) (v : Nat) : Mach :=
  if !bitOf v 0 then m
  else if m.truss.live.isSome then m.fire Rg.TRUSS_IRQ_STATUS 7
  else
    let m := { m with truss := { m.truss with live := some { slot := bitsOf v 1 1, delay := bitsOf v 31 16, copy := copy } } }
    m.setFld Rg.TRUSS_STATUS 2 0 1

/-- TRUSS_RESULT, TRUSS_DETAIL and the conflicting records of a verdict (R57, R59). -/
def showVerdict (m : Mach) (v : Verdict) (live : Bool) : Mach :=
  ((((m.wr Rg.TRUSS_RESULT v.code).wr Rg.TRUSS_DETAIL v.detail).wr Rg.TRUSS_CONFLICT_A v.confA).wr Rg.TRUSS_CONFLICT_B v.confB).setBit
    Rg.TRUSS_STATUS 3 live

/-- The end of the checks of a live application: it waits for its tick, or ends with TRUSS_REJECTED (R56, R66). Checks that
end inside a kerf have missed its start. -/
def liveChecked (m : Mach) (j : LiveJob) (v : Verdict) : Mach :=
  let m := m.showVerdict v true
  match v.img with
  | some i => ({ m with truss := { m.truss with live := some { j with img := some i, copy := [], edges := 0, tried := m.inKerf } } }).setFld Rg.TRUSS_STATUS 2 0 2
  | none =>
    let m := { m with truss := { m.truss with live := none } }
    ((m.setFld Rg.TRUSS_STATUS 2 0 0).journal 0x21 v.code v.detail j.slot).fire Rg.TRUSS_IRQ_STATUS 1

/-- The checks of a live application are complete (R56, R66). -/
def liveVerified (m : Mach) : Mach :=
  match m.truss.live with
  | some j =>
    if j.img.isSome || m.fld Rg.TRUSS_STATUS 2 0 != 1 then m
    else m.liveChecked j (m.verify j.copy m.truss.image)
  | none => m

/-- Writes that the re-application of sections needs; a channel that loses its record is commanded OFF (R146). -/
def liveList (m : Mach) (i : Image) (ts : List Nat) : List LoadW :=
  let lost : List LoadW := if !ts.contains sLOAD then [] else match m.truss.image with
    | some run => ((run.recs sLOAD 1).filter fun r => (i.recBy sLOAD 1 (·.u8 4) (r.u8 4)).isNone).map fun r => (Rg.LOAD_CTRL (r.u8 4), 0)
    | none => []
  let ws := (ts.map fun t => m.liveWrites i t).flatten
  ws.filter (fun w => !lost.any (·.1 == w.1)) ++ lost

/-- Die that a register lies on. -/
def dieOf (a : Nat) : Option FarDie := match findReg a with | some h => h.far a | none => none

/-- A pending write is of the register at `a`, through a LOAD window too. -/
def pendingAt (m : Mach) (a : Nat) : Bool :=
  (m.stage.c ++ m.stage.l ++ m.stage.p).any fun e => e.addr == a ||
    match loadWindow e.addr with
    | some (_, o) => e.members.any fun n => a == 0x42000000 + 0x100 * n + o
    | none => false

/-- A write of the loader that a re-application makes changes what is in force, or overrides a pending write (R68). -/
def liveNeeds (m : Mach) (w : LoadW) : Bool :=
  match findReg w.1 with
  | some h =>
    let k := writable h.d
    h.d.name == .LOAD_CTRL || m.rd w.1 &&& k != w.2 &&& k || m.pendingAt w.1
  | none => false

/-- One write of a live application staged (R68). -/
def liveStageOne (m : Mach) (w : LoadW) : Mach :=
  match findReg w.1 with
  | some h =>
    let mem := match loadWindow w.1 with | some (ns, _) => ns | none => []
    (m.stageWrite (h.far w.1) { addr := w.1, mask := writable h.d, val := w.2, init := idLOADER, live := true, members := mem }).1
  | none => m

/-- Free entries of the far staging queues suffice for a list of writes (R33, R68). -/
def liveFits (m : Mach) (ws : List LoadW) : Bool :=
  let l := ws.countP fun w => dieOf w.1 == some .l
  let p := ws.countP fun w => dieOf w.1 == some .p
  stgCount m.stage.l + l ≤ capL && stgCount m.stage.p + p ≤ capP

/-- All values of sections staged at a kerf start; none when the staging queues are too full. -/
def liveWriteAll (m : Mach) (i : Image) (ts : List Nat) : Option Mach :=
  let ws := (m.liveList i ts).filter m.liveNeeds
  if m.liveFits ws then some (m.forAll ws fun m w => m.liveStageOne w) else none

/-- The kerf start in which the loader writes the values (R68). -/
def liveStage (m : Mach) : Mach :=
  match m.truss.live, m.truss.image with
  | some j, some run =>
    match j.img with
    | some i =>
      if j.staged || j.tried || !m.inKerf || j.edges < j.delay then m
      else
        match m.liveWriteAll i (liveSections run i) with
        | some m => ({ m with truss := { m.truss with live := some { j with staged := true, tried := true } } }).setFld Rg.TRUSS_STATUS 2 0 3
        | none =>
          if j.deferrals < 16 then
            { m with truss := { m.truss with live := some { j with deferrals := j.deferrals + 1, tried := true } } }
          else
            let m := { m with truss := { m.truss with live := none } }
            ((m.setFld Rg.TRUSS_STATUS 2 0 0).journal 0x23 1 i.serial j.slot).fire Rg.TRUSS_IRQ_STATUS 2
    | none => m
  | _, _ => m

/-- Sections that a live application of an image applies (R66). -/
def liveTypes (m : Mach) (i : Image) : List Nat := match m.truss.image with | some run => liveSections run i | none => []

/-- The image of a live application in force with its ownership tables. Where its VDEV section is not applied, slots that
were re-divided keep the load channels that they hold (R66, R433). -/
def liveOwners (m : Mach) (i : Image) (ts : List Nat) : Mach :=
  ({ m with truss := { m.truss with image := some i } }).installOwners (if ts.contains sVDEV then quotaSlots i else m.vdev.slots)

/-- What the sections of a live image change beside registers: ownership, static MAC entries, PDUs and routes,
instances, the rest pattern (R67, R69, R71). -/
def liveTables (m : Mach) (i : Image) (ts : List Nat) : Mach :=
  let old := m.truss.image.map restPattern
  let m := m.liveOwners i ts
  let m := if ts.contains sLOAD && old != some (restPattern i) then m.handOff i else m
  let m := m.forAll ts fun m t => m.liveStatus i t
  let m := if ts.contains sSWITCH then m.applyMacs i else m
  let m := if ts.contains sGATEWAY then m.gwyApply i else m
  let m := if ts.contains sVDEV then m.vdevLive i else m
  m

/-- The bank of the running image becomes the active slot (R69). -/
def setActive (mem : Mem) (m : Mach) (bank : Nat) : Mem × Mach :=
  (writeHdr mem { readHdr mem with bank := bank }, m.setFld Rg.TRUSS_STATUS 4 4 bank)

/-- The commit edge of a staged live application (R69). The commit tick of LIVE_APPLIED (R79) is the TICK_COUNT of the tick
that starts at the edge; the spec does not say which of the two ticks it means (DESIGN CHOICE, log entry 72). -/
def liveCommit (mem : Mem) (m : Mach) : Mem × Mach :=
  match m.truss.live, m.truss.image with
  | some j, some run =>
    match j.img with
    | some i =>
      if j.staged then
        let m := m.liveTables i (liveSections run i)
        let (mem, m) := setActive mem { m with truss := { m.truss with live := none } } j.slot
        (mem, ((m.setFld Rg.TRUSS_STATUS 2 0 0).journal 0x22 i.serial (m.rd Rg.TICK_COUNT_LO) j.slot).fire Rg.TRUSS_IRQ_STATUS 0)
      else (mem, { m with truss := { m.truss with live := some { j with edges := j.edges + 1, tried := false } } })
    | none => (mem, m)
  | _, _ => (mem, m)

/-! ### Ownership query -/

/-- Unit of an unclaimed virtual device resource (tables R423, R499); none for an index that no slot can name. -/
def quotaUnit (k i : Nat) : Option Nat :=
  if k == kRXQ || k == kTXQ then (if i < 96 && i % 8 != 0 then some uMBUS else none)
  else if k == kRING then (if 1 ≤ i && i < 8 then some uEPORT else none)
  else if k == kLOAD then (if i < 48 then some uLOAD else none)
  else if k == kROUTES then (if i < 8192 then some uGWY else none)
  else if k == kPDUS then (if i < 4096 then some uGWY else none)
  else if k == kBW then (if i == 0 then some uFAB else none)
  else none

/-- Owner of a resource ID; none when the query is invalid. -/
def ownerQuery (m : Mach) (cls idx : Nat) : Option Nat :=
  if cls == 7 then
    match (if m.fab.coded && 0x86 ≤ idx then none else defaultUnit 7 idx) with
    | none => none
    | some u =>
      let c := m.truss.claims.filter fun c => c.cls == 7 && c.idx == idx
      some (((c.find? (·.fn == 0)).orElse fun _ => c.head?).map (·.owner) |>.getD (ownUnit u))
  else if cls == 8 then
    let k := idx / 65536
    let i := idx % 65536
    match quotaUnit k i with
    | none => none
    | some u =>
      let wide := k == kROUTES || k == kPDUS
      some (((m.vdev.slots.find? fun s => s.kind == k && (s.idx == i || (wide && s.idx ≤ i && i < s.idx + s.amt))).map
        fun s => ownInst s.inst).getD (ownUnit u))
  else if cls == 9 then
    match (m.truss.image.bind (·.sect sMEMORY)).bind fun s => s.recs[idx]? with
    | some r => if r.kind == 2 then some (r.u16 16) else none
    | none => none
  else match defaultUnit cls idx with
    | some u => some (m.ownerOr cls idx u)
    | none => none

/-- A write of TRUSS_OWNER_QUERY. -/
def ownerAsk (m : Mach) (v : Nat) : Mach :=
  let m := m.wr Rg.TRUSS_OWNER_QUERY v
  match m.ownerQuery (v / 2 ^ 24) (v % 2 ^ 24) with
  | some o => m.wr Rg.TRUSS_OWNER_RESULT o
  | none => m.wr Rg.TRUSS_OWNER_RESULT 0x10000

end Mach

end Sys2Proof.Machine
end

