-- ==== Sys2Proof/Machine/Owner.lean ====
section
/-! DEFINITION. The owner of every register (R58, R62, R135, R250, R252, R260, R277, R295, R316, R330, R363, R425) and
what the owner answers to a write; what the change of owners at a live application drops (R69). -/

namespace Sys2Proof.Machine

/-- Registers of a load channel that belong to the channel's owner (table R135). -/
def chanOwned (n : RegName) : Bool :=
  n == .LOAD_CTRL || n == .LOAD_DUTY || n == .LOAD_PERIOD || n == .LOAD_PHASE || n == .LOAD_FAULT || n == .LOAD_IRQ_EN
    || n == .LOAD_IRQ_STATUS

/-- Words of a filter (R260). -/
def isFilter (n : RegName) : Bool := n == .MBUS_FLT_CFG || n == .MBUS_FLT_ID || n == .MBUS_FLT_MASK

/-- Ring registers of an internal port (R231). -/
def isRing (n : RegName) : Bool :=
  n == .EPORT_RING_CTRL || n == .EPORT_TX_BASE_LO || n == .EPORT_TX_BASE_HI || n == .EPORT_RX_BASE_LO || n == .EPORT_RX_BASE_HI
    || n == .EPORT_TX_SIZE || n == .EPORT_TX_TAIL || n == .EPORT_RX_SIZE || n == .EPORT_RX_TAIL || n == .EPORT_RX_MAC_LO
    || n == .EPORT_RX_MAC_HI || n == .EPORT_TX_HEAD || n == .EPORT_RX_HEAD

/-- Registers of a receive or transmit queue that its owner writes. -/
def isRxq (n : RegName) : Bool :=
  n == .MBUS_RXQ_BASE_LO || n == .MBUS_RXQ_BASE_HI || n == .MBUS_RXQ_CTRL || n == .MBUS_RXQ_ACK || n == .MBUS_RXQ_SIZE
def isTxq (n : RegName) : Bool :=
  n == .MBUS_TXQ_BASE_LO || n == .MBUS_TXQ_BASE_HI || n == .MBUS_TXQ_CTRL || n == .MBUS_TXQ_TAIL || n == .MBUS_TXQ_SIZE

/-- Acceptance that depends on a condition alone. -/
def admitIf (b : Bool) : Admit := if b then .accept none else .refuse

namespace Mach

/-- The answer of an owner, an instance's window included (R62, R425): the host partition is refused in FREEZING and
FROZEN. -/
def ownAdmit (m : Mach) (init own : Nat) : Admit :=
  let i := own % 0x1000
  if own / 0x1000 == 3 && init != idLOADER && (m.instPart i).isSome && m.partOf init == m.instPart i
      && (m.instState i == 2 || m.instState i == 3) then .refuse
  else m.ownerAdmits init own

/-- As `ownAdmit`, with heartwood accepted besides (R100, R316, R363). -/
def ownOrHeart (m : Mach) (init own : Nat) : Admit :=
  match m.ownAdmit init own with
  | .refuse => admitIf (m.isHeart init)
  | a => a

/-- Owner in force of a load channel, MBUS channel, LIN channel or SENT input. -/
def chanOwner (m : Mach) (n : Nat) : Nat := m.ownerOr 2 n uLOAD
def mbusOwner (m : Mach) (c : Nat) : Nat := m.ownerOr 3 c uMBUS
/-- LIN8 to LIN11 share their pools with SENT4 to SENT7 (R58), so the owner is that of the element's own record. -/
def linOwner (m : Mach) (c : Nat) : Nat :=
  (((m.truss.image.bind fun i => i.recBy sLIN 1 (·.u8 4) c)).map (·.u16 6)).getD (ownUnit uLIN)
def sentOwner (m : Mach) (n : Nat) : Nat :=
  (((m.truss.image.bind fun i => i.recBy sSENT 1 (·.u8 4) n)).map (·.u16 6)).getD (ownUnit uSENT)

/-- Owner of the channel that a segment's NM_SEG_CFG names (R296, R316). -/
def nmOwner (m : Mach) (s : Nat) : Nat :=
  if m.segLin s then m.linOwner (m.segCh s) else if m.segCan s then m.mbusOwner (m.segCh s) else ownUnit uNM

/-- Owner of an element for its reset (R100). -/
def elemOwner (m : Mach) (u i : Nat) : Nat :=
  if u == uLOAD then m.chanOwner i
  else if u == uMBUS then m.mbusOwner i
  else if u == uLIN then m.linOwner i
  else if u == uSENT then m.sentOwner i
  else ownUnit u

/-- The endpoint of an internal port (R231). -/
def ringAdmit (m : Mach) (init p r : Nat) : Admit :=
  if p == 18 then
    match m.slotOf kRING r with
    | some s => m.ownAdmit init (ownInst s.inst)
    | none => admitIf (m.isHeart init || (match m.partOf init with | some q => !m.partSafe q | none => false))
  else
    admitIf (m.isHeart init || (match m.partOf init with | some q => m.partBent q == some (p - 19) | none => false))

/-- A filter write (R260): the owners of the channel in force and of the pending one must both accept. -/
def filterAdmit (m : Mach) (init a : Nat) : Admit :=
  let cfg := a - a % 16
  let c0 := m.fld cfg 11 8
  let c1 := m.nextFld cfg 11 8
  let of (c : Nat) : Admit := m.ownOrHeart init (if c < 12 then m.mbusOwner c else ownUnit uMBUS)
  match of c0, of c1 with
  | .accept t, .accept _ => .accept t
  | .shadow b d, .shadow _ _ => .shadow b d
  | _, _ => .refuse

/-- What the owner of the register at `a` answers to a write of `init`. -/
def regAdmit (m : Mach) (init a : Nat) (h : Hit) (v : Nat) : Admit :=
  let unit : Nat := match unitAt a with | some (u, _) => u | none => 0
  if init == idLOADER then .accept none
  else
    let heart := m.isHeart init
    let name := h.d.name
    match name, h.idx with
    | .TICK_DONE, _ => admitIf (heart || (m.partOf init).isSome)
    | .KEY_SUBMIT, _ => admitIf (heart || (m.partOf init).isSome)
    | .RSTC_MODE_CMD, _ => .accept none
    | .RSTC_WDT_KICK, [n] => admitIf (heart || m.partOf init == some n)
    | .RSTC_ELEM_RST, _ => m.ownOrHeart init (m.elemOwner (bitsOf v 28 24) (bitsOf v 15 0))
    | .LOAD_SYNC_CFG, [k] => m.ownAdmit init (m.ownerOr 2 (48 + k) uLOAD)
    | .VDEV_REDIV, _ => admitIf (m.redivAdmits init v)
    | .WORLD_DBG_REQ, _ | .WORLD_DBG_LOCK, _ | .WORLD_DBG_RESP, _ => admitIf (heart || init == idDEBUG)
    | .WORLD_HW_READY, [p] => admitIf (m.partOf init == some p)
    | .GWY_BOUT_A, d :: _ => admitIf (heart || (m.dutyValid d && m.partOf init == some (m.dutyPart d 0)))
    | .GWY_BOUT_B, d :: _ => admitIf (heart || (m.dutyValid d && m.partOf init == some (m.dutyPart d 1)))
    | .IRQ_SRC_CFG, [n] => m.ownOrHeart init (m.irqOwner n)
    | .IRQ_CLAIM, [t] | .IRQ_EOI, [t] => admitIf (init == coreOfTarget t)
    | .UPD_HANDOFF_LO, [p] | .UPD_HANDOFF_HI, [p] | .UPD_CONFIRM, [p] => admitIf (m.partOf init == some p)
    | .PTP_TOUT_CFG, [k] | .PTP_TOUT_START_LO, [k] | .PTP_TOUT_START_HI, [k] | .PTP_TOUT_PERIOD, [k] | .PTP_TOUT_WIDTH, [k]
    | .PTP_TOUT_IRQ_EN, [k] | .PTP_TOUT_IRQ_STATUS, [k] => m.ownAdmit init (m.ownerOr 6 k uPTP)
    | .PTP_TIN_CFG, [k] | .PTP_TIN_POP, [k] | .PTP_TIN_IRQ_EN, [k] | .PTP_TIN_IRQ_STATUS, [k] =>
      m.ownAdmit init (m.timeInOwner k)
    | .NM_SEG_CTRL, [s] | .NM_SEG_USER_LO, [s] | .NM_SEG_USER_HI, [s] | .NM_SEG_IRQ_EN, [s] | .NM_SEG_IRQ_STATUS, [s] =>
      m.ownOrHeart init (m.nmOwner s)
    | _, i :: rest =>
      if h.d.allHw then m.ownerAdmits init (ownUnit unit)
      else if chanOwned name then m.ownAdmit init (m.chanOwner i)
      else if isFilter name then m.filterAdmit init a
      else if isRing name then m.ringAdmit init i (rest.headD 0)
      else if isRxq name then m.ownAdmit init (m.queueOwner kRXQ i (rest.headD 0))
      else if isTxq name then m.ownAdmit init (m.queueOwner kTXQ i (rest.headD 0))
      else if unit == uMBUS then m.ownAdmit init (m.mbusOwner i)
      else if unit == uLIN then m.ownAdmit init (m.linOwner i)
      else if unit == uSENT then m.ownAdmit init (m.sentOwner i)
      else if unit == uVDEV then m.ownerAdmits init (ownInst i)
      else m.ownerAdmits init (ownUnit unit)
    | _, [] => m.ownerAdmits init (ownUnit unit)

/-- Owner of an RW/T register that a record can give to another owner than a unit. -/
def stgOwner (m : Mach) (a : Nat) (h : Hit) : Nat :=
  let unit : Nat := match unitAt a with | some (u, _) => u | none => 0
  let name := h.d.name
  match name, h.idx with
  | .LOAD_SYNC_CFG, [k] => m.ownerOr 2 (48 + k) uLOAD
  | .PTP_TOUT_CFG, [k] | .PTP_TOUT_START_LO, [k] | .PTP_TOUT_START_HI, [k] | .PTP_TOUT_PERIOD, [k] | .PTP_TOUT_WIDTH, [k] =>
    m.ownerOr 6 k uPTP
  | .PTP_TIN_CFG, [k] => m.timeInOwner k
  | .NM_SEG_CTRL, [s] | .NM_SEG_USER_LO, [s] | .NM_SEG_USER_HI, [s] => m.nmOwner s
  | _, i :: rest =>
    if h.d.allHw then ownUnit unit
    else if chanOwned name then m.chanOwner i
    else if isFilter name then (let c := m.fld (a - a % 16) 11 8; if c < 12 then m.mbusOwner c else ownUnit uMBUS)
    else if isRxq name then m.queueOwner kRXQ i (rest.headD 0)
    else if isTxq name then m.queueOwner kTXQ i (rest.headD 0)
    else if unit == uMBUS then m.mbusOwner i
    else if unit == uLIN then m.linOwner i
    else if unit == uSENT then m.sentOwner i
    else ownUnit unit
  | _, [] => ownUnit unit

/-- A pending write was issued by the owner: the partition, the host of the instance, or a partition that serves the
duty. -/
def issuedBy (m : Mach) (e : Stg) (own : Nat) : Bool :=
  let i := own % 0x1000
  if own / 0x1000 == 2 then e.part == some i
  else if own / 0x1000 == 3 then e.part.isSome && e.part == m.instPart i
  else if own / 0x1000 == 4 then e.tags.any (·.1 == i)
  else false

/-- The owner that issued a pending write has lost the register at `a` (R69): `old` is the machine before the ownership
tables changed. -/
def ownerLost (m old : Mach) (e : Stg) (a : Nat) : Bool :=
  match findReg a with
  | some h => !e.live && old.issuedBy e (old.stgOwner a h) && m.stgOwner a h != old.stgOwner a h
  | none => false

/-- A pending write with the members that its issuer has lost taken out; none where nothing is left. -/
def liveKeep (m old : Mach) (e : Stg) : Option Stg :=
  match loadWindow e.addr with
  | some (_, o) =>
    let ns := e.members.filter fun n => !m.ownerLost old e (0x42000000 + 0x100 * n + o)
    if ns.isEmpty && !e.members.isEmpty then none else some { e with members := ns }
  | none => if m.ownerLost old e e.addr then none else some e

/-- Pending writes issued by an owner that has lost its resource are dropped (R69). -/
def liveDrops (m old : Mach) : Mach :=
  let lost (e : Stg) : Bool := m.liveKeep old e != some e
  let trim (q : List Stg) : List Stg := q.filterMap (m.liveKeep old)
  let n := stgCount ((m.stage.c ++ m.stage.l ++ m.stage.p).filter lost)
  let m := { m with stage := { m.stage with c := trim m.stage.c, l := trim m.stage.l, p := trim m.stage.p } }
  m.bumpBy Rg.TRUSS_DROP_CNT n

end Mach

end Sys2Proof.Machine
end

