-- ==== Sys2Proof/Machine/Upd.lean ====
section
/-! DEFINITION. Field update (R465 to R481): bank directories and firmware images, verification, staging, the commit
with its phases and handovers, Stranded. -/

namespace Sys2Proof.Machine

/-- Base of an MRAM bank, its image area, directory and truss slot (R466). -/
def bankBase (b : Nat) : Nat := b * 0x1000000
def imageArea : Nat := 0xDFF000
def truSlot : Nat := 0xE00000

/-- One directory entry: partition, offset, length. -/
structure DirEnt where
  part : Nat
  off : Nat
  len : Nat
  deriving DecidableEq, Repr

/-- The directory of a bank. -/
def dirBytes (mem : Mem) (b : Nat) : List Byte := memRead mem (bankBase b + imageArea) 272

def dirEntries (d : List Byte) : List DirEnt :=
  (List.range (min 16 (leAt d 6 2))).map fun i =>
    ⟨leAt d (16 + 16 * i) 1, leAt d (20 + 16 * i) 4, leAt d (24 + 16 * i) 4⟩

/-- Two entries share bytes. -/
def DirEnt.meets (x y : DirEnt) : Bool := x.off < y.off + y.len && y.off < x.off + x.len

/-- Step 1 of table R468. -/
def dirOk (d : List Byte) : Bool :=
  let es := dirEntries d
  leAt d 0 4 == 0x42444952 && leAt d 4 2 == 1 && leAt d 6 2 ≤ 16
    && leAt d 12 4 == (Config.crc32 (d.take 12 ++ sliceBytes d 16 256)).toNat
    && es.all (fun e => e.off % 4096 == 0 && e.off + e.len ≤ imageArea)
    && (List.range es.length).all fun i => (es.drop (i + 1)).all fun y => match es[i]? with | some x => !x.meets y | none => true

/-- Result of a verification: code, entry index (0xFF none), detail word, digests by partition, truss image. -/
structure BankVerdict where
  code : Nat
  entry : Nat := 0xFF
  detail : Nat := 0
  digests : List (Nat × List Byte) := []
  img : Option Image := none
  deriving DecidableEq, Repr

/-- Bytes of an image that its header spans, as far as its entry reaches. -/
def fwBytes (mem : Mem) (b : Nat) (e : DirEnt) : List Byte := memRead mem (bankBase b + e.off) (min e.len (max 256 (leNat (memRead mem (bankBase b + e.off + 8) 4))))

namespace Mach

def modUpd (m : Mach) (f : UpdSt → UpdSt) : Mach := { m with upd := f m.upd }

/-- Step 3: magic, format, target_part, and a signed image within its entry's length. -/
def fwFormOk (h : List Byte) (e : DirEnt) : Bool :=
  leAt h 0 4 == 0x4657494D && leAt h 4 2 == 1 && leAt h 12 4 == 0x4D5A4820 && 256 ≤ leAt h 24 4
    && leAt h 24 4 + 4736 ≤ leAt h 8 4 && leAt h 8 4 ≤ e.len

/-- Steps 6 to 8 of table R468 on a signature block over a digest; 0 passes. -/
def fwSigCode (m : Mach) (s d : List Byte) : Nat :=
  let ref := leAt s 6 2
  if !keyRefOk ref || !kindAccepted m.lifecycle (ref / 256) then 7
  else match m.pubKey ref 1 with
    | none => 7
    | some pk =>
      if leBytes 32 (Config.sha3x256 pk).toNat != sliceBytes s 8 32 then 7
      else if d != sliceBytes s 40 64 then 8
      else if leAt s 0 4 != 0x53494731 || leAt s 4 2 != 0x87 || leAt s 4731 5 != 0 || !Config.mldsaVerify pk d (sliceBytes s 104 4627) then 9
      else 0

/-- Steps 3 to 9 on one entry: code and digest. -/
def fwCheck (mem : Mem) (m : Mach) (b : Nat) (img : Image) (seen : List Nat) (e : DirEnt) : Nat × Nat × List Byte :=
  let x := fwBytes mem b e
  let p := leAt x 6 1
  let sig := leAt x 24 4
  let d := leBytes 64 (Config.sha3x512 (x.take sig)).toNat
  let code :=
    if !fwFormOk x e then 4
    else if leAt x 7 1 != b then 5
    else if (img.part p).isNone || seen.contains p || p != e.part then 6
    else match m.fwSigCode (sliceBytes x sig 4736) d with
      | 0 => if leAt x 16 4 < m.floor then 0xA else 0
      | c => c
  (code, p, d)

/-- Entries in order (steps 3 to 9), then step 10. -/
def fwAll (mem : Mem) (m : Mach) (b : Nat) (img : Image) : Nat → List (Nat × List Byte) → List DirEnt → BankVerdict
  | _, got, [] =>
    if (img.recs sPARTS 2).all fun r => got.any (·.1 == r.u8 4) then { code := 0, digests := got, img := some img }
    else { code := 0xB }
  | i, got, e :: t =>
    let (c, p, d) := fwCheck mem m b img (got.map (·.1)) e
    if c != 0 then { code := c, entry := i } else fwAll mem m b img (i + 1) (got ++ [(p, d)]) t

/-- A verification of a bank (R468). -/
def bankVerify (mem : Mem) (m : Mach) (b : Nat) : BankVerdict :=
  let d := dirBytes mem b
  if !dirOk d then { code := 2 }
  else
    let v := m.verify (slotBytes mem b) none
    match v.img with
    | none => { code := 3, detail := v.code }
    | some i => fwAll mem m b i 0 [] (dirEntries d)

/-- A verdict with its detail word: the code of R56 for step 2, a free value for every other failure. -/
def detailed (m : Mach) (v : BankVerdict) : Mach × BankVerdict :=
  if v.code == 0 || v.code == 3 then (m, v)
  else
    let (w, m) := m.draw
    (m, { v with detail := w.toNat % 2 ^ 32 })

/-! ### Status -/

def updState (m : Mach) : Nat := m.fld Rg.UPD_STATUS 3 0
def updHolder (m : Mach) : Nat := m.fld Rg.UPD_STATUS 11 10
def isStranded (m : Mach) : Bool := m.bit Rg.RSTC_MODE 7
def updIrq (m : Mach) (i : Nat) : Mach := m.fire Rg.UPD_IRQ_STATUS i
def stagedBank (m : Mach) : Nat := 1 - m.activeBank

/-- A state of the update; the idle state of a Stranded module reads STRANDED (R478). -/
def setUpd (m : Mach) (st : Nat) : Mach := m.setFld Rg.UPD_STATUS 3 0 (if st == 0 && m.isStranded then 7 else st)

/-- UPD_RESULT of a completed command. -/
def updResult (m : Mach) (code entry detail : Nat) : Mach :=
  ((m.wr Rg.UPD_RESULT (0x80000000 ||| flagNat (code != 0) <<< 30 ||| entry <<< 8 ||| code)).wr Rg.UPD_DETAIL detail).updIrq 0

def updRefuse (m : Mach) (code : Nat) : Mach := m.updResult code 0xFF 0

/-- The holder leaves: state IDLE. -/
def updRelease (m : Mach) : Mach :=
  ((m.modUpd fun u => { u with session := none, commit := none }).setFld Rg.UPD_STATUS 11 10 0).setUpd 0

/-- Partition bits of a commit that ends before its commit point are withdrawn. -/
def clearParts (m : Mach) : Mach :=
  m.forAll (List.range 16) fun m p => (m.setBit (Rg.UPD_PART_STATUS p) 31 false).setBit (Rg.UPD_PART_STATUS p) 30 false

/-- Values that a commit has staged for E1 do not come into force (R473). -/
def unstage (m : Mach) : Mach :=
  let mine : Bool := match m.upd.commit with | some c => c.checked == some 0 && !c.passed | none => false
  if mine then
    { m with stage := { m.stage with
      c := m.stage.c.filter (!·.live), l := m.stage.l.filter (!·.live), p := m.stage.p.filter (!·.live) } }
  else m

/-- A commit fails before its commit point (R473): the state returns to VERIFIED. -/
def updAbortFail (m : Mach) (code : Nat) : Mach :=
  let ph := m.fld Rg.UPD_STATUS 9 8
  let m := ((m.unstage.clearParts).modUpd fun u => { u with commit := none }).setUpd 3
  ((m.journal 0x53 code ph 0).updIrq 3).updResult code 0xFF 0

/-- ABORT or END: the update closes before the commit point. -/
def updClose (m : Mach) : Mach := m.unstage.clearParts.updRelease

/-- A reset ends an update that has not reached its commit point (R471, R476). -/
def updReset (m : Mach) : Mach :=
  let passed : Bool := match m.upd.commit with | some c => c.passed | none => false
  let m := if m.updHolder != 0 && !passed then m.journal 0x53 0xF (m.fld Rg.UPD_STATUS 9 8) 0 else m
  m.modUpd fun u : UpdSt => { u with session := none, commit := none, confirm := [], rx := none }

/-! ### Stranded -/

/-- Service port of the descriptor. -/
def servicePort (m : Mach) : Nat := m.fld Rg.UPD_SVC_CFG 4 0

/-- Every partition held, no tick client enabled (R478). -/
def holdParts (m : Mach) : Mach :=
  let m := m.forAll (m.fab.cores.map (·.1)) fun m i => m.stopCore i
  let m := m.forAll (List.range 16) fun m p => if (m.partRec p).isSome then (m.setPartState p 1).dropStaged p else m
  let m := { m with
    fab := { m.fab with restarting := [] }
    tick := { m.tick with due := [], done := [], ovr := [] } }
  (m.forAll (List.range 32) fun m c => m.setBit (Rg.TICK_CLIENT_CFG c) 0 false).showChk

/-- Recessive transmitters, ports disabled except the service port (R478). -/
def quietNetworks (m : Mach) : Mach :=
  let old := m
  let m := m.stopCan
  let m := (m.forAll (List.range 12) fun m c =>
    (m.setBit (Rg.LIN_CTRL c) 0 false).modLch c fun x => { x with nmEnable := false, cur := none }).linCommit old []
  let m := m.forAll (List.range 22) fun m p => m.setBit (Rg.SWC_PORT_CFG p) 0 (p == m.servicePort)
  m.enableCommit old

/-- The rest value of every channel, whatever its disposition (R146, R478). -/
def restAll (m : Mach) : Mach :=
  m.forAll (List.range 48) fun m n =>
    ((m.modCh n fun c => { c with disp := true, nxt := none, clear := false }).takeOut n (m.restOut n)).follow n

/-- Stranded with a reason (R478): 1 TRUSS, 2 BIST, 3 UPDATE, 4 IMAGE. The flag stands from the first of these effects, which
the load channels read, to the last. -/
def strand (m : Mach) (why : Nat) : Mach :=
  let m := m.setBit Rg.RSTC_MODE 7 true
  let m := (((m.modUpd fun u => { u with commit := none, confirm := [], session := none }).setFld Rg.UPD_STATUS 19 16 why).setFld
    Rg.UPD_STATUS 11 10 0).setUpd 0
  m.holdParts.quietNetworks.restAll.setBit Rg.RSTC_MODE 7 true

/-- A failure after the commit point (R477): the flag in the journal header keeps the module Stranded. -/
def strandUpdate (mem : Mem) (m : Mach) (code part : Nat) : Mem × Mach :=
  let m := (m.journal 0x56 code part (m.fld Rg.UPD_STATUS 9 8)).updIrq 4
  let m := m.wr Rg.UPD_RESULT (0xC0000000 ||| 0xFF00 ||| code)
  (writeHdr mem { readHdr mem with stranded := true, why := 3 }, m.strand 3)

/-! ### Commands -/

/-- Who gives a command: heartwood, or a Buile session. -/
def updMine (m : Mach) (who : Option Nat) : Bool :=
  match who with
  | none => m.updHolder == 1
  | some s => m.updHolder == 2 && m.upd.session == some s

/-- BEGIN (R471). -/
def updBegin (mem : Mem) (m : Mach) (who : Option Nat) : Mem × Mach :=
  let st := m.updState
  if !(st == 0 || st == 7) || m.updHolder != 0 then (mem, m.updRefuse 1)
  else
    let b := m.stagedBank
    let zero := List.replicate 4 (0 : Byte)
    let mem := memWrite (memWrite mem (bankBase b + imageArea) zero) (bankBase b + truSlot) zero
    let m := m.modUpd fun u => { u with session := who, staged := [], stagedImage := none }
    let m := ((m.setFld Rg.UPD_STATUS 11 10 (if who.isSome then 2 else 1)).setFld Rg.UPD_STATUS 4 4 b).setUpd 1
    let m := m.setFld Rg.UPD_STATUS 9 8 0
    (mem, (m.journal 0x50 (match who with | none => 1 | some s => 2 + s) b 0).updResult 0 0xFF 0)

/-- WRITE (R471) of given bytes; none says that the source could not be read. -/
def updWrite (mem : Mem) (m : Mach) (who : Option Nat) (off len : Nat) (data : Option (List Byte)) : Mem × Mach :=
  let st := m.updState
  if !m.updMine who || !(st == 1 || st == 3 || st == 4) then (mem, m.updRefuse 1)
  else if !(inSpan len 32 65536 && len % 32 == 0 && off % 32 == 0 && off + len ≤ 0x1000000) then (mem, m.updRefuse 0x12)
  else match data with
    | none => (mem, m.updRefuse 0x12)
    | some bs =>
      let a := bankBase (m.fld Rg.UPD_STATUS 4 4) + off
      (memWrite mem a (sliceBytes bs 0 len), ((m.unpoison a len).setUpd 1).updResult 0 0xFF 0)

/-- VERIFY (R471). -/
def updVerify (m : Mach) (who : Option Nat) : Mach :=
  if !m.updMine who || m.updState != 1 then m.updRefuse 1
  else (m.wr Rg.UPD_RESULT 0xFF00).setUpd 2

/-- The end of a VERIFY of bank `b` with a verdict: VERIFIED with the digests, or FAILED (R468). -/
def verifyEnds (m : Mach) (b : Nat) (v : BankVerdict) : Mach :=
  match v.img with
  | some i =>
    let m := (m.modUpd fun u => { u with staged := v.digests, stagedImage := some i }).setUpd 3
    (m.journal 0x51 i.serial v.digests.length b).updResult 0 0xFF 0
  | none => ((m.setUpd 4).journal 0x52 v.code v.detail v.entry).updResult v.code v.entry v.detail

/-- The verification completes (R468). -/
def updVerified (mem : Mem) (m : Mach) : Mach :=
  if m.updState != 2 then m
  else
    let b := m.fld Rg.UPD_STATUS 4 4
    let r := m.detailed (bankVerify mem m b)
    r.1.verifyEnds b r.2

/-- A commit may be a HANDOVER (R472). -/
def mayHandOver (m : Mach) (new : Image) : Bool :=
  !m.isStranded && match m.truss.image with
  | some run => new.settingsFmt == run.settingsFmt && (fixedFault run new).isNone
  | none => false

/-- Partitions whose image digest differs from that of the running image. -/
def updatedParts (m : Mach) : List Nat :=
  (m.upd.staged.filter fun e => kget m.key.images e.1 != some e.2).map (·.1)

/-- COMMIT (R472). -/
def updCommit (m : Mach) (who : Option Nat) (delay first : Nat) : Mach :=
  if !m.updMine who || m.updState != 3 then m.updRefuse 1
  else match m.upd.stagedImage with
    | none => m.updRefuse 1
    | some i =>
      let a := m.tickCount + 1
      let e1 := a + max 2 delay
      if m.mayHandOver i then
        if m.bentState 0 != 1 || m.bentState 1 != 1 then m.updRefuse 0x10
        else
          let ups := m.updatedParts
          let inY (p : Nat) : Bool := m.partBent p == some (1 - first)
          let c : UpdCommit :=
            { restart := false, first := first, a := a, e1 := e1, early := ups.filter (!inY ·), late := ups.filter inY }
          let m := (m.clearParts).modUpd fun u : UpdSt => { u with commit := some c }
          let m := m.forAll ups fun m p =>
            m.wr (Rg.UPD_PART_STATUS p) 0x80000000
          (m.wr Rg.UPD_RESULT 0xFF00).setUpd 5
      else
        let c : UpdCommit := { restart := true, first := first, a := a, e1 := e1 }
        let m := m.modUpd fun u : UpdSt => { u with commit := some c }
        (m.wr Rg.UPD_RESULT 0xFF00).setUpd 5

/-- ABORT and END (R471). -/
def updEnd (m : Mach) (who : Option Nat) : Mach :=
  let passed : Bool := match m.upd.commit with | some c => c.passed | none => false
  if !m.updMine who || passed then m.updRefuse 1 else m.updClose.updResult 0 0xFF 0

/-- A write of UPD_CMD. -/
def updCmd (mem : Mem) (m : Mach) (v : Nat) : Mem × Mach :=
  match bitsOf v 31 28 with
  | 1 => updBegin mem m none
  | 2 =>
    let len := m.fld Rg.UPD_LEN 16 0
    let src := m.rd Rg.UPD_SRC_LO + 2 ^ 32 * m.fld Rg.UPD_SRC_HI 7 0
    updWrite mem (m.chargeFab idLOADER len) none (m.rd Rg.UPD_OFFSET) len (m.dmaRead mem idLOADER src len)
  | 3 => (mem, m.updVerify none)
  | 4 => (mem, m.updCommit none (bitsOf v 15 0) (bitsOf v 24 24))
  | 5 | 6 => (mem, m.updEnd none)
  | _ => (mem, m.updIrq 5)

/-- A request of table R470 from a session, with its body. -/
def updRequest (mem : Mem) (m : Mach) (s typ : Nat) (body : List Byte) : Mem × Mach :=
  let who := some s
  if typ == 0x30 then updBegin mem m who
  else if typ == 0x31 then updWrite mem m who (leAt body 0 4) (body.length - 4) (some (body.drop 4))
  else if typ == 0x32 then (mem, m.updVerify who)
  else if typ == 0x33 then (mem, m.updCommit who (leAt body 0 2) (leAt body 2 1 % 2))
  else if typ == 0x34 || typ == 0x36 then (mem, m.updEnd who)
  else (mem, m)

/-- A close of the holder's session before the commit point acts as ABORT (R471). -/
def updSessionGone (m : Mach) : Mach :=
  match m.upd.session with
  | some s =>
    if (kget m.key.sess s).isSome then m
    else match m.upd.commit with
      | some c => if c.passed then m else m.updClose
      | none => m.updClose
  | none => m

/-! ### Phases -/

/-- Export requests of a phase (R475). -/
def exportReq (m : Mach) (ps : List Nat) (b : Bool) : Mach := m.forAll ps fun m p => m.setBit (Rg.UPD_PART_STATUS p) 30 b

/-- The duties of a bent are to move by a planned switch-over (R400, R474). -/
def planSwitch (m : Mach) (b : Nat) : Mach :=
  if (m.dutiesOf b).isEmpty then m else m.bentCmd (0xB3E7 <<< 16 ||| b <<< 8 ||| 1)

/-- A phase is complete. -/
def phaseDone (m : Mach) (k : Nat) : Mach := (m.setFld Rg.UPD_STATUS 9 8 k).updIrq 2

/-- What UPD does at the edge that starts tick `n` (R474, R475). -/
def updEdge (m : Mach) (n : Nat) : Mach :=
  match m.upd.commit with
  | none => m
  | some c =>
    if c.restart then m
    else if !c.passed then
      let m := if n == c.a then (m.planSwitch c.first).phaseDone 0 else m
      if n + 1 == c.e1 then m.exportReq c.early true else m
    else
      let m := if n + 1 == c.e2 then m.planSwitch (1 - c.first) else m
      if n + 1 == c.e3 then m.exportReq c.late true else m

/-- Duties served by an updated partition from E1 to E3, whose signatures are not compared (R474). -/
def updSkip (m : Mach) : List Nat :=
  match m.upd.commit with
  | some c =>
    if c.passed then (List.range 64).filter fun d => (c.early ++ c.late).any fun p => m.dutyPart d 0 == p || m.dutyPart d 1 == p
    else []
  | none => []

/-- Record address of a partition, when it is ready (R475). -/
def handoffAddr (m : Mach) (p : Nat) : Option Nat :=
  let hi := m.rd (Rg.UPD_HANDOFF_HI p)
  if bitOf hi 31 then some (m.rd (Rg.UPD_HANDOFF_LO p) + 2 ^ 32 * bitsOf hi 7 0) else none

/-- A hand-off record is good (R475). -/
def recordOk (mem : Mem) (m : Mach) (p a : Nat) : Bool :=
  let h := memRead mem a 12
  leAt h 0 4 == 0x53434631 && leAt h 4 2 == 1 && leAt h 6 1 == 0
    && m.truss.regions.any fun r => r.owner == ownPart p && inRegion r a (max 12 (leAt h 8 4))

/-- Outcome of the check of a phase's records: 0 good, 0xC a partition is not ready, 0xD a bad record. -/
def recordsCode (mem : Mem) (m : Mach) (ps : List Nat) : Nat :=
  if ps.any fun p => (m.handoffAddr p).isNone then 0xC
  else if ps.all fun p => (m.handoffAddr p).any (recordOk mem m p) then 0
  else 0xD

/-- The check at the kerf start of the tick before a phase's edge (R475); phase 1 also stages its live application. -/
def updKerf (mem : Mem) (m : Mach) : Mem × Mach :=
  match m.upd.commit with
  | none => (mem, m)
  | some c =>
    let n := m.tickCount
    let put (m : Mach) (c : UpdCommit) : Mach := m.modUpd fun u => { u with commit := some c }
    if c.restart || c.checked == some 0 then (mem, m)
    else if !c.passed && n + 1 == c.e1 then
      let slip (m : Mach) : Mach :=
        if m.fld Rg.UPD_CFG 7 0 ≤ c.deferred then m.updAbortFail 0xC
        else put m { c with e1 := c.e1 + 1, deferred := c.deferred + 1 }
      match recordsCode mem m c.early with
      | 0 =>
        match m.truss.image, m.upd.stagedImage with
        | some run, some i =>
          match m.liveWriteAll i (liveSections run i) with
          | some m => (mem, put m { c with checked := some 0 })
          | none => (mem, slip m)
        | _, _ => (mem, m.updAbortFail 0xD)
      | 0xC => (mem, slip m)
      | _ => (mem, m.updAbortFail 0xD)
    else if c.passed && n + 1 == c.e3 then
      match recordsCode mem m c.late with
      | 0 => (mem, put m { c with checked := some 0 })
      | 0xC =>
        if m.fld Rg.UPD_CFG 7 0 ≤ c.deferred then strandUpdate mem m 0xC 0xFF
        else (mem, put m { c with e3 := c.e3 + 1, deferred := c.deferred + 1 })
      | _ => strandUpdate mem m 0xD 0xFF
    else (mem, m)

/-- Handover of partitions at an edge (R475): restart at the new image, confirmation owed. -/
def handOver (m : Mach) (ps : List Nat) : Mach :=
  let until' := m.tickCount + m.fld Rg.UPD_CFG 31 16
  m.forAll ps fun m p =>
    let m := (((m.push (.partRestart p)).setBit (Rg.UPD_PART_STATUS p) 30 false).setBit (Rg.UPD_PART_STATUS p) 29 true).setBit
      (Rg.UPD_PART_STATUS p) 28 false
    let m := match kget m.upd.staged p with
      | some d => { m with key := { m.key with images := kput m.key.images p d } }
      | none => m
    m.modUpd fun u => { u with confirm := kput u.confirm p until' }

/-- What every commit point does (R473). -/
def pointTaken (mem : Mem) (m : Mach) (i : Image) (kind : Nat) : Mem × Mach :=
  let b := m.fld Rg.UPD_STATUS 4 4
  let fl := max m.floor i.counter
  let m := m.modKey fun k => { k with hdr := some ((k.hdr.map (·.1)).getD 0, fl) }
  let (mem, m) := setActive mem m b
  let mem := writeHdr mem { readHdr mem with stranded := false, why := 0 }
  let m := m.modUpd fun u => { u with sinceCommit := true }
  (mem, ((m.journal 0x54 kind fl b).updIrq 1).showKeys)

/-- The commit point (R473, R474), at or after its edge. A Stranded module whose tick does not run has no edges to wait for
(DESIGN CHOICE, log entry 72). -/
def commitPoint (mem : Mem) (m : Mach) : Mem × Mach :=
  match m.upd.commit, m.upd.stagedImage with
  | some c, some i =>
    let n := m.tickCount
    let put (m : Mach) (c : UpdCommit) : Mach := m.modUpd fun u => { u with commit := some c }
    if c.passed || (n < c.e1 && !(m.isStranded && !m.tick.started)) then (mem, m)
    else if c.restart then
      let (mem, m) := pointTaken mem m i 1
      (mem, ((put m { c with passed := true }).updResult 0 0xFF 0).push (.request 7 false))
    else if c.checked != some 0 then (mem, put m { c with e1 := n + 1 })
    else
      match m.truss.image with
      | none => (mem, m)
      | some run =>
        let m := m.liveTables i (liveSections run i)
        let (mem, m) := pointTaken mem m i 0
        let m := (m.handOver c.early).phaseDone 1
        let e2 := n + m.fld Rg.UPD_CFG 15 8
        (mem, (put m { c with passed := true, phase := 1, checked := none, deferred := 0, e1 := n, e2 := e2, e3 := e2 + 2 }).setUpd 6)
  | _, _ => (mem, m)

/-- Phase 2 (R474): the planned switch-over of Y has taken effect at E2. -/
def phase2 (m : Mach) : Mach :=
  match m.upd.commit with
  | some c =>
    if c.passed && c.phase == 1 && c.e2 ≤ m.tickCount then
      (m.modUpd fun u => { u with commit := some { c with phase := 2 } }).phaseDone 2
    else m
  | none => m

/-- Phase 3 (R474). -/
def phase3 (m : Mach) : Mach :=
  match m.upd.commit with
  | some c =>
    if c.passed && c.phase == 2 && c.e3 ≤ m.tickCount then
      if c.checked != some 0 then m.modUpd fun u => { u with commit := some { c with e3 := m.tickCount + 1 } }
      else
        let m := (m.handOver c.late).phaseDone 3
        let m := m.journal 0x55 (c.e3 % 2 ^ 32) (maskOfList (c.early ++ c.late)) 0
        m.updRelease.updResult 0 0xFF 0
    else m
  | none => m

/-- A write of 1 to UPD_CONFIRM_p (R475). -/
def updConfirm (m : Mach) (p : Nat) : Mach :=
  if (kget m.upd.confirm p).isSome then
    (m.modUpd fun u => { u with confirm := kdel u.confirm p }).setBit (Rg.UPD_PART_STATUS p) 28 true
  else m

/-- A partition has not confirmed within confirm_ticks (R477). -/
def confirmLate (mem : Mem) (m : Mach) (p : Nat) : Mem × Mach :=
  match kget m.upd.confirm p with
  | some d => if d ≤ m.tickCount then strandUpdate mem m 0x11 p else (mem, m)
  | none => (mem, m)

/-- Failure signals of the bents during a HANDOVER commit (R476): `old` is the machine before them. -/
def updBents (mem : Mem) (m old : Mach) : Mem × Mach :=
  let failed : Bool := [0, 1].any fun b => m.bentState b == 2 && old.bentState b != 2
  match m.upd.commit with
  | some c =>
    if c.restart || !failed then (mem, m)
    else if c.passed then strandUpdate mem m 0x10 0xFF
    else (mem, m.updAbortFail 0x10)
  | none => (mem, m)

/-- Everything of an update that an edge left due is carried out before anything else happens. -/
def updOverdue (mem : Mem) (m : Mach) : Mem × Mach :=
  let (mem, m) := commitPoint mem m
  let m := m.phase2.phase3
  m.upd.confirm.foldl (fun (x : Mem × Mach) e => if e.2 < x.2.tickCount then confirmLate x.1 x.2 e.1 else x) (mem, m)

end Mach

end Sys2Proof.Machine
end

