-- ==== Sys2Proof/Machine/Buile.lean ====
section
/-! DEFINITION. Buile frames and sessions (R457 to R461), the lifecycle change (R452), and the service port (R479). -/

namespace Sys2Proof.Machine

/-- A Buile frame taken apart (R458). -/
structure BFrame where
  typ : Nat
  ses : Nat
  seq : Nat
  hdr : List Byte
  body : List Byte
  tag : List Byte
  deriving DecidableEq, Repr

/-- HELLO and OPEN requests carry no tag (R458). -/
def tagLen (typ : Nat) : Nat := if typ == 1 || typ == 2 then 0 else 32

/-- Length that a frame's header calls for. -/
def buileLen (f : List Byte) : Nat := 12 + leAt f 8 4 + tagLen (leAt f 0 1)

/-- A request whose length fits its header. -/
def buileParse (f : List Byte) : Option BFrame :=
  if 12 ≤ f.length && leAt f 8 4 ≤ 65536 && f.length == buileLen f then
    let n := leAt f 8 4
    some ⟨leAt f 0 1, leAt f 1 1, leAt f 4 4, f.take 12, (f.drop 12).take n, f.drop (12 + n)⟩
  else none

/-- The tag of R458 in the given direction. -/
def buileTag (sk hdr body : List Byte) (dir : Byte) : List Byte :=
  Mach.kmac sk "MZ4820-BUILE-MAC" (hdr ++ body ++ [dir]) 32

/-- A response; it is tagged where a session key is given. -/
def buileReply (typ ses seq code : Nat) (body : List Byte) (sk : Option (List Byte)) : List Byte :=
  let h := leBytes 1 (typ % 128 + 128) ++ leBytes 1 ses ++ leBytes 1 code ++ leBytes 1 0 ++ leBytes 4 seq ++ leBytes 4 body.length
  h ++ body ++ (match sk with | some k => buileTag k h body 1 | none => [])

/-- What a request answers: the memory and machine after it, its code, and its response body. -/
structure BAns where
  mem : Mem
  m : Mach
  code : Nat := 0
  body : List Byte := []

/-- Request types that a Stranded module accepts (R478). -/
def strandedTypes : List Nat := [3, 4, 0x10, 0x11, 0x12, 0x20, 0x23, 0x30, 0x31, 0x32, 0x33, 0x34, 0x35, 0x36]

/-- Request types of table R461 that need a session, without types that are answered with BU_TYPE. -/
def sessionTypes : List Nat := strandedTypes ++ [0x21, 0x22]

/-- The right that a request type needs: 0 CAL, 1 LIFECYCLE, 2 UPDATE, 3 DIAG. -/
def rightOf (typ : Nat) : Option Nat :=
  if typ == 0x21 then some 1 else if typ == 0x22 then some 0 else if typ == 0x23 then some 3
  else if 0x30 ≤ typ && typ ≤ 0x3F then some 2 else none

namespace Mach

/-- The key of a key reference for a session, or the code that refuses it (R459). -/
def openKey (m : Mach) (ref : Nat) : Except Nat (List Byte × Nat) :=
  if ref / 256 == 0 then
    if ref != 0 || !authAccepted m.lifecycle 0 then .error 0x13
    else match m.mfgKey with
      | some k => .ok (k, 0xF)
      | none => .error 5
  else if ref / 256 == 1 then
    match m.keySlot (ref % 256) with
    | some s => if bitOf s.usage 3 then .ok (s.value, bitsOf s.usage 11 8) else .error 5
    | none => .error 5
  else .error 0x13

/-- A refused OPEN (R460, R463): eight in a row lock OPEN. -/
def openFails (m : Mach) (code ref : Nat) : Mach :=
  let m := m.modKey fun k => { k with openFails := k.openFails + 1 }
  let m := ((m.bump Rg.KEY_OPEN_FAIL_CNT).fire Rg.KEY_IRQ_STATUS 2).journal 0x45 code ref m.key.openFails
  if 8 ≤ m.key.openFails && !m.key.lockout then ((m.modKey fun k => { k with lockout := true }).fire Rg.KEY_IRQ_STATUS 3).showKeyStatus else m

/-- The lowest free session number. -/
def freeSession (m : Mach) : Option Nat := (List.range 8).find? fun s => (kget m.key.sess s).isNone

/-- Checks of an OPEN body after its nonce has been taken (R459): its session number and session, or the code. -/
def openCheck (m : Mach) (b : List Byte) (held : Bool) : Except Nat (Nat × Sess) :=
  let ref := leAt b 0 2
  let rights := leAt b 2 2
  if !held then .error 0x20
  else if m.key.lockout then .error 0x22
  else match m.openKey ref with
    | .error c => .error c
    | .ok (k, allowed) =>
      let sk := kmac k "MZ4820-BUILE-KEY"
        (uidBytes ++ sliceBytes b 4 32 ++ sliceBytes b 36 32 ++ sliceBytes b 2 2 ++ sliceBytes b 0 2) 32
      if rights &&& allowed != rights then .error 0x26
      else if sliceBytes b 68 32 != kmac sk "MZ4820-BUILE-OPEN" (b.take 68) 32 then .error 0x21
      else match m.freeSession with
        | none => .error 4
        | some s => .ok (s, { keyRef := ref, rights := rights, sk := sk })

/-- HELLO (R459). -/
def buileHello (m : Mach) (f : BFrame) : Mach × List Byte :=
  let (n, m) := m.freshNonce
  (m, buileReply 1 f.ses f.seq 0 n ((kget m.key.sess f.ses).map (·.sk)))

/-- OPEN (R459). -/
def buileOpen (m : Mach) (f : BFrame) : Mach × List Byte :=
  if f.body.length != 100 then (m.openFails 3 (leAt f.body 0 2), buileReply 2 f.ses f.seq 3 [] none)
  else
    let n := sliceBytes f.body 4 32
    let held := m.key.nonces.contains n
    let m := m.modKey fun k => { k with nonces := k.nonces.erase n }
    match m.openCheck f.body held with
    | .error c => (m.openFails c (leAt f.body 0 2), buileReply 2 f.ses f.seq c [] none)
    | .ok (s, x) =>
      let m := m.modKey fun k : KeySt => { k with sess := kput k.sess s x, openFails := 0 }
      (m.showSessions.journal 0x44 s x.keyRef x.rights, buileReply 2 f.ses f.seq 0 [] (some x.sk))

/-- ATTEST (R457). -/
def buileAttest (m : Mach) (b : List Byte) : Nat × List Byte :=
  if b.length != 33 then (3, [])
  else match m.keySlot (leAt b 0 1) with
    | some s =>
      if bitOf s.usage 4 then
        (0, m.stateBlock ++ kmac s.value "MZ4820-ATTEST" (b.drop 1 ++ m.stateBlock) 32)
      else (5, [])
    | none => (5, [])

/-- The measurement list (R457). -/
def measurements (m : Mach) : List Byte :=
  leBytes 1 m.key.images.length ++ (m.key.images.map fun e => leBytes 1 e.1 ++ List.replicate 3 0 ++ sliceBytes e.2 0 64).flatten

/-- ATTEST_SIGNED (R457); each signature is a value of its own. -/
def buileSigned (m : Mach) (b : List Byte) : Mach × Nat × List Byte :=
  if b.length != 32 then (m, 3, [])
  else
    let x := m.stateBlock ++ m.measurements
    let msg := leBytes 64 (Config.sha3x512 (b ++ x)).toNat
    let sig := sliceBytes (Config.mldsaSign idSeed (ascii "MZ4820-ATTEST") msg m.drawn) 0 4627
    ({ m with drawn := m.drawn + 1 }, 0, x ++ sig)

/-- CAL_WRITE (R461). -/
def buileCal (mem : Mem) (m : Mach) (b : List Byte) (ses : Nat) : BAns :=
  if b.length == 320 && leAt b 0 4 == 0x43414C31 && sliceBytes b 16 16 == uidBytes && calFormOk b then
    let (mem, m) := calWrite mem m b ses
    ⟨mem, m, 0, []⟩
  else ⟨mem, m, 0x2A, []⟩

/-- READ_JOURNAL (R461, R480). -/
def buileJournal (mem : Mem) (b : List Byte) : Nat × List Byte :=
  if b.length != 4 then (3, [])
  else (0, (((jEntries mem).drop (leAt b 0 2)).take (leAt b 2 2)).flatten)

/-! ### Lifecycle -/

/-- Code of a requested transition (R451); 0 allows it. -/
def lcCode (m : Mach) (dst kind : Nat) : Nat :=
  let old := m.lifecycle
  if old == 4 then 0x28
  else if dst == 4 then (if authAccepted old kind then 0 else 0x28)
  else if old == 0 && dst == 1 then (if kind == 0 then 0 else 0x28)
  else if (old == 1 || old == 3) && dst == 2 then 0
  else if old == 2 && dst == 3 && kind == 1 then (if m.key.lcN == 8 then 0x29 else 0)
  else 0x28

/-- The successor of a LIFECYCLE body (R452): none for a broken one, `some none` for no successor. -/
def lcSuccessor (m : Mach) (s : Sess) (b : List Byte) : Option (Option (Nat × KSlot)) :=
  let dst := leAt b 0 1
  let k := leAt b 1 1
  let u := leAt b 2 2
  let v := sliceBytes b 4 32
  if k == 0xFF then (if u == 0 && v.all (· == 0) && dst != 2 then some none else none)
  else if dst == 4 || !bitOf u 2 || !m.slotTakes k 1 u then none
  else
    let pad := kmac s.sk "MZ4820-LC-ENC" (uidBytes ++ leBytes 1 dst ++ leBytes 1 k) 32
    some (some (k, { alg := 1, usage := u, value := xorBytes v pad, counter := m.keyCounter, lc := m.lcCount + 1 }))

/-- Status ABORTED in the descriptors of the queued operations. -/
def abortQueue (mem : Mem) (m : Mach) : Mem × Mach :=
  let (mem, m) := m.key.queue.foldl (fun (x : Mem × Mach) e => descEnd x.1 x.2 e.1 e.2 7 0) (mem, m)
  (mem, (m.modKey fun k => { k with queue := [] }).showKeyStatus)

/-- An accepted LIFECYCLE request after its response (R452). -/
def lcChange (mem : Mem) (m : Mach) (dst : Nat) (succ : Option (Nat × KSlot)) : Mem × Mach :=
  let old := m.lifecycle
  let (mem, m) := abortQueue mem m
  let gone := m.key.slots.length
  let m := m.closeWhere fun _ => true
  let m := m.modKey fun k : KeySt => { k with
    lcN := if dst == 4 then k.lcN else k.lcN + 1
    lcD := dst == 4
    slots := succ.toList
    succ := none }
  let m := (m.dbgWithdraw.journal 0x42 old dst m.lcCount).journal 0x43 gone m.lcCount ((succ.map (·.1)).getD 0xFF)
  let m := m.forAll (List.range 64) fun m k => m.slotChanged k
  (mem, m.showKeys.push (.request 7 false))

/-! ### Sessions -/

/-- A request of an open session that fails its sequence or tag check (R460). -/
def sessFails (m : Mach) (s : Nat) (x : Sess) : Mach :=
  if 2 ≤ x.fails then m.closeSession s
  else m.modKey fun k => { k with sess := kput k.sess s { x with fails := x.fails + 1 } }

/-- The effect of an accepted request of a session other than LIFECYCLE. -/
def sessRequest (mem : Mem) (m : Mach) (f : BFrame) : BAns :=
  let b := f.body
  if f.typ == 0x10 then let (c, r) := m.buileAttest b; ⟨mem, m, c, r⟩
  else if f.typ == 0x11 then let (m, c, r) := m.buileSigned b; ⟨mem, m, c, r⟩
  else if f.typ == 0x12 then ⟨mem, m, 0, idPublic⟩
  else if f.typ == 0x20 then let (m, c) := m.keyUpdate b; ⟨mem, m, c, []⟩
  else if f.typ == 0x22 then buileCal mem m b f.ses
  else if f.typ == 0x23 then let (c, r) := buileJournal mem b; ⟨mem, m, c, r⟩
  else if 0x30 ≤ f.typ then
    let (mem, m) := updRequest mem m f.ses f.typ b
    ⟨mem, m, 0, leBytes 4 (m.rd Rg.UPD_STATUS) ++ leBytes 4 (m.rd Rg.UPD_RESULT) ++ leBytes 4 (m.rd Rg.UPD_DETAIL)⟩
  else ⟨mem, m, 0, []⟩

/-- A session that its request ends: CLOSE, or the last sequence number (R460). -/
def sessEnds (m : Mach) (f : BFrame) : Mach :=
  if f.typ == 3 then (m.modKey fun k => { k with sess := kdel k.sess f.ses }).showSessions
  else if f.seq == 0xFFFFFFFF then m.closeSession f.ses
  else m

/-- A request in an open session after its checks of session, sequence and tag. -/
def sessTyped (mem : Mem) (m : Mach) (x : Sess) (f : BFrame) : Mem × Mach × List Byte :=
  let refuse (m : Mach) (c : Nat) : Mem × Mach × List Byte := (mem, m.sessEnds f, buileReply f.typ f.ses f.seq c [] none)
  let known : Bool := if m.isStranded then strandedTypes.contains f.typ else sessionTypes.contains f.typ
  let allowed : Bool := match rightOf f.typ with | some r => bitOf x.rights r | none => true
  if !known then refuse m 0x27
  else if !allowed then refuse m 0x26
  else if f.typ == 0x21 then
    if f.body.length != 36 then refuse m 3
    else
      let dst := leAt f.body 0 1
      let c := m.lcCode dst (x.keyRef / 256)
      if c != 0 then refuse m c
      else match m.lcSuccessor x f.body with
        | none => refuse m 0x2B
        | some s =>
          let (mem, m) := lcChange mem m dst s
          (mem, m, buileReply f.typ f.ses f.seq 0 [] (some x.sk))
  else
    let r := sessRequest mem m f
    let sk := if r.code == 0 then (kget r.m.key.sess f.ses).map (·.sk) else none
    (r.mem, r.m.sessEnds f, buileReply f.typ f.ses f.seq r.code r.body sk)

/-- A Buile frame answered by the security engine. -/
def buile (mem : Mem) (m : Mach) (fr : List Byte) : Mem × Mach × List Byte :=
  match buileParse fr with
  | none => (mem, m, buileReply (leAt fr 0 1) (leAt fr 1 1) (leAt fr 4 4) 3 [] none)
  | some f =>
    if f.typ == 1 then let (m, r) := m.buileHello f; (mem, m, r)
    else if f.typ == 2 then let (m, r) := m.buileOpen f; (mem, m, r)
    else match kget m.key.sess f.ses with
      | none => (mem, m, buileReply f.typ f.ses f.seq 0x23 [] none)
      | some x =>
        if f.seq != x.seq + 1 then (mem, m.sessFails f.ses x, buileReply f.typ f.ses f.seq 0x24 [] none)
        else if f.tag != buileTag x.sk f.hdr f.body 0 then
          (mem, m.sessFails f.ses x, buileReply f.typ f.ses f.seq 0x25 [] none)
        else
          let m := m.modKey fun k => { k with sess := kput k.sess f.ses { x with seq := f.seq, fails := 0 } }
          sessTyped mem m { x with seq := f.seq } f

/-- A good request of an open session that needs the identity before it is ready: it waits (R443). -/
def idWaits (m : Mach) (fr : List Byte) : Bool :=
  match buileParse fr with
  | none => false
  | some f => (f.typ == 17 || f.typ == 18) && !m.bit Rg.KEY_STATUS 16 && match kget m.key.sess f.ses with
    | some x => f.seq == x.seq + 1 && f.tag == buileTag x.sk f.hdr f.body 0
    | none => false

/-- A whole frame of a given kind that reaches the engine; its response is kept. -/
def buileRow (types : Nat → Bool) (mem : Mem) (m : Mach) (fr : List Byte) : Mem × Mach :=
  if !m.keyRuns || !types (leAt fr 0 1) then (mem, m)
  else if m.idWaits fr then (mem, m.modKey fun k => { k with waits := k.waits ++ [(none, fr)] })
  else
    let (mem, m, r) := buile mem m fr
    (mem, m.modKey fun k => { k with reply := r })

/-- Operation BUILE of a descriptor (R454). -/
def buileOp (mem : Mem) (m : Mach) (init : Nat) (d : List Byte) : Mem × Mach × Nat × List Byte :=
  match keyInput mem m init d with
  | none => (mem, m, 2, [])
  | some x =>
    let (mem, m, r) := buile mem m x
    (mem, m.modKey fun k => { k with reply := r }, 0, r)

/-- The running operation is a BUILE whose request waits for the identity (R443). -/
def buileHeld (mem : Mem) (m : Mach) : Bool :=
  match m.key.cur with
  | some (a, i) => ((m.dmaRead mem i a 32).bind fun d => keyInput mem m i d).any m.idWaits
  | none => false

/-! ### Service port -/

/-- A response cut into Ethernet frames to an address (R479). -/
def segments (etype : Nat) (dst : List Byte) (r : List Byte) : List (List Byte) :=
  let n := ceilDiv r.length 1456
  (List.range n).map fun i =>
    dst ++ List.replicate 6 0 ++ beBytes 2 etype ++ beBytes 2 i ++ beBytes 2 n ++ (r.drop (1456 * i)).take 1456

/-- An Ethernet frame arrives on the service port of a Stranded module (R479). -/
def serviceSegment (mem : Mem) (m : Mach) (fr : List Byte) : Mem × Mach :=
  let etype := m.fld Rg.UPD_SVC_CFG 31 16
  let src := sliceBytes fr 6 6
  let i := beNat (sliceBytes fr 14 2)
  let n := beNat (sliceBytes fr 16 2)
  if !m.keyRuns || !m.isStranded || beNat (sliceBytes fr 12 2) != etype || n ≤ i || fr.length < 18 then (mem, m)
  else
    let old : List (Nat × List Byte) := match m.upd.rx with
      | some x => if x.src == leNat src && x.count == n then x.segs else []
      | none => []
    let segs := kput old i ((fr.drop 18).take 1456)
    if segs.length < n then (mem, m.modUpd fun u => { u with rx := some ⟨leNat src, n, segs⟩ })
    else
      let whole := (segs.map (·.2)).flatten
      let fr := whole.take (buileLen whole)
      let m := m.modUpd fun u => { u with rx := none }
      if m.idWaits fr then (mem, m.modKey fun k => { k with waits := k.waits ++ [(some src, fr)] })
      else
        let (mem, m, r) := buile mem m fr
        let m := m.modKey fun k => { k with reply := r }
        (mem, m.modUpd fun u => { u with tx := segments etype src r })

/-- The requests that have waited for the identity are answered (R443). -/
def identityWaiters (mem : Mem) (m : Mach) : Mem × Mach :=
  m.key.waits.foldl (fun (x : Mem × Mach) e =>
    let (mem, m, r) := buile x.1 x.2 e.2
    let m := m.modKey fun k => { k with reply := r }
    match e.1 with
    | some src => (mem, m.modUpd fun u => { u with tx := segments (m.fld Rg.UPD_SVC_CFG 31 16) src r })
    | none => (mem, m)) (mem, m.modKey fun k => { k with waits := [] })

end Mach

end Sys2Proof.Machine
end

