-- ==== Sys2Proof/Machine/Reset.lean ====
section
/-! DEFINITION. Module resets (R94 to R98, R102 to R109): the drivers of NRESET, what a reset clears, its release. -/

namespace Sys2Proof.Machine

/-! ### BIST result map (R121, R122) -/

/-- Words 0 to 7 of the map. -/
def BistMap.words (b : BistMap) : List Nat :=
  [b.magic, b.seq, b.stop <<< 8 ||| b.dur] ++
    (List.range 5).map fun w => sumNat ((List.range 8).map fun k => b.res.getD (8 * w + k) 0 <<< (2 * k))

/-- The CRC-32 that belongs in words 9 and 10. -/
def BistMap.sum (b : BistMap) : Nat := (Config.crc32 ((b.words.map (leBytes 2)).flatten)).toNat

def BistMap.valid (b : BistMap) : Bool := b.magic == 0xB157 && b.crc == b.sum && b.res.all (· != 3)

def BistMap.seal (b : BistMap) : BistMap := { b with crc := b.sum }

/-- Results in force: an invalid map reads NOT_RUN everywhere (R122). -/
def BistMap.results (b : BistMap) : List Nat := if b.valid then b.res else List.replicate 38 0

/-- Partitions that read FAIL. -/
def BistMap.failed (b : BistMap) : List Nat := (List.range 38).filter fun p => b.results.getD p 0 == 2

/-- A cold start counts in starts_since_bist, which lies outside the CRC of the map (R121, R122). -/
def SillSt.startCounted (s : SillSt) : SillSt := { s with map := { s.map with starts := satInc 16 s.map.starts } }

namespace Mach

def modRst (m : Mach) (f : RstSt → RstSt) : Mach := { m with rst := f m.rst }
def modSill (m : Mach) (f : SillSt → SillSt) : Mach := { m with sill := f m.sill }

/-- A bit of RSTC_IRQ_STATUS; the C-die takes no report while it is in reset. -/
def rstIrq (m : Mach) (i : Nat) : Mach := if m.rst.cReset then m else m.fire Rg.RSTC_IRQ_STATUS i

/-- Sleep or Dormant (R88). -/
def asleep (m : Mach) : Bool := m.rst.pmode == .sleep || m.rst.pmode == .dormant

/-- The P-die main domain is powered (R81, R82). -/
def mainOn (m : Mach) : Bool := m.rst.kl30 != .off && m.rst.kl30 != .retain && !m.asleep

/-- The P-die supervisor runs: from a P-die die reset until it is ready again, it does not (R175). -/
def supRuns (m : Mach) : Bool := m.mainOn && !m.bit Rg.LOAD_BUDGET_STATUS 0

/-! ### Shown state of the P-die -/

/-- VDDQ (rail 4) is monitored only with warm_ok or a MEMORY section that declares LPDDR5 (R84). -/
def monitored (m : Mach) (rail : Nat) : Bool := rail != 4 || m.sill.warmOk || m.memc.lpddrGib != 0

/-- RSTC_SUPPLY_STATUS follows the P-die's live state from the release of reset. -/
def showSupply (m : Mach) : Mach :=
  if m.rst.cReset then m
  else
    let r := m.rst
    let full : Bool := r.kl30 == .normal || r.kl30 == .high || r.kl30 == .overvolt
    let rails := maskOfList ((List.range 5).filter fun k => !(r.railBad.contains k && m.monitored k))
    let kl := if r.kl30 == .high then 1 else if r.kl30 == .overvolt then 2 else 0
    m.wr Rg.RSTC_SUPPLY_STATUS (flagNat r.refAbsent <<< 10 ||| rails <<< 5
      ||| flagNat (full && !(r.lowB && !r.lowBEdge)) <<< 4 ||| flagNat (full && !(r.lowA && !r.lowAEdge)) <<< 3 ||| kl)

/-- RSTC_MODE.warm_ok follows the sill flag (R96). -/
def showWarm (m : Mach) : Mach := if m.rst.cReset then m else m.setBit Rg.RSTC_MODE 6 m.sill.warmOk

/-- Sill values that the C-die reads (R108, R128). -/
def showSill (m : Mach) : Mach :=
  let m := m.forAll (List.range 16) fun m n => m.wr (Rg.RSTC_RCNT n) (m.sill.rcnt.getD n 0)
  (m.wr Rg.RSTC_SAFE_RESET (m.sill.safeCode <<< 16 ||| m.sill.safeArg)).showWarm

/-- RSTC_MODE.state; a change is reported (R88). -/
def setMode (m : Mach) (st : Nat) : Mach :=
  if m.fld Rg.RSTC_MODE 1 0 == st then m else (m.setFld Rg.RSTC_MODE 1 0 st).rstIrq 0

/-! ### NRESET drivers (R94, R97) -/

/-- A driver of the MZ4820 pulls NRESET low; the first source gives the cause (R108). -/
def drive (m : Mach) (d : Driver) (cause : Nat) : Mach :=
  if !m.mainOn then m
  else m.modRst fun r =>
    let r : RstSt := if r.low then r
      else { r with low := true, cause := some cause, ext := false, reach := .none }
    { r with drivers := if r.drivers.contains d then r.drivers else r.drivers ++ [d], ext := false }

/-- A driver of the MZ4820 lets go. The pin that stays low on an external driver alone is extended (R109). -/
def letGo (m : Mach) (d : Driver) : Mach :=
  m.modRst fun r =>
    let ds := r.drivers.filter (· != d)
    let own := ds.any (· != .ext)
    { r with drivers := ds, ext := r.ext || (r.drivers.contains d && !own && ds.contains .ext) }

/-- An internal reset request (R97): a warm one while warm_ok is 0 is driven for 100 µs. -/
def request (m : Mach) (cause : Nat) (warm : Bool) : Mach :=
  m.drive (.request cause (if warm && m.sill.warmOk then 10 else 100)) cause

/-- The internal request of a cause lets go. -/
def endRequest (m : Mach) (cause : Nat) : Mach :=
  m.rst.drivers.foldl (fun m d => match d with
    | .request c _ => if c == cause then m.letGo d else m
    | _ => m) m

/-! ### What a reset clears (R102) -/

/-- A cold start is under way and has not reached its first edge (R115). -/
def startPending (m : Mach) : Bool :=
  m.rst.step != 0 && !m.rst.warmStart && !m.tick.started

/-- Addresses of memory whose contents a reset loses: TCM and caches, SRAM banks outside `keep`, and the LPDDR5
unless it stays in self-refresh. -/
def memLost (keep : Nat) (lpddr : Bool) (a : Nat) : Bool :=
  (inRange a bSRAM nSRAM && !bitOf keep ((a - bSRAM) / 0x100000)) || inRange a (bTCM 0) (2 * nTCM)
    || (lpddr && bLPDDR ≤ a)

/-- State of the security engine in fuses and MRAM. -/
def keyKept (k : KeySt) : KeySt :=
  { lcN := k.lcN, lcD := k.lcD, hdr := k.hdr, slots := k.slots, succ := k.succ, fuseBad := k.fuseBad }

/-- The C-die and the L-die with every register, queue, buffer and state machine cold; `regs` is kept. -/
def coldCore (m : Mach) (regs : List (Nat × Word)) : Mach :=
  { regs := regs
    resp := m.resp
    drawn := m.drawn
    jq := m.jq
    rst := m.rst
    sill := m.sill
    todo := m.todo
    memc := { poison := m.memc.poison }
    truss := { latch := m.truss.latch }
    load := m.load
    meas := { wakeNow := m.meas.wakeNow }
    eport := { ports := m.eport.ports.map fun p : PortSt => { energy := p.energy } }
    key := m.key
    upd := { sinceCommit := m.upd.sinceCommit } }

/-- The reset engine once a module reset has asserted. -/
def rstAsserted (r : RstSt) (reach : Reach) (pHeld : Bool) : RstSt :=
  { r with
    reach := reach
    cReset := true
    lReset := true
    step := 0
    warmStart := false
    elems := []
    pulsed := []
    bistHeld := []
    bootCore := none
    modeCmd := none
    gated := []
    dozeWait := []
    shut := match r.shut with | .noReturn c => .noReturn c | _ => .none
    shutLt := 0
    wakeCancel := false
    retested := false
    wdt := []
    supRestart := r.supRestart || pHeld }

/-- Module reset at warm or cold reach asserts (R96, R102, R104). What counts since a cold reset, the failed debug responses
and the lock-out (R418), stays through a warm one. -/
def assertReset (mem : Mem) (m : Mach) (reach : Reach) : Mem × Mach :=
  let warm := reach == .warm
  let waits := m.lath.q.any fun r => !r.late && (!r.write || r.waiting)
  let m := if m.startPending then m.modSill fun s => { s with fails := s.fails + 1 } else m
  let m := if warm then m else m.modSill fun s => { s with warmOk := false }
  let react := if m.rst.cReset then m.rst.react else m.recReactions
  let m := m.updReset.resetKeyModule.loadModuleReset
  let retain := if warm then m.rd Rg.RSTC_RETAIN else 0
  let lost (a : Nat) : Bool := memLost retain (!warm) a
  let mem := mem.filter fun c => !lost c.1
  let pHeld := m.dieHeld .p
  let regs := m.regs.filter fun e =>
    inRange e.1 0x42000000 0x10000 || e.1 == Rg.RSTC_CAUSE || (warm && e.1 == Rg.RSTC_RETAIN)
  let fails := if warm then m.fld Rg.WORLD_DBG_STATUS 12 8 else 0
  let m := (m.coldCore regs).setFld Rg.WORLD_DBG_STATUS 12 8 fails
  let m := { m with memc := { m.memc with poison := m.memc.poison.filter fun a => !lost a } }
  let m := (m.modRst fun r => { rstAsserted r reach pHeld with react := react }).refreshAll
  (mem, if waits then m.answer .gone else m)

/-- The P-die main domain loses power; with `sill` false the sill domain loses it too (R81, R102). The external
conditions, MRAM, fuses and the NV latch remain. -/
def powerOff (mem : Mem) (m : Mach) (sill : Bool) : Mem × Mach :=
  let cold : Mach := {}
  let kept : SillSt := { m.sill with
    warmOk := false
    fails := m.sill.fails + flagNat m.startPending }
  let r := m.rst
  let new : Mach := { cold with
    drawn := m.drawn
    sill := if sill then kept else {}
    rst := { kl30 := r.kl30, lowA := r.lowA, lowB := r.lowB, railBad := r.railBad, refAbsent := r.refAbsent,
             overtemp := r.overtemp, dead := sill && r.dead }
    truss := { latch := { m.truss.latch with handoff := none, tries := 0 } }
    meas := { wakeNow := m.meas.wakeNow }
    eport := { ports := m.eport.ports.map fun p : PortSt => { energy := p.energy } }
    key := keyKept m.key
    upd := { sinceCommit := m.upd.sinceCommit } }
  (mem.filter fun c => !memLost 0 true c.1, new)

/-! ### Release (R105, R108, R109) -/

/-- One reset counted under its cause (R108). A power-on that has lost the sill domain is not counted (R102). -/
def countReset (m : Mach) (cause : Nat) : Mach :=
  if cause == 0 && !m.sill.alive then m.modSill fun s => { s with alive := true }
  else m.modSill fun s => { s with rcnt := s.rcnt.modify cause (satInc 16), alive := true }

/-- The sources that a wake has latched, in RSTC_WAKE_SRC_A and B (R93). -/
def showWakes (m : Mach) : Mach :=
  (m.wr Rg.RSTC_WAKE_SRC_A m.sill.wakeA).wr Rg.RSTC_WAKE_SRC_B m.sill.wakeB

/-- The release of a module reset: the C-die starts, RSTC_CAUSE is written (R105, R109). A cold start by NRESET counts in
starts_since_bist here, after a run that NRESET has waited for (DESIGN CHOICE, log entry 72). -/
def releaseReset (mem : Mem) (m : Mach) (cycles us : Nat) : Mem × Mach :=
  let r := m.rst
  let warm := r.reach == .warm
  let on := r.reach == .powerOn
  let cause := r.cause.getD (if cycles < 3000 then 4 else 5)
  let code := if on then 0 else if warm then 2 else 1
  let m := m.countReset cause
  let m := if cause == 0xE then m.showWakes else m
  let m := m.modSill fun s => { s with wakeA := 0, wakeB := 0, latched := false }
  let m := if warm || on then m
    else m.modSill (·.startCounted)
  let m := m.modRst fun r => { r with
    drivers := []
    low := false
    reach := .none
    cause := none
    ext := false
    cReset := false
    warmStart := warm
    step := if warm then 0 else 5
    pmode := .run }
  let us := if on then 0 else min us 0xFFFF
  let m := m.wr Rg.RSTC_CAUSE (us <<< 16 ||| flagNat r.ext <<< 7 ||| code <<< 4 ||| cause)
  let m := (m.clocksAtRelease.setLink 0 1).setLink 1 (if r.supRestart then 1 else 2)
  keyRelease mem m.showSill.showSupply.showKeys.dbgRelease

end Mach

end Sys2Proof.Machine
end

