-- ==== Sys2Proof/Machine/Block.lean ====
section
/-! DEFINITION. Die, unit, group and element resets (R99 to R103), and the effects that follow a commit. -/

namespace Sys2Proof.Machine

/-- Elements of RSTC_ELEM_RST by unit. -/
def elemCount (u : Nat) : Nat :=
  if u == uBENT then 12 else if u == uFAB then 4 else if u == uEPORT then 22 else if u == uMBUS then 12
  else if u == uLIN then 12 else if u == uSENT then 8 else if u == uMEAS then 96 else if u == uLOAD then 48 else 0

/-- Bits of RSTC_UNIT_RST that act. -/
def unitResettable (u : Nat) : Bool := u == uBIST || u == uKEY || u == uUPD || u == uVDEV || (uSWC ≤ u && u ≤ uLOAD)

namespace Mach

/-- What follows values of the C-die that have come into force, at a commit or written by the loader; `old` is the
machine before, `wrote` the registers that the commit has written. -/
def commitHooks (m old : Mach) (wrote : List Nat) : Mach :=
  let m := (m.swcCommit old).enableCommit old
  let m := (m.ptpCommit old).measCfgChanged old
  let m := (m.mbusCommit old).linCommit old wrote
  (m.nmCommit old).qosCommit old

/-- Pending writes, network management, ports and cores follow a reset that asserts or releases. -/
def followResets (m : Mach) : Mach := ((m.cutPending.nmFollow).portResets).followCores true

/-- Bits below `n` in which two values differ. -/
def changedBits (n old v : Nat) : List Nat := (List.range n).filter fun i => bitOf v i != bitOf old i

/-! ### Elements and groups -/

/-- The element's reset asserts. -/
def elemAssert (m : Mach) (u i : Nat) : Mach :=
  if u == uLOAD then m.resetChannel i
  else if u == uMBUS then m.resetCan i
  else if u == uLIN then m.resetLin i
  else if u == uSENT then m.resetSent i
  else if u == uEPORT then m.resetPort i
  else if u == uMEAS then m.resetInput i
  else m

/-- The element's reset is released, unless another source holds it (R103). -/
def elemRelease (m : Mach) (u i : Nat) : Mach :=
  if u == uLOAD then m.releaseChannel i
  else if u == uMBUS then m.releaseCan i
  else if u == uLIN then m.releaseLin i
  else m

/-- The elements that enter and leave reset together: the two contexts of a safe core in coded mode, else one (R100). -/
def elemSet (m : Mach) (u i : Nat) : List (Nat × Nat) :=
  if m.fab.coded && u == uBENT then [(u, i), (u, if i % 2 == 0 then i + 1 else i - 1)] else [(u, i)]

/-- A write of RSTC_ELEM_RST (R100). -/
def elemWrite (m : Mach) (v : Nat) : Mach :=
  let u := bitsOf v 28 24
  let i := bitsOf v 15 0
  if elemCount u ≤ i then m.rstIrq 7
  else
    let held := m.rst.elems.contains (u, i)
    let es := m.elemSet u i
    let m := m.wr Rg.RSTC_ELEM_RST (v &&& 0x9F00FFFF)
    if bitOf v 31 && !held then
      let was := m.elemHeld u i
      let m := m.modRst fun r => { r with elems := r.elems ++ es }
      (if was then m else m.elemAssert u i).followResets
    else if !bitOf v 31 && held then
      let m := m.modRst fun r => { r with elems := r.elems.filter fun e => !es.contains e }
      (m.elemRelease u i).followResets
    else m

/-- A bit of RSTC_GROUP_RST changes (R100): with a bank go its interrupt registers and SENSE_OUT (R101, R106); the group
bit of a bent is a failure signal (R396). -/
def groupBit (m : Mach) (g : Nat) (on : Bool) : Mach :=
  let es := groupElems g
  let free := es.filter fun e => !m.elemHeld e.1 e.2
  let m := m.setBit Rg.RSTC_GROUP_RST g on
  let m :=
    if on then
      let m := m.forAll free fun m e => m.elemAssert e.1 e.2
      if g < 6 then m.resetBank g else m
    else m.forAll es fun m e => m.elemRelease e.1 e.2
  let m := m.followResets
  if on && (g == 25 || g == 26) then m.bentSignal (g - 25) 2 7 else m

/-- A write of RSTC_GROUP_RST. -/
def groupWrite (m : Mach) (v : Nat) : Mach :=
  m.forAll (changedBits 28 (m.rd Rg.RSTC_GROUP_RST) v) fun m g => m.groupBit g (bitOf v g)

/-! ### Units -/

/-- Unit EPORT in reset: registers cold, every port HELD. -/
def resetEport (m : Mach) : Mach :=
  let m := m.coldUnit uEPORT
  m.forAll (List.range 22) fun m p =>
    let m := (m.setFld (Rg.EPORT_STATUS p) 2 0 1).modPort p fun s => { energy := s.energy }
    m.linkReport p false

/-- Unit UPD in reset: an update ends as at a reset; the service descriptor and the Stranded state stay. -/
def resetUpd (m : Mach) : Mach :=
  let why := m.fld Rg.UPD_STATUS 19 16
  let cfg := m.rd Rg.UPD_SVC_CFG
  let m := ((m.updReset).coldUnit uUPD).wr Rg.UPD_SVC_CFG cfg
  let m := m.modUpd fun u => { sinceCommit := u.sinceCommit }
  (m.setFld Rg.UPD_STATUS 19 16 why).setUpd 0

/-- A unit's reset asserts. -/
def unitAssert (m : Mach) (u : Nat) : Mach :=
  let m := m.bufReset u
  let m :=
    if u == uBIST then m.coldUnit uBIST
    else if u == uKEY then m.resetKey
    else if u == uUPD then m.resetUpd
    else if u == uVDEV then { m.coldUnit uVDEV with
        vdev := {}, irq := { m.irq with vec := [] }, gwy := { m.gwy with cmd := m.gwy.cmd.map fun c => { c with inst := none } } }
    else if u == uSWC then m.resetSwc
    else if u == uPTP then m.endPtpFrames.resetPtp
    else if u == uEPORT then m.resetEport
    else if u == uMBUS then m.resetMbus
    else if u == uLIN then m.resetLinUnit
    else if u == uSENT then m.resetSentUnit
    else if u == uNM then m.resetNm
    else if u == uGWY then m.resetGwy
    else if u == uMEAS then m.resetMeas
    else if u == uLOAD then m.resetLoadUnit
    else m
  m.followResets

/-- Ports follow the enables that the loader has written again after a SWC unit reset (R208, R221). -/
def portsFollowEnable (m : Mach) : Mach :=
  m.forAll (List.range 22) fun m p =>
    let st := m.portState p
    if st == 1 then m
    else if m.portEnabled p && st == 0 then m.toTraining p
    else if !m.portEnabled p && st != 0 then (m.abortDiag p).enterPort p 0
    else m.linkReport p (st == 3)

/-- Frame configurations of the GATEWAY section, which lie in unit LIN. -/
def linFrames (m : Mach) : Mach :=
  match m.truss.image with
  | some i => m.forAll ((sectWrites i sGATEWAY).filter fun w => match unitAt w.1 with | some (u, _) => u == uLIN | none => false)
      fun m w => m.loaderSet w
  | none => m

/-- Receive queue sizes of the instances' slots. -/
def slotSizes (m : Mach) : Mach :=
  m.forAll (m.vdev.slots.filter (·.kind == kRXQ)) fun m s => m.wr (Rg.MBUS_RXQ_SIZE (s.idx / 8) (s.idx % 8)) s.amt

/-- A unit's reset is released: the loader writes its section of the running image again as values in force. A unit
that another source still holds waits (R103). -/
def unitRelease (mem : Mem) (m : Mach) (u : Nat) : Mem × Mach :=
  if m.unitHeld u then (mem, m)
  else
    let old := m
    if u == uKEY then keyRelease mem m
    else
      let m :=
        if u == uVDEV then (match m.truss.image with | some i => m.vdevLoad i | none => m)
        else if u == uSWC then ((m.reapply sSWITCH).swcCommit old).portsFollowEnable
        else if u == uPTP then (m.reapply sPTP).ptpCommit old
        else if u == uEPORT then m.loadPorts
        else if u == uMBUS then
          let m := ((m.reapply sMBUS).slotSizes).mbusCommit old
          m.forAll (List.range 12) fun m c => m.releaseCan c
        else if u == uLIN then
          let m := ((m.reapply sLIN).linFrames).linCommit old []
          m.forAll (List.range 12) fun m c => m.releaseLin c
        else if u == uSENT then m.reapply sSENT
        else if u == uNM then (m.reapply sNM).releaseNm
        else if u == uGWY then m.reapply sGATEWAY
        else if u == uMEAS then ((m.reapply sMEAS).measCfgChanged old).setBit Rg.MEAS_STATUS 0 (!m.truss.calValid)
        else if u == uLOAD then m.forAll (List.range 48) fun m n => m.releaseChannel n
        else m
      (mem, m.followResets)

/-- A unit's bit of RSTC_UNIT_RST changes. -/
def unitBit (mem : Mem) (m : Mach) (u : Nat) (on : Bool) : Mem × Mach :=
  let was := m.unitHeld u
  let m := m.setBit Rg.RSTC_UNIT_RST u on
  if on then (mem, if was then m else m.unitAssert u) else unitRelease mem m u

/-- A write of RSTC_UNIT_RST: the bits that change act (R100). -/
def unitWrite (mem : Mem) (m : Mach) (v : Nat) : Mem × Mach :=
  ((changedBits 24 (m.rd Rg.RSTC_UNIT_RST) v).filter unitResettable).foldl
    (fun (x : Mem × Mach) u => unitBit x.1 x.2 u (bitOf v u)) (mem, m)

/-! ### Dies -/

/-- Writes that wait in a die's shadow registers are dropped with its reset (R101). -/
def dropShadow (m : Mach) (d : FarDie) : Mach :=
  match d with
  | .l => { m.goneDrop (stgCount (m.stage.shadowL.getD [])) with stage := { m.stage with shadowL := none } }
  | .p => { m.goneDrop (stgCount (m.stage.shadowP.getD [])) with stage := { m.stage with shadowP := none } }

/-- A die reset asserts (R99, R354). -/
def dieAssert (m : Mach) (d : FarDie) : Mach :=
  match d with
  | .l =>
    let m := ((m.setLink 0 1).coldEportL).coldMbusL
    let m := { m with meas := { m.meas with lost := List.range 96 } }
    (m.dropShadow .l).followResets
  | .p =>
    let m := ((m.setLink 1 1).loadDieDown).dropShadow .p
    m.followResets

/-- Selective wake settings of the MBUS section, written again at the release of the L-die (R279). -/
def reWuf (m : Mach) : Mach :=
  match m.truss.image with
  | some i => m.forAll ((sectWrites i sMBUS).filter fun w => match findReg w.1 with | some h => h.far w.1 == some .l | none => false)
      fun m w => m.loaderSet w
  | none => m

/-- A die reset is released (R99): the L-die trains its link, the P-die restarts its supervisor. -/
def dieRelease (m : Mach) (d : FarDie) : Mach :=
  if m.dieHeld d then m
  else match d with
    | .l => ((m.loadPorts.reWuf).setLink 0 2).followResets
    | .p => m.modRst fun r => { r with supRestart := true }

/-- The restarted supervisor runs (R99, R145): the loader writes the LOAD section again, and the duties' owners. -/
def supervisorReady (m : Mach) : Mach :=
  if !m.rst.supRestart || m.dieHeld .p then m
  else
    let m := (m.modRst fun r => { r with supRestart := false }).loadSupervisorUp
    if m.rst.cReset then m
    else
      let m := (m.reapply sLOAD).showOwners
      let ds := (List.range 64).filter m.dutyValid
      let m := { m with bent := { m.bent with lane := ds.map fun d => (d, m.dutyOwner d, m.dutyEpoch d) } }
      (m.laneArrives.setLink 1 2).refreshAll

/-- Far die of a bit of RSTC_DIE_RST. -/
def bitDie (i : Nat) : FarDie := if i == 0 then .l else .p

/-- A die's bit of RSTC_DIE_RST changes. -/
def dieBitSet (m : Mach) (i : Nat) (on : Bool) : Mach :=
  let was := m.dieHeld (bitDie i)
  let m := m.setBit Rg.RSTC_DIE_RST i on
  if on then (if was then m else m.dieAssert (bitDie i)) else m.dieRelease (bitDie i)

/-- A write of RSTC_DIE_RST. -/
def dieWrite (m : Mach) (v : Nat) : Mach :=
  m.forAll (changedBits 2 (m.rd Rg.RSTC_DIE_RST) v) fun m i => m.dieBitSet i (bitOf v i)

/-! ### Pulsed resets of R40 and R127 -/

/-- The pulsed block reset of a unit client asserts (R40). -/
def clientReset (m : Mach) (c : Nat) : Mach :=
  if 5 < c || m.tick.pulses.contains c then m
  else
    let m := { m with tick := { m.tick with pulses := c :: m.tick.pulses } }
    if c == 5 then
      let ran := m.swc.cmd.isSome
      let m := m.modSwc fun s => { s with learn := [], cmd := none }
      if ran then (m.wr Rg.SWC_MAC_RESULT 0x90000000).fire Rg.SWC_IRQ_STATUS 4 else m
    else
      let u := clientUnit c
      let was := m.unitHeld u
      let m := m.modRst fun r => { r with pulsed := (1, u, 0) :: r.pulsed }
      if was then m else m.unitAssert u

/-- The pulse ends after 10 µs. -/
def clientResetEnd (mem : Mem) (m : Mach) (c : Nat) : Mem × Mach :=
  if !m.tick.pulses.contains c then (mem, m)
  else
    let m := { m with tick := { m.tick with pulses := m.tick.pulses.filter (· != c) } }
    if c == 5 then (mem, m)
    else
      let u := clientUnit c
      unitRelease mem (m.modRst fun r => { r with pulsed := r.pulsed.filter (· != (1, u, 0)) }) u

/-- A pulsed die reset (R127). -/
def pulseDie (m : Mach) (die : Nat) : Mach :=
  let d := if die == 1 then FarDie.l else FarDie.p
  if m.rst.pulsed.contains (0, die, 0) then m
  else
    let was := m.dieHeld d
    let m := m.modRst fun r => { r with pulsed := (0, die, 0) :: r.pulsed }
    if was then m else m.dieAssert d

/-- A pulsed element reset (R127). -/
def pulseElem (m : Mach) (u i : Nat) : Mach :=
  if m.rst.pulsed.contains (2, u, i) then m
  else
    let was := m.elemHeld u i
    let m := m.modRst fun r => { r with pulsed := (2, u, i) :: r.pulsed }
    (if was then m else m.elemAssert u i).followResets

/-- A pulsed die or element reset of R127 is released, 10 µs after its assertion. -/
def blockPulseEnd (m : Mach) (x : Nat × Nat × Nat) : Mach :=
  let (k, u, i) := x
  if k == 1 || !m.rst.pulsed.contains x then m
  else
    let m := m.modRst fun r => { r with pulsed := r.pulsed.filter (· != x) }
    if k == 0 then m.dieRelease (if u == 1 then .l else .p) else (m.elemRelease u i).followResets

/-- Pulses of R127 that still stand at a tick edge have lasted their 10 µs. -/
def pulsesEnd (m : Mach) : Mach := m.forAll m.rst.pulsed fun m x => m.blockPulseEnd x

end Mach

end Sys2Proof.Machine
end

