-- ==== Sys2Proof/Machine/Power.lean ====
section
/-! DEFINITION. Supplies (R81 to R87), power modes, shutdown and wake (R88 to R93), logic BIST (R118 to R121). -/

namespace Sys2Proof.Machine

/-- Partitions whose FAIL is a boot-critical failure (table R119, R125). -/
def bootCritical (failed : List Nat) : List Nat :=
  failed.filter fun p => [5, 21, 22, 23, 24, 25, 30].contains p
    || ((p == 6 || p == 9) && failed.contains 6 && failed.contains 9)

/-- Class of KL30 in mV by table R82; the hold of 5.5 V falling ends at 6.0 V rising. -/
def kl30Class (old : Kl30) (mv : Nat) : Kl30 :=
  if mv < 3000 then .off
  else if mv < 4500 then .retain
  else if mv < 5500 then .low
  else if mv < 6000 && (old == .off || old == .retain || old == .low) then .low
  else if mv < 18000 then .normal
  else if mv ≤ 28000 then .high
  else .overvolt

namespace Mach

/-! ### Logic BIST (R118, R120, R121) -/

/-- A logic BIST starts: every result NOT_RUN, the run number incremented, NRESET held low by the given driver. -/
def startBist (m : Mach) (why : BistWhy) (parts : List Nat) : Mach :=
  let m := m.modSill fun s =>
    let b : BistMap := { s.map with magic := 0xB157, seq := (s.map.seq + 1) % 65536, stop := 0, dur := 0,
                                    res := List.replicate 38 0, starts := 0 }
    { s with map := b.seal }
  m.modRst fun r => { r with bist := some (why, parts) }

/-- The results of the partitions in `done` recorded, with the stop reason and the duration. -/
def recordBist (m : Mach) (done : List Nat) (fail reason ms : Nat) : Mach :=
  m.modSill fun s =>
    let res := (List.range 38).map fun p =>
      if done.contains p then (if bitOf fail p then 2 else 1) else s.map.res.getD p 0
    let b : BistMap := { s.map with stop := reason, dur := ms, res := res }
    { s with map := b.seal }

/-- Loss of the P-die main domain during a BIST (R120): which partitions were complete, and their results, is free. -/
def bistSupply (m : Mach) : Mach :=
  match m.rst.bist with
  | none => m
  | some (_, parts) =>
    let (n, m) := m.draw
    let (f, m) := m.draw
    let m := m.recordBist (parts.take (n.toNat % (parts.length + 1))) f.toNat 4 (n.toNat / 64 % 91)
    m.modRst fun r => { r with bist := none }

/-! ### Supplies -/

/-- Channels whose supply condition has ended leave SUPPLY_OFF, and every channel follows its supply (R82, R83). -/
def supplyReturn (m : Mach) : Mach :=
  m.forAll (List.range 48) fun m n =>
    let m := if (m.ch n).ps == .supplyOff && !m.supplyBad n then m.modCh n fun c => { c with ps := .off } else m
    m.follow n

/-- The P-die main domain gains power (R81, R102): a power-on, after a wake with cause WAKE. With KL30 above 28 V its
channels stay off (R82). -/
def mainPower (m : Mach) : Mach :=
  m.modRst fun r => { r with
    pmode := .off
    ovp := r.kl30 == .overvolt
    ovpEdge := false
    low := true
    reach := .powerOn
    cause := some (if m.sill.latched then 0xE else 0)
    drivers := [.sill]
    ext := false
    cReset := true
    lReset := true
    step := 0
    warmStart := false }

/-- Step 4 of table R112: REG_EN high, every monitored rail in its window, the reference present, and no
over-temperature (R84, R85, R87). -/
def supplyGood (m : Mach) : Bool :=
  m.rst.regEn && !m.rst.overtemp && !m.rst.refAbsent && !(m.rst.railBad.any fun k => m.monitored k)

/-- The start-time BIST of R115 or the retest of R125 that a start still owes begins after step 4. Only a power-on start
looks at the map for boot-critical failures. -/
def owedBist (m : Mach) (powerOn : Bool) : Mach :=
  let bad := bootCritical m.sill.map.failed
  if m.rst.bist.isSome || !m.supplyGood then m
  else if 3 ≤ m.sill.fails then (m.drive .bist 7).startBist .startTime (List.range 38)
  else if powerOn && !bad.isEmpty then (m.drive .bist 7).startBist .retest bad
  else m

/-- What the end of step 4 of table R112 lets begin: a BIST that is owed, else step 5, the release of NRESET. -/
def tryStep5 (m : Mach) : Mach :=
  let r := m.rst
  if r.shut != .none || r.dead then m
  else if r.drivers.contains .sill then
    (if r.step < 3 then m
     else
       let m := m.owedBist true
       if m.rst.bist.isNone && m.supplyGood then (m.modRst fun r => { r with step := 4 }).letGo .sill else m)
  else if r.drivers.contains .bist then m.owedBist false
  else m

/-- A loss of KL30 tears the copy of the NV latch that a hand-off is being written into (R72). The spec does not say when
within the 8 ms the writing happens; the model takes the copy as torn from the hand-off on (DESIGN CHOICE, log entry 72). -/
def tearLatch (m : Mach) : Mach :=
  if m.truss.latch.handoff.isNone then m
  else
    let k := m.latchTarget
    { m with truss := { m.truss with latch := { m.truss.latch with
      copy0 := { m.truss.latch.copy0 with good := m.truss.latch.copy0.good && k != 0 }
      copy1 := { m.truss.latch.copy1 with good := m.truss.latch.copy1.good && k != 1 } } } }

/-- KL30 crosses into another class of table R82. -/
def kl30Change (mem : Mem) (m : Mach) (mv : Nat) : Mem × Mach :=
  let old := m.rst.kl30
  let new := kl30Class old mv
  if new == old then (mem, m)
  else
    let wasOff : Bool := old == .off || old == .retain
    let m := m.modRst fun r => { r with kl30 := new }
    if new == .off then powerOff mem m.tearLatch false
    else if new == .retain then
      (if old == .off || m.asleep then (mem, m) else powerOff mem m.bistSupply.tearLatch true)
    else
      let m := if wasOff && !m.asleep then m.mainPower else m
      let m := if new == .low then m.drive (.hold 1) 1 else m.letGo (.hold 1)
      let m := if new == .overvolt then (m.modRst fun r => { r with ovp := true, ovpEdge := false }).rstIrq 4 else m
      let m := if new == .high then m.rstIrq 3 else m
      let m := if m.asleep then m else m.supplyReturn
      (mem, m.showSupply.tryStep5)

/-- KL30 has stayed below 27 V for 1 ms: the channels return at the next edge (R82). -/
def ovpEnds (m : Mach) : Mach :=
  if m.rst.ovp && m.rst.kl30 != .overvolt then m.modRst fun r => { r with ovpEdge := true } else m

/-- A post falls below 5.5 V while the other stays at or above 6.0 V (R83); a post whose recovery waits for its tick edge
is back at 6.0 V. -/
def postLow (m : Mach) (p : Nat) : Mach :=
  let other := if p == 0 then m.rst.lowB else m.rst.lowA
  let full : Bool := m.rst.kl30 == .normal || m.rst.kl30 == .high || m.rst.kl30 == .overvolt
  let back := if p == 0 then m.rst.lowBEdge else m.rst.lowAEdge
  if (other && !back) || !full || m.asleep then m
  else
    let m := m.modRst fun r => if p == 0 then { r with lowA := true, lowAEdge := false }
      else { r with lowB := true, lowBEdge := false }
    ((m.followAll (List.range 48)).rstIrq 5).showSupply

/-- The post has been at or above 6.0 V for 1 ms: its status reads good, and its channels return at the next edge (R83). -/
def postEnds (m : Mach) (p : Nat) : Mach :=
  (m.modRst fun r => if p == 0 then { r with lowAEdge := r.lowA } else { r with lowBEdge := r.lowB }).showSupply

/-- The recoveries of R82 and R83 at a tick edge. -/
def supplyEdge (m : Mach) : Mach :=
  let m := m.modRst fun r => { r with
    ovp := r.ovp && !r.ovpEdge
    ovpEdge := false
    lowA := r.lowA && !r.lowAEdge
    lowAEdge := false
    lowB := r.lowB && !r.lowBEdge
    lowBEdge := false }
  m.supplyReturn.showSupply

/-- A rail leaves its window (R84). -/
def railOut (m : Mach) (k : Nat) : Mach :=
  if m.asleep then m
  else
    let m := m.modRst fun r => { r with railBad := if r.railBad.contains k then r.railBad else k :: r.railBad }
    let m := if m.monitored k && m.rst.regEn then m.drive (.hold 2) 2 else m
    m.showSupply

/-- A rail that is outside its window when its monitoring begins (VDDQ with warm_ok or with the MEMORY section) holds
NRESET low from then on (R84). -/
def railsWatched (m : Mach) : Mach :=
  let m := if m.rst.regEn && m.rst.railBad.any m.monitored then m.drive (.hold 2) 2 else m
  m.showSupply

/-- Every monitored rail has been inside its window for 1 ms. -/
def railsBack (m : Mach) : Mach :=
  ((m.modRst fun r => { r with railBad := r.railBad.filter fun k => !m.monitored k }).letGo (.hold 2)).showSupply.tryStep5

/-- The reference is absent, or has been present for 1 ms (R85). -/
def refChange (m : Mach) (absent : Bool) : Mach :=
  let m := m.modRst fun r => { r with refAbsent := absent }
  let m := if absent then m.drive (.hold 3) 3 else m.letGo (.hold 3)
  m.showSupply.tryStep5

/-- Over-temperature of the C-die or the L-die (R87). -/
def dieHot (m : Mach) (on : Bool) : Mach :=
  let m := m.modRst fun r => { r with overtemp := on }
  if on then m.drive (.hold 0xD) 0xD else (m.letGo (.hold 0xD)).tryStep5

/-- Loss of the heartbeat once the tick runs (R86), or of the boot progress message before (R113). -/
def heartbeatLost (m : Mach) (running : Bool) : Mach :=
  if !m.rst.cReset && m.bit Rg.TICK_CTRL 0 == running && !m.isStranded then m.request 9 false else m

/-- The C-die clock monitor's fault (R85). -/
def clockFault (m : Mach) : Mach := if m.rst.cReset then m else m.request 3 false

/-! ### Mode commands (R89 to R91) -/

/-- A write of RSTC_MODE_CMD (R89): what only heartwood may command is a world access violation of sapwood, whether or
not the command is one of the list. -/
def modeCmd (m : Mach) (init v : Nat) : Mach :=
  let cmd := v % 8
  let force := bitOf v 8
  let heart := m.isHeart init
  let m := m.doIf (!heart && (cmd == 3 || cmd == 4 || force)) fun m => m.worldViolation Rg.RSTC_MODE_CMD init
  if cmd == 0 || 4 < cmd then m.rstIrq 7
  else
    if heart || cmd < 3 then m.modRst fun r => { r with modeCmd := some (cmd, heart && force) } else m

/-- DOZE is refused (R90). -/
def dozeRefused (m : Mach) : Bool :=
  let k := m.rd Rg.RSTC_DOZE_MASK
  (bitOf k 0 && (List.range 16).any fun p =>
    m.bit (Rg.TICK_CLIENT_CFG (16 + p)) 0 && (m.partRec p).isSome && !m.partSafe p)
  || (bitOf k 1 && !m.sill.warmOk)

/-- RSTC_MODE.doze_pending. -/
def showDoze (m : Mach) : Mach := m.setBit Rg.RSTC_MODE 2 (!m.rst.dozeWait.isEmpty)

/-- Doze is entered: units gated but for those under a claim. -/
def dozeEnter (m : Mach) : Mach :=
  let ks := onesOf 4 (m.rd Rg.RSTC_DOZE_MASK)
  let m := m.modRst fun r => { r with gated := ks.filter fun k => !m.claimed k, dozeWait := ks.filter m.claimed }
  (m.setMode 1).showDoze

/-- Doze ends (R90). -/
def dozeExit (m : Mach) : Mach :=
  if m.fld Rg.RSTC_MODE 1 0 == 1 then ((m.modRst fun r => { r with gated := [], dozeWait := [] }).setMode 0).showDoze
  else m

/-- A source asserts (R364); an interrupt that an application core receives ends Doze (R88, R90). -/
def irqAssert (m : Mach) (n : Nat) : Mach :=
  let wakes := m.irqTarget n < 4 && m.irqTaken n
  let m := m.irqDeliver n
  if wakes then m.dozeExit else m

/-- DOZE_EXIT: the waking event is an interrupt that stands for an application core (R88, R90). -/
def dozeWake (m : Mach) : Mach :=
  if (List.range 1024).any fun n => m.irqTarget n < 4 && m.irqTaken n then m.dozeExit else m

/-- Claimed units whose claim has ended are gated at the edge after (R90). -/
def dozeEdge (m : Mach) : Mach :=
  (m.modRst fun r => { r with
    gated := r.gated ++ r.dozeWait.filter fun k => !m.claimed k
    dozeWait := r.dozeWait.filter m.claimed }).showDoze

/-- SLEEP (3) or DORMANT (4) is refused (R91). -/
def sleepRefused (m : Mach) (cmd : Nat) (force : Bool) : Bool :=
  let en := m.rd Rg.RSTC_WAKE_EN
  let nm := (List.range 24).any fun s => m.segOn s && m.segState s != 1
  let can := (List.range 12).any fun c => m.fld (Rg.MBUS_CFG c) 9 8 == 1 || m.fld (Rg.MBUS_CFG c) 9 8 == 2
  (nm && !force) || (cmd == 4 && bitsOf en 15 0 == 0) || (cmd == 3 && bitsOf en 28 0 == 0 && !can)

/-- Step 1 of table R91: state SHUTDOWN, every load channel commanded OFF. -/
def shutStart (m : Mach) (cmd lt : Nat) : Mach :=
  let m := (m.setMode 2).modRst fun r => { r with shut := .started cmd, shutLt := lt }
  m.forAll (List.range 48) fun m n =>
    let m := (m.modCh n fun c => { c with disp := false, nxt := none }).takeOut n .off
    (m.setFld (Rg.LOAD_CTRL n) 1 0 0).follow n

/-- Step 2: CAN channels and Ethernet ports stop, the wake settings go to the sill domain. -/
def shutStop (m : Mach) (cmd : Nat) : Mach :=
  let m := m.shutCan
  let m := m.forAll (List.range 18) fun m p => if 2 ≤ m.portState p then (m.abortDiag p).enterPort p 0 else m
  let m := m.modSill fun s => { s with
    wakeEn := m.rd Rg.RSTC_WAKE_EN
    wakePol := m.rd Rg.RSTC_WAKE_POL
    sleepTimer := m.rd Rg.RSTC_SLEEP_TIMER
    canWake := (List.range 12).map fun c => m.fld (Rg.MBUS_CFG c) 9 8
    canWuf := (List.range 12).map m.wufWords
    wufErr := (List.range 12).map fun c => m.fld (Rg.MBUS_WUF_ERR c) 5 0 }
  m.modRst fun r => { r with shut := .stopped cmd }

/-- Step 3, the no-return point: the sill domain drives NRESET low and logic BIST starts. -/
def shutDrive (m : Mach) (cmd : Nat) : Mach :=
  let m := (m.modRst fun r => { r with shut := .noReturn cmd }).drive .sill 0xE
  m.startBist .shutdown (List.range 38)

/-- The steps of table R91 that are due at a local time. -/
def shutSteps (m : Mach) (lt : Nat) : Mach :=
  let m := match m.rst.shut with
    | .started c => if m.rst.shutLt + 2000000 ≤ lt then m.shutStop c else m
    | _ => m
  match m.rst.shut with
  | .stopped c => if m.rst.shutLt + 3000000 ≤ lt then m.shutDrive c else m
  | _ => m

/-- NRESET falls by an MZ4820 driver while a shutdown is under way and no other driver has pulled: its step 3. A wake that
has cancelled the shutdown came before step 3, so that there is none (R92). -/
def shutPin (m : Mach) : Mach :=
  if m.rst.low || m.rst.wakeCancel then m
  else match m.rst.shut with
  | .started c => (m.shutStop c).shutDrive c
  | .stopped c => m.shutDrive c
  | _ => m

/-- A cancelled shutdown returns to Run (R92). -/
def shutCancel (m : Mach) : Mach :=
  let stopped : Bool := match m.rst.shut with | .stopped _ => true | _ => false
  let m := (m.modRst fun r => { r with shut := .none, wakeCancel := false }).setMode 0
  let m := if stopped then
      m.resumeCan.forAll (List.range 18) fun m p => if m.portEnabled p && m.portState p == 0 then m.toTraining p else m
    else m
  (m.rstIrq 1).refreshAll

/-- What the mode does at a tick edge (R89 to R92). -/
def modeEdge (m : Mach) (lt : Nat) : Mach :=
  let cmd := m.rst.modeCmd
  let m := m.modRst fun r => { r with modeCmd := none }
  let m := if m.rst.wakeCancel then m.shutCancel else m.shutSteps lt
  let st := m.fld Rg.RSTC_MODE 1 0
  let m := if st == 1 then m.dozeEdge else m
  match cmd with
  | some (c, force) =>
    if c == 1 then m.dozeExit
    else if c == 2 then (if st != 0 then m else if m.dozeRefused then m.rstIrq 2 else m.dozeEnter)
    else if st == 2 then m
    else if st == 1 || m.sleepRefused c force then m.rstIrq 2
    else m.shutStart c lt
  | none => m

/-! ### Sleep and wake (R92, R93) -/

/-- Step 6 of table R91: Sleep or Dormant. -/
def enterSleep (mem : Mem) (m : Mach) (cmd : Nat) : Mem × Mach :=
  let (mem, m) := powerOff mem m true
  (mem, m.modRst fun r => { r with pmode := if cmd == 3 then .sleep else .dormant, drivers := [.sill] })

/-- The target of a shutdown that has passed a step, or the state of sleep: 3 or 4; none in Run. -/
def sleepKind (m : Mach) : Option Nat :=
  match m.rst.shut with
  | .started c | .stopped c | .noReturn c => some c
  | .none => if m.rst.pmode == .sleep then some 3 else if m.rst.pmode == .dormant then some 4 else none

/-- The wake settings of the sill domain are the ones in use: from step 3 on. -/
def sillWakes (m : Mach) : Bool :=
  m.asleep || match m.rst.shut with | .noReturn _ => true | _ => false

def wakeEnables (m : Mach) : Nat := if m.sillWakes then m.sill.wakeEn else m.rd Rg.RSTC_WAKE_EN
def wakePols (m : Mach) : Nat := if m.sillWakes then m.sill.wakePol else m.rd Rg.RSTC_WAKE_POL

/-- A wake starts the module: the P-die main domain and the rails come up (R93). -/
def wakeUp (m : Mach) : Mach :=
  let m := m.mainPower
  if m.rst.kl30 == .low then m.drive (.hold 1) 1 else m

/-- Enabled wake events in the layout of RSTC_WAKE_SRC_A and RSTC_WAKE_SRC_B: before step 3 of a shutdown they cancel
it, after it they are latched, in Sleep and Dormant they start the module (R92, R93). Whether a cancel replaces the
sources of the last start or adds to them is not said: they are added (DESIGN CHOICE, log entry 72). -/
def wake (m : Mach) (a b : Nat) : Mach :=
  if a == 0 && b == 0 then m
  else
    let latch (m : Mach) : Mach := m.modSill fun s => { s with wakeA := s.wakeA ||| a, wakeB := s.wakeB ||| b, latched := true }
    match m.rst.shut with
    | .started _ | .stopped _ =>
      let m := m.modRst fun r => { r with wakeCancel := true }
      (m.wr Rg.RSTC_WAKE_SRC_A (m.rd Rg.RSTC_WAKE_SRC_A ||| a)).wr Rg.RSTC_WAKE_SRC_B (m.rd Rg.RSTC_WAKE_SRC_B ||| b)
    | .noReturn _ => latch m
    | .none => if m.asleep then (latch m).wakeUp else m

/-- WAKE pins with an edge held for 4 sill cycles: the filtered level of the comparator follows in every mode (R185), and in
Sleep, Dormant and on the way there an enabled edge wakes (R93). A pin with both edges comes back to its level. -/
def wakePins (m : Mach) (rising falling : Nat) : Mach :=
  let used (v : Nat) : Nat := maskOfList ((onesOf 16 v).filter fun i => !m.pinOff (8 + i) 39)
  let rising := used rising
  let falling := used falling
  let level := maskOfList ((List.range 16).filter fun i =>
    if bitOf rising i == bitOf falling i then bitOf m.meas.wakeNow i else bitOf rising i)
  let m := { m with meas := { m.meas with wakeNow := level } }
  match m.sleepKind with
  | none => m
  | some _ =>
    let pol := m.wakePols
    m.wake (maskOfList ((onesOf 16 m.wakeEnables).filter fun i => bitOf (if bitOf pol i then falling else rising) i)) 0

/-- LIN channels dominant for 150 µs; Sleep only. -/
def wakeLin (m : Mach) (chs : Nat) : Mach :=
  if m.sleepKind == some 3 then m.wake ((bitsOf m.wakeEnables 27 16 &&& chs % 4096) <<< 16) 0 else m

/-- The sleep timer; Sleep only. -/
def wakeTimer (m : Mach) : Mach :=
  if m.sleepKind == some 3 && bitOf m.wakeEnables 28 then m.wake 0x10000000 0 else m

/-- Wake setting of a CAN channel: 1 dominant edge, 2 selective. -/
def canWakeSetting (m : Mach) (c : Nat) : Nat :=
  if m.sillWakes then m.sill.canWake.getD c 0 else m.fld (Rg.MBUS_CFG c) 9 8

/-- A CAN wake of the given kind in Sleep or on the way there. -/
def wakeCan (m : Mach) (c kind : Nat) : Mach :=
  if m.sleepKind == some 3 && m.canWakeSetting c == kind then m.wake 0 (2 ^ c) else m

/-- The start of a wake latched during the shutdown (R92). -/
def latchedWake (m : Mach) : Mach := if m.asleep && m.sill.latched then m.wakeUp else m

/-! ### NRESET (R95, R98) -/

/-- The pin falls: an external driver, or the confirmation of a driver of the MZ4820. -/
def nresetFall (m : Mach) (ext : Bool) : Mach :=
  if !m.mainOn then m
  else if !ext then m.shutPin
  else m.modRst fun r =>
    let r : RstSt := if r.low then r
      else { r with low := true, cause := none, ext := false, reach := .none }
    { r with drivers := if r.drivers.contains .ext then r.drivers else r.drivers ++ [.ext] }

/-- The start-time BIST of R115 before a cold start goes on: NRESET stays low until it ends, and the run begins once
step 4 is complete. -/
def coldBist (m : Mach) : Mach :=
  if 3 ≤ m.sill.fails && m.rst.bist.isNone && m.rst.shut == .none then (m.drive .bist 7).owedBist false else m

/-- The pin has been low for 100 cycles: warm reset, or cold while warm_ok is 0 (R95, R96). -/
def nresetWarm (mem : Mem) (m : Mach) : Mem × Mach :=
  if !m.rst.low || m.rst.reach != .none then (mem, m)
  else if m.sill.warmOk then assertReset mem m .warm
  else
    let (mem, m) := assertReset mem m .cold
    (mem, m.coldBist)

/-- The pin has been low for 3,000 cycles: cold reach. -/
def nresetCold (mem : Mem) (m : Mach) : Mem × Mach :=
  if !m.rst.low || m.rst.reach == .cold || m.rst.reach == .powerOn then (mem, m)
  else
    let (mem, m) := assertReset mem m .cold
    (mem, m.coldBist)

/-- The pin rises after the given low time. While a driver of the MZ4820 still pulls, only the external driver has let
go. A pulse below 100 cycles is ignored; the reset of a longer one has asserted by its class (R95). -/
def nresetRise (mem : Mem) (m : Mach) (cycles us : Nat) : Mem × Mach :=
  if !m.rst.low || m.rst.kl30 == .off || m.rst.kl30 == .retain || m.asleep then (mem, m)
  else if m.rst.drivers.any (· != .ext) then
    (mem, m.modRst fun r => { r with drivers := r.drivers.filter (· != .ext) })
  else if cycles < 100 && m.rst.reach == .none then
    (mem, m.modRst fun r => { r with drivers := [], low := false, cause := none, ext := false })
  else
    let (mem, m) := nresetWarm mem m
    let (mem, m) := if 3000 ≤ cycles then nresetCold mem m else (mem, m)
    if m.rst.drivers.any (· != .ext) then (mem, m) else releaseReset mem m cycles us

end Mach

end Sys2Proof.Machine
end

