-- ==== Sys2Proof/Machine/Start.lean ====
section
/-! DEFINITION. The start sequences (R112 to R117), the logic BIST around them (R115, R118, R122 to R125), and the
entry into Stranded at a start (R114, R124, R469). -/

namespace Sys2Proof.Machine

namespace Mach

/-- BIST_START_STATUS.stage shows the last completed step. -/
def showStage (m : Mach) (step : Nat) : Mach :=
  (m.modRst fun r => { r with step := step }).wr Rg.BIST_START_STATUS (if m.rst.warmStart then step + 0x15 else step)

/-! ### Power-on and BIST -/

/-- Steps 1 to 4 of table R112: sill check, NV latch, REG_EN, and after step 4 a BIST where R115 or R125 asks for one.
starts_since_bist counts this start at step 2, so before such a run sets it to 0; whether the start that holds the run
counts is not said (DESIGN CHOICE, log entry 72). -/
def coldStart (m : Mach) : Mach :=
  let r := m.rst
  let full : Bool := r.kl30 == .normal || r.kl30 == .high || r.kl30 == .overvolt
  if r.reach != .powerOn || r.step != 0 || !full || m.asleep || !r.low then m
  else
    let m := (m.modRst fun r => { r with pmode := .run, step := 3, regEn := !r.dead }).readLatch
    (m.modSill (·.startCounted)).tryStep5

/-- A BIST run has ended, complete or stopped, with its map written (R91, R115, R118, R125). -/
def bistEnds (mem : Mem) (m : Mach) (why : BistWhy) : Mem × Mach :=
  let m := m.modRst fun r => { r with bist := none }
  let goOn (m : Mach) : Mach := (m.letGo .bist).tryStep5
  let bad := bootCritical m.sill.map.failed
  match why with
  | .shutdown => (match m.rst.shut with
    | .noReturn c => enterSleep mem m c
    | _ => (mem, m))
  | .retest =>
    let m := m.modRst fun r => { r with retested := true }
    if bad.isEmpty then (mem, goOn m)
    else (mem, (m.drive .sill 7).modRst fun r => { r with dead := true, regEn := false })
  | _ =>
    let m := if why == .startTime then
        (m.modSill fun s => { s with fails := 0 }).modRst fun r => { r with retested := true } else m
    (mem, if bad.isEmpty then goOn m else m.startBist .retest bad)

/-- LOGIC_BIST_COMPLETE: the partitions whose signature differs fail, the others pass. -/
def bistComplete (mem : Mem) (m : Mach) (fail ms : Nat) : Mem × Mach :=
  match m.rst.bist with
  | none => (mem, m)
  | some (why, parts) => bistEnds mem (m.recordBist parts fail 0 ms) why

/-- BIST_CONDITION_FAIL (R120): the partition under test and every later one record NOT_RUN. Without supply (reason 4)
the P-die main domain is off. -/
def bistStops (mem : Mem) (m : Mach) (reason at' fail ms : Nat) : Mem × Mach :=
  match m.rst.bist with
  | none => (mem, m)
  | some (why, parts) =>
    let m := m.recordBist (parts.filter (· < at')) fail reason ms
    if reason == 4 then powerOff mem (m.modRst fun r => { r with kl30 := .retain, bist := none }) true
    else bistEnds mem m why

/-- A write of BIST_CMD (R118). The spec does not say what a run command does while a logic BIST runs; it does nothing
(DESIGN CHOICE, log entry 72). -/
def bistCmd (m : Mach) (v : Nat) : Mach :=
  if bitsOf v 31 16 != 0x3C5A then m.fire Rg.BIST_IRQ_STATUS 4
  else if bitOf v 0 && m.rst.bist.isNone then (m.drive .bist 7).startBist .command (List.range 38)
  else m

/-! ### Boot ROM, BIST map, links -/

/-- Step 7 of table R112, or step 1 of table R117: the map applies (R122, R123, R129). -/
def applyMap (m : Mach) : Mach :=
  let b := m.sill.map
  let res := b.results
  let held := b.failed
  let unv := res.countP (· == 0)
  let m := m.modRst fun r => { r with bistHeld := held }
  let m := m.wr Rg.BIST_STATUS
    (b.starts <<< 16 ||| b.stop <<< 8 ||| flagNat m.rst.retested <<< 1 ||| flagNat b.valid)
  let m := m.wr Rg.BIST_RUN_INFO (b.seq <<< 16 ||| b.dur)
  let m := m.forAll (List.range 3) fun m w =>
    m.wr (Rg.BIST_RESULT_0 + 4 * w) (sumNat ((List.range 16).map fun k => res.getD (16 * w + k) 0 <<< (2 * k)))
  let lo := maskOfList (held.filter (· < 32))
  let hi := maskOfList ((held.filter (32 ≤ ·)).map (· - 32))
  let m := (m.wr Rg.BIST_HELD_LO lo).wr Rg.BIST_HELD_HI hi
  let cold := !m.rst.warmStart
  let m := m.doIf (cold && !held.isEmpty) fun m => m.fire Rg.BIST_IRQ_STATUS 0
  let m := m.doIf (cold && unv != 0) fun m => m.fire Rg.BIST_IRQ_STATUS 1
  let m := m.doIf (cold && !b.valid) fun m => (m.fire Rg.BIST_IRQ_STATUS 2).raise 0x102 0
  let m := m.doIf (cold && m.rst.retested) fun m => m.fire Rg.BIST_IRQ_STATUS 3
  let m := m.doIf (unv != 0) fun m => m.raise 0x103 unv
  m.doIf (!held.isEmpty || unv != 0) fun m => m.journal 0x10 lo hi unv

/-- The boot ROM starts: fuses read, map applied (steps 6 and 7, or step 1 of a warm start). -/
def bootRom (m : Mach) : Mach :=
  if m.rst.cReset || m.rst.step != (if m.rst.warmStart then 0 else 5) then m
  else
    let m := m.keysBoot.applyMap
    let m := m.modRst fun r => { r with bootCore := some (if r.bistHeld.contains 6 then 0x16 else 0x10) }
    m.showStage (if m.rst.warmStart then 1 else 7)

/-- IDENTITY_READY: the identity key of step 9 (R443). That step begins only when step 8 is complete, so that a cold start
has completed step 8 by then (R112). -/
def identityStep (m : Mach) : Mach :=
  let m := m.identityReady
  if m.rst.cReset || m.rst.warmStart || m.rst.step != 7 || m.isStranded then m else m.showStage 8

/-- A link is trained (R105, R352). Link CP of a start releases the L-die. -/
def linkTrained (m : Mach) (l : Nat) : Mach :=
  if m.linkState l != 2 then m
  else
    let m := m.setLink l 3
    if l == 1 && m.rst.lReset && !m.rst.cReset then
      let m := m.modRst fun r => { r with lReset := false }
      (if m.dieHeld .l then m else m.setLink 0 2).followResets
    else if l == 0 && m.rst.warmStart && m.rst.step == 1 then m.showStage 2
    else m

/-! ### Release of partitions -/

/-- A visit runs out (R411): abandoned, and a hung partition restarts. -/
def visitOver (m : Mach) (id : Nat) : Mach :=
  match (m.core id).bind (·.heart) with
  | some p =>
    let was := m.hwState p
    let m := m.visitExpires id
    if was != 2 && m.hwState p == 2 then m.push (.partRestart p) else m
  | none => m

/-- Initial visits that have not ended when their sapwood partition is released (R406). -/
def initialEnds (m : Mach) : Mach :=
  m.forAll m.fab.cores fun m e =>
    match e.2.visit with
    | some v =>
      if v.initial && e.2.sapReady then
        (m.modCore e.1 fun c => { c with visit := some { v with initial := false } }).visitOver e.1
      else m
    | none => m

/-- Heartwood partitions are released: shared cores make their initial visit (R406). -/
def releaseHeart (m : Mach) : Mach :=
  let m := m.forAll (List.range 16) fun m p => if m.partHeart p then m.setPartState p 2 else m
  m.forAll m.fab.cores fun m e =>
    if e.2.heart.isNone then m
    else if m.coreHeld e.1 then m.stopCore e.1
    else if isShared e.2 then
      (m.modCore e.1 fun c => { c with gSap := noRegs, gHeart := noRegs }).startVisit e.1 { initial := true }
    else m.startCore e.1

/-- Sapwood partitions of the safe cores, or of the application cluster, are released. -/
def releaseSap (m : Mach) (safe : Bool) : Mach :=
  let mine (m : Mach) (p : Nat) : Bool := (m.partRec p).isSome && !m.partHeart p && m.partSafe p == safe
  let m := m.forAll (List.range 16) fun m p => if mine m p then m.setPartState p 2 else m
  m.forAll m.fab.cores fun m e =>
    match e.2.sap with
    | some p =>
      if !mine m p then m
      else if m.coreHeld e.1 then m.stopCore e.1
      else if !isShared e.2 then m.startCore e.1
      else if e.2.inHeart then m.modCore e.1 fun c => { c with sapReady := true }
      else (m.modCore e.1 fun c => { c with gSap := noRegs, run := true, sapReady := true }).honourHalt e.1
    | none => m

/-- Stranded at a start, with the stage shown. -/
def strandStart (m : Mach) (why stage : Nat) : Mach := (m.strand why).wr Rg.BIST_START_STATUS stage

/-- Stranded because step 13 does not complete (R114). -/
def strandStep13 (m : Mach) : Mach :=
  (m.journal 0x21 (m.rd Rg.TRUSS_RESULT) (m.rd Rg.TRUSS_DETAIL) (m.fld Rg.TRUSS_STATUS 4 4)).strandStart 1 0xF0

/-- Partitions of the application cluster that cannot start, every core of theirs being held; PARTS is a FIXED section. -/
def cannotStart (m : Mach) : Bool :=
  (List.range 16).any fun p =>
    (m.partRec p).isSome && !m.partSafe p && !(m.partCores p).isEmpty && (m.partCores p).all m.coreHeld

/-- Step 13 of table R112 or step 5 of table R117: the application cluster, or Stranded (R114). -/
def releaseApps (m : Mach) : Mach :=
  if m.cannotStart then m.strandStep13
  else (((m.releaseSap false).showChk).showWarm).showStage (if m.rst.warmStart then 5 else 13)

/-! ### Image at a start -/

/-- A held partition whose BISTPART record is fatal (R124); records of boot-critical partitions have no effect. -/
def fatalHeld (m : Mach) (i : Image) (p : Nat) : Bool :=
  (bootCritical m.rst.bistHeld).contains p == false
    && match i.recBy sSAFETY 2 (·.u8 4) p with | some r => r.u8 5 == 1 | none => false

/-- The held partition that sends the module to Stranded (R124). -/
def fatalPart (m : Mach) (i : Image) : Option Nat := m.rst.bistHeld.find? (m.fatalHeld i)

/-- BIST_FAIL for every held partition that does not itself lead to Stranded (R123). -/
def raiseHeld (m : Mach) (fatal : Nat → Bool) : Mach :=
  m.forAll (m.rst.bistHeld.filter fun p => !fatal p) fun m p => m.raise 0x104 p

/-- The verified image applied (R65), the partitions of steps 11 and 12 released. -/
def startImage (mem : Mem) (m : Mach) (i : Image) (bank : Nat) (bv : BankVerdict) : Mem × Mach :=
  let h := readHdr mem
  let cold := !m.rst.warmStart
  let bad := m.rst.bistHeld
  let bothBad := [0, 1].all fun b => (bentParts b).any fun p => bad.contains p
  let m := { m with key := { m.key with images := bv.digests } }
  let old := m
  let m := ((m.applyImage i).commitHooks old []).journal 0x20 i.serial i.counter bank
  let m := m.raiseFuse.railsWatched
  let (mem, m) := if cold || m.upd.sinceCommit then checkSettings mem m i else (mem, m)
  let m := checkCal mem (m.modUpd fun u => { u with sinceCommit := false })
  if h.stranded then (mem, (m.showStage (if cold then 10 else 3)).strand h.why)
  else if bothBad then
    (mem, ((m.journal 0x11 ((bad.find? fun p => (bentParts 0 ++ bentParts 1).contains p).getD 0)).bentsStart).strandStart 2 0xF1)
  else
    let m := (m.bentsStart.releaseHeart).releaseSap true
    let m := (m.showChk.showWorld).showStage (if cold then 12 else 4)
    (mem, if m.memc.lpddrGib == 0 then m.releaseApps else m)

/-- What follows the checks of R56 of the active bank: R124, R469, then the image applied. Every start checks the
calibration block (R76), one that ends Stranded too. -/
def verified (mem : Mem) (m : Mach) (v : Verdict) (bank : Nat) : Mem × Mach :=
  let m := m.showVerdict v false
  let ends (m : Mach) (why stage : Nat) : Mem × Mach := (mem, ((checkCal mem m).raiseFuse).strandStart why stage)
  match v.img with
  | none =>
    ends (((m.raiseHeld fun _ => false).journal 0x21 v.code v.detail bank).journal 0x12 v.code v.detail bank) 1 0xF0
  | some i =>
    let m := m.raiseHeld (m.fatalHeld i)
    match m.fatalPart i with
    | some p => ends (m.journal 0x11 p) 2 0xF1
    | none =>
      let (m, bv) := m.detailed (bankVerify mem m bank)
      if bv.code != 0 then ends (m.journal 0x12 bv.code bv.detail bank) 4 0xF0
      else startImage mem m i bank bv

/-- TRUSS_VERIFY_DONE: the checks of R56, R124 and R469 on the active bank, and what follows. -/
def verifyDone (mem : Mem) (m : Mach) : Mem × Mach :=
  let r := m.rst
  if r.cReset || r.lReset || (if r.warmStart then r.step != 2 else r.step != 7 && r.step != 8) || m.isStranded then (mem, m)
  else
    let h := readHdr mem
    let bank := h.bank % 2
    let m := (m.setFld Rg.TRUSS_STATUS 4 4 bank).wr Rg.UPD_SVC_CFG (h.etype <<< 16 ||| h.port)
    verified mem m (m.verify (slotBytes mem bank) none) bank

/-- LPDDR_TRAINING_DONE (R96, R367): warm_ok set and the application cluster released; a failure leaves step 13
incomplete (R114). -/
def lpddrTrained (m : Mach) (ok : Bool) : Mach :=
  let r := m.rst
  if r.cReset || m.isStranded || m.memc.lpddrGib == 0 || r.step != (if r.warmStart then 4 else 12) then m
  else if ok then
    let m := m.initialEnds.modSill fun s => { s with warmOk := true }
    m.releaseApps.railsWatched
  else m.strandStep13

/-- Time of the grid's source (R23) since the last grid point of R21, in ns. -/
def sinceGrid (m : Mach) : Int :=
  let t : Int := if m.bit Rg.TICK_CTRL 1 then (m.clk.lt : Int) else m.wtNs
  (t - 1000 * (m.fld Rg.TICK_PHASE 13 0 : Nat)) % (1000 * (m.fld Rg.TICK_PERIOD 13 0 : Nat))

/-- Alignment error of an edge in ns (R24): the time of the grid's source against its nearest grid point. -/
def alignError (m : Mach) : Int :=
  let p : Int := 1000 * (m.fld Rg.TICK_PERIOD 13 0 : Nat)
  if p < 2 * m.sinceGrid then m.sinceGrid - p else m.sinceGrid

/-- Fabric cycles of 1.25 ns to the next grid point: the first edge falls there (R21). -/
def toGrid (m : Mach) : Nat := roundDiv ((1000 * (m.fld Rg.TICK_PERIOD 13 0 : Nat) - m.sinceGrid).toNat * 4) 5

/-- TICK_RUN_START: the loader sets run (step 14 of table R112, step 6 of table R117). -/
def tickRuns (m : Mach) (lt : Nat) : Mach :=
  let r := m.rst
  if r.cReset || m.isStranded || m.bit Rg.TICK_CTRL 0 || r.step != (if r.warmStart then 5 else 13) then m
  else
    let m := (m.initialEnds.advance lt).setBit Rg.TICK_CTRL 0 true
    let m := { m with tick := { m.tick with edgeLt := m.clk.lt, edgeFr := 0, len := m.toGrid } }
    m.showStage (if r.warmStart then 6 else 14)

end Mach

end Sys2Proof.Machine
end

