-- ==== Sys2Proof/Machine/Tick.lean ====
section
/-! DEFINITION. The frame tick: the grid and its alignment (R21 to R26), the events of one tick (R27, R28), the commit
across the dies (R34), clients and budgets (R35 to R40). -/

namespace Sys2Proof.Machine

/-- Code of a far die in `StageSt.ackWait` and in the argument of TICK_COMMIT_FAULT. -/
def dieNo : FarDie → Nat
  | .l => 1
  | .p => 2

namespace Mach

/-! ### Watchdogs (R110) -/

/-- A kick restarts the count. -/
def wdtKick (m : Mach) (n : Nat) : Mach := m.modRst fun r => { r with wdt := kdel r.wdt n }

/-- Every watchdog with a window counts one edge. -/
def wdtCount (m : Mach) : Mach :=
  m.forAll (List.range 16) fun m n =>
    if m.fld (Rg.RSTC_WDT_CFG n) 15 0 == 0 then m
    else m.modRst fun r => { r with wdt := kput r.wdt n (kgetD r.wdt n 0 + 1) }

/-- The expiry of a watchdog whose count has reached its window: the reaction, and the count restarts. -/
def wdtExpiry (m : Mach) (n : Nat) : Mach :=
  let w := m.fld (Rg.RSTC_WDT_CFG n) 15 0
  if m.rst.cReset || w == 0 || kgetD m.rst.wdt n 0 < w then m
  else
    let m := m.wdtKick n
    match m.fld (Rg.RSTC_WDT_CFG n) 17 16 with
    | 0 => m.push (.partRestart n)
    | 1 => m.request 8 true
    | 2 => m.request 8 false
    | _ => m.raise 0x107 n

/-! ### The commit on the far dies (R34) -/

/-- A far die applies its shadow registers: the strobe has arrived. -/
def farApply (m : Mach) (d : FarDie) : Mach :=
  match d with
  | .l =>
    match m.stage.shadowL with
    | none => m
    | some es =>
      let old := m
      let m := { m with stage := { m.stage with shadowL := none } }
      let m := m.goneDrop (stgCount (es.filter (·.gone)))
      (m.forAll (es.filter (!·.gone)) fun m e => m.bring e).roleCommit old
  | .p =>
    match m.stage.shadowP with
    | none => m
    | some es =>
      let m := { m with stage := { m.stage with shadowP := none } }
      let m := m.goneDrop (stgCount (es.filter (·.gone)))
      m.commitP (es.filter (!·.gone)) (m.fld Rg.TICK_PERIOD 13 0) m.tickCount

/-- A die whose acknowledgement no longer stands out. -/
def ackOff (m : Mach) (d : FarDie) : Mach :=
  { m with stage := { m.stage with ackWait := m.stage.ackWait.filter (· != dieNo d) } }

/-- The shadow registers of a die wait for the strobe. -/
def shadowed (m : Mach) (d : FarDie) : Bool :=
  match d with | .l => m.stage.shadowL.isSome | .p => m.stage.shadowP.isSome

/-- The acknowledgement of a far die arrives; that of the P-die returns the channels' status words (R319) and the WAKE
levels (R185), and lets the held ownership changes go (R400). -/
def commitAck (m : Mach) (d : FarDie) : Mach :=
  if !m.stage.ackWait.contains (dieNo d) || m.shadowed d then m
  else
    let m := m.ackOff d
    match d with
    | .l => m
    | .p => (({ m with meas := { m.meas with wakeAck := m.meas.wakeNow } } : Mach).gwyAck).sendHeldLane

/-- The acknowledgement has not arrived 10 µs after the edge: the die keeps what it last applied. -/
def commitFault (m : Mach) (d : FarDie) : Mach :=
  if !m.stage.ackWait.contains (dieNo d) then m
  else
    let m := m.ackOff d
    let m := match d with
      | .l => { m with stage := { m.stage with shadowL := none } }
      | .p => ({ m with stage := { m.stage with shadowP := none } } : Mach).sendHeldLane
    ((m.bump Rg.TICK_COMMIT_FAULT_CNT).fire Rg.TICK_IRQ_STATUS 6).raise 0x105 (dieNo d)

/-- At an edge the due writes of a far die go to its shadow registers with the strobe; without a strobe they drop. -/
def strobe (m : Mach) (d : FarDie) : Mach :=
  let q := match d with | .l => m.stage.l | .p => m.stage.p
  let (due, later) := m.splitDue q
  let (m, es) := m.survive due
  if m.linkUp (match d with | .l => 0 | .p => 1) then
    let w := dieNo d :: m.stage.ackWait.filter (· != dieNo d)
    match d with
    | .l => { m with stage := { m.stage with l := later, shadowL := some es, ackWait := w } }
    | .p => { m with stage := { m.stage with p := later, shadowP := some es, ackWait := w } }
  else
    let m := m.goneDrop (stgCount es)
    match d with
    | .l => { m with stage := { m.stage with l := later } }
    | .p => { m with stage := { m.stage with p := later } }

/-- The commit of the C-die, with what follows its values (R28 step 2). -/
def commitC (mem : Mem) (m : Mach) : Mem × Mach :=
  let old := m
  let (due, later) := m.splitDue m.stage.c
  let (m, es) := m.survive due
  let m := { m with stage := { m.stage with c := later } }
  let m := m.forAll es fun m e => m.bring e
  let (mem, m) := vdevCommit mem m
  (mem, m.commitHooks old (es.map (·.addr)))

/-! ### Clients (R35 to R40) -/

/-- Clients due in the tick of counter value `n` (R36), whether or not they are checked; 6 to 15 are reserved (R35). -/
def dueClients (m : Mach) (n : Nat) : List Nat :=
  (List.range 32).filter fun c =>
    let v := m.rd (Rg.TICK_CLIENT_CFG c)
    (c < 6 || 16 ≤ c) && n % (bitsOf v 7 2 + 1) == bitsOf v 13 8 && !m.clientHeld c

/-- A unit client that finishes its tick work in time, in a free time below its budget point. -/
def clientWorks (m : Mach) (c : Nat) : Mach :=
  let (w, m) := m.draw
  let b := m.fld (Rg.TICK_CLIENT_BUDGET c) 23 0
  m.clientDone c (w.toNat % max 1 (if b == 0 then m.kerfNs else b))

/-- NM and LIN start the work of tick `n` in which they are due. -/
def unitWork (m : Mach) (n : Nat) : Mach :=
  let due (c : Nat) : Bool := m.tick.due.contains c && !m.isStranded
  let m := m.doIf (due 2) fun m => m.nmTick
  m.doIf (due 3) fun m => m.linEdge n

/-- NM, LIN, SENT and the packet engines, where due, have ended their work by the kerf start; an overrun before then is
a CLIENT_BUDGET_POINT of its own (DESIGN CHOICE, log entry 29). -/
def unitsDone (m : Mach) : Mach :=
  let open' (c : Nat) : Bool := m.tick.due.contains c && !m.tick.done.contains c && !m.tick.ovr.contains c && !m.clientHeld c
  let m := m.doIf (open' 5) fun m => m.gateWork
  let m := { m with nm := { m.nm with undo := none } }
  m.forAll ([2, 3, 4, 5].filter open') fun m c => m.clientWorks c

/-- CLIENT_BUDGET_POINT: an overrun, with what the client's chapter discards (R284, R301). -/
def budgetPoint (m : Mach) (c : Nat) : Mach :=
  let hit := m.isLate c
  let m := m.overrun c
  if hit && c == 2 then m.nmOverrun else if hit && c == 3 then m.linOverrun else m

/-- Due clients that are not done are in overrun. -/
def overruns (m : Mach) : Mach := m.unitsDone.forAll m.tick.due fun m c => m.overrun c

/-- KERF_START (R28 step 6). -/
def kerfStart (mem : Mem) (m : Mach) (plumbs : List (Fin 6 × Word)) : Mem × Mach :=
  if m.rst.cReset || !m.bit Rg.TICK_CTRL 0 || m.inKerf || !m.tick.started then
    (mem, m)
  else
    let m := (m.setBit Rg.TICK_STATUS 2 true).fire Rg.TICK_IRQ_STATUS 1
    updKerf mem (m.overruns.plumbKerf plumbs)

/-! ### The edge -/

/-- TICK_STATUS.aligned against TICK_LOCK, for the alignment error of the last edge (R25). -/
def showAligned (m : Mach) (e : Int) : Mach :=
  let ok : Bool := e.natAbs ≤ m.fld Rg.TICK_LOCK 15 0
  let was := m.bit Rg.TICK_STATUS 0
  let m := m.setBit Rg.TICK_STATUS 0 ok
  if ok == was then m else m.fire Rg.TICK_IRQ_STATUS 3

/-- A TICK_LOCK in force at once moves the window that aligned stands for (R25); no error is measured before the first
edge. -/
def lockMoved (m : Mach) : Mach := if m.tick.started then m.showAligned (signedOf 32 (m.rd Rg.TICK_ALIGN_ERR)) else m

/-- Place of the next edge on local time in quarters of a ns: the length of the running tick, in fabric cycles of
1.25 ns, after the last edge (R21, R24). -/
def edgeDue (m : Mach) : Nat := 4 * m.tick.edgeLt + m.tick.edgeFr + 5 * m.tick.len

/-- Alignment, length of the tick that starts, time registers (R24 to R26). -/
def alignEdge (m : Mach) (lt : Nat) : Mach :=
  let e := m.alignError
  let us := m.fld Rg.TICK_PERIOD 13 0
  let d := if e.natAbs ≤ m.fld Rg.TICK_LOCK 15 0 then 0 else min (e.natAbs * 4 / 5) (8 * us)
  let last := if m.tick.started then (lt - m.tick.edgeLt) % 2 ^ 24 else 0
  let m := (m.wr Rg.TICK_ALIGN_ERR (unsignedOf 32 e)).wr Rg.TICK_LAST_LEN last
  let m := m.wr64 Rg.TICK_EDGE_TIME_LO Rg.TICK_EDGE_TIME_HI (clockNs m.clk.wt)
  let m := ((m.showAligned e).setBit Rg.TICK_STATUS 1 (d != 0)).setBit Rg.TICK_STATUS 2 false
  { m with tick := { m.tick with
      len := if 0 < e then 800 * us - d else 800 * us + d, edgeLt := lt, edgeFr := m.edgeDue % 4, started := true } }

/-- What the previous edge and tick have left due is carried out before the edge. -/
def overdue (mem : Mem) (m : Mach) : Mem × Mach :=
  let (mem, m) := m.tick.pulses.foldl (fun (x : Mem × Mach) c => clientResetEnd x.1 x.2 c) (mem, m)
  let m := (m.pulsesEnd.farApply .l).farApply .p
  let m := ((m.commitAck .l).commitAck .p).overlapEdge
  let m := m.forAll (List.range 16) fun m n => m.wdtExpiry n
  let m := (m.forAll (m.swc.frer.map (·.1)) fun m f => m.frerReset f).ageAll.slotTimers
  let m := m.forAll m.world.lease fun m e => if e.2 ≤ m.clk.lt then m.leaseExpires e.1 else m
  let (mem, m) := updOverdue mem m
  let (mem, m) := [18, 19, 20].foldl (fun (x : Mem × Mach) p => txRings x.1 x.2 p x.2.clk.lt) (mem, m)
  (mem, m.overruns.liveStage)

/-- The end of the tick: releases of NM and the gateway, which is stopped in Stranded, and what the commit drops (R301,
R327, R425, R69, R478), judged by the ownership tables that take force; the image itself is in force from the commit on. -/
def endTick (mem : Mem) (m : Mach) (lt : Nat) : Mem × Mach :=
  let c := m.tickCount
  let m := m.nmRelease
  let gwy := m.tick.started && !m.isStranded
  let (mem, m) := if gwy then gwyRelease mem m c lt else (mem, m)
  let mem := if gwy then gwyHeader mem m c else mem
  let m := m.vdevDrops
  match m.truss.live with
  | some j => (match j.img, j.staged with
    | some i, true =>
      let t := (m.liveOwners i (m.liveTypes i)).liveDrops m
      (mem, { t with truss := { t.truss with image := m.truss.image } })
    | _, _ => (mem, m))
  | none => (mem, m)

/-- Inputs captured by buffer exchange (R27). -/
def captureInputs (m : Mach) : Mach :=
  let measNew := m.meas.done
  let m := ((m.measEdge.sentEdge).tinEdge).senseAtEdge
  if m.unitHeld uGWY || m.isStranded then m else m.gwyCapture measNew

/-- The new tick `n` starts: its clients, gates and unit work. -/
def startTick (m : Mach) (n : Nat) : Mach :=
  let m := m.wr64 Rg.TICK_COUNT_LO Rg.TICK_COUNT_HI n
  let m := { m with
    tick := { m.tick with due := m.dueClients n, done := [], ovr := [], drop := [] }
    fab := { m.fab with bw := [] } }
  let m := m.forAll (List.range 22) fun m p => m.gateEdge p n
  (m.nmCount.frerCount).unitWork n

/-- While the packet engines are gated, client 5 is done from the edge (R215). -/
def gatedDone (m : Mach) : Mach := if m.rst.gated.contains 3 then m.clientDone 5 0 else m

/-- TICK_EDGE (R28): the edge falls at its place of R21 and R24, once local time `lt` has reached it. -/
def tickEdge (mem : Mem) (m : Mach) (lt : Nat) : Mem × Mach :=
  if m.rst.cReset || !m.bit Rg.TICK_CTRL 0 || lt < m.edgeDue / 4 then (mem, m)
  else
    let lt := m.edgeDue / 4
    let first := !m.tick.started
    let n := (m.tickCount + 1) % 2 ^ 64
    let (mem, m) := overdue mem (m.advance lt)
    let (mem, m) := endTick mem m lt
    let (mem, m) := commitC mem m
    let m := (m.strobe .l).strobe .p
    let m := m.divergence m.updSkip
    let m := (m.captureInputs.gwyCommit).alignEdge lt
    let m := m.fire Rg.TICK_IRQ_STATUS 0
    let m := m.modSill fun s => if first then { s with fails := 0 } else s
    let m := m.startTick n
    let m := m.plannedSwitch
    let (mem, m) := resyncEdge mem m
    let (mem, m) := liveCommit mem m.plumbEdge.lathEdge
    let m := ((m.updEdge n).modeEdge lt).gatedDone
    (mem, (m.supplyEdge.wdtCount).refreshAll)

end Mach

end Sys2Proof.Machine
end

