-- ==== Sys2Proof/Machine/React.lean ====
section
/-! DEFINITION. Faults raised to the SAFETY section and their reactions (R126 to R128), and what ends every command:
the consequences it has left, and the answer of `exec`. -/

namespace Sys2Proof.Machine

namespace Mach

/-- A reaction CONTAIN (R127). -/
def contain (m : Mach) (code arg : Nat) : Mach :=
  match code with
  | 0x105 => m.pulseDie arg
  | 0x106 => m.push (if 16 ≤ arg then .partRestart (arg - 16) else .clientReset arg)
  | 0x107 => m.push (.partRestart arg)
  | 0x114 => m.pulseElem uMBUS arg
  | 0x116 => m.pulseDie (arg + 1)
  | _ => m

/-- A reaction BENT_FAIL (R127): a failure signal for the bent that holds the source; outside both bents, none. -/
def safetyBent (m : Mach) (code arg : Nat) : Mach :=
  if code == 0x120 || code == 0x121 then m.bentSignal (arg / 3) 1 arg
  else
    let p := if code == 0x107 then some arg else if code == 0x106 && 16 ≤ arg then some (arg - 16) else none
    match p.bind m.partBent with
    | some b => m.bentSignal b 3 7
    | none => m

/-- A fault code raised to the SAFETY section (R126 to R128), recorded also while a reset is asserting. BENT_BOTH resets
with cause BENT_ESC (R401). -/
def safety (m : Mach) (code arg : Nat) : Mach :=
  let r := m.reactionTo code
  let m := (((m.wr Rg.RSTC_SAFE_LAST (code <<< 16 ||| r)).wr Rg.RSTC_SAFE_ARG arg).bump Rg.RSTC_SAFE_CNT).fire
    Rg.RSTC_IRQ_STATUS 8
  let m := if r == 3 || r == 4 then
      (m.modSill fun s => { s with safeCode := code, safeArg := arg % 65536 }).wr Rg.RSTC_SAFE_RESET
        (code <<< 16 ||| arg % 65536)
    else m
  if r == 1 then m.contain code arg
  else if r == 2 then m.safetyBent code arg
  else if r == 3 || r == 4 then m.push (.request (if code == 0x131 then 0xB else 0xC) (r == 3))
  else m

/-- The partition serves a duty that its bent owns (R396). -/
def servesDuty (m : Mach) (p : Nat) : Bool :=
  match m.partBent p with
  | some b => (m.dutiesOf b).any fun d => m.dutyPart d b == p
  | none => false

/-- Source PARTITION of table R396, with restart_fails = 1. -/
def partFails (m : Mach) (p : Nat) : Mach :=
  if m.bit Rg.BENT_CFG 0 && m.servesDuty p then
    match m.partBent p with
    | some b => m.bentSignal b 3 7
    | none => m
  else m

/-- A partition restart (R359) with what it means for instances (R430) and the bent (R396). -/
def partRestart (m : Mach) (p : Nat) : Mach :=
  if m.partState p != 2 then m else ((m.restartPart p).resetHosted p).partFails p

/-- One consequence carried out. -/
def doTodo (m : Mach) : Todo → Mach
  | .safety c a => m.safety c a
  | .clientReset c => m.clientReset c
  | .partRestart p => m.partRestart p
  | .request c w => m.request c w

/-- The consequences of a command in order, those that they leave themselves included. -/
def settle (m : Mach) : Nat → Mach
  | 0 => { m with todo := [] }
  | n + 1 => match m.todo with
    | [] => m
    | t :: l => ({ m with todo := l } : Mach).doTodo t |>.settle n

/-- More consequences than one command can leave. -/
def settleFuel : Nat := 1024

/-- Partitions that the command has left without a running core (R383, R396, R430). -/
def coreless (m old : Mach) : Mach :=
  if m.rst.cReset then m
  else m.forAll (List.range 16) fun m p =>
    if m.partState p == 2 && old.partRuns p && !m.partRuns p then
      let held := (m.partCores p).any fun i => match safeOf i with | some c => m.chkState c == 3 | none => false
      let m := m.resetHosted p
      if held then m.partFails p else m
    else m

end Mach

/-- What ends a command: consequences, updates that they end, events of the instances, the journal. -/
def finish (old : Mach) (r : Mem × Mach) : Mem × Mach :=
  let m := (r.2.settle Mach.settleFuel).coreless old
  let m := m.settle Mach.settleFuel
  let (mem, m) := Mach.updBents r.1 m old
  let m := m.updSessionGone.loadEvents old
  let m := m.settle Mach.settleFuel
  Mach.flushJournal mem { m with todo := [] }

/-- The outcome of a command whose effect on memory and machine is `f`. -/
def runMem (s : State) (f : Mem → Mach → Mem × Mach) : Host.Outcome State Fault Refusal :=
  let r := finish s.mach (f s.mem { s.mach with resp := .none })
  .next { s with mem := r.1, mach := r.2 }

/-- The outcome of a command that touches no memory. -/
def run (s : State) (f : Mach → Mach) : Host.Outcome State Fault Refusal :=
  runMem s fun mem m => (mem, f m)

/-- An event of the C-die or L-die, which does not occur while a module reset holds them. -/
def runUp (s : State) (f : Mach → Mach) : Host.Outcome State Fault Refusal :=
  run s fun m => if m.rst.cReset then m else f m

/-- An event of the C-die or L-die that touches memory. -/
def runUpMem (s : State) (f : Mem → Mach → Mem × Mach) : Host.Outcome State Fault Refusal :=
  runMem s fun mem m => if m.rst.cReset then (mem, m) else f mem m

/-- An event of the P-die main domain, which does not occur while the domain has no power. -/
def runP (s : State) (f : Mach → Mach) : Host.Outcome State Fault Refusal :=
  run s fun m => if m.mainOn then f m else m

/-- An event of the P-die supervisor. -/
def runSup (s : State) (f : Mach → Mach) : Host.Outcome State Fault Refusal :=
  run s fun m => if m.supRuns then f m else m

end Sys2Proof.Machine
end

