-- ==== Sys2Proof/Machine/RegCheck.lean ====
section
/-! DEFINITION. Values that a unit rejects when a register is written (R7): which fields of a write keep their value,
and the error status that reports it. The P-die checks LOAD values at the commit (R139); lists and sums that a commit
judges are with their units. -/

namespace Sys2Proof.Machine

/-- Whether `x` lies in the range `lo` to `hi`. -/
def within (x lo hi : Nat) : Bool := lo ≤ x && x ≤ hi

/-- The mask of a field, when the field is rejected. -/
def rejectIf (bad : Bool) (hi lo : Nat) : Nat := if bad then maskOf hi lo else 0

namespace Mach

/-- The error status of the unit of a register (R7). A unit without one reports nothing. -/
def cfgError (m : Mach) (a : Nat) (h : Hit) : Mach :=
  let i := h.idx.headD 0
  match unitAt a with
  | none => m
  | some (u, _) =>
    if u == uTICK then m.fire Rg.TICK_IRQ_STATUS 7
    else if u == uRSTC then m.rstIrq 7
    else if u == uBIST then m.fire Rg.BIST_IRQ_STATUS 4
    else if u == uLOAD then m.fire Rg.LOAD_UNIT_IRQ_STATUS 0
    else if u == uMEAS then m.fire Rg.MEAS_IRQ_STATUS 3
    else if u == uSWC then m.fire Rg.SWC_IRQ_STATUS 0
    else if u == uEPORT then m.fire (Rg.EPORT_IRQ_STATUS i) 7
    else if u == uPTP then
      (if h.d.name == .PTP_TOUT_CFG then m.fire (Rg.PTP_TOUT_IRQ_STATUS i) 2 else m).fire Rg.PTP_IRQ_STATUS 0
    else if u == uMBUS then
      m.fire (Rg.MBUS_IRQ_STATUS (if isFilter h.d.name then min 11 (m.fld (a - a % 16) 11 8) else i)) 11
    else if u == uLIN then m.fire (Rg.LIN_IRQ_STATUS i) 4
    else if u == uSENT then m.fire (Rg.SENT_IRQ_STATUS i) 0
    else if u == uNM then m.fire Rg.NM_IRQ_STATUS 2
    else if u == uGWY then m.fire Rg.GWY_IRQ_STATUS 1
    else if u == uFAB || u == uIRQ then m.fire Rg.FAB_IRQ_STATUS 0
    else if u == uMEM then m.fire Rg.MEM_IRQ_STATUS 0
    else if u == uCHK then m.fire (Rg.CHK_IRQ_STATUS i) 5
    else if u == uWORLD then m.fire Rg.WORLD_IRQ_STATUS 7
    else if u == uKEY then m.fire Rg.KEY_IRQ_STATUS 6
    else if u == uUPD then m.fire Rg.UPD_IRQ_STATUS 5
    else m

/-- Rejected fields of the TICK registers (R22, R36). -/
def badTick (m : Mach) (n : RegName) (c v : Nat) : Nat :=
  let per := m.nextFld Rg.TICK_PERIOD 13 0
  let kerf := m.nextFld Rg.TICK_KERF 11 0
  let pos := m.nextFld Rg.MEAS_CTRL 21 8
  match n with
  | .TICK_PERIOD =>
    let t := bitsOf v 13 0
    rejectIf (!within t 50 10000 || t / 4 < kerf || t ≤ m.nextFld Rg.TICK_PHASE 13 0 || t < pos + kerf + 1) 13 0
  | .TICK_PHASE => rejectIf (per ≤ bitsOf v 13 0) 13 0
  | .TICK_KERF =>
    let k := bitsOf v 11 0
    rejectIf (!within k 5 (per / 4) || per < pos + k + 1 || per ≤ m.nextFld Rg.TICK_PHASE 13 0) 11 0
  | .TICK_LOCK => rejectIf (bitsOf v 15 0 == 0) 15 0
  | .TICK_CLIENT_CFG =>
    let off := bitsOf v 13 8
    let badDiv : Bool := (c == 1 && bitsOf v 7 2 != 0) || bitsOf v 7 2 + 1 ≤ off
    let div := (if badDiv then m.nextFld (Rg.TICK_CLIENT_CFG c) 7 2 else bitsOf v 7 2) + 1
    rejectIf badDiv 7 2 ||| rejectIf (div ≤ off) 13 8 ||| rejectIf (bitsOf v 15 14 == 3) 15 14
      ||| rejectIf (within c 6 15 && bitOf v 0) 0 0
  | _ => 0

/-- Rejected fields of the SWC registers. -/
def badSwc (n : RegName) (v : Nat) : Nat :=
  match n with
  | .SWC_CTRL => rejectIf (!within (bitsOf v 20 16) 18 21) 20 16
  | .SWC_YELLOW_RESERVE | .SWC_PORT_CEIL | .SWC_PORT_MIN => rejectIf (49152 < bitsOf v 15 0) 15 0
  | .SWC_MAC_CMD => rejectIf (bitsOf v 1 0 == 0) 1 0
  | .SWC_PORT_CFG => rejectIf (!within (bitsOf v 31 20) 1 4094) 31 20 ||| rejectIf (bitsOf v 8 7 == 3) 8 7
  | .SWC_PORT_GATE => rejectIf (64 < bitsOf v 7 1) 7 1
  | .SWC_STR_MATCH =>
    rejectIf (21 < bitsOf v 31 24 && bitsOf v 31 24 != 0xFF) 31 24 ||| rejectIf (7 < bitsOf v 23 16 && bitsOf v 23 16 != 0xFF) 23 16
      ||| rejectIf (4094 < bitsOf v 15 0 && bitsOf v 15 0 != 0xFFFF) 15 0
  | .SWC_FRER_CFG => rejectIf (bitOf v 31 && !within (bitsOf v 5 0) 1 32) 5 0
  | .SWC_FRER_RESET => rejectIf (bitsOf v 15 0 == 0) 15 0
  | _ => 0

/-- Rejected fields of the EPORT registers; ring bases and sizes stay while their ring is enabled. -/
def badEport (m : Mach) (n : RegName) (p r v : Nat) : Nat :=
  let t := portType p
  let on (tx : Bool) : Bool := m.bit (Rg.EPORT_RING_CTRL p r) (if tx then 0 else 1)
  let size (tx : Bool) : Nat := rejectIf (on tx || !within (bitsOf v 12 0) 16 4096 || v % 16 != 0) 12 0
  match n with
  | .EPORT_CFG =>
    rejectIf (if t == 4 then 5 < bitsOf v 19 16 else bitsOf v 19 16 != 0) 19 16
      ||| rejectIf (if t == 5 then bitsOf v 3 2 != 0 else 1 < bitsOf v 3 2) 3 2
  | .EPORT_PLCA =>
    rejectIf (7 < bitsOf v 7 0) 7 0 ||| rejectIf (!within (bitsOf v 15 8) 1 8) 15 8 ||| rejectIf (bitsOf v 23 16 == 0) 23 16
  | .EPORT_TX_BASE_LO | .EPORT_TX_BASE_HI => rejectIf (on true) 31 0
  | .EPORT_RX_BASE_LO | .EPORT_RX_BASE_HI => rejectIf (on false) 31 0
  | .EPORT_TX_SIZE => size true
  | .EPORT_RX_SIZE => size false
  | .EPORT_TX_TAIL => rejectIf (m.fld (Rg.EPORT_TX_SIZE p r) 12 0 ≤ bitsOf v 12 0) 12 0
  | .EPORT_RX_TAIL => rejectIf (m.fld (Rg.EPORT_RX_SIZE p r) 12 0 ≤ bitsOf v 12 0) 12 0
  | _ => 0

/-- Rejected fields of the PTP registers. -/
def badPtp (n : RegName) (v : Nat) : Nat :=
  let trim (x : Nat) : Bool := 1000 < (signedOf 16 x).natAbs
  match n with
  | .PTP_CTRL => rejectIf (!within (bitsOf v 20 16) 16 21) 20 16 ||| rejectIf (bitsOf v 15 0 == 0) 15 0
  | .PTP_CTRL2 => rejectIf (3600 < bitsOf v 31 16) 31 16 ||| rejectIf (!within (bitsOf v 15 0) 1 3600) 15 0
  | .PTP_DOM_CFG =>
    rejectIf (127 < bitsOf v 23 16) 23 16 ||| rejectIf (17 < bitsOf v 4 0 && bitsOf v 4 0 != 0x1F) 4 0
  | .PTP_DOM_SERVO => rejectIf (bitsOf v 1 0 == 3) 1 0
  | .PTP_PORT_TRIM => rejectIf (trim (bitsOf v 31 16)) 31 16 ||| rejectIf (trim (bitsOf v 15 0)) 15 0
  | .PTP_TOUT_CFG => rejectIf (bitsOf v 1 0 == 3) 1 0
  | _ => 0

/-- Rejected fields of the MBUS registers. -/
def badMbus (m : Mach) (n : RegName) (c q v : Nat) : Nat :=
  match n with
  | .MBUS_CFG =>
    rejectIf (bitsOf v 1 0 == 3) 1 0 ||| rejectIf (bitsOf v 9 8 == 3) 9 8 ||| rejectIf (bitsOf v 31 24 == 0) 31 24
  | .MBUS_FLT_CFG => rejectIf (11 < bitsOf v 11 8) 11 8
  | .MBUS_RXQ_BASE_LO | .MBUS_RXQ_BASE_HI => rejectIf (m.bit (Rg.MBUS_RXQ_CTRL c q) 0) 31 0
  | .MBUS_TXQ_BASE_LO | .MBUS_TXQ_BASE_HI => rejectIf (m.bit (Rg.MBUS_TXQ_CTRL c q) 0) 31 0
  | .MBUS_RXQ_SIZE => rejectIf (512 < bitsOf v 9 0) 9 0
  | .MBUS_TXQ_SIZE => rejectIf (m.bit (Rg.MBUS_TXQ_CTRL c q) 0 || !within (bitsOf v 9 0) 1 256) 9 0
  | .MBUS_TXQ_TAIL => rejectIf (m.fld (Rg.MBUS_TXQ_SIZE c q) 9 0 ≤ bitsOf v 7 0) 7 0
  | .MBUS_WUF_DLC => rejectIf (8 < bitsOf v 3 0) 3 0
  | _ => 0

/-- Rejected fields of the LIN, SENT and NM registers. -/
def badLinNm (m : Mach) (n : RegName) (i j v : Nat) : Nat :=
  match n with
  | .LIN_CFG => rejectIf (!within (bitsOf v 31 16) 1000 20000) 31 16
  | .LIN_SLOT =>
    let badP : Bool := bitsOf v 29 20 == 0
    let per := if badP then m.nextFld (Rg.LIN_SLOT i (j / 64) (j % 64)) 29 20 else bitsOf v 29 20
    rejectIf badP 29 20 ||| rejectIf (per ≤ bitsOf v 19 10) 19 10 ||| rejectIf (0x3D < bitsOf v 5 0) 5 0
  | .LIN_FRAME_CFG =>
    if 62 ≤ j then maskOf 31 0
    else rejectIf (bitsOf v 1 0 == 3) 1 0 ||| rejectIf (!within (bitsOf v 7 4) 1 8) 7 4
  | .SENT_CFG =>
    let f := bitsOf v 31 24
    rejectIf (!within (bitsOf f 2 0) 1 6 || bitsOf f 6 5 == 3 || bitOf f 7) 31 24
      ||| rejectIf (!within (bitsOf v 16 0) 3000 90000) 16 0
  | .NM_SEG_CFG =>
    rejectIf (!within (bitsOf v 15 8) 1 2) 15 8 ||| rejectIf (11 < bitsOf v 7 0) 7 0
  | .NM_SEG_TIMING =>
    let lin : Bool := m.nextFld (Rg.NM_SEG_CFG i) 15 8 == 2
    rejectIf (bitsOf v 31 16 < 100) 31 16
      ||| rejectIf (if lin then bitsOf v 15 0 != 0 else !within (bitsOf v 15 0) 10 10000) 15 0
  | .NM_SEG_MSG => rejectIf (0x7C0 < bitsOf v 26 16) 26 16 ||| rejectIf (!within (bitsOf v 9 0) 1 1000) 9 0
  | _ => 0

/-- Rejected fields of the other units. -/
def badOther (m : Mach) (n : RegName) (i v : Nat) : Nat :=
  match n with
  | .RSTC_SLEEP_TIMER => rejectIf (bitsOf v 15 0 == 0) 15 0
  | .MEAS_CTRL =>
    let per := m.nextFld Rg.TICK_PERIOD 13 0
    let kerf := m.nextFld Rg.TICK_KERF 11 0
    rejectIf (bitsOf v 21 8 < 5 || per < bitsOf v 21 8 + kerf + 1) 21 8 ||| rejectIf (4 < bitsOf v 2 0) 2 0
  | .MEAS_IN_CFG => measCfgBad i v (m.nextVal (Rg.MEAS_IN_CFG i))
  | .LOAD_SENSE_SEL => rejectIf (47 < bitsOf v 5 0) 5 0
  | .GWY_ETH_DST_HI => rejectIf (bitsOf v 27 16 == 4095) 27 16
  | .GWY_TBL_CMD => rejectIf (bitsOf v 31 30 == 0) 31 30
  | .FAB_QOS_CFG => rejectIf (192 < bitsOf v 7 0) 7 0
  | .IRQ_SRC_CFG => rejectIf (m.irqOwner i / 0x1000 != 4 && !m.targetOk i (bitsOf v 3 0)) 3 0
  | .WORLD_CLAIM => rejectIf (bitsOf v 31 16 == 0) 31 0
  | .WORLD_HW_CFG => rejectIf (bitsOf v 15 0 < 10) 15 0
  | .WORLD_PEG_HI => rejectIf (m.bit (Rg.WORLD_PEG_LO i) 0) 31 0
  | .WORLD_PEG_SIZE =>
    if m.bit (Rg.WORLD_PEG_LO i) 0 then maskOf 31 0 else rejectIf (bitsOf v 15 0 == 0) 15 0
  | .KEY_SVC_CFG => rejectIf (bitsOf v 15 0 == 0) 15 0
  | .UPD_CFG => rejectIf (bitsOf v 31 16 == 0) 31 16 ||| rejectIf (bitsOf v 15 8 < 2) 15 8
  | .UPD_SVC_CFG => rejectIf (17 < bitsOf v 4 0) 4 0
  | _ => 0

/-- The fields of a write of `v` to a register that the unit rejects (R7). -/
def badMask (m : Mach) (a : Nat) (h : Hit) (v : Nat) : Nat :=
  let i := h.idx.headD 0
  let j := h.idx.getD 1 0
  let u := match unitAt a with | some (u, _) => u | none => 0
  if u == uTICK then m.badTick h.d.name i v
  else if u == uSWC then badSwc h.d.name v
  else if u == uEPORT then m.badEport h.d.name i j v
  else if u == uPTP then badPtp h.d.name v
  else if u == uMBUS then m.badMbus h.d.name i j v
  else if u == uLIN then m.badLinNm h.d.name i (if h.d.name == .LIN_SLOT then 64 * j + h.idx.getD 2 0 else j) v
  else if u == uSENT || u == uNM then m.badLinNm h.d.name i j v
  else m.badOther h.d.name i v

end Mach

end Sys2Proof.Machine
end

