-- ==== Sys2Proof/Machine/RegAct.lean ====
section
/-! DEFINITION. What an accepted write does at once at the register (table R4): RW fields take the value, W1C and W1S
bits clear and set, and WO fields perform the action of their chapter. -/

namespace Sys2Proof.Machine

/-- The immediate store of a write: RW, W1C and W1S fields. -/
def storeBits (old v mask : Nat) (d : RegDesc) : Nat :=
  let rw := mergeBits old v (mask &&& d.maskIf (·.acc == .rw))
  let clr := bitsOutside rw (v &&& mask &&& d.maskIf (·.acc == .w1c))
  clr ||| (v &&& mask &&& d.maskIf (·.acc == .w1s))

namespace Mach

/-- Table R4 for the fields that act at once. -/
def storeReg (m : Mach) (h : Hit) (a v mask : Nat) : Mach := m.wr a (storeBits (m.rd a) v mask h.d)

/-- A write of RSTC_SW_RST (R97): key, then kind. -/
def swReset (m : Mach) (v : Nat) : Mach :=
  if bitsOf v 31 16 != 0xA5C3 then m.rstIrq 7
  else if bitsOf v 1 0 == 1 then m.request 6 true
  else if bitsOf v 1 0 == 2 then m.request 7 false
  else m.rstIrq 7

/-- A write of TICK_DONE (R38): the writer's partition is done `ns` after the edge. -/
def tickDone (m : Mach) (init v ns : Nat) : Mach :=
  if bitOf v 0 then match m.partOf init with | some p => m.clientDone (16 + p) ns | none => m else m

/-- A write of FAB_PART_CTRL (R359). -/
def partCtrl (m : Mach) (v : Nat) : Mach := if bitOf v 4 then m.push (.partRestart (bitsOf v 3 0)) else m

/-- A write of IRQ_SRC_CFG_n: the target of a duty's source follows the duty (R394). -/
def srcCfg (m : Mach) (n v mask : Nat) : Mach :=
  let mask := if m.irqOwner n / 0x1000 == 4 then mask &&& 0xFFFFFFF0 else mask
  m.wr (Rg.IRQ_SRC_CFG n) (mergeBits (m.rd (Rg.IRQ_SRC_CFG n)) v mask)

/-- A write of WORLD_HW_READY_p by the partition itself (R412). -/
def hwReady (m : Mach) (p v : Nat) : Mach := if bitOf v 0 && m.hwState p == 0 then (m.setHw p 1).fire Rg.WORLD_IRQ_STATUS 3 else m

/-- A write of WORLD_DBG_RESP_w (R418): word 7 starts the check. -/
def dbgResponse (m : Mach) (w v : Nat) : Mach :=
  let m := m.wr (Rg.WORLD_DBG_RESP w) v
  if w == 7 then m.modWorld fun x => { x with checking := true } else m

/-- The host of an instance in RESET cannot enable its queue or ring (R425). -/
def enableBarred (m : Mach) (init kind i : Nat) : Bool :=
  match m.slotOf kind i with
  | some s => m.instState s.inst == 4 && m.partOf init == m.instPart s.inst
  | none => false

/-- An enable register of a queue or ring: `bits` are its enables. -/
def enableWrite (m : Mach) (h : Hit) (e : Stg) (kind i bits : Nat) : Mach :=
  let v := if m.enableBarred e.init kind i then bitsOutside e.val bits else e.val
  m.storeReg h e.addr v e.mask

/-- A write of UPD_SVC_CFG also goes into the journal header (R480). -/
def svcCfg (mem : Mem) (m : Mach) (h : Hit) (e : Stg) : Mem × Mach :=
  let m := m.storeReg h e.addr e.val e.mask
  (writeHdr mem { readHdr mem with port := m.fld Rg.UPD_SVC_CFG 4 0, etype := m.fld Rg.UPD_SVC_CFG 31 16 }, m)

/-- Actions of the RSTC, TICK, TRUSS and BIST registers. -/
def actModule (mem : Mem) (m : Mach) (h : Hit) (e : Stg) : Option (Mem × Mach) :=
  let i := h.idx.headD 0
  let v := e.val
  let whole := mergeBits (m.rd e.addr) v e.mask
  match h.d.name with
  | .TICK_LOCK => some (mem, (m.storeReg h e.addr v e.mask).lockMoved)
  | .TICK_DONE => let (w, m) := m.draw; some (mem, m.tickDone e.init v (w.toNat % 2 ^ 24))
  | .TRUSS_LIVE_CMD => some (mem, m.liveCmd (slotBytes mem (bitsOf v 1 1)) v)
  | .TRUSS_OWNER_QUERY => some (mem, m.ownerAsk v)
  | .RSTC_MODE_CMD => some (mem, m.modeCmd e.init v)
  | .RSTC_SW_RST => some (mem, m.swReset v)
  | .RSTC_DIE_RST => some (mem, m.dieWrite whole)
  | .RSTC_UNIT_RST => some (unitWrite mem m whole)
  | .RSTC_GROUP_RST => some (mem, m.groupWrite whole)
  | .RSTC_ELEM_RST => some (mem, m.elemWrite v)
  | .RSTC_WDT_KICK => some (mem, if bitOf v 0 then m.wdtKick i else m)
  | .BIST_CMD => some (mem, m.bistCmd v)
  | _ => none

/-- Actions of the compute units: IRQ, FAB, MEM, CHK, BENT, WORLD, VDEV, KEY and UPD. -/
def actCompute (mem : Mem) (m : Mach) (h : Hit) (e : Stg) : Option (Mem × Mach) :=
  let i := h.idx.headD 0
  let v := e.val
  match h.d.name with
  | .IRQ_SRC_CFG => some (mem, m.srcCfg i v e.mask)
  | .IRQ_EOI => some (mem, m.irqEnd i (bitsOf v 25 0))
  | .FAB_PART_CTRL => some (mem, m.partCtrl v)
  | .MEM_XSPI_CMD => some (mem, m.xspiStart v)
  | .CHK_CMD => some (mem, if bitOf v 0 then m.chkRelease i else m)
  | .BENT_CMD => some (mem, m.bentCmd v)
  | .WORLD_CLAIM => some (mem, m.worldClaim e.init i v)
  | .WORLD_HW_READY => some (mem, m.hwReady i v)
  | .WORLD_PEG_LO => some (mem, m.pegWrite i v)
  | .WORLD_DBG_REQ => some (mem, m.dbgRequest v)
  | .WORLD_DBG_LOCK => some (mem, if bitOf v 0 then m.dbgWithdraw else m)
  | .WORLD_DBG_RESP => some (mem, m.dbgResponse i v)
  | .VDEV_REDIV => some (mem, m.redivCmd v)
  | .VDEV_SCARF_KEY => some (mem, m.scarfKeyWrite v)
  | .VDEV_INST_CMD => some (Mach.instCmdMem mem m i v)
  | .KEY_SUBMIT =>
    let idle := m.key.cur.isNone
    let (m, taken) := m.keySubmit e.init v
    some (if taken && idle then keyTake mem m 9 else (mem, m))
  | .UPD_CMD => some (updCmd mem m v)
  | .UPD_CONFIRM => some (mem, if bitOf v 0 then m.updConfirm i else m)
  | .UPD_SVC_CFG => some (svcCfg mem m h e)
  | _ => none

/-- Actions of the communication units: SWC, PTP, EPORT, MBUS, LIN, NM, GWY. -/
def actComm (mem : Mem) (m : Mach) (h : Hit) (e : Stg) : Option (Mem × Mach) :=
  let i := h.idx.headD 0
  let j := h.idx.getD 1 0
  let v := e.val
  match h.d.name with
  | .SWC_MAC_CMD => some (mem, m.macStart v)
  | .PTP_WT_CMD => some (mem, if bitOf v 0 then m.join else m)
  | .PTP_SNAP_CMD => some (mem, if bitOf v 0 then m.snapshot else m)
  | .PTP_DOM_SERVO => some (mem, m.servo i (bitsOf v 1 0))
  | .PTP_DOM_STEP_LO => some (mem, m.wr e.addr v)
  | .PTP_DOM_STEP_HI => some (mem, (m.wr e.addr v).domStep i)
  | .PTP_TXQ_POP => some (mem, if bitOf v 0 then m.popTxq i else m)
  | .PTP_TIN_POP => some (mem, if bitOf v 0 then m.popTin i else m)
  | .EPORT_DIAG_CMD => some (mem, m.diagStart i v)
  | .EPORT_RING_CTRL => some (txKick mem m i j fun m => m.enableWrite h e kRING (if i == 18 then j else 1024) 3)
  | .EPORT_TX_TAIL => some (txKick mem m i j fun m => (m.storeReg h e.addr v e.mask).ringGo i j true)
  | .EPORT_RX_TAIL => some (mem, (m.storeReg h e.addr v e.mask).ringGo i j false)
  | .MBUS_CMD => some (mem, if bitOf v 0 then m.startRecovery i else m)
  | .MBUS_RXQ_CTRL => some (mem, m.enableWrite h e kRXQ (8 * i + j) 1)
  | .MBUS_RXQ_ACK => some (mem, m.rxqAck i j (bitsOf v 9 0))
  | .MBUS_TXQ_CTRL =>
    let m := m.enableWrite h e kTXQ (8 * i + j) 1
    some (if bitOf v 1 then txqAbort mem m i j else (mem, m))
  | .MBUS_XCVR_CTRL => some (mem, m.xcvrWrite i (bitsOf v 1 0))
  | .LIN_CMD => some (mem, m.linCmd i v)
  | .NM_SEG_CTRL => some (mem, m.nmCtrl i v)
  | .NM_LOG_CLEAR => some (mem, if bitOf v 0 then m.logClear else m)
  | .GWY_TBL_CMD => some (mem, m.tblCmd v)
  | _ => none

/-- LOAD registers that act at once: LOAD_FAULT.clear for every member that the writer reaches, LOAD_SENSE_SEL, and
the interrupt registers of each member. -/
def actLoad (m : Mach) (h : Hit) (e : Stg) : Mach :=
  match h.d.name with
  | .LOAD_FAULT => if bitOf e.val 15 then m.forAll e.members fun m n => m.faultClear e n else m
  | .LOAD_SENSE_SEL => (m.storeReg h e.addr e.val e.mask).showSense
  | _ =>
    match loadWindow e.addr with
    | some (_, o) => m.forAll e.members fun m n => m.storeReg h (0x42000000 + 0x100 * n + o) e.val e.mask
    | none => m.storeReg h e.addr e.val e.mask

/-- The immediate effect of an accepted write. -/
def act (mem : Mem) (m : Mach) (h : Hit) (e : Stg) : Mem × Mach :=
  if 0x42000000 ≤ e.addr then (mem, m.actLoad h e)
  else
    match actModule mem m h e with
    | some r => r
    | none => match actCompute mem m h e with
      | some r => r
      | none => match actComm mem m h e with
        | some r => r
        | none => (mem, m.storeReg h e.addr e.val e.mask)

end Mach

end Sys2Proof.Machine
end

