-- ==== Sys2Proof/Machine/RegWrite.lean ====
section
/-! DEFINITION. A register access from its arrival to its end: width and occupancy (R3, R16, R132), blocks in reset
(R101, R104), the two worlds (R5, R416), owners (R62 to R64, R392), rejected values (R7), staging (R29 to R33), and
reading (R4, R8, R134). -/

namespace Sys2Proof.Machine

/-- What an address and a width select: a register, with the members of a LOAD window (R132), or a member-difference
word (R134). -/
inductive Target where
  | reg (h : Hit) (members : List Nat)
  | diff (members : List Nat) (x w : Nat)
  deriving DecidableEq, Repr

/-- Addresses that a register block names for ports or links that do not have it (R235, R355). -/
def vacant (h : Hit) : Bool :=
  match h.d.name, h.idx with
  | .LATH_CHAN_OWNER, [l, c] => l == 1 && 8 ≤ c
  | n, p :: r :: _ => isRing n && !(p == 18 || ((p == 19 || p == 20) && r == 0))
  | _, _ => false

/-- Address of a channel register at an offset. -/
def chanReg (n o : Nat) : Nat := 0x42000000 + 0x100 * n + o

/-- The register that an access addresses; none ends with a bus error (R3, R16). -/
def resolve (a width : Nat) : Option Target :=
  match (if 0x42000000 ≤ a then Mach.loadWindow a else none) with
  | some (ms, o) =>
    if width != 2 || a % 2 != 0 then none
    else if o < 0x40 then (findReg (chanReg (ms.headD 0) o)).map fun h => .reg h ms
    else if 0x42008000 ≤ a then some (.diff ms (2 * ((o - 0x40) / 6)) ((o - 0x40) / 2 % 3))
    else none
  | none =>
    match findReg a with
    | some h => if h.d.width == width && !vacant h then some (.reg h []) else none
    | none => none

/-- The link of an address for an access through a window. -/
def linkOf (a : Nat) : Option Nat := if 0x42000000 ≤ a && a < 0x42010000 then some 1 else farLink a

/-- Sill values that the RSTC shows: each read passes through link CP, with the limit of R18. -/
def sillRead (a : Nat) : Bool := inRange a (Rg.RSTC_RCNT 0) 0x40 || a == Rg.RSTC_SAFE_RESET

/-- The link that a read of an address passes (R18, R134). -/
def linkOfRead (a : Nat) : Option Nat := if sillRead a then some 1 else linkOf a

/-- Bits of a register that a write can change. -/
def RegDesc.writeMask (d : RegDesc) : Nat := d.maskIf fun f => f.acc != .ro && f.acc != .rc
def RegDesc.accMask (d : RegDesc) (k : Acc) : Nat := d.maskIf (·.acc == k)
def RegDesc.hwMask (d : RegDesc) : Nat := d.maskIf (·.hw)

/-- A write that the near side has accepted: its immediate part, and the die that performs it. -/
structure NearWrite where
  h : Hit
  e : Stg
  far : Option FarDie
  deriving DecidableEq, Repr

namespace Mach

/-- Registers that read 0 and ignore writes in the present configuration (R235, R250, R282, R360,
R412, R424). -/
def inert (m : Mach) (h : Hit) (a : Nat) : Bool :=
  let i := h.idx.headD 0
  match h.d.name with
  | .EPORT_PLCA => portType i != 3
  | .PTP_TOUT_CFG | .PTP_TOUT_START_LO | .PTP_TOUT_START_HI | .PTP_TOUT_PERIOD | .PTP_TOUT_WIDTH | .PTP_TOUT_IRQ_EN
  | .PTP_TOUT_IRQ_STATUS => !m.timeOutOn i
  | .WORLD_HW_CFG | .WORLD_HW_STATE | .WORLD_HW_READY => !m.partHeart i
  | .FAB_INIT_GROUP => !assignedInit i
  | .SWC_VLAN_MEMBER | .SWC_VLAN_UNTAG => i == 0 || i == 4095
  | _ =>
    if 0x40071000 ≤ a && a < 0x40080000 then !m.instDefined i
    else if 0x41400000 ≤ a && a < 0x41410000 then m.linTaken i
    else false

/-- Registers that ignore writes in split mode (R387). -/
def writeInert (m : Mach) (h : Hit) : Bool :=
  match h.d.name with
  | .CHK_CTRL | .CHK_CMD => !m.fab.coded
  | _ => false

/-- The debug port's registers of a challenge are open to it whatever its enables (R418). -/
def dbgOpen (a : Nat) : Bool := 0x40060800 ≤ a && a < 0x40060840

/-- A debug access that the enables in force do not allow (R419). -/
def dbgBars (m : Mach) (init a : Nat) (write : Bool) : Bool := init == idDEBUG && !m.dbgMay write && !dbgOpen a

/-- Members of a window whose registers can be reached. -/
def reachable (m : Mach) (ms : List Nat) (o : Nat) (write : Bool) : List Nat :=
  ms.filter fun n => match findReg (chanReg n o) with
    | some h => !m.goneAt h (chanReg n o) write
    | none => false

/-- A write of a sapwood initiator to a WORLD register that the chapter does not open to it (R416). -/
def worldClosed (init a : Nat) : Bool :=
  0x40060000 ≤ a && a < 0x40070000 && !(init == idDEBUG && dbgOpen a)

/-- The world access violation of a write (R5, R416), reported once. RSTC_MODE_CMD reports its own (R89). -/
def worldWrite (m : Mach) (h : Hit) (init a v : Nat) : Mach :=
  if h.d.name != .RSTC_MODE_CMD && (h.d.allHw || v &&& h.d.hwMask != 0 || worldClosed init a) then m.worldViolation a init else m

/-- Tags that accepted or shadowed members put on a write. -/
def tagsOf (m : Mach) (ads : List (Nat × Admit)) : List (Nat × Nat × Nat) :=
  (ads.filterMap fun x => match x.2 with
    | .accept (some (d, ep)) => some (d, m.dutyOwner d, ep)
    | .shadow b d => some (d, b, m.dutyEpoch d)
    | _ => none).eraseDups

/-- A write of a bent partition to its own GWY_BOUT buffer enters its signature (R395), under the address of the same
word in bent A's buffer. -/
def boutLog (m : Mach) (h : Hit) (init a v : Nat) : Mach :=
  let note (b d : Nat) : Mach :=
    if m.partOf init != some (m.dutyPart d b) then m
    else
      let x := (d, a - 0x4000 * b, v)
      if m.dutyOwner d == b then { m with bent := { m.bent with ownLog := m.bent.ownLog ++ [x] } }
      else { m with bent := { m.bent with sbLog := m.bent.sbLog ++ [x] } }
  match h.d.name, h.idx with
  | .GWY_BOUT_A, d :: _ => note 0 d
  | .GWY_BOUT_B, d :: _ => note 1 d
  | _, _ => m

/-- A shadowed write (R392, R393). -/
def shadowed' (m : Mach) (d : RegDesc) (e : Stg) (ads : List (Nat × Admit)) : Mach :=
  let sh := ads.filter fun x => match x.2 with | .shadow _ _ => true | _ => false
  let tags := m.tagsOf sh
  match tags with
  | [] => m
  | (_, b, _) :: _ =>
    let mask := e.mask &&& d.accMask .rwt
    if mask != 0 then m.shadowWrite b { e with mask := mask, tags := tags, members := if (loadWindow e.addr).isNone then [] else sh.map (·.1) }
    else { m with bent := { m.bent with sbLog := m.bent.sbLog ++ tags.map fun t : Nat × Nat × Nat => (t.1, e.addr, e.val) } }

/-- The near side's part of a write (R345). What is left to perform is answered; with nothing left, the response is
given and pending RW/T fields are staged. -/
def nearWrite (m : Mach) (init a width v : Nat) : Mach × Option NearWrite :=
  if m.rst.cReset then (m.answer .gone, none)
  else match resolve a width with
  | none => (m.answer .busError, none)
  | some (.diff _ _ _) =>
    (m.answer (if m.dbgBars init a true then .busError else if m.dieHeld .p || m.linkState 1 ≤ 1 then .gone else .done), none)
  | some (.reg h all) =>
    let ms := m.reachable all (a % 0x100) true
    let gone : Bool := if all.isEmpty then m.goneAt h a true else ms.isEmpty
    if m.dbgBars init a true then (m.answer .busError, none)
    else if gone then (m.answer .gone, none)
    else if m.inert h a || m.writeInert h then (m.answer .done, none)
    else
      let heart := m.isHeart init || init == idLOADER
      let m := if heart then m else m.worldWrite h init a v
      let mask := h.d.writeMask &&& (if heart || h.d.name == .RSTC_MODE_CMD then 0xFFFFFFFF else 0xFFFFFFFF ^^^ h.d.hwMask)
      let ads : List (Nat × Admit) :=
        if all.isEmpty then [(0, m.regAdmit init a h v)]
        else ms.map fun n => match findReg (chanReg n (a % 0x100)) with
          | some x => (n, m.regAdmit init (chanReg n (a % 0x100)) x v)
          | none => (n, .refuse)
      let acc := ads.filter fun x => match x.2 with | .accept _ => true | _ => false
      if mask == 0 && (h.d.allHw || h.d.writeMask != 0) then (m.answer .done, none)
      else
        let m := if ads.any (·.2 == .refuse) then m.ownerViolation a init else m
        if ads.all (·.2 == .refuse) then (m.answer .busError, none)
        else if mask == 0 then (m.answer .done, none)
        else
          let e : Stg := { addr := a, mask := mask, val := v, init := init, part := m.partOf init
                           members := if all.isEmpty then [] else acc.map (·.1) }
          let m := m.shadowed' h.d e ads
          if acc.isEmpty then (m.answer .done, none)
          else
            let far := h.far a
            let bad := mask &&& m.badMask a h v &&& (if far.isSome then h.d.accMask .rwt else 0xFFFFFFFF)
            let m := if bad == 0 then m else m.cfgError a h
            let mask := bitsOutside mask bad
            let tags := m.tagsOf acc
            let later := mask &&& h.d.accMask .rwt
            let now := if bad &&& h.d.accMask .wo != 0 then 0 else bitsOutside mask (h.d.accMask .rwt)
            let (m, ok) := if later == 0 then (m, true) else m.stageWrite far { e with mask := later, tags := tags }
            if !ok then (m.answer .busError, none)
            else
              let m := m.forAll tags fun m t => m.ownWrite t.1 a v
              let m := m.boutLog h init a v
              if now == 0 then (m.answer .done, none)
              else (m, some ⟨h, { e with mask := now, tags := tags }, far⟩)

/-- The far die performs a posted write: values that it rejects leave their fields, and fail the write (R345). -/
def farPerform (mem : Mem) (m : Mach) (w : NearWrite) : Mem × Mach × Bool :=
  let bad := w.e.mask &&& m.badMask w.e.addr w.h w.e.val
  let m := if bad == 0 then m else m.cfgError w.e.addr w.h
  let mask := bitsOutside w.e.mask bad
  let (mem, m) := if mask == 0 then (mem, m) else act mem m w.h { w.e with mask := mask }
  (mem, m, bad == 0)

/-! ### Reading -/

/-- The element that RSTC_ELEM_RST names is in reset (R100). -/
def elemShown (m : Mach) (v : Nat) : Bool :=
  bitsOf v 15 0 < elemCount (bitsOf v 28 24) && m.elemHeld (bitsOf v 28 24) (bitsOf v 15 0)

/-- Value that a register shows, beside those that the machine computes when read. -/
def shown (m : Mach) (h : Hit) (a : Nat) : Nat :=
  match h.d.name, h.idx with
  | .IRQ_PEND, [w] => m.irqPendWord w
  | .RSTC_ELEM_RST, _ => (m.setBit a 16 (m.elemShown (m.rd a))).rd a
  | .LOAD_UNIT_STATUS, _ => ((m.setBit a 0 m.supRuns).setBit a 1 m.cmdBlocked).rd a
  | .WORLD_CLAIM_LEFT, [k] => withBits (m.rd a) 27 0 (m.leaseLeft k)
  | .FAB_STATUS, _ => min 256 (m.lath.q.countP fun r => !r.late && (!r.write || r.waiting))
  | .SWC_CNT_HI, _ => match kget m.swc.held a with | some v => v | none => m.rd a
  | _, _ => m.rd a

/-- Bits of a register that an initiator reads (R4 to R6). -/
def readMask (heart : Bool) (d : RegDesc) : Nat := d.maskIf fun f => f.acc != .wo && (heart || !f.hw)

/-- A read of an RC field clears it, but through the debug port with no invasive enable (R4, R8). -/
def readClears (m : Mach) (init : Nat) : Bool :=
  init != idDEBUG || bitOf m.dbgEnables 3 || bitOf m.dbgEnables 1

/-- A register read at the die that holds it, with the effects of the read. -/
def readReg (m : Mach) (init a : Nat) (h : Hit) : Mach × Nat :=
  if m.inert h a then (m, 0)
  else match h.d.name, h.idx with
  | .IRQ_CLAIM, [t] => if init == coreOfTarget t then m.irqClaimOf t else (m, 0x3FFFFFF)
  | _, _ =>
    let mask := readMask (m.isHeart init) h.d
    let v := m.shown h a &&& mask
    let m := match h.d.name, h.idx with
      | .SWC_CNT_LO, [p, k] => m.holdCounter p k
      | _, _ => m
    let rc := mask &&& h.d.accMask .rc
    (if rc != 0 && m.readClears init then m.wr a (bitsOutside (m.rd a) rc) else m, v)

/-- A member-difference word (R134), at the P-die. -/
def diffAt (m : Mach) (init a : Nat) : Nat :=
  match resolve a 2 with
  | some (.diff ms x w) => m.memberDiff (m.isHeart init) ms x w
  | _ => 0

/-- What a read that the near side has passed finds: a register, or with none a member-difference word. -/
def readAt (m : Mach) (init a : Nat) (h : Option Hit) : Mach × Nat :=
  match h with
  | some h => m.readReg init a h
  | none => (m, m.diffAt init a)

/-- A read ends with GONE (R101, R104, R354), on a link in DOWN or HELD too. -/
def readGone (m : Mach) (h : Option Hit) (a : Nat) : Bool :=
  (match h with | some h => m.goneAt h a false | none => m.rst.cReset || m.dieHeld .p)
    || (match linkOfRead a with | some l => m.linkState l ≤ 1 | none => false)

/-- The near side's checks of a read: the register (none for a member-difference word) and the address read (the
lowest-ranked member of an alias, R134), or the response. -/
def nearRead (m : Mach) (init a width : Nat) : Mach × Option (Option Hit × Nat) :=
  if m.rst.cReset then (m.answer .gone, none)
  else match resolve a width with
  | none => (m.answer .busError, none)
  | some t =>
    if m.dbgBars init a false then (m.answer .busError, none)
    else match t with
    | .diff _ _ _ => if m.readGone none a then (m.answer .gone, none) else (m, some (none, a))
    | .reg h ms =>
      let a' := if ms.isEmpty then a else chanReg (ms.headD 0) (a % 0x100)
      if m.readGone (some h) a' then (m.answer .gone, none)
      else
        let m := if !m.isHeart init && h.d.allHw then m.worldViolation a init else m
        (m, some (some h, a'))

/-- A far register answers at once on an idle link: UP, with no request of its channel before this one. -/
def linkIdle (m : Mach) (a : Nat) : Bool :=
  match linkOfRead a with
  | none => true
  | some l => m.linkState l == 3 && !(m.lath.q.any fun r => r.ch == m.farChan l a)

/-- A posted write taken into its lath channel (R344): it completes here when it holds an entry. -/
def postWrite (m : Mach) (link : Nat) (w : NearWrite) : Mach :=
  let m := m.bufWrite w.e.addr
  let (m, ok) := m.lathTake { ch := m.farChan link w.e.addr, init := w.e.init, write := true
                              beats := [(w.e.addr, w.e.val)], wr := [w.e] }
  if ok then m.answer .done else m

/-- A write of a register of any die. `eff` performs it on the C-die. -/
def writeWith (eff : Mem → Mach → NearWrite → Mem × Mach) (mem : Mem) (m : Mach) (init a width v : Nat) : Mem × Mach :=
  match m.nearWrite init a width v with
  | (m, none) => (mem, m)
  | (m, some w) =>
    match w.far, linkOf a with
    | some _, some l =>
      if m.linkIdle a then
        let m := m.bufWrite a
        let (mem, m, ok) := farPerform mem m w
        (mem, (if ok then m else m.wrError l a).answer .done)
      else (mem, m.postWrite l w)
    | _, _ => eff mem (m.answer .done) w

/-- A register write (R4). -/
def writeReg (mem : Mem) (m : Mach) (init a width v : Nat) : Mem × Mach :=
  m.writeWith (fun mem m w => act mem m w.h w.e) mem init a width v

/-- A register write with an effect of its own on the C-die. -/
def writeBy (eff : Mach → Nat → Mach) (mem : Mem) (m : Mach) (init a v : Nat) : Mem × Mach :=
  m.writeWith (fun mem m w => (mem, eff m w.e.val)) mem init a 4 v

end Mach

end Sys2Proof.Machine
end

