-- ==== Sys2Proof/Machine/LathOps.lean ====
section
/-! DEFINITION. Requests over the lath links (R343 to R351): held reads and read-ahead, posted writes, bursts,
far-initiated requests, locked sequences. -/

namespace Sys2Proof.Machine

namespace Mach

/-- The value of a register as the link carries it, every readable field included; an RC field is cleared. -/
def farValue (m : Mach) (init a : Nat) (h : Hit) : Mach × Nat :=
  let v := m.shown h a &&& readMask true h.d
  let rc := h.d.accMask .rc
  (if rc != 0 && m.readClears init then m.wr a (bitsOutside (m.rd a) rc) else m, if m.inert h a then 0 else v)

/-- What an initiator receives of a far value (R5). -/
def farShown (m : Mach) (init a v : Nat) : Nat :=
  match findReg a with
  | some h => v &&& readMask (m.isHeart init) h.d
  | none => 0

/-- The block of a far address (table R340). -/
def blockOf (l a : Nat) : Nat := a - a % farBlock l

/-- A value taken out of a channel's buffer. -/
def bufTake (m : Mach) (ch a : Nat) : Mach × Option Nat :=
  match kget m.lath.bufs ch with
  | none => (m, none)
  | some b =>
    match b.held.find? (·.1 == a) with
    | none => (m, none)
    | some x =>
      let b := { b with held := b.held.filter (·.1 != a) }
      (m.modLath fun s => { s with bufs := kput s.bufs ch b }, some x.2)

/-- A read outside the block discards a channel's buffer (R349). -/
def bufLeave (m : Mach) (ch a : Nat) : Mach :=
  m.bufDiscardIf (fun c b => c == ch && b.block != blockOf (linkOfChan ch) a) true

/-- A held read of a far register that has passed the near side (R343, R349). -/
def farReadTake (m : Mach) (init l a : Nat) : Mach :=
  let ch := m.farChan l a
  match m.bufTake ch a with
  | (m, some v) => m.answer (.value (m.farShown init a v))
  | (m, none) => ((m.bufLeave ch a).lathTake { ch := ch, init := init, write := false, beats := [(a, 0)] }).1

/-- Read-ahead (R348): registers after the one read, up to the end of its block. None of a READ_SENSITIVE region is read
but by a request that names it, and none of a block in reset answers. -/
def readAhead (m : Mach) (init ch a : Nat) : Mach :=
  let l := linkOfChan ch
  let w := if l == 0 then 4 else 2
  let on : Bool := m.bit (Rg.LATH_CTRL l) 0 && match m.farRegion a with | some r => r.read && !r.sensitive | none => false
  if !on then m
  else
    let (m, held) := (List.range (farBlock l / w)).foldl (fun (x : Mach × List (Nat × Nat)) k =>
        let b := blockOf l a + w * k
        match if a < b && farLink b == some l then resolve b w else none with
        | some (.reg h _) =>
          if (m.regionsAt b).any (·.sensitive) || m.readGone (some h) b then x
          else let (m, v) := x.1.farValue init b h; (m, x.2 ++ [(b, v)])
        | _ => x) (m, [])
    m.modLath fun s => { s with bufs := kput s.bufs ch { block := blockOf l a, held := held, init := init } }

/-- FAR_READ. A register of the C-die answers at once. -/
def farRead (m : Mach) (init a width : Nat) : Mach :=
  match m.nearRead init a width with
  | (m, none) => m
  | (m, some (h, a')) =>
    match linkOfRead a' with
    | some l => m.farReadTake init l a'
    | none => let (m, v) := m.readAt init a' h; m.answer (.value v)

/-- A register read (R4): a far register on an idle link answers at once. -/
def readNow (m : Mach) (init a width : Nat) : Mach :=
  match m.nearRead init a width with
  | (m, none) => m
  | (m, some (h, a')) =>
    match linkOfRead a' with
    | some l =>
      if m.linkIdle a' && (m.bufTake (m.farChan l a') a').2.isNone then
        let m := m.bufLeave (m.farChan l a') a'
        let (m, v) := m.readAt init a' h
        (m.readAhead init (m.farChan l a') a').answer (.value v)
      else m.farReadTake init l a'
    | none => let (m, v) := m.readAt init a' h; m.answer (.value v)

/-- One far register read for a held read: from the buffer where it holds it. -/
def farBeat (m : Mach) (r : LReq) (a : Nat) : Mach × Nat :=
  match m.bufTake r.ch a with
  | (m, some v) => (m, m.farShown r.init a v)
  | (m, none) =>
    match findReg a with
    | some h => let (m, v) := (m.bufLeave r.ch a).farValue r.init a h; (m, m.farShown r.init a v)
    | none => let m := m.bufLeave r.ch a; (m, m.diffAt r.init a)

/-- FAR_READ_REPLY (R343): the oldest held read of a channel, after every earlier posted write of it. -/
def readReply (m : Mach) (ch : Nat) : Mach :=
  let l := linkOfChan ch
  let mine := m.lath.q.filter fun r => r.ch == ch && !r.waiting
  match mine.find? (!·.write) with
  | none => m
  | some r =>
    let behind := (mine.takeWhile (· != r)).any (·.write)
    let a0 := ((r.beats.head?).getD (0, 0)).1
    let gone := m.readGone (findReg a0) a0
    if behind || (m.linkState l != 3 && !r.gone) then m
    else if r.late then
      let m := if r.gone || gone then m else (r.beats.foldl (fun (m : Mach) b => (m.farBeat r b.1).1) m)
      ((m.lathDrop r).bump (Rg.LATH_LATE_CNT l)).lathIrq l 1
    else if gone then
      match r.burst with
      | some id => (m.lathDrop r).burstPiece id false [] false
      | none => (m.lathDrop r).answer .gone
    else
      let (m, vs) := r.beats.foldl (fun (x : Mach × List Nat) b => let (m, v) := x.1.farBeat r b.1; (m, x.2 ++ [v])) (m, [])
      let m := m.lathDrop r
      match r.burst with
      | some id => m.burstPiece id true vs false
      | none => (m.readAhead r.init ch a0).answer (.value (vs.headD 0))

/-- FAR_INITIATED_REQUEST: the units that a far die may address (R350). -/
def farMayAddress (l a : Nat) : Bool :=
  match unitAt a with
  | some (u, _) =>
    if l == 0 then [uMEAS, uEPORT, uMBUS, uLIN, uSENT, uNM].contains u else [uRSTC, uBIST, uLOAD, uGWY, uTRUSS].contains u
  | none => false

/-- LOCKED_SEQUENCE to a far address is broken (R351): a read-modify-write has no effect; an exclusive load reads as a plain
held read, and the exclusive store that follows it writes nothing. -/
def lockedSeq (m : Mach) (init a width : Nat) (rmw : Bool) : Mach :=
  match linkOf a with
  | none => m
  | some l =>
    let m := (m.bump (Rg.LATH_LOCK_CNT l)).lathIrq l 4
    if rmw then m.answer .busError else m.farRead init a width

/-- Initiators that issue bursts (R346, R356). -/
def bursts? (i : Nat) : Bool := i == idSECURITY || i == idLOADER || within i 0x40 0x4B || within i 0x50 0x52

/-- A new burst of `n` pieces. -/
def burstOpen (m : Mach) (n : Nat) : Mach × Nat :=
  let id := m.lath.nextBurst
  (m.modLath fun s => { s with nextBurst := id + 1, bursts := s.bursts ++ [{ id := id, left := n }] }, id)

end Mach

/-- Beats grouped by far block, in address order (R346). -/
def cutBlocks {α : Type} (l : Nat) (addr : α → Nat) : List α → List (List α)
  | [] => []
  | x :: t =>
    match cutBlocks l addr t with
    | (y :: p) :: ps =>
      if Mach.blockOf l (addr x) == Mach.blockOf l (addr y) then (x :: y :: p) :: ps else [x] :: (y :: p) :: ps
    | ps => [x] :: ps

namespace Mach

/-- Pieces taken into the burst's channel one after another. -/
def takePieces (m : Mach) (id : Nat) (rs : List LReq) : Mach :=
  m.forAll rs fun m r =>
    let (m, ok) := m.lathTake { r with burst := some id }
    if ok && r.write then m.burstPiece id true [] true else m

/-- A read burst. -/
def burstRead (m : Mach) (init l a n w : Nat) : Mach :=
  let ch := m.farChan l a
  let ps := cutBlocks l (·.1) ((List.range n).map fun k => (a + w * k, 0))
  let (m, id) := m.burstOpen ps.length
  m.takePieces id (ps.map fun p => { ch := ch, init := init, write := false, beats := p })

/-- A write burst: each beat passes the near side; RW/T fields are staged, the rest travels in pieces (R342, R346). -/
def burstWrite (m : Mach) (init l a w : Nat) (vs : List Nat) : Mach :=
  let ch := m.farChan l a
  let (m, es, bad) := ((List.range vs.length).zip vs).foldl (fun (x : Mach × List Stg × Bool) kv =>
      match x.1.nearWrite init (a + w * kv.1) w kv.2 with
      | (m, some nw) => (m.bufWrite nw.e.addr, x.2.1 ++ [nw.e], x.2.2)
      | (m, none) => (m, x.2.1, x.2.2 || m.resp != .done)) (m, [], false)
  let ps := cutBlocks l (·.addr) es
  if ps.isEmpty then m.answer (if bad then .busError else .done)
  else
    let (m, id) := (m.answer .none).burstOpen ps.length
    let m := if bad then m.modLath fun s => { s with bursts := s.bursts.map fun b => if b.id == id then { b with failed := true } else b } else m
    m.takePieces id (ps.map fun p => { ch := ch, init := init, write := true, beats := p.map fun e => (e.addr, e.val), wr := p })

/-- FAR_BURST (R346). -/
def burst (m : Mach) (init a : Nat) (write : Bool) (vs : List Nat) : Mach :=
  match linkOf a with
  | none => m
  | some l =>
    let w := if l == 0 then 4 else 2
    let as := (List.range vs.length).map fun k => a + w * k
    if m.rst.cReset then m.answer .gone
    else if !bursts? init || vs.isEmpty then m
    else if as.any fun b => linkOf b != some l || (resolve b w).isNone then m.answer .busError
    else if m.linkState l ≤ 1 || m.dieHeld (if l == 0 then .l else .p) then m.answer .gone
    else if write then m.burstWrite init l a w vs
    else m.burstRead init l a vs.length w

end Mach

/-- FAR_WRITE (R344). -/
def farWrite (mem : Mem) (m : Mach) (init a width v : Nat) : Mem × Mach :=
  match m.nearWrite init a width v with
  | (m, none) => (mem, m)
  | (m, some w) =>
    match w.far, linkOf a with
    | some _, some l => (mem, m.postWrite l w)
    | _, _ => Mach.act mem (m.answer .done) w.h w.e

/-- One beat of a posted write at the far die (R345): lost where its block is in reset, failed where its value is
rejected. -/
def applyBeat (mem : Mem) (m : Mach) (l : Nat) (e : Stg) : Mem × Mach :=
  let h := match resolve e.addr (if l == 0 then 4 else 2) with | some (.reg h _) => some h | _ => none
  match h with
  | none => (mem, m)
  | some h =>
    let ms := m.reachable e.members (e.addr % 0x100) true
    if (if e.members.isEmpty then m.goneAt h e.addr true else ms.isEmpty) then (mem, (m.wrError l e.addr).goneDrop)
    else
      let (mem, m, ok) := Mach.farPerform mem m ⟨h, { e with members := ms }, none⟩
      (mem, if ok then m else m.wrError l e.addr)

/-- FAR_WRITE_APPLY (R344 to R346): the oldest request of the channel, when it is a posted write on a carrying link. -/
def writeApply (mem : Mem) (m : Mach) (ch : Nat) : Mem × Mach :=
  let l := linkOfChan ch
  match m.lathHead ch with
  | none => (mem, m)
  | some r =>
    if !r.write || m.linkState l != 3 then (mem, m)
    else
      let (mem, m) := r.wr.foldl (fun (x : Mem × Mach) e => applyBeat x.1 x.2 l e) (mem, m)
      (mem, m.lathDrop r)

/-- FAR_INITIATED_REQUEST (R350): with an initiator ID of its own, past the transaction path. -/
def farInitiated (mem : Mem) (m : Mach) (l a width : Nat) (write : Bool) (v : Nat) : Mem × Mach :=
  if m.rst.cReset then (mem, m.answer .gone)
  else if m.linkState l != 3 then (mem, m)
  else if !Mach.farMayAddress l a then (mem, (m.bump (Rg.LATH_XREJ_CNT l)).lathAddr l 5 a)
  else if write then
    match m.nearWrite (0x60 + l) a width v with
    | (m, none) => (mem, m)
    | (m, some w) => Mach.act mem (m.answer .done) w.h w.e
  else
    match m.nearRead (0x60 + l) a width with
    | (m, none) => (mem, m)
    | (m, some (h, a')) => let (m, v) := m.readAt (0x60 + l) a' h; (mem, m.answer (.value v))

end Sys2Proof.Machine
end

