-- ==== Sys2Proof/Machine/RowsFab.lean ====
section
/-! DEFINITION. Meanings of the commands on the fabric, interrupts, memories, the checkers and the bents. -/

namespace Sys2Proof.Machine

/-- The kind of a memory request: 0 read, 1 write, 2 execute. -/
def kindOf (k : Fin 3) : MemKind := if k == 0 then .read else if k == 1 then .write else .exec

namespace Mach

/-- A core has computed the address of a request (R372, R374). -/
def addressed (m : Mach) (id a : Nat) : Mach := m.modCore id fun c => { c with addr := BitVec.ofNat 40 a }

/-- A scrub pass of SRAM and the TCMs finds and corrects errors (R365). -/
def scrub (m : Mach) (sram a b : Nat) : Mach := ((m.eccCe 0 sram).eccCe 1 a).eccCe 2 b

/-- A checker fault by kind (R379): parity errors record group 0 with no lanes, plumb tests the group under test and no
program counter, debug-path failures group 7. -/
def faultOf (m : Mach) (c kind group lanes pc : Nat) (both : Bool) : Mach :=
  let g := if kind == 1 then 0 else if kind == 2 then m.plumbGroup c else if kind == 3 then 7 else group
  m.checkerFault c (8 + kind) g (if kind == 1 then 0 else lanes) (if kind == 2 then 0 else pc) both

end Mach

/-- PARTITION_RESTART (R359): a write of FAB_PART_CTRL. -/
def execPartitionRestart (init : InitId) (v : Word) (s : State) : Host.Outcome State Fault Refusal :=
  runMem s fun mem m => Mach.writeReg mem m init.toNat Rg.FAB_PART_CTRL 4 v.toNat

/-- PARTITION_RESTART_DONE (R359). -/
def execPartitionRestartDone (p : Fin 16) (s : State) : Host.Outcome State Fault Refusal :=
  runUp s fun m => m.restartDone p

/-- FABRIC_REQUEST (R360 to R362, R365, R366). -/
def execFabricRequest (init : InitId) (a n : Nat) (k : Fin 3) (data : List Byte) (s : State) :
    Host.Outcome State Fault Refusal :=
  runMem s fun mem m => Mach.fabricAccess mem (m.addressed init.toNat a) init.toNat a n (kindOf k) data

/-- IRQ_ASSERT (R364, R410). -/
def execIrqAssert (n : Fin 1024) (s : State) : Host.Outcome State Fault Refusal := runUp s fun m => m.irqAssert n

/-- IRQ_CLAIM (R364): a read of IRQ_CLAIM_t. -/
def execIrqClaim (init : InitId) (t : Fin 16) (s : State) : Host.Outcome State Fault Refusal :=
  run s fun m => m.readNow init.toNat (Rg.IRQ_CLAIM t) 4

/-- IRQ_EOI (R364): a write of IRQ_EOI_t. -/
def execIrqEoi (init : InitId) (t : Fin 16) (v : Word) (s : State) : Host.Outcome State Fault Refusal :=
  runMem s fun mem m => Mach.writeReg mem m init.toNat (Rg.IRQ_EOI t) 4 v.toNat

/-- ECC_CORRECTABLE (R365). -/
def execEccCorrectable (k : Fin 7) (s : State) : Host.Outcome State Fault Refusal := runUp s fun m => m.eccCe k

/-- ECC_UNCORRECTABLE (R365). -/
def execEccUncorrectable (k : Fin 7) (a : BitVec 40) (s : State) : Host.Outcome State Fault Refusal :=
  runUp s fun m => m.eccUe k a.toNat

/-- TRANSPORT_ERROR (R365): a cold reset with cause FATAL. -/
def execTransportError (s : State) : Host.Outcome State Fault Refusal := runUp s fun m => m.request 0xA false

/-- SCRUB_PASS (R365). -/
def execScrubPass (sram tcmA tcmB : Nat) (s : State) : Host.Outcome State Fault Refusal :=
  runUp s fun m => m.scrub sram tcmA tcmB

/-- LPDDR_ECC_POLL (R365). -/
def execLpddrEccPoll (n : Nat) (s : State) : Host.Outcome State Fault Refusal :=
  runUp s fun m => m.eccCe 4 (if m.memc.lpddrGib == 0 then 0 else n)

/-- MRAM_WRITE (R366). -/
def execMramWrite (init : InitId) (a : Nat) (data : List Byte) (s : State) : Host.Outcome State Fault Refusal :=
  runMem s fun mem m => Mach.fabricAccess mem (m.addressed init.toNat a) init.toNat a data.length .write data

/-- XSPI_CMD (R367): a write of MEM_XSPI_CMD. -/
def execXspiCmd (init : InitId) (v : Word) (s : State) : Host.Outcome State Fault Refusal :=
  runMem s fun mem m => Mach.writeReg mem m init.toNat Rg.MEM_XSPI_CMD 4 v.toNat

/-- XSPI_CMD_DONE (R367). -/
def execXspiCmdDone (data : List Byte) (s : State) : Host.Outcome State Fault Refusal :=
  runUp s fun m => m.xspiDone data

/-! ### Coded execution -/

/-- MISMATCH (R379, R382, R383). -/
def execMismatch (c : Fin 6) (group : Fin 8) (lanes : Word) (pc : BitVec 40) (loads : Bool) (s : State) :
    Host.Outcome State Fault Refusal :=
  runUp s fun m => m.disagree c group lanes.toNat pc.toNat loads

/-- REPLAY_COMPARE (R382, R381). -/
def execReplayCompare (c : Fin 6) (plumb : Option Word) (s : State) : Host.Outcome State Fault Refusal :=
  runUp s fun m => m.replayOk c (plumb.map (·.toNat))

/-- CHECKER_FAULT (R379, R383). -/
def execCheckerFault (c : Fin 6) (kind : Fin 4) (group : Fin 8) (lanes : Word) (pc : BitVec 40) (both : Bool) (s : State) :
    Host.Outcome State Fault Refusal :=
  runUp s fun m => m.faultOf c kind group lanes.toNat pc.toNat both

/-- PLUMB_TIMER (R380). -/
def execPlumbTimer (l : List (Fin 6 × Word)) (s : State) : Host.Outcome State Fault Refusal :=
  runUp s fun m => m.plumbBoot l

/-- CHK_RELEASE (R385): a write of CHK_CMD. -/
def execChkRelease (init : InitId) (c : Fin 6) (v : Word) (s : State) : Host.Outcome State Fault Refusal :=
  runMem s fun mem m => Mach.writeReg mem m init.toNat (Rg.CHK_CMD c) 4 v.toNat

/-- CSYNC (R386). -/
def execCsync (init : InitId) (s : State) : Host.Outcome State Fault Refusal := runUp s fun m => m.csync init.toNat

/-- CTEST (R386). -/
def execCtest (init : InitId) (gd : Fin 32) (fail : Option (Fin 8 × Word)) (s : State) :
    Host.Outcome State Fault Refusal :=
  runUp s fun m => m.ctest init.toNat gd (fail.map fun x => (x.1.val, x.2.toNat))

/-- CINJ (R386). -/
def execCinj (init : InitId) (s : State) : Host.Outcome State Fault Refusal := runUp s fun m => m.cinj init.toNat

/-- DEBUG_HALT (R389, R419). -/
def execDebugHalt (core : InitId) (s : State) : Host.Outcome State Fault Refusal :=
  runUp s fun m => m.haltCore core.toNat

/-- DEBUG_STEP (R389, R419). -/
def execDebugStep (core : InitId) (s : State) : Host.Outcome State Fault Refusal :=
  runUp s fun m => m.debugStep core.toNat

/-- DEBUG_REGISTER_WRITE (R389). -/
def execDebugRegisterWrite (core : InitId) (reg : DbgTarget) (v : Word) (fail : Word) (s : State) :
    Host.Outcome State Fault Refusal :=
  runUp s fun m => m.debugReg core.toNat reg v.toNat fail.toNat

/-- DEBUG_RESUME (R389). -/
def execDebugResume (core : InitId) (s : State) : Host.Outcome State Fault Refusal :=
  runUp s fun m => m.resumeCore core.toNat

/-! ### Bents -/

/-- BENT_FAILURE_SIGNAL (R396, R397). -/
def execBentFailureSignal (b : Fin 2) (src : Fin 6) (core : Fin 8) (s : State) : Host.Outcome State Fault Refusal :=
  runUp s fun m => m.bentSignal b src core

/-- OVERLAP_WINDOW_END (R398). -/
def execOverlapWindowEnd (s : State) : Host.Outcome State Fault Refusal := runUp s fun m => m.overlapEnds

/-- BENT_SWITCH (R400): a write of BENT_CMD. -/
def execBentSwitch (init : InitId) (v : Word) (s : State) : Host.Outcome State Fault Refusal :=
  runMem s fun mem m => Mach.writeReg mem m init.toNat Rg.BENT_CMD 4 v.toNat

/-- BENT_REPAIR (R402): a write of BENT_CMD. -/
def execBentRepair (init : InitId) (v : Word) (s : State) : Host.Outcome State Fault Refusal :=
  runMem s fun mem m => Mach.writeReg mem m init.toNat Rg.BENT_CMD 4 v.toNat

/-- REPAIR_TEST_DONE (R402). -/
def execRepairTestDone (ok : Bool) (s : State) : Host.Outcome State Fault Refusal :=
  runUp s fun m => m.repairTested ok

/-- TCM_COPY_DONE (R402). -/
def execTcmCopyDone (s : State) : Host.Outcome State Fault Refusal := runUpMem s fun mem m => Mach.copyDone mem m

end Sys2Proof.Machine
end

