-- ==== Sys2Proof/Machine/RowsGwy.lean ====
section
/-! DEFINITION. Meanings of the commands on the signal gateway and the lath links. -/

namespace Sys2Proof.Machine

/-- PDU_TIMEOUT (R326). -/
def execPduTimeout (n : Fin 4096) (s : State) : Host.Outcome State Fault Refusal := runUp s fun m => m.timeOutPdu n

/-- GATEWAY_LANES_DONE (R323 to R325, R329, R334). -/
def execGatewayLanesDone (ns : Nat) (used : List Nat) (s : State) : Host.Outcome State Fault Refusal :=
  runUp s fun m => m.lanesDone ns used

/-- GWY_ETH_RECEIVE (R333). -/
def execGwyEthReceive (s : State) : Host.Outcome State Fault Refusal := runUp s fun m => m.ethReceive

/-- GWY_TBL_READ (R336): a write of GWY_TBL_CMD. -/
def execGwyTblRead (init : InitId) (v : Word) (s : State) : Host.Outcome State Fault Refusal :=
  runMem s fun mem m => Mach.writeReg mem m init.toNat Rg.GWY_TBL_CMD 4 v.toNat

/-- GWY_TBL_WRITE (R336): a write of GWY_TBL_CMD. -/
def execGwyTblWrite (init : InitId) (v : Word) (s : State) : Host.Outcome State Fault Refusal :=
  runMem s fun mem m => Mach.writeReg mem m init.toNat Rg.GWY_TBL_CMD 4 v.toNat

/-- GWY_TBL_CLEAR (R336): a write of GWY_TBL_CMD. -/
def execGwyTblClear (init : InitId) (v : Word) (s : State) : Host.Outcome State Fault Refusal :=
  runMem s fun mem m => Mach.writeReg mem m init.toNat Rg.GWY_TBL_CMD 4 v.toNat

/-- GWY_TBL_DONE (R336, R425). -/
def execGwyTblDone (s : State) : Host.Outcome State Fault Refusal := runUp s fun m => m.tblEnd

/-! ### Lath links -/

/-- FAR_READ (R343, R349). -/
def execFarRead (init : InitId) (a w : Nat) (s : State) : Host.Outcome State Fault Refusal :=
  run s fun m => m.farRead init.toNat a w

/-- FAR_READ_REPLY (R343, R348). -/
def execFarReadReply (ch : Fin 24) (s : State) : Host.Outcome State Fault Refusal := runUp s fun m => m.readReply ch

/-- FAR_READ_TIMEOUT (R343). -/
def execFarReadTimeout (ch : Fin 24) (s : State) : Host.Outcome State Fault Refusal :=
  runUp s fun m => m.readTimeout ch

/-- FAR_WRITE (R344, R345). -/
def execFarWrite (init : InitId) (a w : Nat) (v : Word) (s : State) : Host.Outcome State Fault Refusal :=
  runMem s fun mem m => farWrite mem m init.toNat a w v.toNat

/-- FAR_WRITE_ENTRY_TIMEOUT (R344). -/
def execFarWriteEntryTimeout (ch : Fin 24) (s : State) : Host.Outcome State Fault Refusal :=
  runUp s fun m => m.entryTimeout ch

/-- FAR_WRITE_APPLY (R344 to R346). -/
def execFarWriteApply (ch : Fin 24) (s : State) : Host.Outcome State Fault Refusal :=
  runUpMem s fun mem m => writeApply mem m ch

/-- FAR_BURST (R346). -/
def execFarBurst (init : InitId) (a : Nat) (wr : Bool) (vs : List Word) (s : State) :
    Host.Outcome State Fault Refusal :=
  run s fun m => m.burst init.toNat a wr (vs.map (·.toNat))

/-- READAHEAD_DISCARD (R349). -/
def execReadaheadDiscard (ch : Fin 24) (s : State) : Host.Outcome State Fault Refusal :=
  runUp s fun m => m.bufDiscard ch true

/-- FAR_INITIATED_REQUEST (R350). -/
def execFarInitiatedRequest (l : Fin 2) (a w : Nat) (wr : Bool) (v : Word) (s : State) :
    Host.Outcome State Fault Refusal :=
  runMem s fun mem m => farInitiated mem m l a w wr v.toNat

/-- LOCKED_SEQUENCE (R351). -/
def execLockedSequence (init : InitId) (a w : Nat) (rmw : Bool) (s : State) : Host.Outcome State Fault Refusal :=
  runUp s fun m => m.lockedSeq init.toNat a w rmw

/-- FLIT_CRC_ERROR (R353). -/
def execFlitCrcError (l : Fin 2) (replay : Bool) (s : State) : Host.Outcome State Fault Refusal :=
  runUp s fun m => m.flitError l replay

/-- LINK_RETRAIN_DONE (R353). -/
def execLinkRetrainDone (l : Fin 2) (ok : Bool) (s : State) : Host.Outcome State Fault Refusal :=
  runUp s fun m => m.retrained l ok

end Sys2Proof.Machine
end

