-- ==== Sys2Proof/Machine/RowsKey.lean ====
section
/-! DEFINITION. Meanings of the commands on the security engine, Buile sessions and the field update. -/

namespace Sys2Proof.Machine

namespace Mach

/-- The identity is ready, and the requests that have waited for it are answered (R443). -/
def identityStart (mem : Mem) (m : Mach) : Mem × Mach :=
  let m := m.identityStep
  if m.bit Rg.KEY_STATUS 16 then identityWaiters mem m else (mem, m)

end Mach

/-- IDENTITY_READY (R443). -/
def execIdentityReady (s : State) : Host.Outcome State Fault Refusal :=
  runUpMem s fun mem m => Mach.identityStart mem m

/-- KEY_SUBMIT (R453): a write of KEY_SUBMIT. -/
def execKeySubmit (init : InitId) (v : Word) (s : State) : Host.Outcome State Fault Refusal :=
  runMem s fun mem m => Mach.writeReg mem m init.toNat Rg.KEY_SUBMIT 4 v.toNat

namespace Mach

/-- The running operation UPDATE completes (R449). -/
def opUpdate (mem : Mem) (m : Mach) : Mem × Mach :=
  keyOp mem m 1 fun i d => let (m, c, out) := updateOp mem m i d; (mem, m, c, out)

/-- The running operation MAC completes (R454). -/
def opMac (mem : Mem) (m : Mach) : Mem × Mach :=
  keyOp mem m 2 fun i d => let (m, c, out) := macOp mem m i d; (mem, m, c, out)

/-- The running operation BUILE completes (R454), unless its request waits for the identity (R443). -/
def opBuile (mem : Mem) (m : Mach) : Mem × Mach :=
  if buileHeld mem m then (mem, m) else keyOp mem m 4 fun i d => buileOp mem m i d

/-- The OPEN lockout ends (R460). -/
def lockoutEnds (m : Mach) : Mach := (m.modKey fun k => { k with lockout := false }).showKeyStatus

/-- A reassembly that has lasted 1 s is discarded (R479). -/
def segmentsLate (m : Mach) : Mach := m.modUpd fun u => { u with rx := none }

/-- A reset request through the debug port (R94): cause DEBUG. -/
def debugReset (m : Mach) (warm : Bool) : Mach := m.request 0xF warm

end Mach

/-- KEY_OP_UPDATE (R448, R449). -/
def execKeyOpUpdate (s : State) : Host.Outcome State Fault Refusal := runUpMem s fun mem m => Mach.opUpdate mem m

/-- KEY_OP_MAC (R454). -/
def execKeyOpMac (s : State) : Host.Outcome State Fault Refusal := runUpMem s fun mem m => Mach.opMac mem m

/-- KEY_OP_EXPORT_ID (R454). -/
def execKeyOpExportId (s : State) : Host.Outcome State Fault Refusal := runUpMem s fun mem m => Mach.exportOp mem m

/-- KEY_OP_BUILE (R454, R458). -/
def execKeyOpBuile (s : State) : Host.Outcome State Fault Refusal := runUpMem s fun mem m => Mach.opBuile mem m

/-- BUILE_HELLO (R458, R459). -/
def execBuileHello (f : List Byte) (s : State) : Host.Outcome State Fault Refusal :=
  runUpMem s fun mem m => Mach.buileRow (· == 1) mem m f

/-- BUILE_OPEN (R458, R459). -/
def execBuileOpen (f : List Byte) (s : State) : Host.Outcome State Fault Refusal :=
  runUpMem s fun mem m => Mach.buileRow (· == 2) mem m f

/-- BUILE_CLOSE (R458, R460). -/
def execBuileClose (f : List Byte) (s : State) : Host.Outcome State Fault Refusal :=
  runUpMem s fun mem m => Mach.buileRow (· == 3) mem m f

/-- BUILE_PING (R458, R461). -/
def execBuilePing (f : List Byte) (s : State) : Host.Outcome State Fault Refusal :=
  runUpMem s fun mem m => Mach.buileRow (· == 4) mem m f

/-- BUILE_ATTEST (R458, R457). -/
def execBuileAttest (f : List Byte) (s : State) : Host.Outcome State Fault Refusal :=
  runUpMem s fun mem m => Mach.buileRow (· == 16) mem m f

/-- BUILE_ATTEST_SIGNED (R458, R457). -/
def execBuileAttestSigned (f : List Byte) (s : State) : Host.Outcome State Fault Refusal :=
  runUpMem s fun mem m => Mach.buileRow (· == 17) mem m f

/-- BUILE_READ_IDENTITY (R458, R461). -/
def execBuileReadIdentity (f : List Byte) (s : State) : Host.Outcome State Fault Refusal :=
  runUpMem s fun mem m => Mach.buileRow (· == 18) mem m f

/-- BUILE_KEY_UPDATE (R458, R448). -/
def execBuileKeyUpdate (f : List Byte) (s : State) : Host.Outcome State Fault Refusal :=
  runUpMem s fun mem m => Mach.buileRow (· == 32) mem m f

/-- BUILE_LIFECYCLE (R458, R452). -/
def execBuileLifecycle (f : List Byte) (s : State) : Host.Outcome State Fault Refusal :=
  runUpMem s fun mem m => Mach.buileRow (· == 33) mem m f

/-- BUILE_CAL_WRITE (R458, R461). -/
def execBuileCalWrite (f : List Byte) (s : State) : Host.Outcome State Fault Refusal :=
  runUpMem s fun mem m => Mach.buileRow (· == 34) mem m f

/-- BUILE_READ_JOURNAL (R458, R461). -/
def execBuileReadJournal (f : List Byte) (s : State) : Host.Outcome State Fault Refusal :=
  runUpMem s fun mem m => Mach.buileRow (· == 35) mem m f

/-- BUILE_UPDATE_STATUS (R458, R470). -/
def execBuileUpdateStatus (f : List Byte) (s : State) : Host.Outcome State Fault Refusal :=
  runUpMem s fun mem m => Mach.buileRow (· == 53) mem m f

/-- NONCE_EXPIRY (R459). -/
def execNonceExpiry (s : State) : Host.Outcome State Fault Refusal := runUp s fun m => m.nonceExpires

/-- SESSION_IDLE_TIMEOUT (R460). -/
def execSessionIdleTimeout (n : Fin 8) (s : State) : Host.Outcome State Fault Refusal :=
  runUp s fun m => m.closeSession n

/-- OPEN_LOCKOUT_EXPIRY (R460). -/
def execOpenLockoutExpiry (s : State) : Host.Outcome State Fault Refusal := runUp s fun m => m.lockoutEnds

/-- SERVICE_PORT_SEGMENT (R479). -/
def execServicePortSegment (f : List Byte) (s : State) : Host.Outcome State Fault Refusal :=
  runUpMem s fun mem m => Mach.serviceSegment mem m f

/-- SEGMENT_TIMEOUT (R479). -/
def execSegmentTimeout (s : State) : Host.Outcome State Fault Refusal := runUp s fun m => m.segmentsLate

/-! ### Field update -/

/-- UPD_BEGIN (R471): a write of UPD_CMD. -/
def execUpdBegin (init : InitId) (v : Word) (s : State) : Host.Outcome State Fault Refusal :=
  runMem s fun mem m => Mach.writeReg mem m init.toNat Rg.UPD_CMD 4 v.toNat

/-- UPD_WRITE (R471): a write of UPD_CMD. -/
def execUpdWrite (init : InitId) (v : Word) (s : State) : Host.Outcome State Fault Refusal :=
  runMem s fun mem m => Mach.writeReg mem m init.toNat Rg.UPD_CMD 4 v.toNat

/-- UPD_VERIFY (R471): a write of UPD_CMD. -/
def execUpdVerify (init : InitId) (v : Word) (s : State) : Host.Outcome State Fault Refusal :=
  runMem s fun mem m => Mach.writeReg mem m init.toNat Rg.UPD_CMD 4 v.toNat

/-- UPD_COMMIT (R472): a write of UPD_CMD. -/
def execUpdCommit (init : InitId) (v : Word) (s : State) : Host.Outcome State Fault Refusal :=
  runMem s fun mem m => Mach.writeReg mem m init.toNat Rg.UPD_CMD 4 v.toNat

/-- UPD_ABORT (R471): a write of UPD_CMD. -/
def execUpdAbort (init : InitId) (v : Word) (s : State) : Host.Outcome State Fault Refusal :=
  runMem s fun mem m => Mach.writeReg mem m init.toNat Rg.UPD_CMD 4 v.toNat

/-- UPD_END (R471): a write of UPD_CMD. -/
def execUpdEnd (init : InitId) (v : Word) (s : State) : Host.Outcome State Fault Refusal :=
  runMem s fun mem m => Mach.writeReg mem m init.toNat Rg.UPD_CMD 4 v.toNat

/-- UPD_VERIFY_DONE (R468). -/
def execUpdVerifyDone (s : State) : Host.Outcome State Fault Refusal :=
  runUpMem s fun mem m => (mem, Mach.updVerified mem m)

/-- COMMIT_POINT (R473, R474). -/
def execCommitPoint (s : State) : Host.Outcome State Fault Refusal := runUpMem s fun mem m => Mach.commitPoint mem m

/-- UPD_CONFIRM (R475): a write of UPD_CONFIRM_p. -/
def execUpdConfirm (init : InitId) (p : Fin 16) (v : Word) (s : State) : Host.Outcome State Fault Refusal :=
  runMem s fun mem m => Mach.writeReg mem m init.toNat (Rg.UPD_CONFIRM p) 4 v.toNat

/-- CONFIRM_TIMEOUT (R477). -/
def execConfirmTimeout (p : Fin 16) (s : State) : Host.Outcome State Fault Refusal :=
  runUpMem s fun mem m => Mach.confirmLate mem m p

/-- HANDOVER_PHASE2 (R474). -/
def execHandoverPhase2 (s : State) : Host.Outcome State Fault Refusal := runUp s fun m => m.phase2

/-- HANDOVER_PHASE3 (R474, R475). -/
def execHandoverPhase3 (s : State) : Host.Outcome State Fault Refusal := runUp s fun m => m.phase3

/-- DEBUG_RESET_REQUEST (R94). -/
def execDebugResetRequest (warm : Bool) (s : State) : Host.Outcome State Fault Refusal :=
  run s fun m => m.debugReset warm

end Sys2Proof.Machine
end

