-- ==== Sys2Proof/Machine/RowsLin.lean ====
section
/-! DEFINITION. Meanings of the commands on LIN, SENT and network management. -/

namespace Sys2Proof.Machine

namespace Mach

/-- A LIN channel that is out of reset and has its ball. -/
def linLive (m : Mach) (c : Nat) (f : Mach → Mach) : Mach :=
  if m.linState c == 3 || m.elemHeld uLIN c || m.dieHeld .l || m.linOff c then m else f m

/-- A timer of a segment, started `n` edges ago, that runs for `ms`: once it has run out, its expiry is evaluated (R301). -/
def segExpiry (m : Mach) (s : Nat) (on : Bool) (n ms : Nat) : Mach := if on && m.msTicks ms ≤ n then m.nmExpiry s else m

/-- A CAN segment of class Ring in AWAKE, in the given phase. -/
def ringPhase (m : Mach) (s ph : Nat) : Bool :=
  m.segState s == 2 && !m.segLin s && !m.segPresence s && m.segPhase s == ph

end Mach

/-- LIN_HEADER_START (R284). -/
def execLinHeaderStart (x : LinStart) (s : State) : Host.Outcome State Fault Refusal :=
  runUp s fun m => (m.advance x.lt).linHeader x.ch

/-- LIN_FRAME_COMPLETE (R285, R287, R288, R311). -/
def execLinFrameComplete (c : Fin 12) (err : Fin 6) (x : LinResp) (s : State) :
    Host.Outcome State Fault Refusal :=
  runUp s fun m => m.linLive c fun m => (m.linFrame c err x.data x.check).nmLinSlept c

/-- LIN_RESPONSE_TIMEOUT (R287). -/
def execLinResponseTimeout (c : Fin 12) (s : State) : Host.Outcome State Fault Refusal :=
  runUp s fun m => m.linLive c fun m => m.linNoResponse c

/-- LIN_HEADER_RECEIVED (R286). -/
def execLinHeaderReceived (c : Fin 12) (id : Fin 64) (brk rate : Nat) (s : State) :
    Host.Outcome State Fault Refusal :=
  runUp s fun m => m.linLive c fun m => m.linHeaderIn c id brk rate

/-- LIN_GOTO_SLEEP (R288): a write of LIN_CMD. -/
def execLinGotoSleep (init : InitId) (c : Fin 12) (v : Word) (s : State) : Host.Outcome State Fault Refusal :=
  runMem s fun mem m => Mach.writeReg mem m init.toNat (Rg.LIN_CMD c) 4 v.toNat

/-- LIN_WAKE_PULSE (R288): a write of LIN_CMD. -/
def execLinWakePulse (init : InitId) (c : Fin 12) (v : Word) (s : State) : Host.Outcome State Fault Refusal :=
  runMem s fun mem m => Mach.writeReg mem m init.toNat (Rg.LIN_CMD c) 4 v.toNat

/-- LIN_WAKE_PULSE_END (R288). -/
def execLinWakePulseEnd (c : Fin 12) (s : State) : Host.Outcome State Fault Refusal :=
  runUp s fun m => m.linLive c fun m => m.linPulseEnd c

/-- LIN_INACTIVITY_TIMEOUT (R288, R311). -/
def execLinInactivityTimeout (c : Fin 12) (s : State) : Host.Outcome State Fault Refusal :=
  runUp s fun m => m.linLive c fun m => (m.linIdle c).nmLinSlept c

/-- LIN_WAKE_DETECT (R288, R311). -/
def execLinWakeDetect (c : Fin 12) (us : Nat) (s : State) : Host.Outcome State Fault Refusal :=
  runUp s fun m => m.linLive c fun m => (m.linWake c us).nmLinWoke c

/-- LIN_DOMINANT_TIMEOUT (R287). -/
def execLinDominantTimeout (c : Fin 12) (s : State) : Host.Outcome State Fault Refusal :=
  runUp s fun m => m.linLive c fun m => m.linDominant c true

/-- LIN_BUS_RECESSIVE (R287), whatever is in reset meanwhile. -/
def execLinBusRecessive (c : Fin 12) (s : State) : Host.Outcome State Fault Refusal :=
  runUp s fun m => m.linDominant c false

/-- SENT_MESSAGE (R290 to R292). -/
def execSentMessage (i : Fin 8) (tick : BitVec 16) (nibs : List Nat) (pause : Bool) (s : State) :
    Host.Outcome State Fault Refusal :=
  runUp s fun m => m.sentMsg i tick.toNat nibs pause

/-! ### Network management -/

/-- NM_AWAKE_REQ (R300): a write of NM_SEG_CTRL. -/
def execNmAwakeReq (init : InitId) (i : Fin 24) (v : Word) (s : State) : Host.Outcome State Fault Refusal :=
  runMem s fun mem m => Mach.writeReg mem m init.toNat (Rg.NM_SEG_CTRL i) 4 v.toNat

/-- NM_WAKE_REQUEST (R300): a write of NM_SEG_CTRL. -/
def execNmWakeRequest (init : InitId) (i : Fin 24) (v : Word) (s : State) : Host.Outcome State Fault Refusal :=
  runMem s fun mem m => Mach.writeReg mem m init.toNat (Rg.NM_SEG_CTRL i) 4 v.toNat

/-- SILENCE_WAIT_EXPIRY (R308). A request latch wins (R302). -/
def execSilenceWaitExpiry (i : Fin 24) (s : State) : Host.Outcome State Fault Refusal :=
  runUp s fun m => m.segExpiry i (m.segState i == 3 && !m.segLatch i) (m.seg i).silence (m.segSilenceMs i)

/-- RING_TIMEOUT (R306). -/
def execRingTimeout (i : Fin 24) (s : State) : Host.Outcome State Fault Refusal :=
  runUp s fun m => m.segExpiry i (m.ringPhase i 2) (m.seg i).ring (m.segKeepMs i)

/-- ALIVE_PHASE_END (R303). -/
def execAlivePhaseEnd (i : Fin 24) (s : State) : Host.Outcome State Fault Refusal :=
  runUp s fun m => m.segExpiry i (m.ringPhase i 1) (m.seg i).alive (4 * m.segHoldMs i)

/-- RING_HOLD_EXPIRY (R304). -/
def execRingHoldExpiry (i : Fin 24) (s : State) : Host.Outcome State Fault Refusal :=
  runUp s fun m => m.segExpiry i (m.ringPhase i 2 && (m.seg i).tokenHeld) (m.seg i).token (m.segHoldMs i)

/-- KEEPALIVE_DUE (R307). -/
def execKeepaliveDue (i : Fin 24) (s : State) : Host.Outcome State Fault Refusal :=
  runUp s fun m => m.segExpiry i (m.segState i == 2 && m.segPresence i && !m.segLin i) (m.seg i).keep (m.segKeepMs i / 4)

/-- WAKE_HOLD_EXPIRY (R300). -/
def execWakeHoldExpiry (i : Fin 24) (s : State) : Host.Outcome State Fault Refusal :=
  runUp s fun m => m.segExpiry i (m.segState i == 2) (m.seg i).hold (m.segKeepMs i)

/-- PRESENCE_TIMEOUT (R307, R311). -/
def execPresenceTimeout (i : Fin 24) (s : State) : Host.Outcome State Fault Refusal :=
  runUp s fun m => m.segExpiry i (m.segState i == 2 && (m.segPresence i || m.segLin i)) (m.seg i).pres (m.segKeepMs i)

/-- NM_LOG_CLEAR (R312): a write of NM_LOG_CLEAR. -/
def execNmLogClear (init : InitId) (v : Word) (s : State) : Host.Outcome State Fault Refusal :=
  runMem s fun mem m => Mach.writeReg mem m init.toNat Rg.NM_LOG_CLEAR 4 v.toNat

end Sys2Proof.Machine
end

