-- ==== Sys2Proof/Machine/RowsLoad.lean ====
section
/-! DEFINITION. Meanings of the commands on load channels, their protection, the budgets and the measurement engine. -/

namespace Sys2Proof.Machine

/-- PWM_PERIOD_START (R137, R138, R171). -/
def execPwmPeriodStart (c : Fin 48) (s : State) : Host.Outcome State Fault Refusal := runP s fun m => m.periodStart c

/-- PWM_ON_EDGE (R138). -/
def execPwmOnEdge (c : Fin 48) (s : State) : Host.Outcome State Fault Refusal := runP s fun m => m.onEdge c

/-- PWM_OFF_EDGE (R138). -/
def execPwmOffEdge (c : Fin 48) (s : State) : Host.Outcome State Fault Refusal := runP s fun m => m.offEdge c

/-- HOLD_LIMIT_EXPIRY (R142). -/
def execHoldLimitExpiry (c : Fin 48) (s : State) : Host.Outcome State Fault Refusal := runP s fun m => m.holdExpiry c

/-- LOAD_FAULT_CLEAR (R148, R165): the write of LOAD_FAULT at `a`. -/
def execLoadFaultClear (init : InitId) (a : Nat) (v : BitVec 16) (s : State) : Host.Outcome State Fault Refusal :=
  runMem s fun mem m => Mach.writeReg mem m init.toNat a 2 v.toNat

/-- SYNC_PULSE_END (R149). -/
def execSyncPulseEnd (t : Fin 8) (s : State) : Host.Outcome State Fault Refusal := runP s fun m => m.syncPulseEnd t

/-- DUTY_EPOCH_UPDATE (R147, R398). -/
def execDutyEpochUpdate (s : State) : Host.Outcome State Fault Refusal := runP s fun m => m.laneArrives

/-- INRUSH_SETTLE (R154). -/
def execInrushSettle (c : Fin 48) (s : State) : Host.Outcome State Fault Refusal := runP s fun m => m.inrushSettle c

/-- T_LIM_EXPIRY (R154). -/
def execTLimExpiry (c : Fin 48) (s : State) : Host.Outcome State Fault Refusal := runP s fun m => m.tLim c

/-- FAST_TRIP (R156, R168). -/
def execFastTrip (c : Fin 48) (s : State) : Host.Outcome State Fault Refusal := runP s fun m => m.fastTrip c

/-- INRUSH_WINDOW_EXPIRY (R154, R155, R158). -/
def execInrushWindowExpiry (x : ChanTime) (s : State) : Host.Outcome State Fault Refusal :=
  runP s fun m => m.windowExpiry x.ch x.same

/-- T_RETRY_EXPIRY (R154). -/
def execTRetryExpiry (c : Fin 48) (s : State) : Host.Outcome State Fault Refusal := runP s fun m => m.tRetry c

/-- DEMAG_END (R154, R159). -/
def execDemagEnd (c : Fin 48) (s : State) : Host.Outcome State Fault Refusal := runP s fun m => m.demagEnd c

/-- NO_FREEWHEEL (R154, R158, R159). -/
def execNoFreewheel (x : ChanTime) (s : State) : Host.Outcome State Fault Refusal :=
  runP s fun m => m.noFreewheel x.ch x.same

/-- CHANNEL_OVERTEMP (R157). -/
def execChannelOvertemp (c : Fin 48) (s : State) : Host.Outcome State Fault Refusal := runP s fun m => m.overtemp c

/-- COOL_END (R154, R157). -/
def execCoolEnd (c : Fin 48) (s : State) : Host.Outcome State Fault Refusal := runP s fun m => m.coolEnd c

/-- OFF_IDLE_RESET (R155). -/
def execOffIdleReset (c : Fin 48) (s : State) : Host.Outcome State Fault Refusal := runP s fun m => m.offIdle c

/-- RESTART_COUNT_RESET (R157). -/
def execRestartCountReset (c : Fin 48) (s : State) : Host.Outcome State Fault Refusal :=
  runP s fun m => m.restartReset c

/-- SENSE_SAMPLE (R152, R161, R166). -/
def execSenseSample (mA : List Nat) (s : State) : Host.Outcome State Fault Refusal := runSup s fun m => m.sample mA

/-- OPEN_LOAD_OFF (R162). -/
def execOpenLoadOff (c : Fin 48) (s : State) : Host.Outcome State Fault Refusal := runP s fun m => m.openOffStart c

/-- OPEN_LOAD_OFF_END (R162). -/
def execOpenLoadOffEnd (c : Fin 48) (s : State) : Host.Outcome State Fault Refusal := runP s fun m => m.openOffEnd c

/-- BANK_DROOP_START (R168). -/
def execBankDroopStart (b : Fin 6) (s : State) : Host.Outcome State Fault Refusal :=
  runP s fun m => m.droopStart b none

/-- BANK_DROOP_END (R168). -/
def execBankDroopEnd (b : Fin 6) (s : State) : Host.Outcome State Fault Refusal := runP s fun m => m.droopEnd b

/-- FREEZE_ALLOWANCE_SPENT (R168). -/
def execFreezeAllowanceSpent (c : Fin 48) (s : State) : Host.Outcome State Fault Refusal :=
  runP s fun m => m.freezeSpent c

/-- BUDGET_EVALUATION (R169 to R173). -/
def execBudgetEvaluation (tj : List Int) (s : State) : Host.Outcome State Fault Refusal :=
  runSup s fun m => m.evaluate tj

/-- SHED_START (R173). -/
def execShedStart (i : Fin 3) (s : State) : Host.Outcome State Fault Refusal := runSup s fun m => m.shedStart i

/-- SHED_STEP (R173). -/
def execShedStep (i : Fin 3) (s : State) : Host.Outcome State Fault Refusal := runSup s fun m => m.shedStep i

/-- FALLBACK_TRIP (R175). -/
def execFallbackTrip (p : Fin 2) (s : State) : Host.Outcome State Fault Refusal := runP s fun m => m.fallbackTrip p

/-! ### Measurement -/

/-- ADC_SAMPLE_START (R178, R179). -/
def execAdcSampleStart (s : State) : Host.Outcome State Fault Refusal := runUp s fun m => m.adcStart

/-- ADC_SAMPLES_HELD (R178, R179, R181). -/
def execAdcSamplesHeld (x : AdcCodes) (s : State) : Host.Outcome State Fault Refusal :=
  runUp s fun m => m.adcHeld x.samples x.flags

/-- MEAS_PASS_DONE (R179, R186, R188). -/
def execMeasPassDone (ns : Nat) (s : State) : Host.Outcome State Fault Refusal := runUp s fun m => m.measPass ns

/-- ADC_TIMEOUT (R182). -/
def execAdcTimeout (k : Fin 8) (s : State) : Host.Outcome State Fault Refusal := runUp s fun m => m.adcTimeout k

end Sys2Proof.Machine
end

