-- ==== Sys2Proof/Machine/RowsMbus.lean ====
section
/-! DEFINITION. Meanings of the commands on the CAN channels and their transceivers. -/

namespace Sys2Proof.Machine

namespace Mach

/-- The channel's transceiver waits for a wake of the given kind in STANDBY while the module runs (R274 to R276). -/
def standsBy (m : Mach) (c kind : Nat) : Bool :=
  !m.rst.cReset && m.sleepKind.isNone && m.xcvrMode c == some 1 && m.fld (Rg.MBUS_CFG c) 9 8 == kind

/-- A wake of the given kind on a CAN channel: in Sleep or on the way there under R93, else in STANDBY under R276. -/
def canWakes (m : Mach) (c kind : Nat) : Mach :=
  if m.sleepKind.isSome then m.wakeCan c kind
  else if m.standsBy c kind then (m.wakeStandby c).nmXwake c
  else m

/-- WUF words in use for a channel: those that a shutdown has copied, or the registers. -/
def wufInUse (m : Mach) (c : Nat) : List Nat := if m.sillWakes then m.sill.canWuf.getD c [] else m.wufWords c

/-- The decoder's error counter (R275): MBUS_WUF_ERR, and once the registers of the L-die are without power its copy beside
the wake settings. -/
def wufErr (m : Mach) (c : Nat) : Nat :=
  if m.sillWakes then m.sill.wufErr.getD c 0 else m.fld (Rg.MBUS_WUF_ERR c) 5 0

def setWufErr (m : Mach) (c n : Nat) : Mach :=
  if m.sillWakes then m.modSill fun s => { s with wufErr := s.wufErr.set c n } else m.wr (Rg.MBUS_WUF_ERR c) n

/-- The decoder's error counter raised or lowered. -/
def wufCount (m : Mach) (c : Nat) (err : Bool) : Mach :=
  m.setWufErr c (if err then min (m.wufErr c + 1) 32 else m.wufErr c - 1)

/-- The selective-wake decoder of a channel is powered and at work: in STANDBY, and in Sleep by the copied setting. -/
def decodes (m : Mach) (c : Nat) : Bool :=
  m.standsBy c 2 || m.sleepKind == some 3 && m.canWakeSetting c == 2

/-- The decoder's error counter raised or lowered (R275). -/
def wufStep (m : Mach) (c : Nat) (err : Bool) : Mach := if m.decodes c then m.wufCount c err else m

/-- The selective-wake decoder receives a frame (R275): a matching one wakes and, as a correct frame, lowers the error
counter; none stands for the frame error that brings it to 32. -/
def selectiveWake (m : Mach) (c : Nat) (f : Option CanFrame) : Mach :=
  match f with
  | some f => if wufMatch (m.wufInUse c) f then (m.wufStep c false).canWakes c 2 else m
  | none => (if m.decodes c then m.setWufErr c 32 else m).canWakes c 2

/-- The selective-wake decoder receives a frame that does not wake (R275): an erroneous one raises the counter, and at
32 wakes; a correct one lowers it. -/
def decoderFrame (m : Mach) (c : Nat) (err : Bool) : Mach :=
  let m := m.wufStep c err
  if err && m.decodes c && m.wufErr c == 32 then m.canWakes c 2 else m

/-- A transceiver condition of R273 begins while its L-die part is out of reset, and ends whenever it is over. -/
def xcvrEvent (m : Mach) (c bit : Nat) (on : Bool) : Mach :=
  if m.dieHeld .l || on && m.elemHeld uMBUS c || m.bit (Rg.MBUS_XCVR_STATUS c) bit == on then m else m.xcvrFault c bit on

end Mach

/-- A start of frame of the chosen candidate (R268), which restarts the silence wait of network management (R308). -/
def canStart (mem : Mem) (m : Mach) (c lt : Nat) : Mem × Mach :=
  let m := m.advance lt
  let was := (m.mch c).tx.isSome
  let (mem, m) := frameStart mem m c
  (mem, if !was && (m.mch c).tx.isSome then m.nmSof c else m)

/-- A received frame: routed, and observed by network management (R259, R296); any start of frame on the bus restarts the
silence wait (R308). -/
def canReceive (mem : Mem) (m : Mach) (c : Nat) (f : CanFrame) (begun : Bool) (sof lt : Nat) : Mem × Mach :=
  let m := m.advance lt
  let m := if m.canHears c then m.nmSof c else m
  let good : Bool := m.canReceives c begun && f.format ≤ m.fld (Rg.MBUS_CFG c) 1 0
  let (mem, m) := frameReceived mem m c f begun (unsignedOf 64 (m.wtAt sof))
  (mem, if good then m.nmObserve c f false else m)

/-- The end of a transmission attempt; a sent frame is observed by network management (R266, R296). -/
def canSent (mem : Mem) (m : Mach) (c : Nat) (sent : Bool) : Mem × Mach :=
  let t := (m.mch c).tx
  let (mem, m) := txComplete mem m c sent
  (mem, match t with | some t => if sent then m.nmObserve c t.f t.nm else m | none => m)

/-- CAN_INTEGRATION_DONE (R258). -/
def execCanIntegrationDone (c : Fin 12) (s : State) : Host.Outcome State Fault Refusal :=
  runUp s fun m => m.integrated c

/-- CAN_FRAME_RECEIVED (R255, R259 to R264). -/
def execCanFrameReceived (c : Fin 12) (f : CanFrame) (begun : Bool) (sof lt : Nat) (s : State) :
    Host.Outcome State Fault Refusal :=
  runUpMem s fun mem m => canReceive mem m c f begun sof lt

/-- MBUS_RXQ_ACK (R263): a write of MBUS_RXQ_ACK. -/
def execMbusRxqAck (init : InitId) (c : Fin 12) (q : Fin 8) (v : Word) (s : State) :
    Host.Outcome State Fault Refusal :=
  runMem s fun mem m => Mach.writeReg mem m init.toNat (Rg.MBUS_RXQ_ACK c q) 4 v.toNat

/-- CAN_FRAME_START (R265 to R268). -/
def execCanFrameStart (c : Fin 12) (lt : Nat) (s : State) : Host.Outcome State Fault Refusal :=
  runUpMem s fun mem m => canStart mem m c lt

/-- CAN_TX_COMPLETE (R266). -/
def execCanTxComplete (c : Fin 12) (sent : Bool) (s : State) : Host.Outcome State Fault Refusal :=
  runUpMem s fun mem m => canSent mem m c sent

/-- MBUS_TXQ_ABORT (R269): a write of MBUS_TXQ_CTRL. -/
def execMbusTxqAbort (init : InitId) (c : Fin 12) (q : Fin 8) (v : Word) (s : State) :
    Host.Outcome State Fault Refusal :=
  runMem s fun mem m => Mach.writeReg mem m init.toNat (Rg.MBUS_TXQ_CTRL c q) 4 v.toNat

/-- CAN_ERROR (R270, R271); the frame in error has begun with a start of frame (R308). -/
def execCanError (c : Fin 12) (tx : Bool) (lec : Fin 7) (incr : Fin 9) (s : State) :
    Host.Outcome State Fault Refusal :=
  runUpMem s fun mem m => canErrorOn mem (if m.canHears c then m.nmSof c else m) c tx lec incr

/-- BUSOFF_RECOVERY_WAIT (R271). -/
def execBusoffRecoveryWait (c : Fin 12) (s : State) : Host.Outcome State Fault Refusal :=
  runUp s fun m => m.recoveryWait c

/-- MBUS_RECOVER (R271): a write of MBUS_CMD. -/
def execMbusRecover (init : InitId) (c : Fin 12) (v : Word) (s : State) : Host.Outcome State Fault Refusal :=
  runMem s fun mem m => Mach.writeReg mem m init.toNat (Rg.MBUS_CMD c) 4 v.toNat

/-- BUSOFF_RECOVERED (R271). -/
def execBusoffRecovered (c : Fin 12) (s : State) : Host.Outcome State Fault Refusal := runUp s fun m => m.recovered c

/-- XCVR_MODE_WRITE (R272): a write of MBUS_XCVR_CTRL. -/
def execXcvrModeWrite (init : InitId) (c : Fin 12) (v : Word) (s : State) : Host.Outcome State Fault Refusal :=
  runMem s fun mem m => Mach.writeReg mem m init.toNat (Rg.MBUS_XCVR_CTRL c) 4 v.toNat

/-- XCVR_MODE_DONE (R272). -/
def execXcvrModeDone (c : Fin 12) (s : State) : Host.Outcome State Fault Refusal := runUp s fun m => m.xcvrDone c

/-- TXD_TIMEOUT (R273). -/
def execTxdTimeout (c : Fin 12) (s : State) : Host.Outcome State Fault Refusal :=
  runUp s fun m => m.xcvrEvent c 1 true

/-- XCVR_OVERTEMP (R273). -/
def execXcvrOvertemp (c : Fin 12) (s : State) : Host.Outcome State Fault Refusal :=
  runUp s fun m => m.xcvrEvent c 2 true

/-- CAN_DOMINANT_WAKE (R274, R276). -/
def execCanDominantWake (c : Fin 12) (s : State) : Host.Outcome State Fault Refusal := run s fun m => m.canWakes c 1

/-- CAN_SELECTIVE_WAKE (R275, R276). -/
def execCanSelectiveWake (c : Fin 12) (f : Option CanFrame) (s : State) : Host.Outcome State Fault Refusal :=
  run s fun m => m.selectiveWake c f

/-- XCVR_OVERTEMP_END (R273). -/
def execXcvrOvertempEnd (c : Fin 12) (s : State) : Host.Outcome State Fault Refusal :=
  runUp s fun m => m.xcvrEvent c 2 false

/-- TXD_PATH_RECESSIVE (R273). -/
def execTxdPathRecessive (c : Fin 12) (s : State) : Host.Outcome State Fault Refusal :=
  runUp s fun m => m.xcvrEvent c 1 false

/-- SELECTIVE_WAKE_DECODER_FRAME (R275). -/
def execSelectiveWakeDecoderFrame (c : Fin 12) (err : Bool) (s : State) : Host.Outcome State Fault Refusal :=
  run s fun m => m.decoderFrame c err

end Sys2Proof.Machine
end

