-- ==== Sys2Proof/Machine/RowsPower.lean ====
section
/-! DEFINITION. Meanings of the commands on supplies, clocks, power modes, resets, start-up and self-test. -/

namespace Sys2Proof.Machine

/-! ### Supplies and clocks -/

/-- KL30_LEVEL_CHANGE (R82). Above 40 V the module is outside its ratings (R483). -/
def execKl30LevelChange (mv : Nat) (s : State) : Host.Outcome State Fault Refusal :=
  if 40000 < mv then .fault .outsideRatings else runMem s fun mem m => Mach.kl30Change mem m mv

/-- OVERVOLTAGE_RECOVERY (R82). -/
def execOvervoltageRecovery (s : State) : Host.Outcome State Fault Refusal := run s fun m => m.ovpEnds

/-- POST_LOW (R83). -/
def execPostLow (p : Fin 2) (s : State) : Host.Outcome State Fault Refusal := run s fun m => m.postLow p

/-- POST_RECOVERY (R83). -/
def execPostRecovery (p : Fin 2) (s : State) : Host.Outcome State Fault Refusal := run s fun m => m.postEnds p

/-- RAIL_OUT_OF_WINDOW (R84). -/
def execRailOutOfWindow (k : Fin 5) (s : State) : Host.Outcome State Fault Refusal := run s fun m => m.railOut k

/-- RAIL_RECOVERY (R84). -/
def execRailRecovery (s : State) : Host.Outcome State Fault Refusal := run s fun m => m.railsBack

/-- REF_CLK_ABSENT (R85). -/
def execRefClkAbsent (s : State) : Host.Outcome State Fault Refusal := run s fun m => m.refChange true

/-- REF_CLK_RESTORED (R85). -/
def execRefClkRestored (s : State) : Host.Outcome State Fault Refusal := run s fun m => m.refChange false

/-- CLOCK_MONITOR_FAULT (R85). -/
def execClockMonitorFault (s : State) : Host.Outcome State Fault Refusal := run s fun m => m.clockFault

/-- HEARTBEAT_LOSS (R86). -/
def execHeartbeatLoss (s : State) : Host.Outcome State Fault Refusal := run s fun m => m.heartbeatLost true

/-- DIE_OVERTEMP (R87). -/
def execDieOvertemp (s : State) : Host.Outcome State Fault Refusal := run s fun m => m.dieHot true

/-- DIE_OVERTEMP_CLEAR (R87). -/
def execDieOvertempClear (s : State) : Host.Outcome State Fault Refusal := run s fun m => m.dieHot false

/-! ### Power modes -/

/-- A write of RSTC_MODE_CMD with a command code and its force bit. -/
def modeWrite (init : InitId) (cmd : Nat) (force : Bool) (s : State) : Host.Outcome State Fault Refusal :=
  runMem s fun mem m => Mach.writeReg mem m init.toNat Rg.RSTC_MODE_CMD 4 (cmd + 256 * flagNat force)

/-- MODE_CMD_RUN (R89). -/
def execModeCmdRun (init : InitId) (f : Bool) (s : State) : Host.Outcome State Fault Refusal := modeWrite init 1 f s

/-- MODE_CMD_DOZE (R89). -/
def execModeCmdDoze (init : InitId) (f : Bool) (s : State) : Host.Outcome State Fault Refusal := modeWrite init 2 f s

/-- MODE_CMD_SLEEP (R89). -/
def execModeCmdSleep (init : InitId) (f : Bool) (s : State) : Host.Outcome State Fault Refusal := modeWrite init 3 f s

/-- MODE_CMD_DORMANT (R89). -/
def execModeCmdDormant (init : InitId) (f : Bool) (s : State) : Host.Outcome State Fault Refusal := modeWrite init 4 f s

/-- DOZE_EXIT (R88, R90). -/
def execDozeExit (s : State) : Host.Outcome State Fault Refusal := runUp s fun m => m.dozeWake

/-- LOGIC_BIST_COMPLETE (R118, R121). -/
def execLogicBistComplete (fail : BitVec 38) (ms : BitVec 8) (s : State) : Host.Outcome State Fault Refusal :=
  runMem s fun mem m => Mach.bistComplete mem m fail.toNat ms.toNat

/-- WAKE_PIN_EVENT (R92, R93). -/
def execWakePinEvent (r f : BitVec 16) (s : State) : Host.Outcome State Fault Refusal :=
  run s fun m => m.wakePins r.toNat f.toNat

/-- LIN_SLEEP_WAKE (R92, R93). -/
def execLinSleepWake (chs : BitVec 12) (s : State) : Host.Outcome State Fault Refusal := run s fun m => m.wakeLin chs.toNat

/-- SLEEP_TIMER_EXPIRY (R93). -/
def execSleepTimerExpiry (s : State) : Host.Outcome State Fault Refusal := run s fun m => m.wakeTimer

/-- LATCHED_WAKE_START (R92). -/
def execLatchedWakeStart (s : State) : Host.Outcome State Fault Refusal := run s fun m => m.latchedWake

/-! ### Module reset -/

/-- NRESET_FALL (R95, R104). -/
def execNresetFall (ext : Bool) (s : State) : Host.Outcome State Fault Refusal := run s fun m => m.nresetFall ext

/-- WARM_RESET_ASSERT (R95, R96, R104). -/
def execWarmResetAssert (s : State) : Host.Outcome State Fault Refusal := runMem s fun mem m => Mach.nresetWarm mem m

/-- COLD_RESET_ASSERT (R95, R104). -/
def execColdResetAssert (s : State) : Host.Outcome State Fault Refusal := runMem s fun mem m => Mach.nresetCold mem m

/-- NRESET_RISE (R105, R109). -/
def execNresetRise (cycles us : Nat) (s : State) : Host.Outcome State Fault Refusal :=
  runMem s fun mem m => Mach.nresetRise mem m cycles us

/-- BOOT_ROM_START (R105, R112). -/
def execBootRomStart (s : State) : Host.Outcome State Fault Refusal := run s fun m => m.bootRom

/-- LINK_TRAINED (R105, R352). -/
def execLinkTrained (l : Fin 2) (s : State) : Host.Outcome State Fault Refusal := runUp s fun m => m.linkTrained l

/-- A write of RSTC_SW_RST. -/
def swRstWrite (init : InitId) (key : BitVec 16) (kind : Nat) (s : State) : Host.Outcome State Fault Refusal :=
  runMem s fun mem m => Mach.writeReg mem m init.toNat Rg.RSTC_SW_RST 4 (key.toNat * 2 ^ 16 + kind)

/-- SW_RESET_WARM (R97). -/
def execSwResetWarm (init : InitId) (key : BitVec 16) (s : State) : Host.Outcome State Fault Refusal := swRstWrite init key 1 s

/-- SW_RESET_COLD (R97). -/
def execSwResetCold (init : InitId) (key : BitVec 16) (s : State) : Host.Outcome State Fault Refusal := swRstWrite init key 2 s

/-- NRESET_DRIVE_END (R97). -/
def execNresetDriveEnd (cause : Fin 16) (s : State) : Host.Outcome State Fault Refusal := run s fun m => m.endRequest cause

/-! ### Die and block resets: writes of the reset registers that change one bit -/

/-- A write of a reset register with one bit of its value changed. -/
def bitWrite (init : InitId) (a i : Nat) (b : Bool) (s : State) : Host.Outcome State Fault Refusal :=
  runMem s fun mem m => Mach.writeReg mem m init.toNat a 4 (withBits (m.rd a) i i (flagNat b))

/-- Bit of a far die in RSTC_DIE_RST. -/
def dieBit : FarDie → Nat
  | .l => 0
  | .p => 1

/-- DIE_RESET_ASSERT (R99). -/
def execDieResetAssert (init : InitId) (d : FarDie) (s : State) : Host.Outcome State Fault Refusal :=
  bitWrite init Rg.RSTC_DIE_RST (dieBit d) true s

/-- DIE_RESET_RELEASE (R99). -/
def execDieResetRelease (init : InitId) (d : FarDie) (s : State) : Host.Outcome State Fault Refusal :=
  bitWrite init Rg.RSTC_DIE_RST (dieBit d) false s

/-- SUPERVISOR_READY (R99, R175). -/
def execSupervisorReady (s : State) : Host.Outcome State Fault Refusal := runP s fun m => m.supervisorReady

/-- UNIT_RESET_ASSERT (R100). -/
def execUnitResetAssert (init : InitId) (u : Fin 24) (s : State) : Host.Outcome State Fault Refusal :=
  bitWrite init Rg.RSTC_UNIT_RST u true s

/-- UNIT_RESET_RELEASE (R100). -/
def execUnitResetRelease (init : InitId) (u : Fin 24) (s : State) : Host.Outcome State Fault Refusal :=
  bitWrite init Rg.RSTC_UNIT_RST u false s

/-- GROUP_RESET_ASSERT (R100). -/
def execGroupResetAssert (init : InitId) (g : Fin 28) (s : State) : Host.Outcome State Fault Refusal :=
  bitWrite init Rg.RSTC_GROUP_RST g true s

/-- GROUP_RESET_RELEASE (R100). -/
def execGroupResetRelease (init : InitId) (g : Fin 28) (s : State) : Host.Outcome State Fault Refusal :=
  bitWrite init Rg.RSTC_GROUP_RST g false s

/-- A write of RSTC_ELEM_RST. -/
def elemRstWrite (init : InitId) (u : Fin 32) (i : BitVec 16) (b : Bool) (s : State) : Host.Outcome State Fault Refusal :=
  runMem s fun mem m => Mach.writeReg mem m init.toNat Rg.RSTC_ELEM_RST 4 (flagNat b * 2 ^ 31 + u * 2 ^ 24 + i.toNat)

/-- ELEMENT_RESET_ASSERT (R100). -/
def execElementResetAssert (init : InitId) (u : Fin 32) (i : BitVec 16) (s : State) : Host.Outcome State Fault Refusal :=
  elemRstWrite init u i true s

/-- ELEMENT_RESET_RELEASE (R100). -/
def execElementResetRelease (init : InitId) (u : Fin 32) (i : BitVec 16) (s : State) : Host.Outcome State Fault Refusal :=
  elemRstWrite init u i false s

/-- WATCHDOG_KICK (R110). -/
def execWatchdogKick (init : InitId) (n : Fin 16) (v : Word) (s : State) : Host.Outcome State Fault Refusal :=
  runMem s fun mem m => Mach.writeReg mem m init.toNat (Rg.RSTC_WDT_KICK n) 4 v.toNat

/-- WATCHDOG_EXPIRY (R110). -/
def execWatchdogExpiry (n : Fin 16) (s : State) : Host.Outcome State Fault Refusal := run s fun m => m.wdtExpiry n

/-! ### Start-up and self-test -/

/-- COLD_START (R112). -/
def execColdStart (s : State) : Host.Outcome State Fault Refusal := run s fun m => m.coldStart

/-- BOOT_PROGRESS_TIMEOUT (R113). -/
def execBootProgressTimeout (s : State) : Host.Outcome State Fault Refusal := run s fun m => m.heartbeatLost false

/-- TRUSS_VERIFY_DONE (R56, R65, R124, R469). -/
def execTrussVerifyDone (s : State) : Host.Outcome State Fault Refusal := runMem s fun mem m => Mach.verifyDone mem m

/-- LPDDR_TRAINING_DONE (R96, R367). -/
def execLpddrTrainingDone (ok : Bool) (s : State) : Host.Outcome State Fault Refusal := run s fun m => m.lpddrTrained ok

/-- BIST_CMD_RUN (R118): a write of BIST_CMD. -/
def execBistCmdRun (init : InitId) (v : Word) (s : State) : Host.Outcome State Fault Refusal :=
  runMem s fun mem m => Mach.writeReg mem m init.toNat Rg.BIST_CMD 4 v.toNat

/-- BIST_CONDITION_FAIL (R120). -/
def execBistConditionFail (r : Fin 5) (at' : Fin 38) (fail : BitVec 38) (ms : BitVec 8) (s : State) :
    Host.Outcome State Fault Refusal :=
  runMem s fun mem m => Mach.bistStops mem m r at' fail.toNat ms.toNat

end Sys2Proof.Machine
end

