-- ==== Sys2Proof/Machine/RowsPtp.lean ====
section
/-! DEFINITION. Meanings of the commands on network time, timed outputs and timed inputs. -/

namespace Sys2Proof.Machine

/-- PTP_SNAPSHOT (R238): a write of PTP_SNAP_CMD. -/
def execPtpSnapshot (init : InitId) (v : Word) (lt : Nat) (s : State) : Host.Outcome State Fault Refusal :=
  runMem s fun mem m => Mach.writeReg mem (m.advance lt) init.toNat Rg.PTP_SNAP_CMD 4 v.toNat

/-- DOMAIN_STEP (R237): a write of PTP_DOM_STEP_HI. -/
def execDomainStep (init : InitId) (k : Fin 2) (v : Word) (lt : Nat) (s : State) : Host.Outcome State Fault Refusal :=
  runMem s fun mem m => Mach.writeReg mem (m.advance lt) init.toNat (Rg.PTP_DOM_STEP_HI k) 4 v.toNat

/-- TXQ_POP (R246): a write of PTP_TXQ_POP. -/
def execTxqPop (init : InitId) (q : Fin 6) (v : Word) (s : State) : Host.Outcome State Fault Refusal :=
  runMem s fun mem m => Mach.writeReg mem m init.toNat (Rg.PTP_TXQ_POP q) 4 v.toNat

/-- SERVO_UNLOCK (R247): the write of 0 to PTP_DOM_SERVO. -/
def execServoUnlock (init : InitId) (k : Fin 2) (lt : Nat) (s : State) : Host.Outcome State Fault Refusal :=
  runMem s fun mem m => Mach.writeReg mem (m.advance lt) init.toNat (Rg.PTP_DOM_SERVO k) 4 0

/-- SERVO_LOCK (R247): the write of 1 to PTP_DOM_SERVO. -/
def execServoLock (init : InitId) (k : Fin 2) (lt : Nat) (s : State) : Host.Outcome State Fault Refusal :=
  runMem s fun mem m => Mach.writeReg mem (m.advance lt) init.toNat (Rg.PTP_DOM_SERVO k) 4 1

/-- SERVO_HOLD (R247): the write of 2 to PTP_DOM_SERVO. -/
def execServoHold (init : InitId) (k : Fin 2) (lt : Nat) (s : State) : Host.Outcome State Fault Refusal :=
  runMem s fun mem m => Mach.writeReg mem (m.advance lt) init.toNat (Rg.PTP_DOM_SERVO k) 4 2

/-- SYNC_TIMEOUT (R247). -/
def execSyncTimeout (k : Fin 2) (lt : Nat) (s : State) : Host.Outcome State Fault Refusal :=
  runUp s fun m => m.advance lt |>.syncLost k

/-- HOLDOVER_EXPIRY (R247). -/
def execHoldoverExpiry (k : Fin 2) (lt : Nat) (s : State) : Host.Outcome State Fault Refusal :=
  runUp s fun m => m.advance lt |>.holdoverSpent k

/-- REVERT_CHECK (R248). -/
def execRevertCheck (lt : Nat) (s : State) : Host.Outcome State Fault Refusal :=
  runUp s fun m => m.advance lt |>.chooseSource

/-- WT_JOIN (R249): a write of PTP_WT_CMD. -/
def execWtJoin (init : InitId) (v : Word) (lt : Nat) (s : State) : Host.Outcome State Fault Refusal :=
  runMem s fun mem m => Mach.writeReg mem (m.advance lt) init.toNat Rg.PTP_WT_CMD 4 v.toNat

/-- SLEW_DONE (R249). -/
def execSlewDone (lt : Nat) (s : State) : Host.Outcome State Fault Refusal :=
  runUp s fun m => m.advance lt |>.slewEnds

/-- TIME_OUT_PULSE_START (R250). -/
def execTimeOutPulseStart (k : Fin 8) (lt : Nat) (s : State) : Host.Outcome State Fault Refusal :=
  runUp s fun m => m.advance lt |>.pulseStart k

/-- TIME_OUT_PULSE_END (R250). -/
def execTimeOutPulseEnd (k : Fin 8) (lt : Nat) (s : State) : Host.Outcome State Fault Refusal :=
  runUp s fun m => m.advance lt |>.pulseEnd k

/-- TIME_IN_CAPTURE (R252). -/
def execTimeInCapture (k : Fin 8) (rising : Bool) (lt : Nat) (s : State) : Host.Outcome State Fault Refusal :=
  runUp s fun m => m.advance lt |>.capture k rising

/-- TIN_POP (R252): a write of PTP_TIN_POP. -/
def execTinPop (init : InitId) (k : Fin 8) (v : Word) (s : State) : Host.Outcome State Fault Refusal :=
  runMem s fun mem m => Mach.writeReg mem m init.toNat (Rg.PTP_TIN_POP k) 4 v.toNat

end Sys2Proof.Machine
end

