-- ==== Sys2Proof/Machine/RowsSwitch.lean ====
section
/-! DEFINITION. Meanings of the commands on the switch, the Ethernet ports and their rings. -/

namespace Sys2Proof.Machine

namespace Mach

/-- Errors of the line during a reception (EPORT_SYMBOL_ERR_CNT, EPORT_FEC_CORR_CNT, EPORT_FEC_UNCORR_CNT); the port types
with RS-FEC are 10GBASE-T1 and 1000BASE-T1 (R220, R235). -/
def lineErrors (m : Mach) (p sym fecC fecU : Nat) : Mach :=
  if p < 18 && m.portState p == 3 then
    let m := m.bumpBy (Rg.EPORT_SYMBOL_ERR_CNT p) sym
    if portType p < 2 then (m.bumpBy (Rg.EPORT_FEC_CORR_CNT p) fecC).bumpBy (Rg.EPORT_FEC_UNCORR_CNT p) fecU else m
  else m

/-- The end of a transmission: the collisions that it met on a T1S port, the frame, and the PLCA opportunity (R203,
R224). -/
def sendEnd (m : Mach) (p collisions lt : Nat) : Mach :=
  if (m.txOf p).isNone then m.advance lt
  else
    let m := if portType p == 3 then m.bumpBy (Rg.EPORT_COLLISION_CNT p) collisions else m
    let m := m.transmitEnd p lt
    if (m.txOf p).isSome then m else m.afterFrame p

/-- A reception ends, and with it the opportunity of the node that has sent (R205, R224). -/
def frameEnd (m : Mach) (p : Nat) (how : RxEnd) (more : Bool) : Mach :=
  if m.receiving p then (m.receiveEnd p how).heardFrame p more else m

/-- A port goes down in the switch when its link or its enable has gone (R207). -/
def portDown (m : Mach) (p : Nat) : Mach :=
  if m.isDown p || (m.bit (Rg.SWC_PORT_STATUS p) 0 && m.portEnabled p) then m else m.goDown p

end Mach

/-- FRAME_INGRESS (R194 to R202). -/
def execFrameIngress (p : Fin 22) (b : List Byte) (tmac : Nat) (s : State) : Host.Outcome State Fault Refusal :=
  runUp s fun m => m.ingress p b tmac

/-- FRAME_RECEIVE_END (R197, R205, R224, R232). -/
def execFrameReceiveEnd (p : Fin 22) (how : RxEnd) (sym fecC fecU : Nat) (x : RxStop) (s : State) :
    Host.Outcome State Fault Refusal :=
  runUp s fun m => m.advance x.lt |>.lineErrors p sym fecC fecU |>.frameEnd p how x.more

/-- LEARN_REQUEST (R197). -/
def execLearnRequest (s : State) : Host.Outcome State Fault Refusal := runUp s fun m => m.learnOne

/-- MAC_AGE_OUT (R198). -/
def execMacAgeOut (x : MacAge) (vid : BitVec 12) (s : State) : Host.Outcome State Fault Refusal :=
  runUp s fun m => m.advance x.lt |>.ageOut x.mac.toNat vid.toNat

/-- MAC_LOOKUP (R198): a write of SWC_MAC_CMD. -/
def execMacLookup (init : InitId) (v : Word) (s : State) : Host.Outcome State Fault Refusal :=
  runMem s fun mem m => Mach.writeReg mem m init.toNat Rg.SWC_MAC_CMD 4 v.toNat

/-- MAC_ADD (R198): a write of SWC_MAC_CMD. -/
def execMacAdd (init : InitId) (v : Word) (s : State) : Host.Outcome State Fault Refusal :=
  runMem s fun mem m => Mach.writeReg mem m init.toNat Rg.SWC_MAC_CMD 4 v.toNat

/-- MAC_DELETE (R198): a write of SWC_MAC_CMD. -/
def execMacDelete (init : InitId) (v : Word) (s : State) : Host.Outcome State Fault Refusal :=
  runMem s fun mem m => Mach.writeReg mem m init.toNat Rg.SWC_MAC_CMD 4 v.toNat

/-- MAC_CMD_DONE (R198). -/
def execMacCmdDone (s : State) : Host.Outcome State Fault Refusal := runUp s fun m => m.macFinish

/-- FRAME_TRANSMIT_START (R199, R211, R212, R224, R244). -/
def execFrameTransmitStart (p : Fin 22) (tmac : Nat) (s : State) : Host.Outcome State Fault Refusal :=
  runUp s fun m => m.transmitStart p tmac (m.mediumFree p)

/-- FRAME_TRANSMIT_END (R203, R205, R224). -/
def execFrameTransmitEnd (p : Fin 22) (collisions lt : Nat) (s : State) : Host.Outcome State Fault Refusal :=
  runUp s fun m => m.sendEnd p collisions lt

/-- PORT_DOWN (R207). -/
def execPortDown (p : Fin 22) (s : State) : Host.Outcome State Fault Refusal := runUp s fun m => m.portDown p

/-- FLUSH_COMPLETE (R207). -/
def execFlushComplete (p : Fin 22) (s : State) : Host.Outcome State Fault Refusal := runUp s fun m => m.flushDone p

/-- DOWN_PORT_MAC_PURGE (R207). -/
def execDownPortMacPurge (p : Fin 22) (s : State) : Host.Outcome State Fault Refusal := runUp s fun m => m.purgeMacs p

/-- GATE_ENTRY_START (R209). -/
def execGateEntryStart (p : Fin 22) (lt : Nat) (s : State) : Host.Outcome State Fault Refusal :=
  runUp s fun m => m.advance lt |>.gateNext p

/-- FRER_HISTORY_RESET (R214). -/
def execFrerHistoryReset (f : Fin 256) (s : State) : Host.Outcome State Fault Refusal :=
  runUp s fun m => m.frerReset f

/-! ### Ports and rings -/

/-- PORT_LINK_UP (R222, R223); the rings of an internal port that comes up go to work. -/
def execPortLinkUp (p : Fin 22) (s : State) : Host.Outcome State Fault Refusal :=
  runUpMem s fun mem m =>
    let m := m.linkUpNow p
    if 18 ≤ p.val && p.val < 21 then txRings mem m p m.clk.lt else (mem, m)

/-- PORT_LINK_LOSS (R222). -/
def execPortLinkLoss (p : Fin 22) (s : State) : Host.Outcome State Fault Refusal := runUp s fun m => m.linkLoss p

/-- TRAINING_TIMEOUT (R222). -/
def execTrainingTimeout (p : Fin 18) (s : State) : Host.Outcome State Fault Refusal :=
  runUp s fun m => m.trainTimeout p

/-- PLCA_BEACON (R224, R225). -/
def execPlcaBeacon (p : Fin 22) (s : State) : Host.Outcome State Fault Refusal := runUp s fun m => m.beacon p

/-- PLCA_BEACON_TIMEOUT (R224). -/
def execPlcaBeaconTimeout (p : Fin 22) (s : State) : Host.Outcome State Fault Refusal :=
  runUp s fun m => m.beaconTimeout p

/-- PLCA_OPPORTUNITY_TIMEOUT (R224). -/
def execPlcaOpportunityTimeout (p : Fin 22) (s : State) : Host.Outcome State Fault Refusal :=
  runUp s fun m => m.opportunityEnds p

/-- PLCA_DUP_END (R225). -/
def execPlcaDupEnd (p : Fin 22) (s : State) : Host.Outcome State Fault Refusal := runUp s fun m => m.dupEnds p

/-- USX_AN_WORD (R226). -/
def execUsxAnWord (p : Fin 22) (up : Bool) (rate : Fin 6) (remote : Bool) (s : State) :
    Host.Outcome State Fault Refusal :=
  runUp s fun m => m.usxWord p up rate remote

/-- RING_TAIL_WRITE (R228): a write of EPORT_TX_TAIL or EPORT_RX_TAIL. -/
def execRingTailWrite (init : InitId) (p : Fin 22) (r : Fin 8) (tx : Bool) (v : Word) (lt : Nat) (s : State) :
    Host.Outcome State Fault Refusal :=
  runMem s fun mem m => Mach.writeReg mem (m.advance lt) init.toNat (Mach.ringTail p r tx) 4 v.toNat

/-- RX_RING_DELIVER (R229). -/
def execRxRingDeliver (p : Fin 22) (s : State) : Host.Outcome State Fault Refusal :=
  runUpMem s fun mem m => rxDeliver mem m p

/-- RX_NOBUF_TIMEOUT (R229). -/
def execRxNobufTimeout (p : Fin 22) (r : Fin 8) (s : State) : Host.Outcome State Fault Refusal :=
  runUp s fun m => m.rxNobuf p r

/-- DIAG_START (R233): a write of EPORT_DIAG_CMD. -/
def execDiagStart (init : InitId) (p : Fin 22) (v : Word) (s : State) : Host.Outcome State Fault Refusal :=
  runMem s fun mem m => Mach.writeReg mem m init.toNat (Rg.EPORT_DIAG_CMD p) 4 v.toNat

/-- DIAG_COMPLETE (R233). -/
def execDiagComplete (p : Fin 22) (code : Fin 5) (echo : BitVec 16) (s : State) : Host.Outcome State Fault Refusal :=
  runUp s fun m => m.diagEnd p code echo.toNat

/-- SQI_UPDATE (R232). -/
def execSqiUpdate (p : Fin 22) (q : Fin 8) (s : State) : Host.Outcome State Fault Refusal :=
  runUp s fun m => m.setSqi p q

/-- PARTNER_ENERGY_CHANGE (R232). -/
def execPartnerEnergyChange (p : Fin 22) (on : Bool) (s : State) : Host.Outcome State Fault Refusal :=
  runUp s fun m => m.setEnergy p on

/-- SWC_CNT_LO_READ (R217): a read of SWC_CNT_LO. -/
def execSwcCntLoRead (init : InitId) (p : Fin 22) (k : Fin 32) (s : State) : Host.Outcome State Fault Refusal :=
  run s fun m => m.readNow init.toNat (Rg.SWC_CNT_LO p k) 4

end Sys2Proof.Machine
end

