-- ==== Sys2Proof/Machine/RowsTick.lean ====
section
/-! DEFINITION. Meanings of the commands on registers, the frame tick and the truss image. A command that carries a
local time runs the clocks to it first. -/

namespace Sys2Proof.Machine

/-- REGISTER_WRITE (R2 to R7, R29, R62): a write of a register. -/
def execRegisterWrite (init : InitId) (a w : Nat) (v : Word) (s : State) : Host.Outcome State Fault Refusal :=
  runMem s fun mem m => Mach.writeReg mem m init.toNat a w v.toNat

/-- RC_READ (R4): a read of a register; RC fields clear. -/
def execRcRead (init : InitId) (a w : Nat) (s : State) : Host.Outcome State Fault Refusal :=
  run s fun m => m.readNow init.toNat a w

/-- TICK_EDGE (R28). -/
def execTickEdge (lt : Nat) (s : State) : Host.Outcome State Fault Refusal :=
  runMem s fun mem m => Mach.tickEdge mem m lt

/-- FAR_COMMIT_APPLY (R34). -/
def execFarCommitApply (d : FarDie) (s : State) : Host.Outcome State Fault Refusal :=
  runUp s fun m => m.farApply d

/-- COMMIT_ACK (R34). -/
def execCommitAck (d : FarDie) (s : State) : Host.Outcome State Fault Refusal :=
  runUp s fun m => m.commitAck d

/-- COMMIT_FAULT (R34). -/
def execCommitFault (d : FarDie) (s : State) : Host.Outcome State Fault Refusal :=
  runUp s fun m => m.commitFault d

/-- KERF_START (R28, R380). -/
def execKerfStart (l : List (Fin 6 × Word)) (s : State) : Host.Outcome State Fault Refusal :=
  runMem s fun mem m => Mach.kerfStart mem m l

/-- CLIENT_BUDGET_POINT (R37): a due client that is not done is in overrun. -/
def execClientBudgetPoint (c : Fin 32) (s : State) : Host.Outcome State Fault Refusal :=
  runUp s fun m => m.budgetPoint c

/-- BLOCK_RESET_PULSE_END (R40, R127): a pulse has lasted 10 µs. -/
def execBlockResetPulseEnd (p : Pulse) (s : State) : Host.Outcome State Fault Refusal :=
  runUpMem s fun mem m => match p with
    | .client c => Mach.clientResetEnd mem m c
    | .die d => (mem, m.blockPulseEnd (0, dieNo d, 0))
    | .element u i => (mem, m.blockPulseEnd (2, u, i.toNat))

/-- TICK_DONE (R38): the write of TICK_DONE, `ns` after the edge. -/
def execTickDone (init : InitId) (v : Word) (ns : Nat) (s : State) : Host.Outcome State Fault Refusal :=
  runMem s fun mem m => Mach.writeBy (fun m v => m.tickDone init.toNat v ns) mem m init.toNat Rg.TICK_DONE v.toNat

/-- TICK_RUN_START (R112): the loader sets TICK_CTRL.run. -/
def execTickRunStart (lt : Nat) (s : State) : Host.Outcome State Fault Refusal :=
  run s fun m => m.tickRuns lt

/-- TRUSS_LIVE_START (R66): a write of TRUSS_LIVE_CMD. -/
def execTrussLiveStart (init : InitId) (v : Word) (s : State) : Host.Outcome State Fault Refusal :=
  runMem s fun mem m => Mach.writeReg mem m init.toNat Rg.TRUSS_LIVE_CMD 4 v.toNat

/-- LIVE_VERIFY_DONE (R56, R66). -/
def execLiveVerifyDone (s : State) : Host.Outcome State Fault Refusal :=
  runUp s fun m => m.liveVerified

/-- LIVE_STAGE (R68). -/
def execLiveStage (s : State) : Host.Outcome State Fault Refusal :=
  runUp s fun m => m.liveStage

/-- REST_PATTERN_WRITE (R71 to R73). -/
def execRestPatternWrite (ok : Bool) (s : State) : Host.Outcome State Fault Refusal :=
  runP s fun m => m.latchWrite ok

/-- TRUSS_OWNER_QUERY (R58, R499): a write of TRUSS_OWNER_QUERY. -/
def execTrussOwnerQuery (init : InitId) (v : Word) (s : State) : Host.Outcome State Fault Refusal :=
  runMem s fun mem m => Mach.writeReg mem m init.toNat Rg.TRUSS_OWNER_QUERY 4 v.toNat

end Sys2Proof.Machine
end

