-- ==== Sys2Proof/Machine/RowsWorld.lean ====
section
/-! DEFINITION. Meanings of the commands on the worlds and the virtual device instances. -/

namespace Sys2Proof.Machine

namespace Mach

/-- PEG changes nothing, whatever executes it. -/
def pegMark (m : Mach) (_ : Nat) : Mach := m

end Mach

/-- PEG (R407): marks an entry point and does nothing. -/
def execPeg (init : InitId) (s : State) : Host.Outcome State Fault Refusal := runUp s fun m => m.pegMark init.toNat

/-- WCALL (R408). -/
def execWcall (init : InitId) (gd gs : Fin 32) (s : State) : Host.Outcome State Fault Refusal :=
  runUpMem s fun mem m => (mem, Mach.wcall mem m init.toNat gd gs)

/-- WRET (R409). -/
def execWret (init : InitId) (gs : Fin 32) (s : State) : Host.Outcome State Fault Refusal :=
  runUp s fun m => m.wret init.toNat gs

/-- VISIT_TIMEOUT (R411). -/
def execVisitTimeout (init : InitId) (s : State) : Host.Outcome State Fault Refusal :=
  runUp s fun m => m.visitOver init.toNat

/-- WORLD_HW_READY (R412): a write of WORLD_HW_READY_p. -/
def execWorldHwReady (init : InitId) (p : Fin 16) (v : Word) (s : State) : Host.Outcome State Fault Refusal :=
  runMem s fun mem m => Mach.writeReg mem m init.toNat (Rg.WORLD_HW_READY p) 4 v.toNat

/-- WORLD_CLAIM (R414): a write of WORLD_CLAIM_k. -/
def execWorldClaim (init : InitId) (k : Fin 4) (v : Word) (s : State) : Host.Outcome State Fault Refusal :=
  runMem s fun mem m => Mach.writeReg mem m init.toNat (Rg.WORLD_CLAIM k) 4 v.toNat

/-- WORLD_CLAIM_RELEASE (R414): a write of WORLD_CLAIM_k. -/
def execWorldClaimRelease (init : InitId) (k : Fin 4) (v : Word) (s : State) : Host.Outcome State Fault Refusal :=
  runMem s fun mem m => Mach.writeReg mem m init.toNat (Rg.WORLD_CLAIM k) 4 v.toNat

/-- LEASE_EXPIRY (R414). -/
def execLeaseExpiry (k : Fin 4) (s : State) : Host.Outcome State Fault Refusal := runUp s fun m => m.leaseExpires k

/-- DBG_REQUEST (R418): a write of WORLD_DBG_REQ. -/
def execDbgRequest (init : InitId) (v : Word) (s : State) : Host.Outcome State Fault Refusal :=
  runMem s fun mem m => Mach.writeReg mem m init.toNat Rg.WORLD_DBG_REQ 4 v.toNat

/-- DBG_RESPONSE (R418): a write of WORLD_DBG_RESP_7. -/
def execDbgResponse (init : InitId) (v : Word) (s : State) : Host.Outcome State Fault Refusal :=
  runMem s fun mem m => Mach.writeReg mem m init.toNat (Rg.WORLD_DBG_RESP 7) 4 v.toNat

/-- DBG_CHECK_DONE (R418). -/
def execDbgCheckDone (s : State) : Host.Outcome State Fault Refusal := runUp s fun m => m.dbgCheck

/-- DBG_LOCK (R418): a write of WORLD_DBG_LOCK. -/
def execDbgLock (init : InitId) (v : Word) (s : State) : Host.Outcome State Fault Refusal :=
  runMem s fun mem m => Mach.writeReg mem m init.toNat Rg.WORLD_DBG_LOCK 4 v.toNat

/-- PEG_WINDOW_ENABLE (R421): a write of WORLD_PEG_LO_e. -/
def execPegWindowEnable (init : InitId) (e : Fin 32) (v : Word) (s : State) : Host.Outcome State Fault Refusal :=
  runMem s fun mem m => Mach.writeReg mem m init.toNat (Rg.WORLD_PEG_LO e) 4 v.toNat

/-- BOUNDARY_SCAN_EXTEST (R419). -/
def execBoundaryScanExtest (s : State) : Host.Outcome State Fault Refusal := runUp s fun m => m.extest

/-! ### Virtual device instances -/

/-- VDEV_FREEZE (R426, R434): a write of VDEV_INST_CMD. -/
def execVdevFreeze (init : InitId) (i : Fin 128) (v : Word) (s : State) : Host.Outcome State Fault Refusal :=
  runMem s fun mem m => Mach.writeReg mem m init.toNat (Rg.VDEV_INST_CMD i) 4 v.toNat

/-- VDEV_THAW (R426, R434): a write of VDEV_INST_CMD. -/
def execVdevThaw (init : InitId) (i : Fin 128) (v : Word) (s : State) : Host.Outcome State Fault Refusal :=
  runMem s fun mem m => Mach.writeReg mem m init.toNat (Rg.VDEV_INST_CMD i) 4 v.toNat

/-- VDEV_RESET (R426, R430): a write of VDEV_INST_CMD. -/
def execVdevReset (init : InitId) (i : Fin 128) (v : Word) (s : State) : Host.Outcome State Fault Refusal :=
  runMem s fun mem m => Mach.writeReg mem m init.toNat (Rg.VDEV_INST_CMD i) 4 v.toNat

/-- VDEV_RELEASE (R426, R430): a write of VDEV_INST_CMD. -/
def execVdevRelease (init : InitId) (i : Fin 128) (v : Word) (s : State) : Host.Outcome State Fault Refusal :=
  runMem s fun mem m => Mach.writeReg mem m init.toNat (Rg.VDEV_INST_CMD i) 4 v.toNat

/-- VDEV_SAVE (R426, R437): a write of VDEV_INST_CMD. -/
def execVdevSave (init : InitId) (i : Fin 128) (v : Word) (s : State) : Host.Outcome State Fault Refusal :=
  runMem s fun mem m => Mach.writeReg mem m init.toNat (Rg.VDEV_INST_CMD i) 4 v.toNat

/-- VDEV_RESTORE (R426, R438): a write of VDEV_INST_CMD. -/
def execVdevRestore (init : InitId) (i : Fin 128) (v : Word) (s : State) : Host.Outcome State Fault Refusal :=
  runMem s fun mem m => Mach.writeReg mem m init.toNat (Rg.VDEV_INST_CMD i) 4 v.toNat

/-- VDEV_GWY_WRITE (R426, R425): a write of VDEV_INST_CMD. -/
def execVdevGwyWrite (init : InitId) (i : Fin 128) (v : Word) (s : State) : Host.Outcome State Fault Refusal :=
  runMem s fun mem m => Mach.writeReg mem m init.toNat (Rg.VDEV_INST_CMD i) 4 v.toNat

/-- VDEV_GWY_CLEAR (R426, R425): a write of VDEV_INST_CMD. -/
def execVdevGwyClear (init : InitId) (i : Fin 128) (v : Word) (s : State) : Host.Outcome State Fault Refusal :=
  runMem s fun mem m => Mach.writeReg mem m init.toNat (Rg.VDEV_INST_CMD i) 4 v.toNat

/-- VDEV_FROZEN (R434). -/
def execVdevFrozen (i : Fin 128) (s : State) : Host.Outcome State Fault Refusal := runUp s fun m => m.instFrozen i

/-- VDEV_SAVE_DONE (R435 to R437). -/
def execVdevSaveDone (i : Fin 128) (s : State) : Host.Outcome State Fault Refusal :=
  runUpMem s fun mem m => Mach.saveDone mem m i

/-- VDEV_RESTORE_DONE (R438). -/
def execVdevRestoreDone (i : Fin 128) (s : State) : Host.Outcome State Fault Refusal :=
  runUpMem s fun mem m => Mach.restoreDone mem m i

/-- REDIV_SET (R433): a write of VDEV_REDIV. -/
def execRedivSet (init : InitId) (v : Word) (s : State) : Host.Outcome State Fault Refusal :=
  runMem s fun mem m => Mach.writeReg mem m init.toNat Rg.VDEV_REDIV 4 v.toNat

/-- REDIV_MOVE (R433): a write of VDEV_REDIV. -/
def execRedivMove (init : InitId) (v : Word) (s : State) : Host.Outcome State Fault Refusal :=
  runMem s fun mem m => Mach.writeReg mem m init.toNat Rg.VDEV_REDIV 4 v.toNat

/-- REDIV_MOVE_ALL (R433): a write of VDEV_REDIV. -/
def execRedivMoveAll (init : InitId) (v : Word) (s : State) : Host.Outcome State Fault Refusal :=
  runMem s fun mem m => Mach.writeReg mem m init.toNat Rg.VDEV_REDIV 4 v.toNat

/-- LATE_COMPLETION (R428). -/
def execLateCompletion (i : Fin 128) (gen : BitVec 16) (s : State) : Host.Outcome State Fault Refusal :=
  runUp s fun m => m.lateCompletion i gen.toNat

/-- VIRTUAL_EVENT (R429). -/
def execVirtualEvent (i : Fin 128) (e : Fin 16) (b : Fin 4) (s : State) : Host.Outcome State Fault Refusal :=
  runUp s fun m => m.virtualEvent i e b

end Sys2Proof.Machine
end

