-- ==== Sys2Proof/Machine/Dispatch.lean ====
section
/-! DEFINITION. The command dispatch: one arm per constructor of Instr, one call of its meaning. -/

namespace Sys2Proof.Machine

open Sys2Proof

/-- A command's effect on everything but the queue. -/
def exec (i : Instr) (s : State) : Host.Outcome State Fault Refusal :=
  match i with
  | .registerWrite init addr width value => Sys2Proof.Machine.execRegisterWrite init addr width value s
  | .rcRead init addr width => Sys2Proof.Machine.execRcRead init addr width s
  | .tickEdge lt => Sys2Proof.Machine.execTickEdge lt s
  | .farCommitApply die => Sys2Proof.Machine.execFarCommitApply die s
  | .commitAck die => Sys2Proof.Machine.execCommitAck die s
  | .commitFault die => Sys2Proof.Machine.execCommitFault die s
  | .kerfStart plumb => Sys2Proof.Machine.execKerfStart plumb s
  | .clientBudgetPoint client => Sys2Proof.Machine.execClientBudgetPoint client s
  | .blockResetPulseEnd pulse => Sys2Proof.Machine.execBlockResetPulseEnd pulse s
  | .tickDone init value ns => Sys2Proof.Machine.execTickDone init value ns s
  | .tickRunStart lt => Sys2Proof.Machine.execTickRunStart lt s
  | .trussLiveStart init value => Sys2Proof.Machine.execTrussLiveStart init value s
  | .restPatternWrite verified => Sys2Proof.Machine.execRestPatternWrite verified s
  | .trussOwnerQuery init resource => Sys2Proof.Machine.execTrussOwnerQuery init resource s
  | .kl30LevelChange mv => Sys2Proof.Machine.execKl30LevelChange mv s
  | .postLow post => Sys2Proof.Machine.execPostLow post s
  | .postRecovery post => Sys2Proof.Machine.execPostRecovery post s
  | .railOutOfWindow rail => Sys2Proof.Machine.execRailOutOfWindow rail s
  | .modeCmdRun init force => Sys2Proof.Machine.execModeCmdRun init force s
  | .modeCmdDoze init force => Sys2Proof.Machine.execModeCmdDoze init force s
  | .modeCmdSleep init force => Sys2Proof.Machine.execModeCmdSleep init force s
  | .modeCmdDormant init force => Sys2Proof.Machine.execModeCmdDormant init force s
  | .logicBistComplete failMask ms => Sys2Proof.Machine.execLogicBistComplete failMask ms s
  | .wakePinEvent rising falling => Sys2Proof.Machine.execWakePinEvent rising falling s
  | .linSleepWake channels => Sys2Proof.Machine.execLinSleepWake channels s
  | .nresetFall ext => Sys2Proof.Machine.execNresetFall ext s
  | .nresetRise cycles us => Sys2Proof.Machine.execNresetRise cycles us s
  | .linkTrained link => Sys2Proof.Machine.execLinkTrained link s
  | .swResetWarm init key => Sys2Proof.Machine.execSwResetWarm init key s
  | .swResetCold init key => Sys2Proof.Machine.execSwResetCold init key s
  | .nresetDriveEnd cause => Sys2Proof.Machine.execNresetDriveEnd cause s
  | .dieResetAssert init die => Sys2Proof.Machine.execDieResetAssert init die s
  | .dieResetRelease init die => Sys2Proof.Machine.execDieResetRelease init die s
  | .unitResetAssert init unit => Sys2Proof.Machine.execUnitResetAssert init unit s
  | .unitResetRelease init unit => Sys2Proof.Machine.execUnitResetRelease init unit s
  | .groupResetAssert init group => Sys2Proof.Machine.execGroupResetAssert init group s
  | .groupResetRelease init group => Sys2Proof.Machine.execGroupResetRelease init group s
  | .elementResetAssert init unit index => Sys2Proof.Machine.execElementResetAssert init unit index s
  | .elementResetRelease init unit index => Sys2Proof.Machine.execElementResetRelease init unit index s
  | .watchdogKick init dog value => Sys2Proof.Machine.execWatchdogKick init dog value s
  | .watchdogExpiry dog => Sys2Proof.Machine.execWatchdogExpiry dog s
  | .lpddrTrainingDone ok => Sys2Proof.Machine.execLpddrTrainingDone ok s
  | .bistCmdRun init value => Sys2Proof.Machine.execBistCmdRun init value s
  | .bistConditionFail reason pt failMask ms => Sys2Proof.Machine.execBistConditionFail reason pt failMask ms s
  | .pwmPeriodStart ch => Sys2Proof.Machine.execPwmPeriodStart ch s
  | .pwmOnEdge ch => Sys2Proof.Machine.execPwmOnEdge ch s
  | .pwmOffEdge ch => Sys2Proof.Machine.execPwmOffEdge ch s
  | .holdLimitExpiry ch => Sys2Proof.Machine.execHoldLimitExpiry ch s
  | .loadFaultClear init addr value => Sys2Proof.Machine.execLoadFaultClear init addr value s
  | .syncPulseEnd timer => Sys2Proof.Machine.execSyncPulseEnd timer s
  | .inrushSettle ch => Sys2Proof.Machine.execInrushSettle ch s
  | .tLimExpiry ch => Sys2Proof.Machine.execTLimExpiry ch s
  | .fastTrip ch => Sys2Proof.Machine.execFastTrip ch s
  | .inrushWindowExpiry ch => Sys2Proof.Machine.execInrushWindowExpiry ch s
  | .tRetryExpiry ch => Sys2Proof.Machine.execTRetryExpiry ch s
  | .demagEnd ch => Sys2Proof.Machine.execDemagEnd ch s
  | .noFreewheel ch => Sys2Proof.Machine.execNoFreewheel ch s
  | .channelOvertemp ch => Sys2Proof.Machine.execChannelOvertemp ch s
  | .coolEnd ch => Sys2Proof.Machine.execCoolEnd ch s
  | .offIdleReset ch => Sys2Proof.Machine.execOffIdleReset ch s
  | .restartCountReset ch => Sys2Proof.Machine.execRestartCountReset ch s
  | .senseSample mA => Sys2Proof.Machine.execSenseSample mA s
  | .openLoadOff ch => Sys2Proof.Machine.execOpenLoadOff ch s
  | .openLoadOffEnd ch => Sys2Proof.Machine.execOpenLoadOffEnd ch s
  | .bankDroopStart bank => Sys2Proof.Machine.execBankDroopStart bank s
  | .bankDroopEnd bank => Sys2Proof.Machine.execBankDroopEnd bank s
  | .freezeAllowanceSpent ch => Sys2Proof.Machine.execFreezeAllowanceSpent ch s
  | .budgetEvaluation tj => Sys2Proof.Machine.execBudgetEvaluation tj s
  | .shedStart scope => Sys2Proof.Machine.execShedStart scope s
  | .shedStep scope => Sys2Proof.Machine.execShedStep scope s
  | .fallbackTrip post => Sys2Proof.Machine.execFallbackTrip post s
  | .adcSamplesHeld samples => Sys2Proof.Machine.execAdcSamplesHeld samples s
  | .measPassDone ns => Sys2Proof.Machine.execMeasPassDone ns s
  | .adcTimeout adc => Sys2Proof.Machine.execAdcTimeout adc s
  | .frameIngress port bytes tmac => Sys2Proof.Machine.execFrameIngress port bytes tmac s
  | .frameReceiveEnd port how sym fecC fecU lt => Sys2Proof.Machine.execFrameReceiveEnd port how sym fecC fecU lt s
  | .macLookup init value => Sys2Proof.Machine.execMacLookup init value s
  | .macAdd init value => Sys2Proof.Machine.execMacAdd init value s
  | .macDelete init value => Sys2Proof.Machine.execMacDelete init value s
  | .frameTransmitStart port tmac => Sys2Proof.Machine.execFrameTransmitStart port tmac s
  | .frameTransmitEnd port collisions lt => Sys2Proof.Machine.execFrameTransmitEnd port collisions lt s
  | .portDown port => Sys2Proof.Machine.execPortDown port s
  | .flushComplete port => Sys2Proof.Machine.execFlushComplete port s
  | .gateEntryStart port lt => Sys2Proof.Machine.execGateEntryStart port lt s
  | .frerHistoryReset frer => Sys2Proof.Machine.execFrerHistoryReset frer s
  | .portLinkUp port => Sys2Proof.Machine.execPortLinkUp port s
  | .portLinkLoss port => Sys2Proof.Machine.execPortLinkLoss port s
  | .trainingTimeout port => Sys2Proof.Machine.execTrainingTimeout port s
  | .plcaBeacon port => Sys2Proof.Machine.execPlcaBeacon port s
  | .plcaBeaconTimeout port => Sys2Proof.Machine.execPlcaBeaconTimeout port s
  | .plcaOpportunityTimeout port => Sys2Proof.Machine.execPlcaOpportunityTimeout port s
  | .usxAnWord port linkUp rate remoteFault => Sys2Proof.Machine.execUsxAnWord port linkUp rate remoteFault s
  | .ringTailWrite init port ring tx value lt => Sys2Proof.Machine.execRingTailWrite init port ring tx value lt s
  | .rxRingDeliver port => Sys2Proof.Machine.execRxRingDeliver port s
  | .rxNobufTimeout port ring => Sys2Proof.Machine.execRxNobufTimeout port ring s
  | .diagStart init port value => Sys2Proof.Machine.execDiagStart init port value s
  | .diagComplete port code echo => Sys2Proof.Machine.execDiagComplete port code echo s
  | .ptpSnapshot init value lt => Sys2Proof.Machine.execPtpSnapshot init value lt s
  | .domainStep init slot value lt => Sys2Proof.Machine.execDomainStep init slot value lt s
  | .txqPop init q value => Sys2Proof.Machine.execTxqPop init q value s
  | .servoUnlock init slot lt => Sys2Proof.Machine.execServoUnlock init slot lt s
  | .servoLock init slot lt => Sys2Proof.Machine.execServoLock init slot lt s
  | .servoHold init slot lt => Sys2Proof.Machine.execServoHold init slot lt s
  | .syncTimeout slot lt => Sys2Proof.Machine.execSyncTimeout slot lt s
  | .holdoverExpiry slot lt => Sys2Proof.Machine.execHoldoverExpiry slot lt s
  | .revertCheck lt => Sys2Proof.Machine.execRevertCheck lt s
  | .wtJoin init value lt => Sys2Proof.Machine.execWtJoin init value lt s
  | .slewDone lt => Sys2Proof.Machine.execSlewDone lt s
  | .timeOutPulseStart pin lt => Sys2Proof.Machine.execTimeOutPulseStart pin lt s
  | .timeOutPulseEnd pin lt => Sys2Proof.Machine.execTimeOutPulseEnd pin lt s
  | .timeInCapture pin rising lt => Sys2Proof.Machine.execTimeInCapture pin rising lt s
  | .tinPop init pin value => Sys2Proof.Machine.execTinPop init pin value s
  | .canIntegrationDone ch => Sys2Proof.Machine.execCanIntegrationDone ch s
  | .canFrameReceived ch f begun sof lt => Sys2Proof.Machine.execCanFrameReceived ch f begun sof lt s
  | .mbusRxqAck init ch q value => Sys2Proof.Machine.execMbusRxqAck init ch q value s
  | .canFrameStart ch lt => Sys2Proof.Machine.execCanFrameStart ch lt s
  | .canTxComplete ch sent => Sys2Proof.Machine.execCanTxComplete ch sent s
  | .mbusTxqAbort init ch q value => Sys2Proof.Machine.execMbusTxqAbort init ch q value s
  | .canError ch tx lec incr => Sys2Proof.Machine.execCanError ch tx lec incr s
  | .busoffRecoveryWait ch => Sys2Proof.Machine.execBusoffRecoveryWait ch s
  | .mbusRecover init ch value => Sys2Proof.Machine.execMbusRecover init ch value s
  | .busoffRecovered ch => Sys2Proof.Machine.execBusoffRecovered ch s
  | .xcvrModeWrite init ch value => Sys2Proof.Machine.execXcvrModeWrite init ch value s
  | .xcvrModeDone ch => Sys2Proof.Machine.execXcvrModeDone ch s
  | .txdTimeout ch => Sys2Proof.Machine.execTxdTimeout ch s
  | .xcvrOvertemp ch => Sys2Proof.Machine.execXcvrOvertemp ch s
  | .canDominantWake ch => Sys2Proof.Machine.execCanDominantWake ch s
  | .canSelectiveWake ch f => Sys2Proof.Machine.execCanSelectiveWake ch f s
  | .linHeaderStart ch => Sys2Proof.Machine.execLinHeaderStart ch s
  | .linFrameComplete ch err data => Sys2Proof.Machine.execLinFrameComplete ch err data s
  | .linResponseTimeout ch => Sys2Proof.Machine.execLinResponseTimeout ch s
  | .linHeaderReceived ch id brk rate => Sys2Proof.Machine.execLinHeaderReceived ch id brk rate s
  | .linGotoSleep init ch value => Sys2Proof.Machine.execLinGotoSleep init ch value s
  | .linWakePulse init ch value => Sys2Proof.Machine.execLinWakePulse init ch value s
  | .linWakePulseEnd ch => Sys2Proof.Machine.execLinWakePulseEnd ch s
  | .linInactivityTimeout ch => Sys2Proof.Machine.execLinInactivityTimeout ch s
  | .linWakeDetect ch us => Sys2Proof.Machine.execLinWakeDetect ch us s
  | .linDominantTimeout ch => Sys2Proof.Machine.execLinDominantTimeout ch s
  | .sentMessage input tick nibs pause => Sys2Proof.Machine.execSentMessage input tick nibs pause s
  | .nmAwakeReq init seg value => Sys2Proof.Machine.execNmAwakeReq init seg value s
  | .nmWakeRequest init seg value => Sys2Proof.Machine.execNmWakeRequest init seg value s
  | .silenceWaitExpiry seg => Sys2Proof.Machine.execSilenceWaitExpiry seg s
  | .ringTimeout seg => Sys2Proof.Machine.execRingTimeout seg s
  | .alivePhaseEnd seg => Sys2Proof.Machine.execAlivePhaseEnd seg s
  | .ringHoldExpiry seg => Sys2Proof.Machine.execRingHoldExpiry seg s
  | .keepaliveDue seg => Sys2Proof.Machine.execKeepaliveDue seg s
  | .wakeHoldExpiry seg => Sys2Proof.Machine.execWakeHoldExpiry seg s
  | .presenceTimeout seg => Sys2Proof.Machine.execPresenceTimeout seg s
  | .nmLogClear init value => Sys2Proof.Machine.execNmLogClear init value s
  | .pduTimeout pdu => Sys2Proof.Machine.execPduTimeout pdu s
  | .gatewayLanesDone ns used => Sys2Proof.Machine.execGatewayLanesDone ns used s
  | .gwyTblRead init value => Sys2Proof.Machine.execGwyTblRead init value s
  | .gwyTblWrite init value => Sys2Proof.Machine.execGwyTblWrite init value s
  | .gwyTblClear init value => Sys2Proof.Machine.execGwyTblClear init value s
  | .farRead init addr width => Sys2Proof.Machine.execFarRead init addr width s
  | .farReadReply ch => Sys2Proof.Machine.execFarReadReply ch s
  | .farReadTimeout ch => Sys2Proof.Machine.execFarReadTimeout ch s
  | .farWrite init addr width value => Sys2Proof.Machine.execFarWrite init addr width value s
  | .farWriteEntryTimeout ch => Sys2Proof.Machine.execFarWriteEntryTimeout ch s
  | .farWriteApply ch => Sys2Proof.Machine.execFarWriteApply ch s
  | .farBurst init addr write words => Sys2Proof.Machine.execFarBurst init addr write words s
  | .readaheadDiscard ch => Sys2Proof.Machine.execReadaheadDiscard ch s
  | .farInitiatedRequest link addr width write value => Sys2Proof.Machine.execFarInitiatedRequest link addr width write value s
  | .lockedSequence init addr width rmw => Sys2Proof.Machine.execLockedSequence init addr width rmw s
  | .flitCrcError link replay => Sys2Proof.Machine.execFlitCrcError link replay s
  | .linkRetrainDone link ok => Sys2Proof.Machine.execLinkRetrainDone link ok s
  | .partitionRestart init value => Sys2Proof.Machine.execPartitionRestart init value s
  | .partitionRestartDone p => Sys2Proof.Machine.execPartitionRestartDone p s
  | .fabricRequest init addr bytes kind data => Sys2Proof.Machine.execFabricRequest init addr bytes kind data s
  | .irqAssert src => Sys2Proof.Machine.execIrqAssert src s
  | .irqClaim init target => Sys2Proof.Machine.execIrqClaim init target s
  | .irqEoi init target value => Sys2Proof.Machine.execIrqEoi init target value s
  | .eccCorrectable mem => Sys2Proof.Machine.execEccCorrectable mem s
  | .eccUncorrectable mem addr => Sys2Proof.Machine.execEccUncorrectable mem addr s
  | .mramWrite init addr data => Sys2Proof.Machine.execMramWrite init addr data s
  | .xspiCmd init value => Sys2Proof.Machine.execXspiCmd init value s
  | .xspiCmdDone data => Sys2Proof.Machine.execXspiCmdDone data s
  | .mismatch core group lanes pc loads => Sys2Proof.Machine.execMismatch core group lanes pc loads s
  | .replayCompare core plumb => Sys2Proof.Machine.execReplayCompare core plumb s
  | .checkerFault core kind group lanes pc both => Sys2Proof.Machine.execCheckerFault core kind group lanes pc both s
  | .plumbTimer plumb => Sys2Proof.Machine.execPlumbTimer plumb s
  | .chkRelease init core value => Sys2Proof.Machine.execChkRelease init core value s
  | .csync init => Sys2Proof.Machine.execCsync init s
  | .ctest init gd fail => Sys2Proof.Machine.execCtest init gd fail s
  | .cinj init => Sys2Proof.Machine.execCinj init s
  | .debugHalt core => Sys2Proof.Machine.execDebugHalt core s
  | .debugStep core => Sys2Proof.Machine.execDebugStep core s
  | .debugRegisterWrite core reg value fail => Sys2Proof.Machine.execDebugRegisterWrite core reg value fail s
  | .bentFailureSignal bent src core => Sys2Proof.Machine.execBentFailureSignal bent src core s
  | .bentSwitch init value => Sys2Proof.Machine.execBentSwitch init value s
  | .bentRepair init value => Sys2Proof.Machine.execBentRepair init value s
  | .repairTestDone ok => Sys2Proof.Machine.execRepairTestDone ok s
  | .peg init => Sys2Proof.Machine.execPeg init s
  | .wcall init gd gs => Sys2Proof.Machine.execWcall init gd gs s
  | .wret init gs => Sys2Proof.Machine.execWret init gs s
  | .visitTimeout init => Sys2Proof.Machine.execVisitTimeout init s
  | .worldHwReady init p value => Sys2Proof.Machine.execWorldHwReady init p value s
  | .worldClaim init k value => Sys2Proof.Machine.execWorldClaim init k value s
  | .worldClaimRelease init k value => Sys2Proof.Machine.execWorldClaimRelease init k value s
  | .leaseExpiry k => Sys2Proof.Machine.execLeaseExpiry k s
  | .dbgRequest init value => Sys2Proof.Machine.execDbgRequest init value s
  | .dbgResponse init value => Sys2Proof.Machine.execDbgResponse init value s
  | .dbgLock init value => Sys2Proof.Machine.execDbgLock init value s
  | .pegWindowEnable init e value => Sys2Proof.Machine.execPegWindowEnable init e value s
  | .vdevFreeze init k value => Sys2Proof.Machine.execVdevFreeze init k value s
  | .vdevFrozen k => Sys2Proof.Machine.execVdevFrozen k s
  | .vdevThaw init k value => Sys2Proof.Machine.execVdevThaw init k value s
  | .vdevReset init k value => Sys2Proof.Machine.execVdevReset init k value s
  | .vdevRelease init k value => Sys2Proof.Machine.execVdevRelease init k value s
  | .vdevSave init k value => Sys2Proof.Machine.execVdevSave init k value s
  | .vdevSaveDone k => Sys2Proof.Machine.execVdevSaveDone k s
  | .vdevRestore init k value => Sys2Proof.Machine.execVdevRestore init k value s
  | .vdevRestoreDone k => Sys2Proof.Machine.execVdevRestoreDone k s
  | .vdevGwyWrite init k value => Sys2Proof.Machine.execVdevGwyWrite init k value s
  | .vdevGwyClear init k value => Sys2Proof.Machine.execVdevGwyClear init k value s
  | .redivSet init value => Sys2Proof.Machine.execRedivSet init value s
  | .redivMove init value => Sys2Proof.Machine.execRedivMove init value s
  | .redivMoveAll init value => Sys2Proof.Machine.execRedivMoveAll init value s
  | .lateCompletion k gen => Sys2Proof.Machine.execLateCompletion k gen s
  | .virtualEvent k e bit => Sys2Proof.Machine.execVirtualEvent k e bit s
  | .keySubmit init value => Sys2Proof.Machine.execKeySubmit init value s
  | .buileHello frame => Sys2Proof.Machine.execBuileHello frame s
  | .buileOpen frame => Sys2Proof.Machine.execBuileOpen frame s
  | .buileClose frame => Sys2Proof.Machine.execBuileClose frame s
  | .builePing frame => Sys2Proof.Machine.execBuilePing frame s
  | .buileAttest frame => Sys2Proof.Machine.execBuileAttest frame s
  | .buileAttestSigned frame => Sys2Proof.Machine.execBuileAttestSigned frame s
  | .buileReadIdentity frame => Sys2Proof.Machine.execBuileReadIdentity frame s
  | .buileKeyUpdate frame => Sys2Proof.Machine.execBuileKeyUpdate frame s
  | .buileLifecycle frame => Sys2Proof.Machine.execBuileLifecycle frame s
  | .buileCalWrite frame => Sys2Proof.Machine.execBuileCalWrite frame s
  | .buileReadJournal frame => Sys2Proof.Machine.execBuileReadJournal frame s
  | .buileUpdateStatus frame => Sys2Proof.Machine.execBuileUpdateStatus frame s
  | .sessionIdleTimeout n => Sys2Proof.Machine.execSessionIdleTimeout n s
  | .servicePortSegment frame => Sys2Proof.Machine.execServicePortSegment frame s
  | .updBegin init value => Sys2Proof.Machine.execUpdBegin init value s
  | .updWrite init value => Sys2Proof.Machine.execUpdWrite init value s
  | .updVerify init value => Sys2Proof.Machine.execUpdVerify init value s
  | .updCommit init value => Sys2Proof.Machine.execUpdCommit init value s
  | .updAbort init value => Sys2Proof.Machine.execUpdAbort init value s
  | .updEnd init value => Sys2Proof.Machine.execUpdEnd init value s
  | .updConfirm init p value => Sys2Proof.Machine.execUpdConfirm init p value s
  | .confirmTimeout p => Sys2Proof.Machine.execConfirmTimeout p s
  | .swcCntLoRead init port counter => Sys2Proof.Machine.execSwcCntLoRead init port counter s
  | .debugResetRequest warm => Sys2Proof.Machine.execDebugResetRequest warm s
  | .macAgeOut mac vid => Sys2Proof.Machine.execMacAgeOut mac vid s
  | .downPortMacPurge port => Sys2Proof.Machine.execDownPortMacPurge port s
  | .plcaDupEnd port => Sys2Proof.Machine.execPlcaDupEnd port s
  | .sqiUpdate port sqi => Sys2Proof.Machine.execSqiUpdate port sqi s
  | .scrubPass sram tcmA tcmB => Sys2Proof.Machine.execScrubPass sram tcmA tcmB s
  | .lpddrEccPoll errors => Sys2Proof.Machine.execLpddrEccPoll errors s
  | .partnerEnergyChange port present => Sys2Proof.Machine.execPartnerEnergyChange port present s
  | .xcvrOvertempEnd ch => Sys2Proof.Machine.execXcvrOvertempEnd ch s
  | .txdPathRecessive ch => Sys2Proof.Machine.execTxdPathRecessive ch s
  | .linBusRecessive ch => Sys2Proof.Machine.execLinBusRecessive ch s
  | .debugResume core => Sys2Proof.Machine.execDebugResume core s
  | .selectiveWakeDecoderFrame ch err => Sys2Proof.Machine.execSelectiveWakeDecoderFrame ch err s
  | .liveVerifyDone => Sys2Proof.Machine.execLiveVerifyDone s
  | .liveStage => Sys2Proof.Machine.execLiveStage s
  | .overvoltageRecovery => Sys2Proof.Machine.execOvervoltageRecovery s
  | .railRecovery => Sys2Proof.Machine.execRailRecovery s
  | .refClkAbsent => Sys2Proof.Machine.execRefClkAbsent s
  | .refClkRestored => Sys2Proof.Machine.execRefClkRestored s
  | .clockMonitorFault => Sys2Proof.Machine.execClockMonitorFault s
  | .heartbeatLoss => Sys2Proof.Machine.execHeartbeatLoss s
  | .dieOvertemp => Sys2Proof.Machine.execDieOvertemp s
  | .dieOvertempClear => Sys2Proof.Machine.execDieOvertempClear s
  | .dozeExit => Sys2Proof.Machine.execDozeExit s
  | .sleepTimerExpiry => Sys2Proof.Machine.execSleepTimerExpiry s
  | .latchedWakeStart => Sys2Proof.Machine.execLatchedWakeStart s
  | .warmResetAssert => Sys2Proof.Machine.execWarmResetAssert s
  | .coldResetAssert => Sys2Proof.Machine.execColdResetAssert s
  | .bootRomStart => Sys2Proof.Machine.execBootRomStart s
  | .supervisorReady => Sys2Proof.Machine.execSupervisorReady s
  | .coldStart => Sys2Proof.Machine.execColdStart s
  | .bootProgressTimeout => Sys2Proof.Machine.execBootProgressTimeout s
  | .trussVerifyDone => Sys2Proof.Machine.execTrussVerifyDone s
  | .dutyEpochUpdate => Sys2Proof.Machine.execDutyEpochUpdate s
  | .adcSampleStart => Sys2Proof.Machine.execAdcSampleStart s
  | .learnRequest => Sys2Proof.Machine.execLearnRequest s
  | .macCmdDone => Sys2Proof.Machine.execMacCmdDone s
  | .gwyEthReceive => Sys2Proof.Machine.execGwyEthReceive s
  | .gwyTblDone => Sys2Proof.Machine.execGwyTblDone s
  | .transportError => Sys2Proof.Machine.execTransportError s
  | .overlapWindowEnd => Sys2Proof.Machine.execOverlapWindowEnd s
  | .tcmCopyDone => Sys2Proof.Machine.execTcmCopyDone s
  | .dbgCheckDone => Sys2Proof.Machine.execDbgCheckDone s
  | .identityReady => Sys2Proof.Machine.execIdentityReady s
  | .keyOpUpdate => Sys2Proof.Machine.execKeyOpUpdate s
  | .keyOpMac => Sys2Proof.Machine.execKeyOpMac s
  | .keyOpExportId => Sys2Proof.Machine.execKeyOpExportId s
  | .keyOpBuile => Sys2Proof.Machine.execKeyOpBuile s
  | .nonceExpiry => Sys2Proof.Machine.execNonceExpiry s
  | .openLockoutExpiry => Sys2Proof.Machine.execOpenLockoutExpiry s
  | .segmentTimeout => Sys2Proof.Machine.execSegmentTimeout s
  | .updVerifyDone => Sys2Proof.Machine.execUpdVerifyDone s
  | .commitPoint => Sys2Proof.Machine.execCommitPoint s
  | .handoverPhase2 => Sys2Proof.Machine.execHandoverPhase2 s
  | .handoverPhase3 => Sys2Proof.Machine.execHandoverPhase3 s
  | .boundaryScanExtest => Sys2Proof.Machine.execBoundaryScanExtest s

end Sys2Proof.Machine
end

