-- ==== Sys2Proof/Safety.lean ====
section
/-! DEFINITION. The terms in which claims speak of good states and of what a command does. -/

namespace Sys2Proof.Machine

/-- Memory is in its canonical form, and nothing that a command leaves to its own end is outstanding. -/
def State.Settled (s : State) : Prop := Memory.wf s.mem = true ∧ s.mach.jq = [] ∧ s.mach.todo = []

/-- The machine as a command finds it: no answer has been given yet. -/
def State.now (s : State) : Mach := { s.mach with resp := .none }

/-- The state after a command whose own effect leaves memory `mem` and machine `m`: what ends every command (the
reactions to the faults raised, and the journal) follows. The queue is the one the command found. -/
def State.after (s : State) (mem : Mem) (m : Mach) : State :=
  { s with mem := (finish s.mach (mem, m)).1, mach := (finish s.mach (mem, m)).2 }

/-- The command answers a next state, and its own effect is: memory `mem`, machine `m`. -/
def Makes (c : Instr) (s : State) (mem : Mem) (m : Mach) : Prop := exec c s = .next (s.after mem m)

/-- The command answers a next state, and its own effect has the property. -/
def Does (c : Instr) (s : State) (P : Mem → Mach → Prop) : Prop := ∃ mem m, Makes c s mem m ∧ P mem m

/-- The world of initiator `init` may write the whole register (R5, R416): heartwood and the loader may; sapwood may where
no field is of the heartwood and the chapter of worlds does not keep the register from it. RSTC_MODE_CMD judges for
itself (R89). -/
def Mach.worldMay (m : Mach) (init a : Nat) (d : RegDesc) : Bool :=
  m.isHeart init || init == idLOADER || d.name == .RSTC_MODE_CMD || d.hwMask == 0 && !d.allHw && !worldClosed init a

/-- A register that a write addresses answers (R101, R104, R354), and its owner is the writer's (R62, R148): the write is
neither refused, nor shadowed, nor tagged with a duty. -/
def Mach.answers (m : Mach) (init a v : Nat) (h : Hit) : Bool := !m.goneAt h a true && m.regAdmit init a h v == .accept none

/-- The conditions on the state and the operands under which the spec gives a write of the value `v` to the register at `a`
(with the members `all` of a load window, R134) the register's own effect, whole and at once: the module is out of reset
(R101); the debug port, if it writes, may (R419); the register is in use (R235, R282, R387) and answers to the writer (R62, R101);
the writer's world may write it (R5); it has fields to write, none of them RW/T (R32); every field's value is one it takes (R7). -/
def Mach.mayWrite (m : Mach) (init a v : Nat) (h : Hit) (all : List Nat) : Bool :=
  !m.rst.cReset && !m.dbgBars init a true && !m.inert h a && !m.writeInert h && m.worldMay init a h.d
    && (if all.isEmpty then m.answers init a v h
        else all.all fun n => match findReg (chanReg n (a % 0x100)) with
          | some x => m.answers init (chanReg n (a % 0x100)) v x
          | none => false)
    && h.d.writeMask != 0 && bitsOutside h.d.writeMask (h.d.accMask .rwt) == h.d.writeMask
    && h.d.writeMask &&& m.badMask a h v == 0

/-- A 32-bit write of the value `v` by `init` to the C-die register `n` with indices `idx` at `a`, under the conditions of
`mayWrite`. -/
def Mach.takes (m : Mach) (init a v : Nat) (n : RegName) (idx : List Nat) : Bool :=
  match resolve a 4 with
  | some (.reg h []) =>
    h.d.name == n && h.idx == idx && (h.far a).isNone && n != .GWY_BOUT_A && n != .GWY_BOUT_B && m.mayWrite init a v h []
  | _ => false

/-- A write of the register `n` at `a` on a far die, under the conditions of `mayWrite`, whose link is up with no request
before it on its channel (R343, R344): the write as the far die performs it. -/
def Mach.takesFar (m : Mach) (init a width v : Nat) (n : RegName) : Option Stg :=
  match resolve a width with
  | some (.reg h all) =>
    if h.d.name == n && (h.far a).isSome && (linkOf a).isSome && m.linkIdle a && n != .GWY_BOUT_A && n != .GWY_BOUT_B
        && m.mayWrite init a v h all then
      some { addr := a, mask := h.d.writeMask, val := v, init := init, part := m.partOf init, members := all }
    else none
  | _ => none

/-- A read of the C-die register `n` at `a` by `init` under the conditions of normal execution: the module is out of reset
and the register answers (R101, R104, R354), the debug port may read it (R419), and the reader's world may (R5). -/
def Mach.reads (m : Mach) (init a width : Nat) (n : RegName) : Bool :=
  match resolve a width with
  | some (.reg h []) =>
    h.d.name == n && !m.rst.cReset && !m.dbgBars init a false && !m.readGone (some h) a && (m.isHeart init || !h.d.allHw)
      && (linkOfRead a).isNone
  | _ => false

/-- What ends a command finds nothing to do after the effect `m` of a command that found `old`: no fault and no journal
entry is outstanding, cores and image are as they were, no update is under way and no load channel has a slot. -/
def Quiet (old m : Mach) : Prop :=
  m.todo = [] ∧ m.jq = [] ∧ m.fab = old.fab ∧ m.truss.image = old.truss.image ∧ m.upd.commit = none
    ∧ m.upd.session = none ∧ ∀ x ∈ m.vdev.slots, x.kind ≠ kLOAD

end Sys2Proof.Machine
end

