-- ==== Sys2Proof/WellFormed.lean ====
section
/-! DEFINITION. Commands whose operands can occur: what the manual's sizes and codes allow beyond the types. The machine
gives every term a meaning; claims that need a restriction name this one. -/

namespace Sys2Proof

/-- An access: 1, 2, 4 or 8 bytes at an address of the 40-bit space (R15). -/
def accessOk (addr width : Nat) : Bool := (width == 1 || width == 2 || width == 4 || width == 8) && addr < 2 ^ 40

/-- The address of a far register lies in the ranges of the L-die or the P-die (R11). -/
def farRange (addr : Nat) : Bool := 0x41000000 ≤ addr && addr < 0x43000000

/-- A value that an access of `width` bytes can carry. -/
def fitsWidth (width : Nat) (v : Word) : Bool := v.toNat < 2 ^ (8 * width)

/-- Data bytes of a DLC (ISO 11898-1): at most 8 in a classical frame, up to 64 in an FD frame. -/
def dlcSize (fd : Bool) (dlc : Nat) : Nat :=
  if dlc ≤ 8 then dlc else if fd then [12, 16, 20, 24, 32, 48, 64].getD (dlc - 9) 64 else 8

/-- A frame that can occur on a CAN channel: identifier and field widths, and the data length of its format. -/
def CanFrame.wf (f : CanFrame) : Bool :=
  f.format ≤ 2 && f.id < (if f.ide then 2 ^ 29 else 2 ^ 11) && f.dlc < 16 && f.sdt < 256 && f.vcid < 256 && f.af < 2 ^ 32
    && (f.format == 0 || !f.rtr)
    && (if f.format == 2 then 1 ≤ f.data.length && f.data.length ≤ 2048 && !f.ide
        else f.data.length == if f.rtr then 0 else dlcSize (f.format == 1) f.dlc)

/-- A plumb result names each safe core at most once. -/
def plumbsOk (l : List (Fin 6 × Word)) : Bool := (l.map (·.1)).eraseDups.length == l.length

/-- The command can occur with these operands. -/
def Instr.wf : Instr → Bool
  | .registerWrite _ a w v => accessOk a w && fitsWidth w v
  | .rcRead _ a w => accessOk a w
  | .kerfStart l | .plumbTimer l => plumbsOk l
  | .bistConditionFail reason _ _ _ => reason != 0
  | .senseSample mA => mA.length == 48
  | .budgetEvaluation tj => tj.length == 48
  | .adcSamplesHeld x => x.samples.length == 96
  | .frameIngress _ b _ => 12 ≤ b.length
  | .canFrameReceived _ f _ sof lt => f.wf && sof ≤ lt
  | .canSelectiveWake _ f => match f with | some f => f.wf | none => true
  | .linFrameComplete _ err x => err != 1 && x.data.length ≤ 8
  | .sentMessage _ _ nibs _ => 3 ≤ nibs.length && nibs.length ≤ 8
  | .gatewayLanesDone _ used => used.length == 4
  | .farRead _ a w => accessOk a w && farRange a
  | .farWrite _ a w v => accessOk a w && fitsWidth w v && farRange a
  | .farBurst _ a _ ws => farRange a && ws != []
  | .farInitiatedRequest _ a w _ v => accessOk a w && fitsWidth w v
  | .lockedSequence _ a w _ => accessOk a w
  | .fabricRequest _ a n kind d => 1 ≤ n && a + n ≤ 2 ^ 40 && d.length == if kind == 1 then n else 0
  | .mramWrite _ a d => d != [] && a + d.length ≤ 2 ^ 40
  | .servicePortSegment b => 14 ≤ b.length
  | _ => true

end Sys2Proof
end

