-- ==== Sys2Proof/Certificates/Slice0/Obligations.lean ====
section
/-! DEFINITION. Statements about the machine, for the provers. A statement of the form `Makes c s mem m` says that the
command `c` answers a next state from `s`, and that its own effect leaves memory `mem` and machine `m`; what ends every
command follows (`QuietEnd` says when that is nothing). `s.now` is the machine as the command finds it.
The rule numbers that begin a docstring say where to read; what is claimed is what its sentences say. -/

open Sys2Proof Sys2Proof.Machine

/-! ### Load channels -/

/-- R154, R155, R157, R159: an attempt that settles enters ON, one that waits returns with its demand or goes OFF, and counts
return to 0 where the table says; a failed attempt waits with its count raised; a channel flagged inductive turns off
through DEMAG, which ends at its destination, or in LATCHED, with cause NO_FREEWHEEL unless it was on its way there.
Choices of the model it rests on: log entries 2 and 43. -/
def Obligations.LoadAttempts : Prop := ∀ (s : State) (n : Fin 48), s.now.mainOn = true →
  ((s.now.ch n).ps = .inrush → Makes (.inrushSettle n) s s.mem
    ((s.now.modCh n fun c => { c with ps := .on, retry := 0, window := false, frozen := false }).refresh n)) ∧
  ((s.now.ch n).ps = .retryWait → (s.now.ch n).wants = true → Makes (.tRetryExpiry n) s s.mem
    ((s.now.modCh n fun c => { c with
      ps := .inrush, window := c.window || c.retry == 0, spent := false, turned := true
      frozen := s.now.load.droop.contains (n / 8) && !(s.now.ch n).drooped, openOff := false }).refresh n)) ∧
  ((s.now.ch n).ps = .retryWait → (s.now.ch n).wants = false → Makes (.tRetryExpiry n) s s.mem
    ((s.now.modCh n fun c => { c with
      ps := .off, frozen := false, openOff := false, turned := c.turned || c.ps.conducts }).refresh n)) ∧
  ((s.now.ch n).ps = .off → Makes (.offIdleReset n) s s.mem
    (s.now.modCh n fun c => { c with retry := 0, window := false })) ∧
  ((s.now.ch n).ps.conducts = true → Makes (.restartCountReset n) s s.mem
    (s.now.modCh n fun c => { c with restart := 0 })) ∧
  ((s.now.ch n).frozen = true → Makes (.freezeAllowanceSpent n) s s.mem
    (s.now.modCh n fun c => { c with frozen := false, spent := true })) ∧
  ((s.now.ch n).ps = .inrush → s.now.inductive? n = false → (s.now.ch n).retry ≠ s.now.fld (Rg.LOAD_PROT_CFG n) 11 8 →
    Makes (.tLimExpiry n) s s.mem
      (((s.now.modCh n fun c => { c with
        retry := c.retry + 1, ps := .retryWait, frozen := s.now.freezes n, openOff := false, turned := c.turned || c.ps.conducts }
        ).loadIrq n 1).refresh n)) ∧
  ((s.now.ch n).ps = .on → s.now.inductive? n = true → Makes (.tLimExpiry n) s s.mem
    ((s.now.modCh n fun c => { c with ps := .demag, dest := .latched, destCause := 0x03, frozen := false, turned := true }
      ).refresh n)) ∧
  ((s.now.ch n).ps = .demag → (s.now.ch n).dest ≠ .latched → Makes (.demagEnd n) s s.mem
    ((s.now.modCh n fun c => { c with
      ps := (s.now.ch n).dest, frozen := (s.now.ch n).dest == .retryWait && s.now.freezes n, openOff := false
      turned := c.turned || c.ps.conducts }).follow n)) ∧
  (∀ same : Bool, (s.now.ch n).ps = .demag → (same = true → (s.now.ch n).dest ≠ .supplyOff) → Makes (.noFreewheel ⟨n, same⟩) s s.mem
    ((((s.now.modCh n fun c => { c with
      ps := .latched, frozen := false, openOff := false, turned := c.turned || c.ps.conducts
      cause := if (s.now.ch n).dest = .latched then (s.now.ch n).destCause else 0x05 }).loadIrq n 0).raise 0x110
        (n * 256 + if (s.now.ch n).dest = .latched then (s.now.ch n).destCause else 0x05)).refresh n))

/-- R154, R156, R157, R158, R163: a channel that is not flagged inductive latches at once with the cause of the table, reports
it and raises LOAD_LATCH with its number and cause: a fast trip and an expired limiter in ON, an inrush window of 100 ms (but
for one discarded behind a failed attempt of the same cycle), a last attempt that fails, which still counts; over-temperature
cools the channel and counts, until the count equals restart_limit or thermal_latch is set; cooled, it starts a new inrush
window and keeps its retry count.
Choices of the model it rests on: log entries 2 and 43. -/
def Obligations.LoadLatches : Prop := ∀ (s : State) (n : Fin 48), s.now.mainOn = true → s.now.inductive? n = false →
  let latch (m : Mach) (cause : Nat) : Mach :=
    ((m.modCh n fun c => { c with
      ps := .latched, frozen := false, openOff := false, turned := c.turned || c.ps.conducts, cause := cause }).loadIrq n 0).raise
        0x110 (n * 256 + cause)
  ((s.now.ch n).ps = .on → Makes (.fastTrip n) s s.mem ((latch (s.now.droopStart (n / 8) (some n)) 0x01).refresh n)) ∧
  ((s.now.ch n).ps = .on → Makes (.tLimExpiry n) s s.mem ((latch s.now 0x03).refresh n)) ∧
  (∀ same : Bool, (s.now.ch n).window = true → ((s.now.ch n).ps = .inrush ∨ (s.now.ch n).ps = .retryWait ∧ same = false) →
    Makes (.inrushWindowExpiry ⟨n, same⟩) s s.mem ((latch (s.now.modCh n fun c => { c with window := false }) 0x02).refresh n)) ∧
  ((s.now.ch n).ps = .retryWait → Makes (.inrushWindowExpiry ⟨n, true⟩) s s.mem s.now) ∧
  ((s.now.ch n).ps = .inrush → (s.now.ch n).retry = s.now.fld (Rg.LOAD_PROT_CFG n) 11 8 →
    Makes (.tLimExpiry n) s s.mem
      (((latch (s.now.modCh n fun c => { c with retry := c.retry + 1 }) 0x02).loadIrq n 1).refresh n)) ∧
  ((s.now.ch n).ps = .on → s.now.bit (Rg.LOAD_PROT_CFG n) 2 = false →
    (s.now.ch n).restart ≠ s.now.fld (Rg.LOAD_DERATE_CFG n) 15 8 →
    Makes (.channelOvertemp n) s s.mem
      ((s.now.modCh n fun c => { c with hot := true, restart := c.restart + 1, ps := .cool, frozen := false, openOff := false
                                        turned := c.turned || c.ps.conducts }).refresh n)) ∧
  ((s.now.ch n).ps = .on → s.now.bit (Rg.LOAD_PROT_CFG n) 2 = true →
    Makes (.channelOvertemp n) s s.mem ((latch (s.now.modCh n fun c => { c with hot := true }) 0x04).refresh n)) ∧
  ((s.now.ch n).ps = .cool → (s.now.ch n).wants = false → Makes (.coolEnd n) s s.mem
    ((s.now.modCh n fun c => { c with hot := false, window := true, ps := .off, frozen := false, openOff := false
                                      turned := c.turned || c.ps.conducts }).refresh n))

/-- R138, R142, R149: on and off edges within a period, the end of a hold limit and of a sync pulse.
Choices of the model it rests on: log entries 2 and 43. -/
def Obligations.LoadPatterns : Prop := ∀ (s : State), s.now.mainOn = true →
  (∀ (n : Fin 48), 0 < min (s.now.ch n).out.duty (s.now.ch n).ceilF → min (s.now.ch n).out.duty (s.now.ch n).ceilF < 1000 →
    (s.now.ch n).phF ≠ 0 →
    Makes (.pwmOnEdge n) s s.mem
      (((s.now.modCh n fun c => { c with onCnt := c.onCnt + 1 }).syncEdge n true).follow n)) ∧
  (∀ n : Fin 48, Makes (.pwmOffEdge n) s s.mem
    ((s.now.modCh n fun c => { c with tail := false, onCnt := if c.tail then c.onCnt else c.onCnt - 1 }).follow n)) ∧
  (∀ (n : Fin 48) (d p : Nat), (s.now.ch n).nxt = none → (s.now.ch n).out = .free d p → 0 < min d (s.now.ch n).ceiling →
    min d (s.now.ch n).ceiling < 1000 → Makes (.pwmPeriodStart n) s s.mem
      ((((s.now.modCh n fun c => { c with
        out := .free d p, nxt := none, onCnt := c.onCnt + 1, tail := false, lead := false, phF := 0
        fresh := if c.ceilF == c.ceiling then c.fresh else 0, ceilF := c.ceiling }).syncEdge n false
        ).syncEdge n true).follow n)) ∧
  (∀ n : Fin 48, (s.now.ch n).disp = true → (s.now.ch n).hold = true → (s.now.restOut n = .on → (s.now.ch n).ceilF = 1000) →
    Makes (.holdLimitExpiry n) s s.mem
      (((s.now.modCh n fun c => { c with
        hold := false, out := s.now.restOut n, free := false, tail := false, lead := false
        phF := s.now.phaseOf n (s.now.restOut n), onCnt := 0 }).loadIrq n 4).follow n)) ∧
  (∀ k : Fin 8, Makes (.syncPulseEnd k) s s.mem
    { s.now with load := { s.now.load with sync := s.now.load.sync.filter (· != k.val) } })

/-- R173, R175: shedding starts for a scope that is exhausted and above 110 %; a shed step latches one channel and
counts; the fallback comparator switches off without a latch the channels of its post that were deratable.
Choices of the model it rests on: log entries 36 and 43. -/
def Obligations.LoadSheds : Prop := ∀ (s : State),
  (∀ i : Fin 3, s.now.supRuns = true → (s.now.scope (Mach.shedScope i)).exhausted = true →
    (s.now.scope (Mach.shedScope i)).far = true → Makes (.shedStart i) s s.mem
      ((s.now.setScope (Mach.shedScope i) { s.now.scope (Mach.shedScope i) with shedding := true }).showBudget)) ∧
  (∀ (i : Fin 3) (n : Nat), s.now.supRuns = true → (s.now.scope (Mach.shedScope i)).shedding = true →
    (let cs := (Mach.shedScope i).chans.filter fun n => (s.now.ch n).ps.conducts && !s.now.deratable? n
     (cs.filter fun n => s.now.derateRank n == Mach.leastOf (cs.map s.now.derateRank)).getLast? = some n) →
    Makes (.shedStep i) s s.mem
      ((((s.now.turnOff n .latched 0x06).refresh n).fire Rg.LOAD_BUDGET_IRQ_STATUS 2).bump16 Rg.LOAD_SHED_CNT |>.raise 0x112
        (Mach.shedScope i).code)) ∧
  (∀ p : Fin 2, s.now.mainOn = true → s.now.bit Rg.LOAD_BUDGET_STATUS 0 = true → Makes (.fallbackTrip p) s s.mem
    (s.now.forAll ((List.range 24).map (24 * p.val + ·)) fun m n =>
      if (m.ch n).derKept = true
      then (m.modCh n fun c => { c with fellBack := true }).follow n else m))

/-- R152, R162, R166, R168, R169: open load in the off state is reported and ends; droop of a bank is counted, shown and reported,
and freezes the channels in INRUSH or RETRY_WAIT that have allowance left; its end lets every channel of the bank go on. The
supervisor's sample keeps each channel's last 20 samples, newest first, with 0 for a channel that does not conduct, and its
evaluation forms each mean from them; a stopped supervisor takes neither.
Choices of the model it rests on: log entry 43. -/
def Obligations.LoadDiagnosis : Prop :=
  (∀ (s : State), s.now.mainOn = true →
  (∀ n : Fin 48, s.now.bit (Rg.LOAD_PROT_CFG n) 4 = true → (s.now.ch n).ps = .off → (s.now.ch n).openOff = false →
    Makes (.openLoadOff n) s s.mem
      (((s.now.modCh n fun c => { c with openOff := true }).loadIrq n 2).refresh n)) ∧
  (∀ n : Fin 48, Makes (.openLoadOffEnd n) s s.mem ((s.now.modCh n fun c => { c with openOff := false }).refresh n)) ∧
  (∀ b : Fin 6, b.val ∉ s.now.load.droop → Makes (.bankDroopStart b) s s.mem
    ((((({ s.now with load := { s.now.load with droop := b.val :: s.now.load.droop } } : Mach).bump16
      (Rg.LOAD_BANK_DROOP_CNT b)).fire (Rg.LOAD_BANK_IRQ_STATUS b) 1).setBit (Rg.LOAD_BANK_STATUS b) 1 true).forAll
        ((List.range 8).map (8 * b.val + ·)) fun m n =>
          let m := m.modCh n fun c => { c with drooped := false }
          if ((m.ch n).ps = .inrush ∨ (m.ch n).ps = .retryWait) ∧ m.freezes n = true
          then m.modCh n fun c => { c with frozen := true } else m)) ∧
  (∀ b : Fin 6, b.val ∈ s.now.load.droop → Makes (.bankDroopEnd b) s s.mem
    ((({ s.now with load := { s.now.load with droop := s.now.load.droop.filter (· != b.val) } } : Mach).setBit
      (Rg.LOAD_BANK_STATUS b) 1 false).forAll ((List.range 8).map (8 * b.val + ·)) fun m n =>
        m.modCh n fun c => { c with frozen := false, drooped := false }))) ∧
  (∀ (s : State), s.now.load.ch.length = 48 →
  (∀ mA : List Nat, s.now.supRuns = true → Does (.senseSample mA) s fun mem m => mem = s.mem ∧
    ∀ n : Fin 48, (m.ch n).samples =
      ((if (s.now.ch n).ps.conducts then mA.getD n 0 else 0) :: (s.now.ch n).samples).take 20) ∧
  (∀ tj : List Int, s.now.supRuns = true → Does (.budgetEvaluation tj) s fun mem m => mem = s.mem ∧
    ∀ n : Fin 48, (m.ch n).mean = sumNat ((s.now.ch n).samples.take 20) / 20) ∧
  (∀ mA : List Nat, s.now.supRuns = false → Makes (.senseSample mA) s s.mem s.now) ∧
  (∀ tj : List Int, s.now.supRuns = false → Makes (.budgetEvaluation tj) s s.mem s.now))
/-! ### Control lane and measurement -/

/-- R147, R148, R165, R398: LOAD_FAULT.clear marks the channel to be cleared where its latch may be cleared; it names the
duty's epoch; with the owners and epochs of the control lane the P-die's copies change.
Choices of the model it rests on: log entries 43 and 69. -/
def Obligations.LoadLatchClear : Prop := ∀ (s : State),
  (∀ (init : InitId) (n : Fin 48) (v : BitVec 16) (e : Stg), bitOf v.toNat 15 = true →
    s.now.takesFar init.toNat (Rg.LOAD_FAULT n) 2 v.toNat .LOAD_FAULT = some e → e.members = [n.val] → s.now.lath.bufs = [] →
    Makes (.loadFaultClear init (Rg.LOAD_FAULT n) v) s s.mem ((s.now.faultClear e n).answer .done)) ∧
  (∀ (m : Mach) (e : Stg) (n : Nat), m.cmdBlocked = false → m.chanDuty n = none →
    (m.clearable n = true → m.faultClear e n = m.modCh n fun c => { c with clear := true }) ∧
    (m.clearable n = false → m.faultClear e n = m)) ∧
  (∀ (d : Fin 64) (y : Fin 2) (ep : BitVec 16), s.now.mainOn = true → s.now.bent.lane = [(d.val, y.val, ep.toNat)] →
    Does .dutyEpochUpdate s fun mem m => mem = s.mem ∧ m.bent.lane = [] ∧
      m.fld (Rg.LOAD_DUTY_OWNER (d.val / 16)) (d.val % 16) (d.val % 16) = y.val ∧ m.rd (Rg.LOAD_DUTY_EPOCH d) = ep.toNat)

/-- R178, R179, R181, R182, R184, R186, R187, R188: the sample point starts every ADC; held samples give each input's raw code,
and a channel sense the conducting flag of its own sample: that of the sample point unless the switch has turned since; a
channel that shows its cause from the sample point on gives fault level; the pass filters and judges all 96 inputs and ends the client's work; an ADC without an end of
conversion is reported once. An input without a sample in the tick is not fresh and keeps its value; a fresh sample is
converted by its constants and filtered; a value outside its window for the debounce changes the limit state.
Choices of the model it rests on: log entries 18 and 44. -/
def Obligations.Measurement : Prop :=
  (∀ (s : State), s.now.rst.cReset = false →
  (s.now.load.ch.length = 48 → Does .adcSampleStart s fun mem m => mem = s.mem ∧ m.meas.started = true ∧ m.meas.held = false ∧
    m.meas.smp = [] ∧ ∀ n : Fin 48, m.meas.cond.getD n false = (s.now.ch n).ps.conducts ∧ (m.ch n).turned = false) ∧
  (∀ (x : List (List (BitVec 12))) (f : BitVec 48) (i : Nat) (l : List (BitVec 12)), s.now.meas.started = true → i < 96 →
    s.now.hasSample i = true → x.getD i [] = l → s.now.fld Rg.MEAS_CTRL 2 0 ≤ 4 → 2 ^ s.now.fld Rg.MEAS_CTRL 2 0 ≤ l.length →
    Does (.adcSamplesHeld ⟨x, f⟩) s fun mem m => mem = s.mem ∧ m.meas.held = true ∧ m.meas.started = false ∧
      m.rd (Rg.MEAS_RAW i) = flagNat (decide (i < 48) && s.now.condFlag f i) * 2 ^ 12 +
        rawCode (s.now.fld Rg.MEAS_CTRL 2 0) (s.now.drivenSamples i ((l.take (2 ^ s.now.fld Rg.MEAS_CTRL 2 0)).map (·.toNat)))) ∧
  (∀ ns, s.now.meas.held = true → 1 ∉ s.now.tick.ovr → Makes (.measPassDone ns) s s.mem
    (((({ (s.now.forAll (List.range 96) fun m i => m.measInput i) with meas :=
      { (s.now.forAll (List.range 96) fun m i => m.measInput i).meas with held := false, done := true } } : Mach
      ).setBit Rg.MEAS_STATUS 1 false)).clientDone 1 ns)) ∧
  (∀ k : Fin 8, s.now.meas.started = true → k.val ∉ s.now.meas.timedOut → Makes (.adcTimeout k) s s.mem
    ((({ s.now with meas := { s.now.meas with timedOut := k.val :: s.now.meas.timedOut } } : Mach).setBit Rg.MEAS_STATUS (8 + k) true
      ).fire Rg.MEAS_IRQ_STATUS 0))) ∧
  (∀ (m : Mach) (i : Nat), i < 96 → m.meas.inp.length = 96 →
  (∀ (f : BitVec 48) (v : List Nat), (i < 48 → (m.ch i).turned = false → m.condFlag f i = m.meas.cond.getD i false) ∧
    (i < 48 → i % 6 ≠ 0 → (m.ch i).turned = true → m.condFlag f i = f.getLsbD i) ∧
    (48 ≤ i ∨ m.meas.caused.getD i false = false → m.drivenSamples i v = v) ∧
    (i < 48 → m.meas.caused.getD i false = true → m.shownCause i ≠ 0 → m.drivenSamples i v = v.map (max 0xE00))) ∧
  (m.hasSample i = false ∨ m.meas.smp.find? (·.1 == i) = none → m.measInput i = m.modIn i fun x => { x with fresh := false, fault := false, cond := false }) ∧
  (∀ (c : Nat) (k : Bool), m.hasSample i = true → m.meas.smp.find? (·.1 == i) = some (i, c, true, k) →
    m.measInput i = m.modIn i fun x => { x with fresh := false, fault := true, cond := k }) ∧
  (∀ (c gain : Nat) (off : Int) (k : Bool), m.hasSample i = true → m.meas.smp.find? (·.1 == i) = some (i, c, false, k) →
    m.bit (Rg.MEAS_IN_CFG i) 7 = false → m.fld (Rg.MEAS_IN_CFG i) 6 4 = 0 → m.fld (Rg.MEAS_IN_CFG i) 13 8 = 0 →
    m.fld (Rg.MEAS_IN_CFG i) 15 14 = 0 → m.meas.cal.getD (calIdx i) (0, 16384) = (off, gain) →
    ((m.measInput i).measIn i).y = convert i c off gain ∧ ((m.measInput i).measIn i).fresh = true ∧
    ((m.measInput i).measIn i).valid = true ∧ ((m.measInput i).measIn i).cond = k) ∧
  (∀ x : MIn, ∀ low high : Nat, low ≠ 0 → high ≠ 0xFFFF → low ≤ high →
    (x.y < low → x.lim = 0 → (x.judge low high 1).lim = 1) ∧ (high < x.y → x.lim = 0 → (x.judge low high 1).lim = 2) ∧
    (low ≤ x.y → x.y ≤ high → (x.judge low high 1).lim = 0) ∧
    (x.y < low → x.lim = 0 → x.cand = 1 → x.cnt + 1 < 5 → (x.judge low high 5).lim = 0 ∧ (x.judge low high 5).cnt = x.cnt + 1)))
/-! ### Supplies, modes and resets -/

/-- R82: the class of KL30 by table R82 after every level change up to 40 V, with the hysteresis from 5.5 V falling to
6.0 V rising. The queue of the next state is the one found.
Choices of the model it rests on: log entries 9 and 36. -/
def Obligations.SupplyClasses : Prop := ∀ (s : State) (mv : Nat), mv ≤ 40000 →
  Does (.kl30LevelChange mv) s fun _ m =>
    (mv < 3000 → m.rst.kl30 = .off) ∧
    (3000 ≤ mv → mv < 4500 → m.rst.kl30 = .retain) ∧
    (4500 ≤ mv → mv < 5500 → m.rst.kl30 = .low) ∧
    (5500 ≤ mv → mv < 6000 → s.mach.rst.kl30 ∈ [.off, .retain, .low] → m.rst.kl30 = .low) ∧
    (5500 ≤ mv → mv < 6000 → s.mach.rst.kl30 ∉ [.off, .retain, .low] → m.rst.kl30 = .normal) ∧
    (6000 ≤ mv → mv < 18000 → m.rst.kl30 = .normal) ∧
    (18000 ≤ mv → mv ≤ 28000 → m.rst.kl30 = .high) ∧
    (28000 < mv → m.rst.kl30 = .overvolt)

/-- R82, R83, R84, R85, R87: what the monitors of the supplies, the reference and the die temperature do to NRESET and to
RSTC_SUPPLY_STATUS. The P-die drives NRESET with the cause of the source, and lets go when the source has ended. -/
def Obligations.SupplyMonitors : Prop := ∀ (s : State),
  (s.now.rst.ovp = true → s.now.rst.kl30 ≠ .overvolt → Makes .overvoltageRecovery s s.mem
    (s.now.modRst fun r => { r with ovpEdge := true })) ∧
  (s.now.rst.lowB = false ∨ s.now.rst.lowBEdge = true → s.now.rst.kl30 = .normal → s.now.asleep = false → Makes (.postLow 0) s s.mem
    ((((s.now.modRst fun r => { r with lowA := true, lowAEdge := false }).followAll (List.range 48)).rstIrq 5).showSupply)) ∧
  (Makes (.postRecovery 1) s s.mem (s.now.modRst fun r => { r with lowBEdge := r.lowB }).showSupply) ∧
  (∀ k : Fin 5, s.now.asleep = false → k.val ∉ s.now.rst.railBad → s.now.monitored k = true →
    s.now.rst.regEn = true → Makes (.railOutOfWindow k) s s.mem
      (((s.now.modRst fun r => { r with railBad := k.val :: r.railBad }).drive (.hold 2) 2).showSupply)) ∧
  (∀ k : Fin 5, s.now.monitored k = true ↔ k ≠ 4 ∨ s.now.sill.warmOk = true ∨ s.now.memc.lpddrGib ≠ 0) ∧
  (Makes .railRecovery s s.mem ((((s.now.modRst fun r => { r with railBad := r.railBad.filter fun k => !s.now.monitored k }).letGo (.hold 2)).showSupply).tryStep5)) ∧
  (Makes .refClkAbsent s s.mem ((((s.now.modRst fun r => { r with refAbsent := true }).drive (.hold 3) 3).showSupply).tryStep5)) ∧
  (Makes .refClkRestored s s.mem ((((s.now.modRst fun r => { r with refAbsent := false }).letGo (.hold 3)).showSupply).tryStep5)) ∧
  (Makes .dieOvertemp s s.mem ((s.now.modRst fun r => { r with overtemp := true }).drive (.hold 0xD) 0xD)) ∧
  (Makes .dieOvertempClear s s.mem (((s.now.modRst fun r => { r with overtemp := false }).letGo (.hold 0xD)).tryStep5))

/-- R94, R95, R97, R108: a driver of NRESET on a pin that is high begins a reset and gives its cause; on a low pin it joins,
and the cause stays that of the first. The clock monitor, the heartbeat and the internal requests drive the pin for 100 µs
with causes 3 and 9, the warm request for 10 µs while warm_ok is 1; an external driver gives no cause of its own.
Choices of the model it rests on: log entries 5 and 34. -/
def Obligations.ResetDrivers : Prop := ∀ (s : State), s.now.mainOn = true →
  (∀ (d : Driver) (cause : Nat), s.now.rst.low = false → d ∉ s.now.rst.drivers →
    s.now.drive d cause = s.now.modRst fun r =>
      { r with low := true, cause := some cause, reach := .none, ext := false, drivers := r.drivers ++ [d] }) ∧
  (∀ (d : Driver) (cause : Nat), s.now.rst.low = true → d ∉ s.now.rst.drivers →
    s.now.drive d cause = s.now.modRst fun r => { r with ext := false, drivers := r.drivers ++ [d] }) ∧
  (s.now.rst.cReset = false → Makes .clockMonitorFault s s.mem (s.now.drive (.request 3 100) 3)) ∧
  (s.now.rst.cReset = false → s.now.bit Rg.TICK_CTRL 0 = true → s.now.isStranded = false →
    Makes .heartbeatLoss s s.mem (s.now.drive (.request 9 100) 9)) ∧
  (s.now.rst.cReset = false → s.now.bit Rg.TICK_CTRL 0 = false → s.now.isStranded = false →
    Makes .bootProgressTimeout s s.mem (s.now.drive (.request 9 100) 9)) ∧
  (s.now.rst.low = false → s.now.rst.drivers = [] → Makes (.nresetFall true) s s.mem
    (s.now.modRst fun r => { r with low := true, cause := none, ext := false, reach := .none, drivers := [.ext] })) ∧
  (∀ (cause : Fin 16) (us : Nat), s.now.rst.drivers = [.request cause us] → Makes (.nresetDriveEnd cause) s s.mem
    (s.now.modRst fun r => { r with drivers := [] }))

/-- R95, R96, R102, R104: a low pin of 100 cycles asserts a warm reset while warm_ok is 1, one of 3,000 cycles a cold one.
Both hold C-die and L-die, and memory keeps what the reach keeps: all but TCM and the SRAM banks that RSTC_RETAIN does not
name with warm reach, all but SRAM, TCM and LPDDR5 with cold reach. A warm reset leaves warm_ok, a cold one clears it.
Choices of the model it rests on: log entries 11 and 34. -/
def Obligations.ResetsAssert : Prop := ∀ (s : State), s.now.rst.low = true →
  (s.now.rst.reach = .none → s.now.sill.warmOk = true → Does .warmResetAssert s fun _ m =>
    m.rst.reach = .warm ∧ m.rst.cReset = true ∧ m.rst.lReset = true ∧ m.sill.warmOk = true) ∧
  (s.now.rst.reach = .none ∨ s.now.rst.reach = .warm → Does .coldResetAssert s fun mem m =>
    m.rst.reach = .cold ∧ m.rst.cReset = true ∧ m.rst.lReset = true ∧ m.sill.warmOk = false ∧
    mem = s.mem.filter fun c => !Mach.memLost 0 true c.1) ∧
  (s.now.rst.kl30 = .normal → s.now.asleep = false → s.now.rst.drivers = [.ext] →
    ∀ cycles us : Nat, cycles < 100 → s.now.rst.reach = .none → Makes (.nresetRise cycles us) s s.mem
      (s.now.modRst fun r => { r with drivers := [], low := false, cause := none, ext := false })) ∧
  (s.now.rst.kl30 = .normal → s.now.asleep = false → s.now.rst.drivers = [] → s.now.rst.reach = .cold →
    ∀ cycles us : Nat, 3000 ≤ cycles → Does (.nresetRise cycles us) s fun _ m =>
      m.rst.cReset = false ∧ m.rst.low = false ∧ m.rst.step = 5 ∧ m.rst.warmStart = false)

/-- R105, R112, R122, R123, R352: the boot ROM applies the BIST map at step 7; a link of TRAINING comes up, CP releases the
L-die; a restarted supervisor runs again and link CP trains.
Choices of the model it rests on: log entries 37 and 41. -/
def Obligations.StartSteps : Prop := ∀ (s : State),
  (s.now.rst.cReset = false → s.now.rst.step = 5 → s.now.rst.warmStart = false → Does .bootRomStart s fun mem m =>
    mem = s.mem ∧ m.rst.step = 7 ∧ m.rst.bistHeld = s.mach.sill.map.failed) ∧
  (s.now.rst.cReset = false → s.now.rst.lReset = false → s.now.linkState 1 = 2 → Makes (.linkTrained 1) s s.mem (s.now.setLink 1 3)) ∧
  (s.now.rst.reach = .powerOn → s.now.rst.step = 0 → s.now.rst.kl30 = .normal → s.now.asleep = false → s.now.rst.low = true →
    s.now.rst.dead = false → s.now.sill.fails < 3 → bootCritical s.now.sill.map.failed = [] →
    s.now.rst.railBad = [] → s.now.rst.refAbsent = false → s.now.rst.overtemp = false → s.now.rst.bist = none →
    s.now.rst.shut = .none → s.now.rst.drivers = [.sill] → Does .coldStart s fun mem m =>
      mem = s.mem ∧ m.rst.step = 4 ∧ m.rst.regEn = true ∧ m.rst.drivers = [] ∧ m.rst.pmode = .run) ∧
  (s.now.mainOn = true → s.now.rst.supRestart = true → s.now.dieHeld .p = false → s.now.rst.cReset = true →
    Makes .supervisorReady s s.mem ((s.now.modRst fun r => { r with supRestart := false }).loadSupervisorUp)) ∧
  (s.now.rst.cReset = false → s.now.isStranded = false → s.now.memc.lpddrGib ≠ 0 → s.now.rst.warmStart = false →
    s.now.rst.step = 12 → (s.now.initialEnds.modSill fun x => { x with warmOk := true }).cannotStart = false →
    Does (.lpddrTrainingDone true) s fun mem m => mem = s.mem ∧ m.sill.warmOk = true ∧ m.rst.step = 13)

/-- R56, R65, R76, R112, R114, R123, R124, R469: after the checks of R56 every start reports the held partitions and checks the
calibration block; an image that fails leads to Stranded with TRUSS_REJECTED, a held partition
with a fatal record to Stranded with STRANDED_BIST; an image and a bank that pass take the start to step 12, or to step 13
where no LPDDR5 is declared.
Choices of the model it rests on: log entries 31, 37 and 38. -/
def Obligations.ImageChecks : Prop :=
  (∀ s : State, s.now.rst.cReset = false → s.now.rst.lReset = false → (if s.now.rst.warmStart then s.now.rst.step = 2 else s.now.rst.step = 7 ∨ s.now.rst.step = 8) → s.now.isStranded = false →
    let bank := (readHdr s.mem).bank % 2
    let m := (s.now.setFld Rg.TRUSS_STATUS 4 4 bank).wr Rg.UPD_SVC_CFG ((readHdr s.mem).etype <<< 16 ||| (readHdr s.mem).port)
    let r := Mach.verified s.mem m (m.verify (slotBytes s.mem bank) none) bank
    Makes .trussVerifyDone s r.1 r.2) ∧
  (∀ (mem : Mem) (m : Mach) (v : Verdict) (bank : Nat),
  (v.img = none → Mach.verified mem m v bank = (mem,
    ((Mach.checkCal mem ((((m.showVerdict v false).raiseHeld fun _ => false).journal 0x21 v.code v.detail bank).journal 0x12
      v.code v.detail bank)).raiseFuse).strandStart 1 0xF0)) ∧
  (∀ i : Image, v.img = some i →
    let h := (m.showVerdict v false).raiseHeld ((m.showVerdict v false).fatalHeld i)
    (∀ p : Nat, h.fatalPart i = some p →
      Mach.verified mem m v bank = (mem, ((Mach.checkCal mem (h.journal 0x11 p)).raiseFuse).strandStart 2 0xF1)) ∧
    (h.fatalPart i = none →
      let d := h.detailed (Mach.bankVerify mem h bank)
      Mach.verified mem m v bank = if d.2.code = 0 then Mach.startImage mem d.1 i bank d.2 else
        (mem, ((Mach.checkCal mem (d.1.journal 0x12 d.2.code d.2.detail bank)).raiseFuse).strandStart 4 0xF0))) ∧
  (∀ (i : Image) (bv : BankVerdict), (readHdr mem).stranded = false → m.rst.bistHeld = [] → m.rst.warmStart = false →
    (Mach.startImage mem m i bank bv).2.rst.step = 12 ∨ (Mach.startImage mem m i bank bv).2.rst.step = 13))

/-- R118, R120, R121, R125: logic BIST. A command drives NRESET and sets every result NOT_RUN; a complete run records PASS
and FAIL, a stopped one the partitions before the stop with its reason; after a shutdown the module sleeps.
Choices of the model it rests on: log entries 39 and 40. -/
def Obligations.LogicBist : Prop := ∀ (s : State),
  (∀ (init : InitId), s.now.takes init.toNat Rg.BIST_CMD 0x3C5A0001 .BIST_CMD [] = true → s.now.rst.bist = none →
    Does (.bistCmdRun init 0x3C5A0001) s fun mem m => mem = s.mem ∧ m.rst.bist = some (.command, List.range 38) ∧
      m.sill.map.res = List.replicate 38 0 ∧ m.sill.map.seq = (s.mach.sill.map.seq + 1) % 65536 ∧ m.resp = .done) ∧
  (∀ (fail : BitVec 38) (ms : BitVec 8) (c : Nat), s.now.rst.bist = some (.shutdown, List.range 38) → s.now.rst.shut = .noReturn c →
    Does (.logicBistComplete fail ms) s fun mem m =>
      mem = (s.mem.filter fun c => !Mach.memLost 0 true c.1) ∧ m.rst.pmode = (if c = 3 then .sleep else .dormant) ∧
      m.sill.map.res = ((List.range 38).map fun p => if bitOf fail.toNat p then 2 else 1) ∧ m.sill.map.stop = 0 ∧
      m.sill.map.dur = ms.toNat) ∧
  (∀ (reason : Fin 5) (at' : Fin 38) (fail : BitVec 38) (ms : BitVec 8) (c : Nat), reason.val ≠ 0 → reason.val ≠ 4 →
    s.now.rst.bist = some (.shutdown, List.range 38) → s.now.rst.shut = .noReturn c →
    Does (.bistConditionFail reason at' fail ms) s fun mem m =>
      mem = (s.mem.filter fun c => !Mach.memLost 0 true c.1) ∧ m.sill.map.stop = reason ∧ m.sill.map.res = (List.range 38).map fun p =>
        if p < at'.val then (if bitOf fail.toNat p then 2 else 1) else s.mach.sill.map.res.getD p 0)

/-- R88 to R93: a mode command written by heartwood is held for the next edge with its force bit, and so is RUN or DOZE without
force written by sapwood; an interrupt that stands for an application core ends Doze at once. In Sleep
and Dormant an enabled wake is latched and starts a power-on with cause WAKE, and the edge of the other polarity does not; LIN and the sleep timer wake from Sleep only; a
wake latched during the shutdown starts the module at its end.
Choices of the model it rests on: log entry 41. -/
def Obligations.ModesAndWakes : Prop :=
  (∀ (s : State) (init : InitId) (f : Bool),
  let held (cmd : Nat) : Mach := (s.now.answer .done).modRst fun r => { r with modeCmd := some (cmd, f) }
  let ok (cmd : Nat) : Prop := s.now.takes init.toNat Rg.RSTC_MODE_CMD (cmd + 256 * flagNat f) .RSTC_MODE_CMD [] = true ∧
    (s.now.isHeart init.toNat = true ∨ cmd ≤ 2 ∧ f = false)
  (ok 1 → Makes (.modeCmdRun init f) s s.mem (held 1)) ∧
  (ok 2 → Makes (.modeCmdDoze init f) s s.mem (held 2)) ∧
  (ok 3 → Makes (.modeCmdSleep init f) s s.mem (held 3)) ∧
  (ok 4 → Makes (.modeCmdDormant init f) s s.mem (held 4)) ∧
  (∀ n : Fin 1024, s.now.rst.cReset = false → s.now.fld Rg.RSTC_MODE 1 0 = 1 → s.now.irqTarget n < 4 → s.now.irqTaken n = true →
    Makes .dozeExit s s.mem (((s.now.modRst fun r => { r with gated := [], dozeWait := [] }).setMode 0).showDoze))) ∧
  (∀ (s : State), s.now.rst.shut = .none → s.now.rst.kl30 = .normal →
  let woken (a : Nat) : Mach := (s.now.modSill fun x => { x with wakeA := x.wakeA ||| a, wakeB := x.wakeB ||| 0, latched := true }
    ).modRst fun r => { r with pmode := .off, low := true, reach := .powerOn, cause := some 0xE, drivers := [.sill],
                               ext := false, cReset := true, lReset := true, step := 0, warmStart := false, ovp := false, ovpEdge := false }
  (∀ (r f : BitVec 16) (i : Fin 16), s.now.asleep = true → s.now.sill.wakeEn = 2 ^ i.val → bitOf s.now.sill.wakePol i = false →
    bitOf r.toNat i = true → s.now.pinOff (8 + i) 39 = false → Does (.wakePinEvent r f) s fun mem m =>
      mem = s.mem ∧ m.rst = (woken (2 ^ i.val)).rst ∧ m.sill = (woken (2 ^ i.val)).sill) ∧
  (∀ (r f : BitVec 16) (i : Fin 16), s.now.asleep = true → s.now.sill.wakeEn = 2 ^ i.val → bitOf s.now.sill.wakePol i = true →
    bitOf f.toNat i = false → Does (.wakePinEvent r f) s fun mem m => mem = s.mem ∧ m.rst = s.now.rst ∧ m.sill = s.now.sill) ∧
  (∀ c : Fin 12, s.now.rst.pmode = .sleep → s.now.sill.wakeEn = 2 ^ (16 + c.val) →
    Makes (.linSleepWake (BitVec.ofNat 12 (2 ^ c.val))) s s.mem (woken (2 ^ (16 + c.val)))) ∧
  (s.now.rst.pmode = .sleep → s.now.sill.wakeEn = 2 ^ 28 → Makes .sleepTimerExpiry s s.mem (woken (2 ^ 28))) ∧
  (s.now.rst.pmode = .dormant → Makes .sleepTimerExpiry s s.mem s.now) ∧
  (s.now.asleep = true → s.now.sill.latched = true → Makes .latchedWakeStart s s.mem
    (s.now.modRst fun r => { r with pmode := .off, low := true, reach := .powerOn, cause := some 0xE, drivers := [.sill],
                                    ext := false, cReset := true, lReset := true, step := 0, warmStart := false, ovp := false, ovpEdge := false })))

/-- R97, R99, R100, R110: a heartwood write of a reset register that changes one bit, and of a watchdog's kick, as the
register's rule says; an expired watchdog reacts as configured. An element reset holds the element until it is released, and
shows its own bit, unit and index; in coded mode the two contexts of a safe core go together.
Choices of the model it rests on: log entries 5, 35 and 40. -/
def Obligations.ResetWrites : Prop :=
  (∀ (s : State) (init : InitId),
  let now : Mach := s.now.answer .done
  (s.now.takes init.toNat Rg.RSTC_SW_RST 0xA5C30001 .RSTC_SW_RST [] = true →
    Makes (.swResetWarm init 0xA5C3) s s.mem (now.request 6 true)) ∧
  (s.now.takes init.toNat Rg.RSTC_SW_RST 0xA5C30002 .RSTC_SW_RST [] = true →
    Makes (.swResetCold init 0xA5C3) s s.mem (now.request 7 false)) ∧
  (s.now.rd Rg.RSTC_DIE_RST = 0 → s.now.dieHeld .l = false → s.now.takes init.toNat Rg.RSTC_DIE_RST 1 .RSTC_DIE_RST [] = true →
    Makes (.dieResetAssert init .l) s s.mem ((now.setBit Rg.RSTC_DIE_RST 0 true).dieAssert .l)) ∧
  (s.now.rd Rg.RSTC_DIE_RST = 2 → s.now.takes init.toNat Rg.RSTC_DIE_RST 0 .RSTC_DIE_RST [] = true →
    Makes (.dieResetRelease init .p) s s.mem ((now.setBit Rg.RSTC_DIE_RST 1 false).dieRelease .p)) ∧
  (∀ u : Fin 24, unitResettable u = true → s.now.rd Rg.RSTC_UNIT_RST = 0 → s.now.unitHeld u = false →
    s.now.takes init.toNat Rg.RSTC_UNIT_RST (2 ^ u.val) .RSTC_UNIT_RST [] = true →
    Makes (.unitResetAssert init u) s s.mem ((now.setBit Rg.RSTC_UNIT_RST u true).unitAssert u)) ∧
  (∀ u : Fin 24, unitResettable u = true → s.now.rd Rg.RSTC_UNIT_RST = 2 ^ u.val →
    s.now.takes init.toNat Rg.RSTC_UNIT_RST 0 .RSTC_UNIT_RST [] = true →
    let r := Mach.unitRelease s.mem (now.setBit Rg.RSTC_UNIT_RST u false) u
    Makes (.unitResetRelease init u) s r.1 r.2) ∧
  (∀ g : Fin 28, s.now.rd Rg.RSTC_GROUP_RST = 0 → s.now.takes init.toNat Rg.RSTC_GROUP_RST (2 ^ g.val) .RSTC_GROUP_RST [] = true →
    Makes (.groupResetAssert init g) s s.mem (now.groupBit g true)) ∧
  (∀ g : Fin 28, s.now.rd Rg.RSTC_GROUP_RST = 2 ^ g.val → s.now.takes init.toNat Rg.RSTC_GROUP_RST 0 .RSTC_GROUP_RST [] = true →
    Makes (.groupResetRelease init g) s s.mem (now.groupBit g false)) ∧
  (∀ (n : Fin 16) (v : Word), bitOf v.toNat 0 = true →
    s.now.takes init.toNat (Rg.RSTC_WDT_KICK n) v.toNat .RSTC_WDT_KICK [n.val] = true →
    Makes (.watchdogKick init n v) s s.mem ({ now with rst := { now.rst with wdt := kdel now.rst.wdt n } })) ∧
  (∀ n : Fin 16, s.now.rst.cReset = false → s.now.fld (Rg.RSTC_WDT_CFG n) 15 0 ≠ 0 →
    s.now.fld (Rg.RSTC_WDT_CFG n) 15 0 ≤ kgetD s.now.rst.wdt n 0 → s.now.fld (Rg.RSTC_WDT_CFG n) 17 16 = 3 →
    Makes (.watchdogExpiry n) s s.mem
      (({ s.now with rst := { s.now.rst with wdt := kdel s.now.rst.wdt n } } : Mach).raise 0x107 n))) ∧
  (∀ (s : State) (init : InitId) (u : Fin 32) (i : BitVec 16),
  i.toNat < elemCount u →
  let on := 2 ^ 31 + u.val * 2 ^ 24 + i.toNat
  let off := u.val * 2 ^ 24 + i.toNat
  (s.now.fab.coded = false ∨ u.val ≠ uBENT → s.now.elemSet u i.toNat = [(u.val, i.toNat)]) ∧
  (s.now.fab.coded = true → u.val = uBENT →
    s.now.elemSet u i.toNat = [(u.val, i.toNat), (u.val, if i.toNat % 2 = 0 then i.toNat + 1 else i.toNat - 1)]) ∧
  (s.now.elemHeld u i.toNat = false → (u.val, i.toNat) ∉ s.now.rst.elems →
    s.now.takes init.toNat Rg.RSTC_ELEM_RST on .RSTC_ELEM_RST [] = true →
    Makes (.elementResetAssert init u i) s s.mem
      (((((s.now.answer .done).wr Rg.RSTC_ELEM_RST on).modRst fun r => { r with elems := r.elems ++ s.now.elemSet u i.toNat }
        ).elemAssert u i.toNat).followResets)) ∧
  ((u.val, i.toNat) ∈ s.now.rst.elems →
    s.now.takes init.toNat Rg.RSTC_ELEM_RST off .RSTC_ELEM_RST [] = true →
    Makes (.elementResetRelease init u i) s s.mem
      (((((s.now.answer .done).wr Rg.RSTC_ELEM_RST off).modRst fun r =>
        { r with elems := r.elems.filter fun e => !(s.now.elemSet u i.toNat).contains e }).elemRelease u i.toNat).followResets)))

/-- R96: warm_ok is set when the loader has trained LPDDR5, and cleared at the assertion of every cold reset and with the main
power, so that every power-on finds it 0; a warm-class pulse without it is a cold reset, with it a warm one. -/
def Obligations.WarmOkFlag : Prop := ∀ (s : State),
  (s.now.rst.cReset = false → s.now.isStranded = false → s.now.memc.lpddrGib ≠ 0 → s.now.rst.warmStart = false →
    s.now.rst.step = 12 → Does (.lpddrTrainingDone true) s fun _ m => m.sill.warmOk = true) ∧
  (s.now.rst.low = true → s.now.rst.reach = .none → s.now.sill.warmOk = false →
    Does .warmResetAssert s fun _ m => m.rst.reach = .cold ∧ m.sill.warmOk = false) ∧
  (s.now.rst.low = true → s.now.rst.reach = .none → s.now.sill.warmOk = true →
    Does .warmResetAssert s fun _ m => m.rst.reach = .warm ∧ m.sill.warmOk = true) ∧
  (s.now.rst.low = true → s.now.rst.reach = .none ∨ s.now.rst.reach = .warm →
    Does .coldResetAssert s fun _ m => m.rst.reach = .cold ∧ m.sill.warmOk = false) ∧
  (∀ (mem : Mem) (m : Mach) (sill : Bool), (Mach.powerOff mem m sill).2.sill.warmOk = false) ∧
  (∀ mv, mv < 4500 → s.now.rst.kl30 = .normal → s.now.asleep = false → Does (.kl30LevelChange mv) s fun _ m => m.sill.warmOk = false)

/-- R124: after the checks of R56, a held partition whose BISTPART record has fatal = 1 sends the module to Stranded, with a
STRANDED_BIST entry (code 0x11) whose arg0 is the partition; a held partition without a record does not. Boot-critical
failures are apart (R125). -/
def Obligations.FatalPartitions : Prop :=
  (∀ s : State, s.now.rst.cReset = false → s.now.rst.lReset = false → (if s.now.rst.warmStart then s.now.rst.step = 2 else s.now.rst.step = 7 ∨ s.now.rst.step = 8) → s.now.isStranded = false →
    let bank := (readHdr s.mem).bank % 2
    let m := (s.now.setFld Rg.TRUSS_STATUS 4 4 bank).wr Rg.UPD_SVC_CFG ((readHdr s.mem).etype <<< 16 ||| (readHdr s.mem).port)
    let r := Mach.verified s.mem m (m.verify (slotBytes s.mem bank) none) bank
    Makes .trussVerifyDone s r.1 r.2) ∧
  (∀ (mem : Mem) (m : Mach) (v : Verdict) (bank : Nat) (i : Image) (p : Nat), v.img = some i →
    let h := (m.showVerdict v false).raiseHeld ((m.showVerdict v false).fatalHeld i)
    h.fatalPart i = some p →
    let t := (Mach.checkCal mem (h.journal 0x11 p)).raiseFuse
    Mach.verified mem m v bank = (mem, t.strandStart 2 0xF1) ∧ (t.strandStart 2 0xF1).isStranded = true ∧
      (h.journal 0x11 p).jq = h.jq ++ [⟨0x11, p, 0, 0⟩]) ∧
  (∀ (m : Mach) (i : Image) (p : Nat), m.fatalPart i = some p →
    p ∈ m.rst.bistHeld ∧ ∃ r, i.recBy sSAFETY 2 (·.u8 4) p = some r ∧ r.u8 5 = 1) ∧
  (∀ (m : Mach) (i : Image) (p : Nat) (r : Rec), p ∈ m.rst.bistHeld → p ∉ bootCritical m.rst.bistHeld →
    i.recBy sSAFETY 2 (·.u8 4) p = some r → r.u8 5 = 1 → m.fatalPart i ≠ none)
/-! ### Register access, the tick, the truss image -/

/-- R3, R4, R6, R101: a register access while C-die is in reset answers GONE and changes nothing; one that no register
answers to is a bus error; a read of an RC field returns its value and clears it; of the bits of a write, RW fields
take the value and W1C bits clear where it is 1, and every other register keeps its value.
Choices of the model it rests on: log entries 15, 17, 18 and 20. -/
def Obligations.RegisterAccess : Prop := ∀ (s : State) (init : InitId),
  (∀ (a w : Nat) (v : Word), s.now.rst.cReset = true → Makes (.registerWrite init a w v) s s.mem (s.now.answer .gone) ∧
    Makes (.rcRead init a w) s s.mem (s.now.answer .gone)) ∧
  (∀ (a w : Nat) (v : Word), s.now.rst.cReset = false → resolve a w = none →
    Makes (.registerWrite init a w v) s s.mem (s.now.answer .busError) ∧ Makes (.rcRead init a w) s s.mem (s.now.answer .busError)) ∧
  (∀ v : Word, s.now.takes init.toNat Rg.TICK_IRQ_EN v.toNat .TICK_IRQ_EN [] = true →
    Does (.registerWrite init Rg.TICK_IRQ_EN 4 v) s fun mem m => mem = s.mem ∧ m.resp = .done ∧
      m.fld Rg.TICK_IRQ_EN 7 0 = v.toNat % 256 ∧ ∀ a, a ≠ Rg.TICK_IRQ_EN → m.rd a = s.now.rd a) ∧
  (∀ v : Word, s.now.takes init.toNat Rg.TICK_IRQ_STATUS v.toNat .TICK_IRQ_STATUS [] = true →
    Does (.registerWrite init Rg.TICK_IRQ_STATUS 4 v) s fun mem m => mem = s.mem ∧ m.resp = .done ∧
      (∀ i, i < 8 → m.bit Rg.TICK_IRQ_STATUS i = (s.now.bit Rg.TICK_IRQ_STATUS i && !bitOf v.toNat i)) ∧
      ∀ a, a ≠ Rg.TICK_IRQ_STATUS → m.rd a = s.now.rd a) ∧
  (s.now.reads init.toNat Rg.TICK_LATE_CNT 4 .TICK_LATE_CNT = true → s.now.readClears init.toNat = true →
    Does (.rcRead init Rg.TICK_LATE_CNT 4) s fun mem m => mem = s.mem ∧ m.resp = .value (s.now.rd Rg.TICK_LATE_CNT) ∧
      m.rd Rg.TICK_LATE_CNT = 0 ∧ ∀ a, a ≠ Rg.TICK_LATE_CNT → m.rd a = s.now.rd a)

/-- R34, R101: a far die applies its shadow registers at the strobe, but for those whose block has been reset since; its acknowledgement ends the wait; a die whose
acknowledgement has not come keeps what it applied last, and the fault is counted and raised as code 0x105.
Choices of the model it rests on: log entries 2 and 19. -/
def Obligations.FarCommits : Prop := ∀ (s : State), s.now.rst.cReset = false →
  (∀ es, s.now.stage.shadowL = some es → Makes (.farCommitApply .l) s s.mem
    (((({ s.now with stage := { s.now.stage with shadowL := none } } : Mach).goneDrop (stgCount (es.filter (·.gone)))).forAll
      (es.filter (!·.gone)) fun m e => m.wr e.addr (mergeBits (m.rd e.addr) e.val e.mask)).roleCommit s.now)) ∧
  (∀ es, s.now.stage.shadowP = some es → Makes (.farCommitApply .p) s s.mem
    (let m := ({ s.now with stage := { s.now.stage with shadowP := none } } : Mach).goneDrop (stgCount (es.filter (·.gone)))
     m.commitP (es.filter (!·.gone)) (m.fld Rg.TICK_PERIOD 13 0) m.tickCount)) ∧
  (s.now.stage.ackWait = [1] → s.now.stage.shadowL = none → Makes (.commitAck .l) s s.mem
    { s.now with stage := { s.now.stage with ackWait := [] } }) ∧
  (s.now.stage.ackWait = [2] → s.now.stage.shadowP = none → Makes (.commitAck .p) s s.mem
    (({ s.now with stage := { s.now.stage with ackWait := [] }, meas := { s.now.meas with wakeAck := s.now.meas.wakeNow } } : Mach
      ).gwyAck).sendHeldLane) ∧
  (s.now.stage.ackWait = [1] → Makes (.commitFault .l) s s.mem
    (((({ s.now with stage := { s.now.stage with ackWait := [], shadowL := none } } : Mach).bump Rg.TICK_COMMIT_FAULT_CNT).fire
      Rg.TICK_IRQ_STATUS 6).raise 0x105 1))

/-- R21, R24, R25, R28: an edge is given to the running tick only, once local time has reached its place: the length of the tick,
in cycles of 1.25 ns, after the last edge. It closes what the old tick left, commits the C-die and sends the strobes,
exchanges the input buffers, aligns the grid, and starts the tick with the next number, which wraps at 64 bits, in this order;
the alignment shows the error in ns and the time of the edge, leaves the kerf, and sets the length of the tick that starts:
the period while aligned, else shorter or longer by the error, at most by 1 %.
Choices of the model it rests on: log entries 2 and 28. -/
def Obligations.TickEdges : Prop := ∀ (s : State) (lt : Nat),
  (s.now.bit Rg.TICK_CTRL 0 = false ∨ lt < (4 * s.now.tick.edgeLt + s.now.tick.edgeFr + 5 * s.now.tick.len) / 4 →
    Makes (.tickEdge lt) s s.mem s.now) ∧
  (let t := (4 * s.now.tick.edgeLt + s.now.tick.edgeFr + 5 * s.now.tick.len) / 4
   s.now.rst.cReset = false → s.now.bit Rg.TICK_CTRL 0 = true → t ≤ lt →
    let n := (s.now.tickCount + 1) % 2 ^ 64
    let a := Mach.overdue s.mem (s.now.advance t)
    let b := Mach.endTick a.1 a.2 t
    let c := Mach.commitC b.1 b.2
    let q := (c.2.strobe .l).strobe .p
    let d := (((q.divergence q.updSkip).captureInputs.gwyCommit).alignEdge t).fire Rg.TICK_IRQ_STATUS 0
    let e := ((d.modSill fun x => if s.now.tick.started = false then { x with fails := 0 } else x).startTick n).plannedSwitch
    let f := Mach.resyncEdge c.1 e
    let g := Mach.liveCommit f.1 f.2.plumbEdge.lathEdge
    Makes (.tickEdge lt) s g.1 ((((g.2.updEdge n).modeEdge t).gatedDone.supplyEdge.wdtCount).refreshAll)) ∧
  (∀ m : Mach, (m.alignEdge lt).rd Rg.TICK_ALIGN_ERR = unsignedOf 32 m.alignError ∧
    (m.alignEdge lt).rd64 Rg.TICK_EDGE_TIME_LO Rg.TICK_EDGE_TIME_HI = clockNs m.clk.wt % 2 ^ 64 ∧
    (m.alignEdge lt).bit Rg.TICK_STATUS 0 = decide (m.alignError.natAbs ≤ m.fld Rg.TICK_LOCK 15 0) ∧
    (m.alignEdge lt).inKerf = false ∧ (m.alignEdge lt).tick.edgeLt = lt ∧
    (let us := m.fld Rg.TICK_PERIOD 13 0
     (m.alignError.natAbs ≤ m.fld Rg.TICK_LOCK 15 0 → (m.alignEdge lt).tick.len = 800 * us) ∧
     (m.fld Rg.TICK_LOCK 15 0 < m.alignError.natAbs → 0 < m.alignError →
       (m.alignEdge lt).tick.len = 800 * us - min (m.alignError.natAbs * 4 / 5) (8 * us)) ∧
     (m.fld Rg.TICK_LOCK 15 0 < m.alignError.natAbs → m.alignError < 0 →
       (m.alignEdge lt).tick.len = 800 * us + min (m.alignError.natAbs * 4 / 5) (8 * us))))

/-- R28, R37, R38, R40, R112, R127: the loader starts the tick once; a kerf sets in_kerf and puts every checked client that is due
and not done in overrun; a client in overrun is counted, and its consecutive count goes up while the limit is not reached; a
client done in time has its time recorded; the pulse of a client's block reset, of a die or of an element ends.
Choices of the model it rests on: log entries 2 and 29. -/
def Obligations.TickClients : Prop := ∀ (s : State), s.now.rst.cReset = false →
  (∀ lt, s.now.isStranded = false → s.now.bit Rg.TICK_CTRL 0 = false → s.now.rst.warmStart = false → s.now.rst.step = 13 →
    Does (.tickRunStart lt) s fun mem m => mem = s.mem ∧ m.bit Rg.TICK_CTRL 0 = true ∧ m.rst.step = 14 ∧
      m.tick.edgeLt = m.clk.lt ∧ (s.now.clk.lt ≤ lt → m.clk.lt = lt)) ∧
  (∀ l, s.now.bit Rg.TICK_CTRL 0 = true → s.now.inKerf = false → s.now.tick.started = true →
    let r := Mach.updKerf s.mem ((((s.now.setBit Rg.TICK_STATUS 2 true).fire Rg.TICK_IRQ_STATUS 1).overruns).plumbKerf l)
    Makes (.kerfStart l) s r.1 r.2) ∧
  (∀ c : Fin 32, c.val ∈ s.now.tick.due → s.now.tick.done = [] → s.now.tick.ovr = [] → c.val ≠ 1 → c.val ≠ 2 →
    c.val ≠ 3 → s.now.fld (Rg.TICK_CLIENT_CFG c) 23 16 = 0 → s.now.fld (Rg.TICK_CLIENT_USED c) 31 24 < 255 →
    s.now.fld (Rg.TICK_CLIENT_BUDGET c) 23 0 ≠ 0 → s.now.bit (Rg.TICK_CLIENT_CFG c) 0 = true → s.now.clientHeld c = false →
    Does (.clientBudgetPoint c) s fun mem m => mem = s.mem ∧ m.tick.ovr = [c.val] ∧ m.bit Rg.TICK_OVR_MAP c = true ∧
      m.bit Rg.TICK_IRQ_STATUS 2 = true ∧ m.rd (Rg.TICK_CLIENT_OVR_CNT c) = satInc 32 (s.now.rd (Rg.TICK_CLIENT_OVR_CNT c)) ∧
      m.rd (Rg.TICK_CLIENT_USED c) = (s.now.fld (Rg.TICK_CLIENT_USED c) 31 24 + 1) * 2 ^ 24 + s.now.fld (Rg.TICK_CLIENT_BUDGET c) 23 0 ∧
      m.tick.drop = (if 16 ≤ c.val then (c.val - 16) :: s.now.tick.drop else s.now.tick.drop)) ∧
  (∀ c : Fin 6, c.val ≠ 5 → s.now.tick.pulses = [c.val] →
    let r := Mach.unitRelease s.mem (({ s.now with tick := { s.now.tick with pulses := [] } } : Mach).modRst fun r =>
      { r with pulsed := r.pulsed.filter (· != (1, Mach.clientUnit c, 0)) }) (Mach.clientUnit c)
    Makes (.blockResetPulseEnd (.client c)) s r.1 r.2) ∧
  (s.now.rst.pulsed = [(0, 1, 0)] → Makes (.blockResetPulseEnd (.die .l)) s s.mem
    ((s.now.modRst fun r => { r with pulsed := [] }).dieRelease .l)) ∧
  (∀ (u : Fin 24) (i : BitVec 16), s.now.rst.pulsed = [(2, u.val, i.toNat)] → Makes (.blockResetPulseEnd (.element u i)) s s.mem
    (((s.now.modRst fun r => { r with pulsed := [] }).elemRelease u i.toNat).followResets)) ∧
  (∀ (init : InitId) (v : Word) (ns p : Nat), s.now.takes init.toNat Rg.TICK_DONE v.toNat .TICK_DONE [] = true →
    bitOf v.toNat 0 = true → s.now.partOf init.toNat = some p → (16 + p) ∈ s.now.tick.due → s.now.tick.done = [] →
    s.now.tick.ovr = [] → Makes (.tickDone init v ns) s s.mem
      (({ s.now.answer .done with tick := { s.now.tick with done := [16 + p] } } : Mach).wr (Rg.TICK_CLIENT_USED (16 + p)) (ns % 2 ^ 24))) ∧
  (∀ (init : InitId) (v : Word) (ns p : Nat), s.now.takes init.toNat Rg.TICK_DONE v.toNat .TICK_DONE [] = true →
    s.now.partOf init.toNat = some p → (16 + p) ∉ s.now.tick.due → Makes (.tickDone init v ns) s s.mem (s.now.answer .done))

/-- R56, R66, R68, R70: a live application is taken when none is under way, else refused with an interrupt; its checks lead
to the wait for its tick or to its end with TRUSS_REJECTED; in the kerf of its tick every value is staged.
Choices of the model it rests on: log entry 30. -/
def Obligations.LiveApplications : Prop := ∀ (s : State),
  (∀ (init : InitId) (v : Word), s.now.takes init.toNat Rg.TRUSS_LIVE_CMD v.toNat .TRUSS_LIVE_CMD [] = true → bitOf v.toNat 0 = true →
    (s.now.truss.live = none → Makes (.trussLiveStart init v) s s.mem
      (({ s.now.answer .done with truss := { s.now.truss with live := some ({ slot := bitsOf v.toNat 1 1, delay := bitsOf v.toNat 31 16, copy := slotBytes s.mem (bitsOf v.toNat 1 1) } : LiveJob) } } : Mach).setFld Rg.TRUSS_STATUS 2 0 1)) ∧
    (s.now.truss.live ≠ none → Makes (.trussLiveStart init v) s s.mem ((s.now.answer .done).fire Rg.TRUSS_IRQ_STATUS 7))) ∧
  (∀ j : LiveJob, s.now.rst.cReset = false → s.now.truss.live = some j → j.img = none → s.now.fld Rg.TRUSS_STATUS 2 0 = 1 →
    Makes .liveVerifyDone s s.mem (s.now.liveChecked j (s.now.verify j.copy s.now.truss.image))) ∧
  (∀ (j : LiveJob) (v : Verdict),
    let m := s.now.showVerdict v true
    (∀ i, v.img = some i → s.now.liveChecked j v =
      ({ m with truss := { m.truss with live := some { j with img := some i, copy := [], edges := 0, tried := m.inKerf } } } : Mach).setFld Rg.TRUSS_STATUS 2 0 2) ∧
    (v.img = none → s.now.liveChecked j v =
      ((({ m with truss := { m.truss with live := none } } : Mach).setFld Rg.TRUSS_STATUS 2 0 0).journal 0x21 v.code v.detail j.slot).fire
        Rg.TRUSS_IRQ_STATUS 1)) ∧
  (∀ (j : LiveJob) (run i : Image), s.now.rst.cReset = false → s.now.truss.live = some j → s.now.truss.image = some run →
    j.img = some i → j.staged = false → j.tried = false → j.delay ≤ j.edges → s.now.inKerf = true →
    (∀ m, s.now.liveWriteAll i (liveSections run i) = some m → Makes .liveStage s s.mem
      (({ m with truss := { m.truss with live := some { j with staged := true, tried := true } } } : Mach).setFld Rg.TRUSS_STATUS 2 0 3)) ∧
    (s.now.liveWriteAll i (liveSections run i) = none → j.deferrals < 16 → Makes .liveStage s s.mem
      { s.now with truss := { s.now.truss with live := some { j with deferrals := j.deferrals + 1, tried := true } } }) ∧
    (s.now.liveWriteAll i (liveSections run i) = none → 16 ≤ j.deferrals → Makes .liveStage s s.mem
      (((({ s.now with truss := { s.now.truss with live := none } } : Mach).setFld Rg.TRUSS_STATUS 2 0 0).journal 0x23 1 i.serial j.slot).fire
        Rg.TRUSS_IRQ_STATUS 2)))

/-- R58, R71, R72, R73, R499: an ownership query shows the owner of the resource or its error bit; a verified write of the
rest pattern fills the copy not in use under the next number, a first failure is tried again, a second one gives up with
journal code 0x33 and fault 0x100.
Choices of the model it rests on: log entries 32 and 33. -/
def Obligations.OwnersAndRest : Prop := ∀ (s : State),
  (∀ (init : InitId) (v : Word), s.now.takes init.toNat Rg.TRUSS_OWNER_QUERY v.toNat .TRUSS_OWNER_QUERY [] = true →
    let m := (s.now.answer .done).wr Rg.TRUSS_OWNER_QUERY v.toNat
    Makes (.trussOwnerQuery init v) s s.mem
      (m.wr Rg.TRUSS_OWNER_RESULT ((m.ownerQuery (v.toNat / 2 ^ 24) (v.toNat % 2 ^ 24)).getD 0x10000))) ∧
  (∀ p, s.now.mainOn = true → s.now.truss.latch.handoff = some p → s.now.truss.latch.copy0.good = true →
    s.now.truss.latch.copy1.good = false →
    let l := s.now.truss.latch
    let seq := (l.copy0.seq + 1) % 2 ^ 32
    Makes (.restPatternWrite true) s s.mem ((({ s.now with truss := { s.now.truss with latch :=
      { l with handoff := none, tries := 0, copy1 := ⟨seq, true, p⟩ } } } : Mach).showLatch).showStore) ∧
    (l.tries = 0 → Makes (.restPatternWrite false) s s.mem (({ s.now with truss := { s.now.truss with latch :=
      { l with tries := 1, copy1 := ⟨seq, false, p⟩ } } } : Mach).showStore)) ∧
    (l.tries ≠ 0 → Makes (.restPatternWrite false) s s.mem ((((({ s.now with truss := { s.now.truss with latch :=
      { l with handoff := none, tries := 0, copy1 := ⟨seq, false, p⟩ } } } : Mach).fire Rg.TRUSS_IRQ_STATUS 4).journal 0x33 1 seq).raise
        0x100 1).showStore)))

/-- R3: an access whose width is not that of the register at its address, one at an address at which no register starts, and
one of a P-die register that is not 16 bits wide at an even address, complete with a bus error and have no effect. -/
def Obligations.AccessWidths : Prop := ∀ (s : State) (init : InitId) (a w : Nat) (v : Word), s.now.rst.cReset = false →
  let fails : Prop :=
    Makes (.registerWrite init a w v) s s.mem (s.now.answer .busError) ∧ Makes (.rcRead init a w) s s.mem (s.now.answer .busError)
  (∀ h, a < 0x42000000 → findReg a = some h → w ≠ h.d.width → fails) ∧
  (a < 0x42000000 → findReg a = none → fails) ∧
  (0x42000000 ≤ a → a < 0x42010000 → w ≠ 2 ∨ a % 2 ≠ 0 → fails)
/-! ### Switch -/

/-- R194, R195, R196, R197, R201: a frame on a port that is up is counted; one whose VLAN does not hold the port is dropped
with counter 8; one to a reserved address is trapped to the management port; any other untagged one is forwarded in the
port's VLAN and class; an oversize tagged one is dropped with counter 7 only. A port that is down, that flushes or, half
duplex, that sends takes nothing.
Choices of the model it rests on: log entries 14 and 45. -/
def Obligations.FramesEnter : Prop := ∀ (s : State) (p : Fin 22) (b : List Byte) (t : Nat), s.now.rst.cReset = false →
  let m := s.now.advance t
  let n := b.length + 4
  let up : Prop := m.isDown p = false ∧ m.portEnabled p = true ∧ m.unitHeld uSWC = false ∧ m.bit (Rg.SWC_PORT_STATUS p) 2 = false
    ∧ (portType p = 3 → m.txOf p = none)
  let h := ethHdr b
  let cfg := m.rd (Rg.SWC_PORT_CFG p)
  let vid := bitsOf cfg 31 20
  let learn := if bitOf cfg 1 then some (h.src, vid) else none
  let taken := (m.count p 0).count p 1 n
  (m.isDown p = true ∨ m.portEnabled p = false ∨ m.bit (Rg.SWC_PORT_STATUS p) 2 = true ∨ portType p = 3 ∧ m.txOf p ≠ none →
    Makes (.frameIngress p b t) s s.mem m) ∧
  (up → 2048 < n → h.tci = none → h.etype = 0x88B5 → p.val < 16 → Makes (.frameIngress p b t) s s.mem ((taken.count p 7).noteRx p [] none)) ∧
  (up → 64 ≤ n → n ≤ 2048 → h.tci = none → h.etype ≠ 0x88B5 → bitsOf cfg 8 7 = 0 →
    (bitOf (taken.fld (Rg.SWC_VLAN_MEMBER vid) 21 0) p = false →
      Makes (.frameIngress p b t) s s.mem ((taken.count p 8).noteRx p [] none)) ∧
    (bitOf (taken.fld (Rg.SWC_VLAN_MEMBER vid) 21 0) p = true → isGptp b = false → reservedDst h.dst = true →
      let c := taken.count p 9
      let f : Frame := { id := 0, inp := p, cls := bitsOf cfg 11 9, vid := some vid, bytes := b, len := n, cells := Mach.cellsOf n, refs := [c.fld Rg.SWC_CTRL 20 16], tsRx := c.rxStamp p t }
      let r := c.storeMgmt f t
      Makes (.frameIngress p b t) s s.mem (r.1.noteRx p r.2 learn)) ∧
    (bitOf (taken.fld (Rg.SWC_VLAN_MEMBER vid) 21 0) p = true → isGptp b = false → reservedDst h.dst = false →
      Makes (.frameIngress p b t) s s.mem (taken.forwardIngress p b h vid (bitsOf cfg 11 9) false learn none t)))

/-- R197, R198, R205: a frame received well is complete and asks to learn its source; engine 0 learns an unknown source;
a table command posts what it finds, and adds, replaces or deletes the entry; a dynamic entry that has aged and the
dynamic entries of a down port go; static entries stay.
Choices of the model it rests on: log entry 45. -/
def Obligations.MacTable : Prop := ∀ (s : State), s.now.rst.cReset = false → s.now.engineOff 0 = false →
  (∀ (p : Fin 22) (sym c u lt mac vid i : Nat) (how : RxEnd) (more : Bool), let m := (s.now.advance lt).lineErrors p sym c u
    m.swc.rx = [⟨p, [i], some (mac, vid)⟩] → (∀ f ∈ m.swc.frames, f.cutAt = none ∧ f.bad = false) →
    (how = .good → m.swc.learn.length < 256 → m.engineOff 0 = false →
      Makes (.frameReceiveEnd p how sym c u ⟨lt, more⟩) s s.mem (((m.modSwc fun x =>
        let fs := x.frames.map fun f : Frame => if [i].contains f.id then { f with done := true } else f
        { x with rx := [], learn := x.learn ++ [(mac, vid, p.val)], frames := fs }).showBuffer).heardFrame p more)) ∧
    (how ≠ .good → m.swc.frames = [] → Makes (.frameReceiveEnd p how sym c u ⟨lt, more⟩) s s.mem ((m.modSwc fun x => { x with rx := [] }).showBuffer.heardFrame p more))) ∧
  (∀ (mac vid p : Nat) (rest : List (Nat × Nat × Nat)), s.now.swc.learn = (mac, vid, p) :: rest →
    let m := s.now.modSwc fun x => { x with learn := rest }
    (s.now.macFind mac vid = none → s.now.swc.macs.length < 8192 →
      Makes .learnRequest s s.mem (m.setMacs (s.now.swc.macs ++ [⟨mac, vid, 2 ^ p, false, s.now.clk.lt⟩]))) ∧
    (∀ e, s.now.macFind mac vid = some e → e.static = true → Makes .learnRequest s s.mem m) ∧
    (s.now.macFind mac vid = none → 8192 ≤ s.now.swc.macs.length → Makes .learnRequest s s.mem m.learnDrop)) ∧
  (∀ (mac : BitVec 48) (vid : BitVec 12) (lt : Nat), let m := s.now.advance lt
    let age := m.fld Rg.SWC_CTRL 15 0
    m.engineOff 0 = false → Makes (.macAgeOut ⟨mac, lt⟩ vid) s s.mem (m.setMacs (m.swc.macs.filter fun e => !(e.mac == mac.toNat && e.vid == vid.toNat
      && !e.static && age != 0 && decide (e.fresh + age * 1000000000 ≤ m.clk.lt))))) ∧
  (∀ (init : InitId) (v : Word), s.now.takes init.toNat Rg.SWC_MAC_CMD v.toNat .SWC_MAC_CMD [] = true → s.now.bit Rg.SWC_MAC_RESULT 31 = true →
    let c : MacCmd := ⟨bitsOf v.toNat 1 0, s.now.rd Rg.SWC_MAC_ADDR_LO + 2 ^ 32 * s.now.fld Rg.SWC_MAC_ADDR_HI 15 0,
      s.now.fld Rg.SWC_MAC_ADDR_HI 27 16, bitsOf v.toNat 29 8⟩
    let m := ((s.now.answer .done).modSwc fun x => { x with cmd := some c }).wr Rg.SWC_MAC_RESULT 0
    (bitsOf v.toNat 1 0 = 1 → Makes (.macLookup init v) s s.mem m) ∧ (bitsOf v.toNat 1 0 = 2 → Makes (.macAdd init v) s s.mem m) ∧
    (bitsOf v.toNat 1 0 = 3 → Makes (.macDelete init v) s s.mem m)) ∧
  (∀ c : MacCmd, s.now.swc.cmd = some c →
    let others := s.now.swc.macs.filter fun e => !(e.mac == c.mac && e.vid == c.vid)
    let ended (l : List MacEnt) (r : Nat) : Mach :=
      (((s.now.modSwc fun x => { x with cmd := none }).setMacs l).wr Rg.SWC_MAC_RESULT (2 ^ 31 ||| 0 ||| r)).fire Rg.SWC_IRQ_STATUS 4
    (c.op = 2 → s.now.macFind c.mac c.vid = none → s.now.swc.macs.length < 8192 →
      Makes .macCmdDone s s.mem (ended (others ++ [⟨c.mac, c.vid, c.mask, true, 0⟩]) 0)) ∧
    (∀ e, c.op = 1 → s.now.macFind c.mac c.vid = some e →
      Makes .macCmdDone s s.mem (ended s.now.swc.macs (2 ^ 30 ||| flagNat e.static <<< 29 ||| e.mask))) ∧
    (∀ e, c.op = 3 → s.now.macFind c.mac c.vid = some e →
      Makes .macCmdDone s s.mem (ended others (2 ^ 30 ||| flagNat e.static <<< 29 ||| e.mask)))) ∧
  (∀ p : Fin 22, p.val ∈ s.now.swc.purge → Makes (.downPortMacPurge p) s s.mem
    ((s.now.modSwc fun x => { x with purge := x.purge.filter (· != p.val) }).setMacs
      (s.now.swc.macs.filter fun e => e.static || !bitOf e.mask p)))

/-- R199, R203, R207, R209, R211, R214: an idle port whose medium is free starts the frame that its classes, shapers and
gates select; the last byte of a complete copy counts it, puts its FCS on the line and returns its cells; a port that goes down drops every copy
for it and flushes; the gates go on to their next entry, and a silent elimination context forgets its history.
Choices of the model it rests on: log entry 45. -/
def Obligations.FramesLeave : Prop := ∀ (s : State), s.now.rst.cReset = false →
  (∀ (p : Fin 22) (t : Nat) (f : Frame) (out : List Byte), let m0 := s.now.advance t
    let m1 := (m0.dropCut t).shapersRun p t
    let m := (m1.gateDrops p m0.swc.frames.length).showBuffer
    let g := m.modSwc fun x => { x with rr := kput x.rr (Mach.pcKey p f.cls) f.inp }
    m0.isDown p = false → m0.portEnabled p = true → m0.txOf p = none → s.now.mediumFree p = true → m0.unitHeld uSWC = false →
    m.selectFrame p t = some f → f.tsId = none → p.val < 18 → g.startCopy f p (g.txStamp p t) = (g, some out) →
    Makes (.frameTransmitStart p t) s s.mem (g.modSwc fun x => { x with tx := ⟨p, f.id, out, f.cls, [], t⟩ :: x.tx })) ∧
  (∀ (p : Fin 22) (lt : Nat) (x : TxCur) (f : Frame), s.now.plcaOk p = false → portType p ≠ 3 → let m := s.now.advance lt
    s.now.txOf p = some x → m.txOf p = some x → x.rings = [] → m.frameOf x.id = some f → f.done = true → f.ct = false → f.bad = false →
    m.swc.tx = [x] → m.plcaOn p = false →
    let r := ((m.shapersRun p lt).count p 2).count p 3 (x.out.length + 4)
    Makes (.frameTransmitEnd p 0 lt) s s.mem ((((r.modSwc fun y => { y with sent := kput y.sent p (x.out ++ leBytes 4 (Config.crc32 x.out).toNat) }).dropTx p).release f.id p).showBuffer)) ∧
  (∀ p : Fin 22, s.now.isDown p = false → s.now.portEnabled p = false → Makes (.portDown p) s s.mem (s.now.goDown p)) ∧
  (∀ p : Fin 22, s.now.bit (Rg.SWC_PORT_STATUS p) 2 = true → s.now.bit (Rg.SWC_PORT_STATUS p) 0 = false →
    Makes (.flushComplete p) s s.mem ((s.now.setBit (Rg.SWC_PORT_STATUS p) 2 false).fire Rg.SWC_IRQ_STATUS 1)) ∧
  (∀ (p : Fin 22) (lt : Nat), let m := s.now.advance lt
    (m.gateOf p).running = true → (m.gateOf p).cur + 1 < (m.gateOf p).list.length →
    (m.gateOf p).start + sumNat (((m.gateOf p).list.take ((m.gateOf p).cur + 1)).map (·.2)) ≤ m.wtNs + 1 →
    Makes (.gateEntryStart p lt) s s.mem ((m.shapersRun p m.clk.lt).modGate p fun g => { g with cur := g.cur + 1 })) ∧
  (∀ f : Fin 256, s.now.fld (Rg.SWC_FRER_RESET f) 15 0 ≤ (kgetD s.now.swc.frer f {}).idle →
    Makes (.frerHistoryReset f) s s.mem (s.now.modSwc fun x => { x with frer := kdel x.frer f }))

/-! ### Ethernet ports -/

/-- R207, R222, R223, R224, R225, R226, R232, R233: the state machine of a port: link up from TRAINING, link loss with its count
and its fault, a training timeout, a diagnostic and its result, the signal quality and the partner's energy; the
PLCA node that hears a BEACON, misses it or lets its opportunity pass; the partner's USXGMII word.
Choices of the model it rests on: log entry 46. -/
def Obligations.PortLinks : Prop := ∀ (s : State), s.now.rst.cReset = false → ∀ p : Fin 22,
  (p.val < 12 → s.now.portState p = 2 → (s.now.port p).usxLinkDown = false → Makes (.portLinkUp p) s s.mem (s.now.enterPort p 3)) ∧
  (p.val < 12 → s.now.portState p = 3 → Makes (.portLinkLoss p) s s.mem
    (((s.now.modPort p fun x => { x with linkLost := true }).bump (Rg.EPORT_LINK_DOWN_CNT p)).enterPort p 2)) ∧
  (∀ q : Fin 18, q.val < 12 → s.now.portState q = 2 → Makes (.trainingTimeout q) s s.mem
    (((s.now.modPort q fun x => { x with trainTimeout := true }).bump (Rg.EPORT_TRAIN_FAIL_CNT q)).showPort q)) ∧
  (∀ (init : InitId) (v : Word) (e : Stg), s.now.takesFar init.toNat (Rg.EPORT_DIAG_CMD p) 4 v.toNat .EPORT_DIAG_CMD = some e →
    e.mask = 0x7F01 → s.now.lath.bufs = [] → bitOf v.toNat 0 = true →
    p.val < 12 → s.now.portState p = 0 ∨ s.now.portState p = 2 ∨ s.now.portState p = 3 →
    (bitsOf v.toNat 14 8 = 0 →
      Makes (.diagStart init p v) s s.mem (((s.now.modPort p fun x => { x with vf := 68 }).enterPort p 4).answer .done)) ∧
    (90 < bitsOf v.toNat 14 8 →
      Makes (.diagStart init p v) s s.mem ((s.now.fire (Rg.EPORT_IRQ_STATUS p) 7).answer .done))) ∧
  (∀ e : BitVec 16, s.now.portState p = 4 → s.now.portEnabled p = false →
    (Makes (.diagComplete p 2 e) s s.mem (((s.now.wr (Rg.EPORT_DIAG_RESULT p) (e.toNat <<< 16 ||| 2 <<< 13 |||
      min 511 (Mach.distDm (s.now.port p).vf e.toNat))).fire (Rg.EPORT_IRQ_STATUS p) 2).enterPort p 0)) ∧
    (Makes (.diagComplete p 1 e) s s.mem (((s.now.wr (Rg.EPORT_DIAG_RESULT p) (1 <<< 13)).fire (Rg.EPORT_IRQ_STATUS p) 2).enterPort p 0))) ∧
  (∀ q : Fin 8, p.val < 12 → s.now.portState p = 3 → Makes (.sqiUpdate p q) s s.mem ((s.now.modPort p fun x => { x with sqi := q }).showPort p)) ∧
  (∀ on, Makes (.partnerEnergyChange p on) s s.mem ((s.now.modPort p fun x => { x with energy := on }).showPort p)) ∧
  (∀ (up : Bool) (rate : Fin 6) (rem : Bool), portType p = 4 → s.now.portRole p = 1 → Makes (.usxAnWord p up rate rem) s s.mem
    ((s.now.modPort p fun x => { x with usxLinkDown := !up, remoteFault := rem, usxRate := rate }).showPort p)) ∧
  (s.now.plcaOn p = true →
    (s.now.plcaNode p = 0 → Makes (.plcaBeacon p) s s.mem ((s.now.modPort p fun x => { x with plcaDup := true }).showPort p)) ∧
    (s.now.plcaNode p ≠ 0 → Makes (.plcaBeacon p) s s.mem ((s.now.modPort p fun x =>
      { x with plcaFail := false, opp := 0, burst := 0, plca := s.now.rd (Rg.EPORT_PLCA p) }).showPort p)) ∧
    (s.now.plcaNode p ≠ 0 → Makes (.plcaBeaconTimeout p) s s.mem ((s.now.modPort p fun x => { x with plcaFail := true }).showPort p)) ∧
    (s.now.plcaNode p ≠ 0 → (s.now.port p).plcaFail = false → s.now.txOf p = none → s.now.receiving p = false → Makes (.plcaOpportunityTimeout p) s s.mem
      (s.now.modPort p fun x => { x with opp := x.opp + 1, burst := 0 })) ∧
    (s.now.plcaNode p = 0 → s.now.txOf p = none → s.now.receiving p = false → Makes (.plcaOpportunityTimeout p) s s.mem (s.now.modPort p fun x =>
      if bitsOf x.plca 15 8 ≤ x.opp + 1 then { x with opp := 0, burst := 0, plca := s.now.rd (Rg.EPORT_PLCA p), plcaFail := false }
      else { x with opp := x.opp + 1, burst := 0 })) ∧
    (Makes (.plcaDupEnd p) s s.mem ((s.now.modPort p fun x => { x with plcaDup := false }).showPort p)) ∧
    (s.now.plcaNode p ≠ 0 → (s.now.port p).plcaFail = true → s.now.mediumFree p = !s.now.receiving p) ∧
    ((s.now.port p).plcaFail = false → s.now.mediumFree p = (!s.now.receiving p && (s.now.port p).opp == s.now.plcaNode p)))

/-- R217, R228, R229: a tail write lets a stopped ring go on, and the engine take the descriptors from head on; a received frame is offered to
each ring of its port that still waits for it; a ring without a free descriptor drops it after its time; a read of the
low word of a counter holds the high word.
Choices of the model it rests on: log entry 46. -/
def Obligations.RingsAndCounters : Prop := ∀ (s : State),
  (∀ (init : InitId) (r : Fin 8) (v : Word) (lt : Nat), (s.now.advance lt).takes init.toNat (Rg.EPORT_RX_TAIL 18 r) v.toNat .EPORT_RX_TAIL [18, r.val] = true →
    Does (.ringTailWrite init 18 r false v lt) s fun mem m => mem = s.mem ∧ m.resp = .done ∧ m.ringStopped 18 r false = false ∧
      m.fld (Rg.EPORT_RX_TAIL 18 r) 12 0 = v.toNat % 8192 ∧ ∀ a, a ≠ Rg.EPORT_RX_TAIL 18 r → m.rd a = (s.now.advance lt).rd a) ∧
  (∀ (init : InitId) (r : Fin 8) (v : Word) (lt : Nat), (s.now.advance lt).takes init.toNat (Rg.EPORT_TX_TAIL 18 r) v.toNat .EPORT_TX_TAIL [18, r.val] = true →
    ∃ f : Mach → Mach, (∀ x, (f x).fld (Rg.EPORT_TX_TAIL 18 r) 12 0 = v.toNat % 8192 ∧ (f x).ringStopped 18 r true = false ∧
        ∀ a, a ≠ Rg.EPORT_TX_TAIL 18 r → (f x).rd a = x.rd a) ∧
      let r' := txKick s.mem ((s.now.advance lt).answer .done) 18 r f
      Makes (.ringTailWrite init 18 r true v lt) s r'.1 r'.2) ∧
  (∀ (p : Fin 22) (x : TxCur), s.now.rst.cReset = false → s.now.txOf p = some x → x.rings = [] → Makes (.rxRingDeliver p) s s.mem s.now) ∧
  (∀ (x : TxCur) (r : Fin 8), s.now.rst.cReset = false → s.now.swc.tx = [x] → x.port = 18 → x.rings = [r.val] →
    s.now.ringServed 18 r = true →
    (∀ mem m, rxRing s.mem s.now 18 r x.out = (mem, m, true) → Makes (.rxRingDeliver 18) s mem
      (m.modSwc fun y => { y with tx := y.tx.map fun z : TxCur => if z.port == 18 then { z with rings := z.rings.filter (· != r.val) } else z })) ∧
    (∀ mem m, rxRing s.mem s.now 18 r x.out = (mem, m, false) → Makes (.rxRingDeliver 18) s mem m) ∧
    Makes (.rxNobufTimeout 18 r) s s.mem
      (((s.now.modSwc fun y => { y with tx := [{ x with rings := [] }] }).bump (Rg.EPORT_RX_NOBUF_CNT 18)).ringEvent 18 r 4 2)) ∧
  (∀ (init : InitId) (p : Fin 22) (k : Fin 32), s.now.reads init.toNat (Rg.SWC_CNT_LO p k) 4 .SWC_CNT_LO = true →
    s.now.isHeart init.toNat = true →
    Makes (.swcCntLoRead init p k) s s.mem (((s.now.modSwc fun x => { x with
      held := kput x.held (Rg.SWC_CNT_HI p k) (s.now.rd (Rg.SWC_CNT_HI p k)) }).answer (.value (s.now.rd (Rg.SWC_CNT_LO p k))))))

/-! ### Network time -/

/-- R236, R237, R238, R247, R248, R249: every command first lets the clocks run to its local time: LT reads that time, a
domain clock runs at 1 plus its rate, working time follows LT while its source is LOCAL. A snapshot takes all clocks at
one instant; a step moves a domain clock only; the servo writes move a slot between its states, and so do the two timeouts once their time has run;
working time joins its source where a join is asked for.
Choices of the model it rests on: log entries 4 and 47. -/
def Obligations.NetworkTime : Prop := ∀ (s : State) (lt : Nat), s.now.clk.lt ≤ lt →
  let m := s.now.advance lt
  (m.clk.lt = lt ∧ m.clk.dt0 = s.now.clk.dt0 + ((lt - s.now.clk.lt : Nat) : Int) * (oneNs + s.now.domRate 0) ∧
    m.clk.dt1 = s.now.clk.dt1 + ((lt - s.now.clk.lt : Nat) : Int) * (oneNs + s.now.domRate 1) ∧
    (s.now.wtSource = 0 → m.clk.wt = s.now.clk.wt + ((lt - s.now.clk.lt : Nat) : Int) * oneNs)) ∧
  (∀ (init : InitId) (v : Word), m.takes init.toNat Rg.PTP_SNAP_CMD v.toNat .PTP_SNAP_CMD [] = true → bitOf v.toNat 0 = true →
    Makes (.ptpSnapshot init v lt) s s.mem
      (((((m.answer .done).wr64 Rg.PTP_SNAP_LT_LO Rg.PTP_SNAP_LT_HI lt).wr64 Rg.PTP_SNAP_WT_LO Rg.PTP_SNAP_WT_HI (clockNs m.clk.wt)).wr64
        Rg.PTP_SNAP_DT0_LO Rg.PTP_SNAP_DT0_HI (clockNs m.clk.dt0)).wr64 Rg.PTP_SNAP_DT1_LO Rg.PTP_SNAP_DT1_HI (clockNs m.clk.dt1))) ∧
  (∀ (init : InitId) (v : Word), m.takes init.toNat (Rg.PTP_DOM_STEP_HI 0) v.toNat .PTP_DOM_STEP_HI [0] = true →
    let d : Int := signedOf 64 (m.rd (Rg.PTP_DOM_STEP_LO 0) + 2 ^ 32 * v.toNat)
    Does (.domainStep init 0 v lt) s fun mem m' => mem = s.mem ∧ m'.clk = { m.clk with dt0 := m.clk.dt0 + d * oneNs }) ∧
  (∀ (init : InitId) (k : Fin 2),
    (m.takes init.toNat (Rg.PTP_DOM_SERVO k) 0 .PTP_DOM_SERVO [k.val] = true → m.slotState k ≠ 0 →
      Makes (.servoUnlock init k lt) s s.mem ((m.answer .done).setSlot k 1)) ∧
    (m.takes init.toNat (Rg.PTP_DOM_SERVO k) 1 .PTP_DOM_SERVO [k.val] = true → m.slotState k ≠ 0 →
      Makes (.servoLock init k lt) s s.mem
        (((m.answer .done).modClk fun c => if k.val = 0 then { c with sync0 := c.lt } else { c with sync1 := c.lt }).setSlot k 2)) ∧
    (m.takes init.toNat (Rg.PTP_DOM_SERVO k) 2 .PTP_DOM_SERVO [k.val] = true → 2 ≤ m.slotState k →
      Makes (.servoHold init k lt) s s.mem ((m.answer .done).setSlot k 3)) ∧
    (m.takes init.toNat (Rg.PTP_DOM_SERVO k) 2 .PTP_DOM_SERVO [k.val] = true → m.slotState k = 1 →
      Makes (.servoHold init k lt) s s.mem (m.answer .done))) ∧
  (∀ k : Fin 2, s.now.rst.cReset = false → m.slotState k = 2 → let due := (if k.val = 0 then m.clk.sync0 else m.clk.sync1) + m.fld Rg.PTP_CTRL 15 0 * 1000000
    (due ≤ m.clk.lt → Makes (.syncTimeout k lt) s s.mem (m.setSlot k 3)) ∧ (m.clk.lt < due → Makes (.syncTimeout k lt) s s.mem m)) ∧
  (∀ k : Fin 2, s.now.rst.cReset = false → m.slotState k = 3 → let due := (if k.val = 0 then m.clk.hold0 else m.clk.hold1) + m.fld Rg.PTP_CTRL2 15 0 * 1000000000
    (due ≤ m.clk.lt → Makes (.holdoverExpiry k lt) s s.mem (m.setSlot k 1)) ∧ (m.clk.lt < due → Makes (.holdoverExpiry k lt) s s.mem m)) ∧
  (s.now.rst.cReset = false → m.wtSource = 1 → m.slotState 0 = 2 → m.slotState 1 = 2 → m.fld (Rg.PTP_DOM_CFG 1) 15 8 < m.fld (Rg.PTP_DOM_CFG 0) 15 8 →
    (m.fld Rg.PTP_CTRL2 31 16 ≠ 0 → m.clk.lock1 + m.fld Rg.PTP_CTRL2 31 16 * 1000000000 ≤ lt → Makes (.revertCheck lt) s s.mem (m.setSource 2)) ∧
    (m.fld Rg.PTP_CTRL2 31 16 = 0 → Makes (.revertCheck lt) s s.mem m)) ∧
  (∀ (init : InitId) (v : Word), m.takes init.toNat Rg.PTP_WT_CMD v.toNat .PTP_WT_CMD [] = true → bitOf v.toNat 0 = true → m.wtSource = 1 → m.clk.pulse = [] → m.clk.next = [] →
    Does (.wtJoin init v lt) s fun mem m' => mem = s.mem ∧ m'.clk = { m.clk with wt := m.clk.dt0 }) ∧
  (s.now.rst.cReset = false → m.wtSource = 2 → (m.clk.wt - m.clk.dt1).natAbs < oneNs → Does (.slewDone lt) s fun mem m' =>
    mem = s.mem ∧ m'.clk = { m.clk with wt := m.clk.dt1 })

/-- R246, R250, R252: a timed output raises its pulse once working time has reached its start, for its width, and a one-shot
then goes off; an edge on a TIME_IN pin that
is enabled is captured with the working time, and dropped and counted when the FIFO of 8 is full; a pop removes the
head of a queue of timestamps.
Choices of the model it rests on: log entry 47. -/
def Obligations.TimedPins : Prop := ∀ (s : State),
  (∀ (k : Fin 8) (lt : Nat), s.now.rst.cReset = false → let m := s.now.advance lt
    (∀ t, m.timeOutOn k = true → m.clk.next = [(k.val, t)] → m.clk.pulse = [] → t ≤ m.wtNow →
      (m.fld (Rg.PTP_TOUT_CFG k) 1 0 = 1 → Makes (.timeOutPulseStart k lt) s s.mem ((m.modClk fun c => { c with
        next := [], pulse := [⟨k, true, m.bit (Rg.PTP_TOUT_CFG k) 2, t + m.rd (Rg.PTP_TOUT_WIDTH k)⟩] }).fire (Rg.PTP_TOUT_IRQ_STATUS k) 0)) ∧
      (m.fld (Rg.PTP_TOUT_CFG k) 1 0 = 2 → Makes (.timeOutPulseStart k lt) s s.mem ((m.modClk fun c => { c with
        next := [(k.val, t + m.rd (Rg.PTP_TOUT_PERIOD k))]
        pulse := [⟨k, false, m.bit (Rg.PTP_TOUT_CFG k) 2, t + m.rd (Rg.PTP_TOUT_WIDTH k)⟩] }).fire (Rg.PTP_TOUT_IRQ_STATUS k) 0))) ∧
    (∀ t, m.clk.next = [(k.val, t)] → m.wtNow + 1 < t → Makes (.timeOutPulseStart k lt) s s.mem m) ∧
    (∀ low stop, stop ≤ m.wtNow →
      (m.clk.pulse = [⟨k, true, low, stop⟩] → Makes (.timeOutPulseEnd k lt) s s.mem
        ((m.modClk fun c => { c with pulse := [] }).setFld (Rg.PTP_TOUT_CFG k) 1 0 0)) ∧
      (m.clk.pulse = [⟨k, false, low, stop⟩] → Makes (.timeOutPulseEnd k lt) s s.mem (m.modClk fun c => { c with pulse := [] })))) ∧
  (∀ (k : Fin 8) (rising : Bool) (lt : Nat), s.now.rst.cReset = false → let m := s.now.advance lt
    m.timeInOn k = true → m.fld (Rg.PTP_TIN_CFG k) 1 0 = 3 → m.clk.tin = [] → m.clk.fifo.length = 8 →
    let w := m.modClk fun c => { c with tin := [(k.val, clockNs m.clk.wt, rising, 1)] }
    ((m.clk.fifo.getD k []).length < 8 → Makes (.timeInCapture k rising lt) s s.mem
      (((w.modClk fun c => { c with fifo := c.fifo.modify k (· ++ [(clockNs m.clk.wt, rising)]) }).showTin k).fire (Rg.PTP_TIN_IRQ_STATUS k) 0)) ∧
    (8 ≤ (m.clk.fifo.getD k []).length → Makes (.timeInCapture k rising lt) s s.mem
      ((w.bump (Rg.PTP_TIN_DROP_CNT k)).fire (Rg.PTP_TIN_IRQ_STATUS k) 1))) ∧
  (∀ (init : InitId) (k : Fin 8) (v : Word), s.now.takes init.toNat (Rg.PTP_TIN_POP k) v.toNat .PTP_TIN_POP [k.val] = true → bitOf v.toNat 0 = true →
    Makes (.tinPop init k v) s s.mem (((s.now.answer .done).modClk fun c => { c with fifo := c.fifo.modify k (·.drop 1) }).showTin k)) ∧
  (∀ (init : InitId) (q : Fin 6) (v : Word), s.now.takes init.toNat (Rg.PTP_TXQ_POP q) v.toNat .PTP_TXQ_POP [q.val] = true → bitOf v.toNat 0 = true →
    Makes (.txqPop init q v) s s.mem (((s.now.answer .done).modClk fun c => { c with txq := c.txq.modify q (·.drop 1) }).showTxq q))

/-! ### CAN channels -/

/-- R258, R259, R261, R262, R263, R264: a channel that has integrated is error-active, unless its kept transmit
count makes it bus-off; it takes a frame of its protocol, counts
it and routes it by the first filter that matches, in ascending order; a queue that is disabled, full or too small for
the payload drops the frame; else payload and descriptor are written to the next entry; acknowledged entries return,
and an acknowledgement of more than are held is refused.
Choices of the model it rests on: log entry 49. -/
def Obligations.CanReceives : Prop := ∀ (s : State) (c : Fin 12),
  (s.now.rst.cReset = false → s.now.canState c = 1 → s.now.canHears c = true →
    (s.now.canTec c ≤ 255 → Makes (.canIntegrationDone c) s s.mem ((s.now.setCan c 2).confine c)) ∧
    (255 < s.now.canTec c → Makes (.canIntegrationDone c) s s.mem (s.now.busOff c))) ∧
  (∀ (f : CanFrame) (begun : Bool) (sof lt : Nat), s.now.rst.cReset = false → let m := s.now.advance lt
    m.canHears c = true → m.canState c = 2 → f.format ≤ m.fld (Rg.MBUS_CFG c) 1 0 →
    let r := routeFrame s.mem (((m.nmSof c).bump (Rg.MBUS_RX_FRAME_CNT c)).recGood c) c f (unsignedOf 64 (m.wtAt sof))
    Makes (.canFrameReceived c f begun sof lt) s r.1 (r.2.nmObserve c f false)) ∧
  (∀ (mem : Mem) (m : Mach) (f : CanFrame) (ts : Nat),
    (m.fltSearch c f = none → m.bit (Rg.MBUS_CTRL c) 1 = false → routeFrame mem m c f ts = (mem, m.bump (Rg.MBUS_RX_NOMATCH_CNT c))) ∧
    (m.fltSearch c f = none → m.bit (Rg.MBUS_CTRL c) 1 = true → routeFrame mem m c f ts = rxqFill mem m c 0 f 0xFFFF ts) ∧
    (∀ x, m.fltSearch c f = some x → m.bit (fltReg x 0) 3 = false → m.bit (fltReg x 0) 2 = true →
      routeFrame mem m c f ts = rxqFill mem (m.bump (fltReg x 0xC)) c (m.fld (fltReg x 0) 6 4) f x ts) ∧
    (∀ x, m.fltSearch c f = some x → m.bit (fltReg x 0) 3 = true → m.bit (fltReg x 0) 2 = false → routeFrame mem m c f ts =
      (mem, { m.bump (fltReg x 0xC) with mbus := { m.mbus with objs := kput m.mbus.objs x f.payload, fresh := x :: m.mbus.fresh.filter (· != x) } })) ∧
    (∀ q x, m.bit (Rg.MBUS_RXQ_CTRL c q) 0 = false ∨ m.rxqSize c q ≤ m.rxqHeld c q ∨ m.bufSize c < f.payload.length →
      rxqFill mem m c q f x ts = (mem, m.rxqDrop c q)) ∧
    (∀ (q x : Nat) (mem1 mem2 : Mem) (m1 m2 : Mach), let w := m.rxqWr c q
      let base := m.qBase (Rg.MBUS_RXQ_BASE_LO c q) (Rg.MBUS_RXQ_BASE_HI c q)
      let pay := base + 32 * m.rxqSize c q + m.bufSize c * w
      let k := m.charge kRXQ (8 * c + q) (32 + f.payload.length)
      m.bit (Rg.MBUS_RXQ_CTRL c q) 0 = true → m.rxqHeld c q < m.rxqSize c q → m.rxqPending c q = false → f.payload ≠ [] →
      f.payload.length ≤ m.bufSize c → m.served kRXQ (8 * c + q) = true → k.queueMemOk kRXQ c q pay f.payload.length = true →
      k.dmaWrite mem (0x40 + c) pay f.payload (k.queueOwner kRXQ c q) = some (mem1, m1) → m1.queueMemOk kRXQ c q (base + 32 * w) 32 = true →
      (m1.rxDescr f x (kgetD (m.mch c).seq q 0 % 65536) ts).length = 32 →
      m1.dmaWrite mem1 (0x40 + c) (base + 32 * w) (m1.rxDescr f x (kgetD (m.mch c).seq q 0 % 65536) ts) (m1.queueOwner kRXQ c q) = some (mem2, m2) →
      rxqFill mem m c q f x ts = (mem2, ((m2.modMch c fun y => { y with seq := kput y.seq q (kgetD (m.mch c).seq q 0 + 1) }).wr
        (Rg.MBUS_RXQ_STATUS c q) ((m.rxqHeld c q + 1) <<< 16 ||| (w + 1) % m.rxqSize c q)).rxqEvent c q))) ∧
  (∀ (init : InitId) (q : Fin 8) (v : Word), s.now.takes init.toNat (Rg.MBUS_RXQ_ACK c q) v.toNat .MBUS_RXQ_ACK [c.val, q.val] = true →
    (bitsOf v.toNat 9 0 ≤ s.now.rxqHeld c q → Makes (.mbusRxqAck init c q v) s s.mem
      ((s.now.answer .done).setFld (Rg.MBUS_RXQ_STATUS c q) 25 16 (s.now.rxqHeld c q - bitsOf v.toNat 9 0))) ∧
    (s.now.rxqHeld c q < bitsOf v.toNat 9 0 → Makes (.mbusRxqAck init c q v) s s.mem ((s.now.answer .done).canIrq c 11)))

/-- R265, R266, R267, R268, R269: at a start of frame the waiting message that wins arbitration leaves queue H, or its
descriptor's payload is fetched and its frame starts; a sent frame is counted, lowers the transmit error count and
completes its descriptor with status 1; an unsuccessful attempt leaves the descriptor, but for one_shot, which completes
with 3; an abort completes every waiting descriptor with 2.
Choices of the model it rests on: log entries 48 and 49. -/
def Obligations.CanSends : Prop := ∀ (s : State) (c : Fin 12), s.now.mbus.ch.length = 12 →
  (∀ (lt : Nat) (mem : Mem) (m1 : Mach) (l : List Cand) (x : Cand), s.now.rst.cReset = false → let m := s.now.advance lt
    m.canMayStart c = true → queueCands s.mem m c = (mem, m1, l) → m1.mbus.ch.length = 12 → bestCand (m1.hCand c ++ l) = some x →
    (x.src = none → Makes (.canFrameStart c lt) s mem ((m1.beginTx c x x.f).nmSof c)) ∧
    (∀ q bs, x.src = some q → m1.txqRead mem c q x.addr x.len = some bs →
      Makes (.canFrameStart c lt) s mem (((m1.chargeFab (0x40 + c) bs.length).beginTx c x { x.f with data := bs }).nmSof c))) ∧
  (∀ a b : Cand, bestCand [a, b] = some (if b.f.arb < a.f.arb then b else a)) ∧
  (∀ t : MTx, s.now.rst.cReset = false → (s.now.mch c).tx = some t →
    let idle := s.now.modMch c fun y => { y with tx := none, h := y.h.filter (!·.busy) }
    let sent := ((idle.showH c).bump (Rg.MBUS_TX_FRAME_CNT c)).setErr c (s.now.canTec c - 1) (s.now.canRec c)
    (t.src = none → s.now.canMute c = false → Makes (.canTxComplete c true) s s.mem ((sent.afterTx c).nmObserve c t.f t.nm)) ∧
    (∀ q, t.src = some q → t.owner = none → t.abortTo = none → s.now.canMute c = false → let r := completeHead s.mem sent c q 1 (some t.ts)
      Makes (.canTxComplete c true) s r.1 ((r.2.1.afterTx c).nmObserve c t.f t.nm)) ∧
    let lost := s.now.modMch c fun y => { y with tx := none, h := y.h.map fun e : HEnt => { e with busy := false } }
    (t.owner = none → t.abortTo = none → t.oneShot = false → Makes (.canTxComplete c false) s s.mem (lost.afterTx c)
      ∧ (s.now.canMute c = true → Makes (.canTxComplete c true) s s.mem (lost.afterTx c))) ∧
    (∀ q, t.src = some q → t.owner = none → t.abortTo = none → t.oneShot = true → let r := completeHead s.mem lost c q 3 none
      Makes (.canTxComplete c false) s r.1 (r.2.1.afterTx c))) ∧
  (∀ (init : InitId) (q : Fin 8) (v : Word), s.now.takes init.toNat (Rg.MBUS_TXQ_CTRL c q) v.toNat .MBUS_TXQ_CTRL [c.val, q.val] = true →
    bitOf v.toNat 1 = true → (s.now.mch c).tx = none → s.now.enableBarred init.toNat kTXQ (8 * c + q) = false →
    Does (.mbusTxqAbort init c q v) s fun mem m => ∃ m1 : Mach, m1.resp = .done ∧ m1.bit (Rg.MBUS_TXQ_CTRL c q) 0 = bitOf v.toNat 0 ∧
      (∀ a, a ≠ Rg.MBUS_TXQ_CTRL c q → m1.rd a = s.now.rd a) ∧ (mem, m) = abortRest s.mem m1 c q 256) ∧
  (∀ (mem mem1 : Mem) (m m1 : Mach) (q n : Nat),
    (m.txqHead c q = m.txqTail c q → abortRest mem m c q n = (mem, m)) ∧
    (m.txqHead c q ≠ m.txqTail c q → completeHead mem m c q 2 none = (mem1, m1, true) → abortRest mem m c q (n + 1) = abortRest mem1 m1 c q n))

/-- R270 to R276: an error raises the counts by ISO 11898-1 and its code is kept; above 255 the channel is bus-off, counted and
raised as 0x114, and recovers by its policy: by command, after its wait, or at once; recovery clears the counts. A commanded
mode is under way until the transceiver reports it; a fault of the transmitter is shown and reported, its end shown; in
STANDBY while the module runs, a dominant edge or a wake frame sets wake and the interrupt; the decoder counts frame errors
up and correct frames down, and the 32nd wakes.
Choices of the model it rests on: log entries 48 and 49. -/
def Obligations.CanErrorsAndTransceivers : Prop :=
  (∀ (s : State) (c : Fin 12),
  (∀ (lec : Fin 7) (incr : Fin 9), s.now.rst.cReset = false → s.now.canState c = 2 ∨ s.now.canState c = 3 → s.now.canHears c = true →
    s.now.canListens c = false → (s.now.mch c).tx = none → let m := ((s.now.nmSof c).setFld (Rg.MBUS_STATUS c) 6 4 lec).bump (Rg.MBUS_ERR_FRAME_CNT c)
    let rx := m.setErr c (m.canTec c) (m.canRec c + incr)
    let tx := m.setErr c (m.canTec c + incr) (m.canRec c)
    (rx.canTec c ≤ 255 → Makes (.canError c false lec incr) s s.mem rx) ∧
    (tx.canTec c ≤ 255 → Makes (.canError c true lec incr) s s.mem (tx.afterTx c)) ∧
    (255 < tx.canTec c → Makes (.canError c true lec incr) s s.mem ((tx.busOff c).afterTx c))) ∧
  (∀ m : Mach, (m.busOff c).todo = m.todo ++ [.safety 0x114 c]) ∧
  (s.now.rst.cReset = false → s.now.canState c = 4 → s.now.fld (Rg.MBUS_CFG c) 23 16 ≠ 0 → Makes (.busoffRecoveryWait c) s s.mem (s.now.setCan c 5)) ∧
  (s.now.rst.cReset = false → s.now.fld (Rg.MBUS_CFG c) 23 16 = 0 → Makes (.busoffRecoveryWait c) s s.mem s.now) ∧
  (∀ (init : InitId) (v : Word), s.now.takes init.toNat (Rg.MBUS_CMD c) v.toNat .MBUS_CMD [c.val] = true → bitOf v.toNat 0 = true →
    (s.now.canState c = 4 → Makes (.mbusRecover init c v) s s.mem ((s.now.answer .done).setCan c 5)) ∧
    (s.now.canState c ≠ 4 → Makes (.mbusRecover init c v) s s.mem (s.now.answer .done))) ∧
  (s.now.rst.cReset = false → s.now.canState c = 5 → s.now.canHears c = true → Makes (.busoffRecovered c) s s.mem (((s.now.setCan c 2).setErr c 0 0).canIrq c 5))) ∧
  (∀ (s : State) (c : Fin 12),
  (∀ (init : InitId) (v : Word) (e : Stg), s.now.takesFar init.toNat (Rg.MBUS_XCVR_CTRL c) 4 v.toNat .MBUS_XCVR_CTRL = some e → s.now.lath.bufs = [] →
    s.now.fld (Rg.MBUS_XCVR_CTRL c) 1 0 ≠ bitsOf v.toNat 1 0 → Makes (.xcvrModeWrite init c v) s s.mem
      (((s.now.setFld (Rg.MBUS_XCVR_CTRL c) 1 0 (bitsOf v.toNat 1 0)).setBit (Rg.MBUS_XCVR_STATUS c) 0 false).answer .done)) ∧
  (s.now.rst.cReset = false → s.now.dieHeld .l = false → s.now.elemHeld uMBUS c = false →
    Makes (.xcvrModeDone c) s s.mem (s.now.setBit (Rg.MBUS_XCVR_STATUS c) 0 true) ∧
    (s.now.bit (Rg.MBUS_XCVR_STATUS c) 1 = false → Makes (.txdTimeout c) s s.mem ((s.now.setBit (Rg.MBUS_XCVR_STATUS c) 1 true).canIrq c 10)) ∧
    (s.now.bit (Rg.MBUS_XCVR_STATUS c) 2 = false → Makes (.xcvrOvertemp c) s s.mem ((s.now.setBit (Rg.MBUS_XCVR_STATUS c) 2 true).canIrq c 10)) ∧
    (s.now.bit (Rg.MBUS_XCVR_STATUS c) 2 = true → Makes (.xcvrOvertempEnd c) s s.mem (s.now.setBit (Rg.MBUS_XCVR_STATUS c) 2 false)) ∧
    (s.now.bit (Rg.MBUS_XCVR_STATUS c) 1 = true → Makes (.txdPathRecessive c) s s.mem (s.now.setBit (Rg.MBUS_XCVR_STATUS c) 1 false))) ∧
  (s.now.sleepKind = none → s.now.standsBy c 1 = true → Makes (.canDominantWake c) s s.mem
    (((s.now.fire (Rg.MBUS_XCVR_STATUS c) 3).canIrq c 9).nmXwake c)) ∧
  (s.now.sleepKind = none → s.now.standsBy c 1 = false → Makes (.canDominantWake c) s s.mem s.now) ∧
  (s.now.sleepKind = none → s.now.sillWakes = false → s.now.standsBy c 2 = true → ∀ f : CanFrame,
    (wufMatch (s.now.wufInUse c) f = false → Makes (.canSelectiveWake c (some f)) s s.mem s.now) ∧
    (wufMatch (s.now.wufInUse c) f = true → Does (.canSelectiveWake c (some f)) s fun mem m => mem = s.mem ∧
      m = (((s.now.wufCount c false).wakeStandby c).nmXwake c)) ∧
    (Makes (.selectiveWakeDecoderFrame c false) s s.mem (s.now.wufCount c false)) ∧
    (s.now.fld (Rg.MBUS_WUF_ERR c) 5 0 < 31 → Makes (.selectiveWakeDecoderFrame c true) s s.mem (s.now.wufCount c true)) ∧
    (s.now.fld (Rg.MBUS_WUF_ERR c) 5 0 = 31 → Makes (.selectiveWakeDecoderFrame c true) s s.mem
      (((s.now.wufCount c true).wakeStandby c).nmXwake c))))
/-! ### LIN channels, SENT inputs, network management -/

/-- R284, R285, R286, R287, R288: a commander starts the go-to-sleep command or its next slot; a frame that completes is reported,
what the channel has published with its checksum is on the line, a subscribed frame's bytes are kept where their number and
their checksum are right, an error is counted and reported; a responder answers a header of the right break and
rate; the go-to-sleep command and the commander's or the host's sleep and wake requests move the channel between ACTIVE
and SLEEP; a dominant bus switches its transmitter off until the bus is recessive.
Choices of the model it rests on: log entry 50. -/
def Obligations.LinFrames : Prop := ∀ (s : State) (c : Fin 12), s.now.rst.cReset = false → s.now.elemHeld uLIN c = false →
  s.now.dieHeld .l = false → s.now.linOff c = false →
  let m := s.now
  let idle := m.modLch c fun x => { x with cur := none }
  (∀ lt, let a := m.advance lt
    a.linMaySend c = true → a.linResponder c = false → a.linOff c = false →
    ((a.lch c).sleepReq = true → Makes (.linHeaderStart ⟨c, lt⟩) s s.mem
      (a.modLch c fun x => { x with sleepReq := false, cur := some (a.linBegin c 0x3C true) })) ∧
    (∀ k t, (a.lch c).sleepReq = false → (a.lch c).pend = k :: t → a.linAsleep c = false → Makes (.linHeaderStart ⟨c, lt⟩) s s.mem
      ((a.modLch c fun x => { x with pend := t, cur := some (a.linBegin c (a.fld (Rg.LIN_SLOT c (a.fld (Rg.LIN_STATUS c) 5 4) k) 5 0) false) }).showPend c))) ∧
  (∀ (k : LinCur) (data : List Byte) (check : Byte), m.linState c = 1 → (m.lch c).cur = some k →
    let sent := idle.modLch c fun x => { x with sent := k.resp ++ [m.linCheck c k.id k.resp] }
    (k.sleep = true → Makes (.linFrameComplete c 0 ⟨data, check⟩) s s.mem ((sent.linSleep c).nmLinSlept c)) ∧
    (k.sleep = false → m.linResponder c = false → m.linDir c k.id = 1 → Makes (.linFrameComplete c 0 ⟨data, check⟩) s s.mem
      (((sent.setFld (Rg.LIN_FRAME_STATUS c k.id) 31 16 (m.rd Rg.TICK_COUNT_LO)).linIrq c 0).nmLinSlept c)) ∧
    (k.sleep = false → m.linResponder c = false → m.linDir c k.id = 2 →
      (m.linLen c k.id ≤ data.length → check = m.linCheck c k.id data → Makes (.linFrameComplete c 0 ⟨data, check⟩) s s.mem
        ((((idle.setFld (Rg.LIN_FRAME_STATUS c k.id) 31 16 (m.rd Rg.TICK_COUNT_LO)).modLch c fun x => { x with
          objs := kput x.objs k.id (data.take (m.linLen c k.id)), fresh := k.id :: x.fresh.filter (· != k.id) }).linIrq c 0).nmLinSlept c)) ∧
      (data.length < m.linLen c k.id → Makes (.linFrameComplete c 0 ⟨data, check⟩) s s.mem ((idle.linError c k.id 5).nmLinSlept c)) ∧
      (m.linLen c k.id ≤ data.length → check ≠ m.linCheck c k.id data →
        Makes (.linFrameComplete c 0 ⟨data, check⟩) s s.mem ((idle.linError c k.id 2).nmLinSlept c))) ∧
    (∀ err : Fin 6, err.val ≠ 0 → k.sleep = false → m.linDir c k.id ≠ 0 →
      Makes (.linFrameComplete c err ⟨data, check⟩) s s.mem ((idle.linError c k.id err).nmLinSlept c)) ∧
    (k.sleep = false → m.linDir c k.id = 2 → Makes (.linResponseTimeout c) s s.mem (idle.linError c k.id 1)) ∧
    (m.linDir c k.id = 1 → Makes (.linResponseTimeout c) s s.mem m)) ∧
  (∀ (i : Fin 64) (brk rate : Nat), let r := m.fld (Rg.LIN_CFG c) 31 16
    m.linState c = 1 → m.linResponder c = true →
    (brk < 110 → Makes (.linHeaderReceived c i brk rate) s s.mem (m.linError c i 6)) ∧
    (110 ≤ brk → r * 85 ≤ rate * 100 → rate * 100 ≤ r * 115 → m.linDir c i ≠ 0 → Makes (.linHeaderReceived c i brk rate) s s.mem
      (m.modLch c fun x => { x with cur := some { id := i, rate := rate, t0 := m.clk.lt, resp := if m.linDir c i = 1 then m.linData c i else [] } }))) ∧
  (∀ (init : InitId), (m.takes init.toNat (Rg.LIN_CMD c) 1 .LIN_CMD [c.val] = true → m.linState c = 1 → m.linResponder c = false →
      Makes (.linGotoSleep init c 1) s s.mem ((m.answer .done).modLch c fun x => { x with sleepReq := true })) ∧
    (m.takes init.toNat (Rg.LIN_CMD c) 2 .LIN_CMD [c.val] = true → m.linState c = 2 →
      Makes (.linWakePulse init c 2) s s.mem ((m.answer .done).modLch c fun x => { x with pulse := true }))) ∧
  (m.linState c = 2 → (m.lch c).pulse = true → Makes (.linWakePulseEnd c) s s.mem
    ((m.modLch c fun x => { x with pulse := false, woke := false }).setLin c 1)) ∧
  (m.linState c = 1 → m.linResponder c = true → Makes (.linInactivityTimeout c) s s.mem ((m.linSleep c).nmLinSlept c)) ∧
  (∀ us, m.linState c = 2 → (150 ≤ us → us ≤ 5000 → Makes (.linWakeDetect c us) s s.mem
    (((m.modLch c fun x => { x with woke := true }).linIrq c 3).nmLinWoke c)) ∧
    (us < 150 ∨ 5000 < us → (m.lch c).woke = false → Makes (.linWakeDetect c us) s s.mem m)) ∧
  (m.linState c ≠ 3 → Makes (.linDominantTimeout c) s s.mem (m.setBit (Rg.LIN_STATUS c) 3 true) ∧
    Makes (.linBusRecessive c) s s.mem (m.setBit (Rg.LIN_STATUS c) 3 false))

/-- R290, R291, R292: the first failing check of a SENT message, in the order calibration pulse, nibble range, nibble count,
checksum, pause, is counted and reported and the serial message starts again; a good message without slow channel
gives its status and data and one more count. -/
def Obligations.SentMessages : Prop := ∀ (s : State) (i : Fin 8) (tick : BitVec 16) (nibs : List Nat) (pause : Bool),
  s.now.rst.cReset = false → s.now.elemHeld uSENT i = false → s.now.dieHeld .l = false → s.now.sentOff i = false →
  let fl := s.now.fld (Rg.SENT_CFG i) 31 24
  let code := s.now.sentCheck i tick.toNat nibs pause
  let m := (s.now.modSin i fun x => { x with prev := some tick.toNat }).setFld (Rg.SENT_STATUS i) 31 16 tick.toNat
  (code ≠ 0 → Makes (.sentMessage i tick nibs pause) s s.mem
    ((((m.bump (Rg.SENT_ERR_CNT i)).setFld (Rg.SENT_STATUS i) 2 0 code).sentIrq i 1).modSin i fun x => { x with serial := [] })) ∧
  (code = 0 → bitsOf fl 6 5 = 0 → Makes (.sentMessage i tick nibs pause) s s.mem
    ((m.wr (Rg.SENT_FAST i) (2 ^ 31 ||| ((nibs.headD 12 - 12) % 4) <<< 28 |||
      ((nibs.drop 1).take (bitsOf fl 2 0)).foldl (fun v n => 16 * v + (n - 12)) 0)).modSin i fun x =>
        { x with cnt := min (x.cnt + 1) 255, serial := [] })) ∧
  (let c := s.now.fld (Rg.SENT_CFG i) 16 0
   let data := bitsOf fl 2 0
   (code = 1 ↔ c < 2 * (25 * (tick.toNat : Int) - 2 * c).natAbs ∨
      ∃ p, (s.now.sin i).prev = some p ∧ p < 64 * ((tick.toNat : Int) - p).natAbs) ∧
   (code ≠ 1 → (code = 2 ↔ ∃ n ∈ nibs, n < 12 ∨ 27 < n)) ∧
   (code ∉ [1, 2] → (code = 3 ↔ nibs.length ≠ data + 2)) ∧
   (code ∉ [1, 2, 3] → (code = 4 ↔
      crc4 (bitOf fl 4) (((nibs.map (· - 12)).drop 1).take data) ≠ (nibs.map (· - 12)).getLastD 0)) ∧
   (code ∉ [1, 2, 3, 4] → (code = 5 ↔ bitOf fl 3 = true ∧ pause = false)) ∧ code ≤ 5)

/-- R300, R303, R304, R306, R307, R308, R312: a request sets the segment's latch and cancels a shutdown under way; each
timer of a segment is evaluated once it has run, and not before: silence brings an agreed CAN segment to sleep, the end of phase ALIVE starts the ring, a ring without message
restarts with a count and phase ALIVE, a held token is passed on, a presence segment that is awake sends its KEEPALIVE or
agrees when no other node holds it; the log's closed entries can be cleared.
Choices of the model it rests on: log entry 51. -/
def Obligations.NetworkManagement : Prop := ∀ (s : State) (i : Fin 24),
  let m := s.now
  let ev : Mach := (m.segTimers i).showSeg i
  let due (c : Instr) (n t : Nat) : Prop := (m.msTicks t ≤ n → Makes c s s.mem ev) ∧ (n < m.msTicks t → Makes c s s.mem m)
  (∀ (init : InitId), (m.takes init.toNat (Rg.NM_SEG_CTRL i) 1 .NM_SEG_CTRL [i.val] = true →
      Makes (.nmAwakeReq init i 1) s s.mem (((m.answer .done).setBit (Rg.NM_SEG_CTRL i) 0 true).setBit (Rg.NM_SEG_CTRL i) 1 true).nmCancel) ∧
    (m.takes init.toNat (Rg.NM_SEG_CTRL i) 2 .NM_SEG_CTRL [i.val] = true →
      Makes (.nmWakeRequest init i 2) s s.mem (((m.answer .done).setBit (Rg.NM_SEG_CTRL i) 0 false).setBit (Rg.NM_SEG_CTRL i) 1 true).nmCancel) ∧
    (∀ v : Word, m.takes init.toNat Rg.NM_LOG_CLEAR v.toNat .NM_LOG_CLEAR [] = true → bitOf v.toNat 0 = true →
      Makes (.nmLogClear init v) s s.mem (((m.answer .done).forAll ((List.range 64).filter fun e => !m.logOpenBit e) fun m e =>
        m.setBit (Rg.NM_LOG_HDR e) 31 false).showLog))) ∧
  (m.rst.cReset = false → m.segState i = 3 → m.segLatch i = false → due (.silenceWaitExpiry i) (m.seg i).silence (m.segSilenceMs i)) ∧
  (m.rst.cReset = false → m.ringPhase i 2 = true → due (.ringTimeout i) (m.seg i).ring (m.segKeepMs i) ∧
    ((m.seg i).tokenHeld = true → due (.ringHoldExpiry i) (m.seg i).token (m.segHoldMs i))) ∧
  (m.rst.cReset = false → m.ringPhase i 1 = true → due (.alivePhaseEnd i) (m.seg i).alive (4 * m.segHoldMs i)) ∧
  (m.rst.cReset = false → m.segState i = 2 →
    (m.segPresence i = true → m.segLin i = false → due (.keepaliveDue i) (m.seg i).keep (m.segKeepMs i / 4)) ∧
    due (.wakeHoldExpiry i) (m.seg i).hold (m.segKeepMs i) ∧
    (m.segPresence i = true → due (.presenceTimeout i) (m.seg i).pres (m.segKeepMs i))) ∧
  (∀ m : Mach, let r := m.showReady i
    let ms (t : Nat) : Nat := m.msTicks t
    (m.segState i = 3 → m.segLin i = false → ms (m.segSilenceMs i) ≤ (m.seg i).silence → m.segTimers i = r.segSleep i) ∧
    (m.ringPhase i 1 = true → ms (4 * m.segHoldMs i) ≤ (m.seg i).alive → m.segTimers i = r.enterRing i) ∧
    (m.ringPhase i 2 = true → ms (m.segKeepMs i) ≤ (m.seg i).ring →
      m.segTimers i = (((r.bump (Rg.NM_SEG_RESTART_CNT i)).segIrq i 3).enterAlive i false)) ∧
    (m.ringPhase i 2 = true → (m.seg i).ring < ms (m.segKeepMs i) → (m.seg i).tokenHeld = true → ms (m.segHoldMs i) ≤ (m.seg i).token →
      m.segTimers i = r.packRing i) ∧
    (m.segState i = 2 → m.segLin i = false → m.segPresence i = true → m.ownReady i = true → ms (m.segKeepMs i) ≤ (m.seg i).pres →
      m.segTimers i = r.agree i) ∧
    (m.segState i = 2 → m.segLin i = false → m.segPresence i = true → m.ownReady i = false → ms (m.segKeepMs i / 4) ≤ (m.seg i).keep →
      m.segTimers i = (r.packNm i (r.nmMsg i 2 0xFF false false)).modSeg i fun g => { g with keep := 0 }))


/-! ### Signal gateway -/

/-- R322, R323, R325, R326, R333, R334, R336: a receive PDU without a fresh capture for timer_ticks edges times out once; the
due routes are worked off in index order and the lanes report them; a route of a fresh source stores its result, which
lies in the destination range, and one of a source that has timed out substitutes; an Ethernet PDU is taken in or
counted as dropped; a table command that is accepted takes force at the next commit, a refused one leaves the tables.
Choices of the model it rests on: log entry 52. -/
def Obligations.Gateway : Prop := ∀ (s : State), s.now.rst.cReset = false →
  let m := s.now
  (∀ (n : Fin 4096) (p : GPdu), m.pduOf n = some p → pduTx p.rc = false → p.timedOut = false → pduTimer p.rc ≠ 0 →
    pduTimer p.rc ≤ p.age →
    Makes (.pduTimeout n) s s.mem (((m.modPdu n fun p => { p with timedOut := true }).bump Rg.GWY_TIMEOUT_CNT).gwyIrq 2)) ∧
  (∀ (ns : Nat) (used : List Nat), m.unitHeld uGWY = false → m.gwy.done = false → 0 ∈ m.tick.due → 0 ∉ m.tick.ovr →
    let due := m.dueRoutes m.tickCount
    let r := (m.forAll due fun m r => m.runRoute r).forAll (List.range 4) fun m k =>
      m.showLane k (due.countP (rtLane · == k)) (used.getD k 0)
    let t := (r.modGwy fun g => { g with done := true, worked := true }).setBit Rg.GWY_STATUS 0 false
    Makes (.gatewayLanesDone ns used) s s.mem ((t.loadCommands m.tickCount).clientDone 0 ns)) ∧
  (∀ (m : Mach) (r : Rec) (p : GPdu), m.pduOf (rtSrc r) = some p →
    (p.timedOut = false → p.fresh = true → rtUpd r = 0 →
      m.runRoute r = m.computeRoute r (getField p.cap (rtFlag r 0) (fieldBits (rtFlag r 0) (rtSrcBit r) (rtSrcW r)))) ∧
    (p.timedOut = false → p.fresh = false → m.runRoute r = m) ∧ (p.timedOut = true → rtSubst r = 0 → m.runRoute r = m) ∧
    (p.timedOut = true → rtSubst r = 1 → m.runRoute r = m.computeRoute r 0)) ∧
  (∀ (r : Rec) (raw : Nat), (rtRange r).1 ≤ (rtResult r raw).1 ∧ (rtResult r raw).1 ≤ (rtRange r).2) ∧
  (∀ t : TxCur, m.txOf 21 = some t → m.unitHeld uGWY = false → beNat (sliceBytes t.out 12 2) ≠ 0x8100 →
    let hit := m.gwy.pdus.find? fun x => pduKind x.2.rc == 5 && !pduTx x.2.rc && pduId x.2.rc == beNat (sliceBytes t.out 14 4)
      && pduLen x.2.rc == beNat (sliceBytes t.out 18 2)
    (∀ n p, hit = some (n, p) → beNat (sliceBytes t.out 12 2) = m.fld Rg.GWY_ETH_TYPE 15 0 → Makes .gwyEthReceive s s.mem
      (m.modPdu n fun p => { p with eth := sliceBytes t.out 22 (beNat (sliceBytes t.out 18 2)), ethNew := true })) ∧
    (hit = none → Makes .gwyEthReceive s s.mem ((m.bump Rg.GWY_RX_DROP_CNT).gwyIrq 5))) ∧
  (∀ (init : InitId) (v : Word), m.takes init.toNat Rg.GWY_TBL_CMD v.toNat .GWY_TBL_CMD [] = true → m.gwy.cmd = none →
    let w := m.answer .done
    let op := bitsOf v.toNat 31 30
    let t := bitsOf v.toNat 29 29
    let i := bitsOf v.toNat 12 0
    let r := Mach.tblRecord t ((List.range 7).map fun k => m.rd (Rg.GWY_TBL_DATA k))
    let run (m : Mach) (code off : Nat) : Mach :=
      ((m.modGwy fun g => { g with cmd := some ⟨op, t, i, code, off, none⟩ }).setBit Rg.GWY_STATUS 1 true).setBit Rg.GWY_TBL_RESULT 31 false
    let stage (r : Option Rec) : Mach := w.modGwy fun g => { g with staged := (g.staged.filter fun x => !(x.1 == t && x.2.1 == i)) ++ [(t, i, r)] }
    (op = 1 → t = 0 → i < 4096 → Makes (.gwyTblRead init v) s s.mem (run w 0 0xFF)) ∧
    (∀ x o, op = 2 → r = some x → w.tblCheck t i (some x) = (0, o) → Makes (.gwyTblWrite init v) s s.mem (run (stage (some x)) 0 o)) ∧
    (∀ x c o, op = 2 → r = some x → w.tblCheck t i (some x) = (c, o) → c ≠ 0 → Makes (.gwyTblWrite init v) s s.mem (run w c o)) ∧
    (∀ o, op = 3 → w.tblCheck t i none = (0, o) → Makes (.gwyTblClear init v) s s.mem (run (stage none) 0 o))) ∧
  (∀ c : GCmd, m.gwy.cmd = some c → c.inst = none →
    let w := ((m.modGwy fun g => { g with cmd := none }).setBit Rg.GWY_STATUS 1 false).wr Rg.GWY_TBL_RESULT
      (1 <<< 31 ||| flagNat (c.code != 0) <<< 30 ||| c.code <<< 8 ||| c.off)
    (c.op ≠ 1 → c.code = 0 → Makes .gwyTblDone s s.mem (w.gwyIrq 0)) ∧
    (c.code ≠ 0 → Makes .gwyTblDone s s.mem ((w.gwyIrq 6).gwyIrq 0)) ∧
    (∀ r, c.op = 1 → c.code = 0 → c.table = 1 → kget m.gwy.routes c.idx = some r → Makes .gwyTblDone s s.mem
      ((w.forAll (List.range 7) fun m k => m.wr (Rg.GWY_TBL_DATA k) (r.u32 (4 + 4 * k))).gwyIrq 0))) ∧
  (∀ (c : GCmd) (i : Nat), m.gwy.cmd = some c → c.inst = some i → Makes .gwyTblDone s s.mem
    (((m.tblDone.setBusy i false).instResult i (if c.code = 0 then 0 else 0xC) (if c.code = 0 then 0xFF else c.code)).instDone i))

/-! ### Lath links -/

/-- R343, R344, R345, R346: a far read is held and answers with its reply, GONE or, after 2 µs, a bus error, when its reply
is dropped and counted; a far write completes at the near side once it holds an entry, and is carried out at the far
die, lost and counted where its block is in reset; a burst stays on one die and travels in pieces.
Choices of the model it rests on: log entries 23, 25, 26 and 27. -/
def Obligations.FarRequests : Prop := ∀ (s : State), s.now.rst.cReset = false → s.now.lath.bufs = [] →
  let m := s.now
  let put (q : List LReq) : Mach := (m.modLath fun x => { x with q := q }).showLath
  (∀ (init : InitId) (a w l : Nat), m.lath.q = [] → m.dbgBars init.toNat a false = false →
    (∀ h ms, resolve a w = some (.reg h ms) → let x := if ms = [] then a else chanReg (ms.headD 0) (a % 0x100)
      linkOfRead x = some l → m.readGone (some h) x = false → m.isHeart init.toNat = true ∨ h.d.allHw = false →
      Makes (.farRead init a w) s s.mem (put [{ ch := m.farChan l x, init := init.toNat, write := false, beats := [(x, 0)] }])) ∧
    (∀ ms k p, resolve a w = some (.diff ms k p) → linkOfRead a = some l → m.readGone none a = false →
      Makes (.farRead init a w) s s.mem (put [{ ch := m.farChan l a, init := init.toNat, write := false, beats := [(a, 0)] }]))) ∧
  (∀ (init : InitId) (a w : Nat) (h : Hit) (n : RegName), resolve a w = some (.reg h []) → m.reads init.toNat a w n = true →
    Makes (.farRead init a w) s s.mem ((m.readReg init.toNat a h).1.answer (.value (m.readReg init.toNat a h).2))) ∧
  (∀ (r : LReq) (a : Nat) (ch : Fin 24) (h : Hit), m.lath.q = [r] → r.ch = ch → r.write = false → r.waiting = false → r.burst = none →
    r.beats = [(a, 0)] → findReg a = some h → m.linkState (linkOfChan ch) = 3 →
    (r.late = false → m.readGone (some h) a = false → m.bit (Rg.LATH_CTRL (linkOfChan ch)) 0 = false → h.d.accMask .rc = 0 →
      Makes (.farReadReply ch) s s.mem ((m.lathDrop r).answer (.value (m.farShown r.init a (m.farValue r.init a h).2)))) ∧
    (r.late = false → m.readGone (some h) a = true → Makes (.farReadReply ch) s s.mem ((m.lathDrop r).answer .gone)) ∧
    (r.late = true → r.gone = true → Makes (.farReadReply ch) s s.mem
      (((m.lathDrop r).bump (Rg.LATH_LATE_CNT (linkOfChan ch))).lathIrq (linkOfChan ch) 1))) ∧
  (∀ (r : LReq) (a : Nat) (ch : Fin 24), m.lath.q = [r] → r.ch = ch → r.write = false → r.waiting = false → r.late = false →
    r.burst = none → r.beats = [(a, 0)] → Makes (.farReadTimeout ch) s s.mem
      (((((m.bump (Rg.LATH_TIMEOUT_CNT (linkOfChan ch))).lathAddr (linkOfChan ch) 0 a).modLath fun x =>
        { x with q := [{ r with late := true }] }).answer .busError).showLath)) ∧
  (∀ (init : InitId) (a w l : Nat) (v : Word) (n : RegName) (e : Stg), m.takesFar init.toNat a w v.toNat n = some e → linkOf a = some l →
    m.lath.q = [] → Makes (.farWrite init a w v) s s.mem
      ((put [{ ch := m.farChan l a, init := e.init, write := true, beats := [(a, v.toNat)], wr := [e] }]).answer .done)) ∧
  (∀ (r : LReq) (ch : Fin 24), m.lathHead ch = some r → r.write = true → m.linkState (linkOfChan ch) = 3 →
    let x := r.wr.foldl (fun (x : Mem × Mach) e => applyBeat x.1 x.2 (linkOfChan ch) e) (s.mem, m)
    Makes (.farWriteApply ch) s x.1 (x.2.lathDrop r)) ∧
  (∀ (mem : Mem) (m : Mach) (l : Nat) (e : Stg) (h : Hit) (ms : List Nat), resolve e.addr (if l = 0 then 4 else 2) = some (.reg h ms) →
    e.members = [] →
    (m.goneAt h e.addr true = true → applyBeat mem m l e = (mem, (m.wrError l e.addr).goneDrop)) ∧
    (m.goneAt h e.addr true = false → e.mask &&& m.badMask e.addr h e.val = 0 → e.mask ≠ 0 →
      e.mask < 2 ^ 32 → applyBeat mem m l e = Mach.act mem m h e)) ∧
  (∀ (r : LReq) (ch : Fin 24), (m.lath.q.find? fun r => r.ch == ch.val && r.write && r.waiting) = some r → r.burst = none →
    Makes (.farWriteEntryTimeout ch) s s.mem
      (((((m.bump (Rg.LATH_TIMEOUT_CNT (linkOfChan ch))).lathIrq (linkOfChan ch) 0).modLath fun x => { x with q := x.q.erase r }
        ).answer .busError).showLath)) ∧
  (∀ (init : InitId) (a l : Nat) (vs : List Word), linkOf a = some l → Mach.bursts? init.toNat = true → vs ≠ [] →
    let w := if l = 0 then 4 else 2
    ((∃ k, k < vs.length ∧ (linkOf (a + w * k) ≠ some l ∨ resolve (a + w * k) w = none)) → ∀ wr,
      Makes (.farBurst init a wr vs) s s.mem (m.answer .busError)) ∧
    ((∀ k, k < vs.length → linkOf (a + w * k) = some l ∧ resolve (a + w * k) w ≠ none) → 2 ≤ m.linkState l →
      m.dieHeld (if l = 0 then .l else .p) = false →
      (vs.length = 1 → m.lath.q = [] → Makes (.farBurst init a false vs) s s.mem
        (let b : LBurst := { id := m.lath.nextBurst, left := 1 }
         let r : LReq := { ch := m.farChan l a, init := init.toNat, write := false, beats := [(a, 0)], burst := some b.id }
         (m.modLath fun x => { x with nextBurst := b.id + 1, bursts := x.bursts ++ [b], q := [r] }).showLath)) ∧
      Makes (.farBurst init a true vs) s s.mem (m.burstWrite init.toNat l a w (vs.map (·.toNat)))))

/-- R349, R350, R351, R353: a far die reaches only the units its table names, with an initiator of its own; a locked sequence to a
far address is counted, and fails when it writes; a CRC failure repeats the flit, four in a row retrain the link, and
the third failed retraining holds it and raises 0x116; a read-ahead buffer without side effects is discarded in silence.
Choices of the model it rests on: log entries 24 and 25. -/
def Obligations.LinkEvents : Prop := ∀ (s : State), s.now.rst.cReset = false →
  let m := s.now
  (∀ (l : Fin 2) (a w : Nat) (wr : Bool) (v : Word), (m.linkState l ≠ 3 → Makes (.farInitiatedRequest l a w wr v) s s.mem m) ∧
    (m.linkState l = 3 → Mach.farMayAddress l a = false → Makes (.farInitiatedRequest l a w wr v) s s.mem
      ((m.bump (Rg.LATH_XREJ_CNT l)).lathAddr l 5 a)) ∧
    (∀ h n, m.linkState l = 3 → Mach.farMayAddress l a = true → resolve a w = some (.reg h []) → m.reads (0x60 + l) a w n = true →
      Makes (.farInitiatedRequest l a w false v) s s.mem
        ((m.readReg (0x60 + l) a h).1.answer (.value (m.readReg (0x60 + l) a h).2))) ∧
    (∀ h n, m.linkState l = 3 → Mach.farMayAddress l a = true → resolve a 4 = some (.reg h []) → m.takes (0x60 + l) a v.toNat n h.idx = true →
      let y := Mach.act s.mem (m.answer .done) h
        { addr := a, mask := h.d.writeMask, val := v.toNat, init := 0x60 + l, part := m.partOf (0x60 + l), members := [] }
      Makes (.farInitiatedRequest l a 4 true v) s y.1 y.2)) ∧
  (∀ (init : InitId) (a w l : Nat), linkOf a = some l →
    Makes (.lockedSequence init a w true) s s.mem (((m.bump (Rg.LATH_LOCK_CNT l)).lathIrq l 4).answer .busError) ∧
    Makes (.lockedSequence init a w false) s s.mem (((m.bump (Rg.LATH_LOCK_CNT l)).lathIrq l 4).farRead init.toNat a w)) ∧
  (∀ l : Fin 2, m.linkState l = 3 →
    let n := m.lath.replays.getD l 0
    let seen (k : Nat) : Mach := m.modLath fun x => { x with replays := x.replays.modify l fun _ => k }
    Makes (.flitCrcError l false) s s.mem ((seen 0).bump (Rg.LATH_REPLAY_CNT l)) ∧
    (n < 3 → Makes (.flitCrcError l true) s s.mem ((seen (n + 1)).bump (Rg.LATH_REPLAY_CNT l))) ∧
    (3 ≤ n → Makes (.flitCrcError l true) s s.mem (((seen (n + 1)).setLink l 4).lathIrq l 6))) ∧
  (∀ l : Fin 2, m.linkState l = 4 →
    let n := m.lath.retrains.getD l 0
    let tries (k : Nat) : Mach := m.modLath fun x => { x with retrains := x.retrains.modify l fun _ => k }
    Makes (.linkRetrainDone l true) s s.mem ((tries 0).setLink l 3) ∧
    (n < 2 → Makes (.linkRetrainDone l false) s s.mem ((tries (n + 1)).lathIrq l 6)) ∧
    (n = 2 → Makes (.linkRetrainDone l false) s s.mem
      (((((tries 0).setLink l 1).setBit (Rg.LATH_STATUS l) 3 true).lathIrq l 7).raise 0x116 l))) ∧
  (∀ (ch : Fin 24) (b : LBuf), m.lath.bufs = [(ch.val, b)] → (∀ x ∈ b.held, readEffects x.1 = false) →
    Makes (.readaheadDiscard ch) s s.mem (m.modLath fun x => { x with bufs := [] }))

/-! ### Fabric, memories, interrupts -/

/-- R359, R360, R361, R365, R367: a partition restart is requested and ends with its count; a memory request leaves its
address with its core, reads or writes the bytes it names, or ends with POISON or a bus error; ECC
errors are counted, an uncorrectable one marks its word, is recorded and raises 0x115; an xSPI command runs alone.
Choices of the model it rests on: log entries 12 and 53. -/
def Obligations.FabricAndMemory : Prop := ∀ (s : State), s.now.rst.cReset = false →
  let m := s.now
  (∀ (init : InitId) (v : Word), m.takes init.toNat Rg.FAB_PART_CTRL v.toNat .FAB_PART_CTRL [] = true → bitOf v.toNat 4 = true →
    Makes (.partitionRestart init v) s s.mem ((m.answer .done).push (.partRestart (bitsOf v.toNat 3 0)))) ∧
  (∀ (m : Mach) (p : Nat), p < 16 → m.partState p = 2 → (m.restartPart p).fab.restarting = p :: m.fab.restarting ∧
    16 + p ∉ (m.restartPart p).tick.due) ∧
  (∀ (m : Mach) (p : Nat), m.partState p ≠ 2 → m.partRestart p = m) ∧
  (∀ p : Fin 16, m.partState p = 3 → Does (.partitionRestartDone p) s fun mem t => mem = s.mem ∧ t.partState p = 2 ∧
    t.fld (Rg.FAB_PART_STATUS p) 31 16 = satInc 16 (m.fld (Rg.FAB_PART_STATUS p) 31 16) ∧ t.bit Rg.FAB_IRQ_STATUS 2 = true ∧
    t.fab.restarting = m.fab.restarting.filter (· != p.val)) ∧
  (∀ (init : InitId) (a n : Nat) (data : List Byte), let m := s.now.addressed init.toNat a
    m.dbgBlocked init.toNat false = false → n ≠ 0 → m.memFits a n = true →
    (m.fabAllowed init.toNat a n .read = true → m.poisoned a n = false → inRange a bKEYBLOB 0x10000 = false →
      Makes (.fabricRequest init a n 0 data) s s.mem
        ((m.chargeFab init.toNat n).respond init.toNat (.value (leNat (memRead s.mem a n))))) ∧
    (m.fabAllowed init.toNat a n .read = true → m.poisoned a n = true →
      Makes (.fabricRequest init a n 0 data) s s.mem ((m.chargeFab init.toNat n).respond init.toNat .poison)) ∧
    (m.fabAllowed init.toNat a n .read = false → Makes (.fabricRequest init a n 0 data) s s.mem
      ((m.memViolation a init.toNat).respond init.toNat .busError))) ∧
  (∀ (init : InitId) (a n : Nat) (data : List Byte), let m := s.now.addressed init.toNat a
    m.dbgBlocked init.toNat true = false → n ≠ 0 → m.memFits a n = true → inSnap a n = false → m.memIndex a ≠ some 3 → m.memIndex a ≠ some 5 → m.memIndex a ≠ some 6 → m.fabAllowed init.toNat a n .write = true →
    Makes (.fabricRequest init a n 1 data) s (m.memStore s.mem a (sliceBytes data 0 n))
      (((m.chargeFab init.toNat n).unpoison a n).respond init.toNat .done)) ∧
  (∀ k : Fin 7, (k.val < 5 → Makes (.eccCorrectable k) s s.mem ((m.bumpBy (Rg.MEM_CE_CNT k) 1).fire Rg.MEM_IRQ_STATUS 1)) ∧
    (5 ≤ k.val → Makes (.eccCorrectable k) s s.mem m)) ∧
  (∀ (k : Fin 7) (a : BitVec 40), k.val < 6 → m.memIndex a.toNat = some k.val → a.toNat / 8 * 8 ∉ m.memc.poison →
    m.bit Rg.MEM_IRQ_STATUS 2 = false →
    Makes (.eccUncorrectable k a) s s.mem
      (((((({ m with memc := { m.memc with poison := a.toNat / 8 * 8 :: m.memc.poison } } : Mach).bump (Rg.MEM_UE_CNT k)).wr
        Rg.MEM_UE_ADDR_LO (a.toNat % 2 ^ 32)).wr Rg.MEM_UE_ADDR_HI (a.toNat / 2 ^ 32 % 256 ||| k.val <<< 8)).fire
          Rg.MEM_IRQ_STATUS 2).raise 0x115 k)) ∧
  Makes .transportError s s.mem (m.request 0xA false) ∧
  (∀ x a b : Nat, x ≠ 0 → a ≠ 0 → b ≠ 0 → let ce (m : Mach) (k n : Nat) : Mach := (m.bumpBy (Rg.MEM_CE_CNT k) n).fire Rg.MEM_IRQ_STATUS 1
    Makes (.scrubPass x a b) s s.mem (ce (ce (ce m 0 x) 1 a) 2 b) ∧ Makes (.scrubPass 0 a 0) s s.mem (ce m 1 a) ∧
    (m.memc.lpddrGib ≠ 0 → Makes (.lpddrEccPoll x) s s.mem (ce m 4 x)) ∧ (m.memc.lpddrGib = 0 → Makes (.lpddrEccPoll x) s s.mem m)) ∧
  (∀ (init : InitId) (v : Word), m.takes init.toNat Rg.MEM_XSPI_CMD v.toNat .MEM_XSPI_CMD [] = true →
    (bitsOf v.toNat 19 9 ≤ 256 → m.bit Rg.MEM_STATUS 2 = false → Makes (.xspiCmd init v) s s.mem
      (({ m.answer .done with memc := { m.memc with xspi := some v.toNat } } : Mach).setBit Rg.MEM_STATUS 2 true)) ∧
    (256 < bitsOf v.toNat 19 9 ∨ m.bit Rg.MEM_STATUS 2 = true →
      Makes (.xspiCmd init v) s s.mem ((m.answer .done).fire Rg.MEM_IRQ_STATUS 0))) ∧
  (∀ (v : Nat) (bs : List Byte), m.memc.xspi = some v →
    let ended (m : Mach) : Mach := (({ m with memc := { m.memc with xspi := none } } : Mach).setBit Rg.MEM_STATUS 2 false).fire Rg.MEM_IRQ_STATUS 3
    (bitOf v 20 = true → Makes (.xspiCmdDone bs) s s.mem (ended m)) ∧
    (bitOf v 20 = false → Makes (.xspiCmdDone bs) s s.mem (ended (m.forAll (List.range (bitsOf v 19 9)) fun m i =>
      m.setFld (Rg.MEM_XSPI_DATA (i / 4)) (8 * (i % 4) + 7) (8 * (i % 4)) (leAt bs i 1)))))

/-- R364, R410: a source that is enabled, pending and above the priority of what is active reaches its core, a heartwood
source by a visit, and ends Doze where that is an application core; a claim answers the best pending source and makes it active, or answers none; an end of interrupt
ends it.
Choices of the model it rests on: log entry 53. -/
def Obligations.Interrupts : Prop := ∀ (s : State), s.now.rst.cReset = false →
  let m := s.now
  (∀ (n : Fin 1024) (c : Core), let id := coreOfTarget (m.irqTarget n)
    let awake (x : Mach) : Mach := if m.irqTarget n < 4 then x.dozeExit else x
    m.core id = some c → c.run = true → c.halted = false → m.irqEnabled n = true → m.irqPending n = true →
    (c.active = [] → Mach.isShared c = false →
      Makes (.irqAssert n) s s.mem (awake (m.modCore id fun c => { c with recv := some n.val }))) ∧
    (c.active = [] → Mach.isShared c = true → m.heartSource n = true → c.heartNow = false → m.hwState (c.heart.getD 0) ≠ 3 →
      Makes (.irqAssert n) s s.mem
        (awake ((m.modCore id fun c => { c with recv := some n.val }).startVisit id { byIrq := true }))) ∧
    (c.active = [] → Mach.isShared c = true → m.heartSource n = false → c.heartNow = true → Makes (.irqAssert n) s s.mem m) ∧
    (∀ a t, c.active = a :: t → m.irqPrio n ≤ m.irqPrio a → Makes (.irqAssert n) s s.mem m)) ∧
  (∀ (init : InitId) (t : Fin 16), m.reads init.toNat (Rg.IRQ_CLAIM t) 4 .IRQ_CLAIM = true → init.toNat = coreOfTarget t →
    (∀ n, m.irqBest t = some n → Makes (.irqClaim init t) s s.mem
      ((({ m with irq := { m.irq with vec := m.irq.vec.filter (· != n), active := (n, t.val) :: m.irq.active } } : Mach).modCore init.toNat
        fun c => { c with active := n :: c.active, recv := if c.recv == some n then none else c.recv }).answer (.value n))) ∧
    (m.irqBest t = none → Makes (.irqClaim init t) s s.mem (m.answer (.value 0x3FFFFFF)))) ∧
  (∀ (init : InitId) (t : Fin 16) (v : Word), m.takes init.toNat (Rg.IRQ_EOI t) v.toNat .IRQ_EOI [t.val] = true →
    let n := bitsOf v.toNat 25 0
    ((n, t.val) ∈ m.irq.active → Makes (.irqEoi init t v) s s.mem
      (({ m.answer .done with irq := { m.irq with active := m.irq.active.erase (n, t.val) } } : Mach).modCore (coreOfTarget t)
        fun c => { c with active := c.active.erase n })) ∧
    ((n, t.val) ∉ m.irq.active → Makes (.irqEoi init t v) s s.mem (m.answer .done)))

/-- R366: MRAM accepts a write of 32 aligned bytes into an area that its initiator may write, and stores them; every other store
to MRAM completes with a bus error and stores nothing. -/
def Obligations.MramWrites : Prop := ∀ (s : State) (init : InitId) (a : Nat) (data : List Byte), s.now.rst.cReset = false →
  let m := s.now.addressed init.toNat a
  m.dbgBlocked init.toNat true = false → m.memIndex a = some 3 →
  (∀ n, n ≠ 0 → m.memFits a n = true →
    (n = 32 → a % 32 = 0 → m.mramMay init.toNat a = true → m.accessAllowed init.toNat a 32 .write = true →
      Makes (.fabricRequest init a n 1 data) s (memWrite s.mem a (sliceBytes data 0 32))
        (((m.unpoison a 32).chargeFab init.toNat 32).respond init.toNat .done)) ∧
    (n ≠ 32 ∨ a % 32 ≠ 0 ∨ m.mramMay init.toNat a = false →
      Makes (.fabricRequest init a n 1 data) s s.mem (m.respond init.toNat .busError))) ∧
  (data ≠ [] → m.memFits a data.length = true →
    (data.length = 32 → a % 32 = 0 → m.mramMay init.toNat a = true → m.accessAllowed init.toNat a 32 .write = true →
      Makes (.mramWrite init a data) s (memWrite s.mem a data) (((m.unpoison a 32).chargeFab init.toNat 32).respond init.toNat .done)) ∧
    (data.length ≠ 32 ∨ a % 32 ≠ 0 ∨ m.mramMay init.toNat a = false →
      Makes (.mramWrite init a data) s s.mem (m.respond init.toNat .busError)))

/-! ### Coded execution and bents -/

/-- R372, R379, R380, R381, R382, R383, R385, R386: a disagreement is counted and replays within the limit, and reacts without one or
when a load forbids it; a replay that agrees is counted and resumes the core; a checker fault is never replayed;
released by software, a held core starts; CSYNC waits for the replay, CTEST reports or fails, CINJ arms. Each mortise unit
computes the complement of the tenon result from the complemented operands, and every lane then agrees.
Choices of the model it rests on: log entry 55. -/
def Obligations.CheckedCores : Prop := ∀ (s : State), s.now.rst.cReset = false →
  let m := s.now
  (∀ (c : Fin 6) (g : Fin 8) (lanes : Word) (pc : BitVec 40) (loads : Bool), m.chkState c = 1 → (m.chkOf c).inj = false →
    let t := ((((m.chkRecord c (Mach.groupCause g) g lanes.toNat pc.toNat 0 false).bump (Rg.CHK_MISMATCH_CNT c)).chkIrq c 0).modChk c
      fun x => { x with dis := 1, pc := pc.toNat }).modCore (0x10 + 2 * c) fun x => { x with pc := BitVec.ofNat 40 pc.toNat }
    (m.fld (Rg.CHK_CTRL c) 1 0 ≠ 0 → loads = false → Makes (.mismatch c g lanes pc loads) s s.mem (t.setChk c 2)) ∧
    (m.fld (Rg.CHK_CTRL c) 1 0 = 0 ∨ loads = true → Makes (.mismatch c g lanes pc loads) s s.mem (t.chkReact c 0x120))) ∧
  (∀ c : Fin 6, m.chkState c = 2 →
    let t := (((m.modChk c fun x => { x with dis := 0, pc := 0, csync := false }).bump (Rg.CHK_REPLAY_OK_CNT c)).chkIrq c 1).setChk c 1
    ((m.chkOf c).owed = false → (m.chkOf c).csync = false →
      Makes (.replayCompare c none) s s.mem (t.honourHalt (0x10 + 2 * c))) ∧
    ((m.chkOf c).owed = false → (m.chkOf c).csync = true →
      Makes (.replayCompare c none) s s.mem ((t.answer .done).honourHalt (0x10 + 2 * c))) ∧
    (∀ p, (m.chkOf c).owed = true → (m.chkOf c).csync = false →
      Makes (.replayCompare c p) s s.mem ((t.plumb c (p.map (·.toNat))).honourHalt (0x10 + 2 * c)))) ∧
  (∀ (c : Fin 6) (kind : Fin 4) (g : Fin 8) (lanes : Word) (pc : BitVec 40) (both : Bool),
    (m.chkState c = 1 ∨ m.chkState c = 2 ∨ m.chkState c = 4 → Makes (.checkerFault c kind g lanes pc both) s s.mem
      (((m.chkRecord c (8 + kind)
        (if kind = 1 then 0 else if kind = 2 then m.plumbGroup c else if kind = 3 then 7 else g.val) (if kind = 1 then 0 else lanes.toNat)
        (if kind = 2 then 0 else pc.toNat) (m.chkOf c).dis both).bump (Rg.CHK_CHECKER_CNT c)).chkIrq c 2 |>.chkReact c 0x121)) ∧
    (m.chkState c = 0 ∨ m.chkState c = 3 ∨ m.chkState c = 5 → Makes (.checkerFault c kind g lanes pc both) s s.mem m)) ∧
  (∀ l, (m.tick.started = true → Makes (.plumbTimer l) s s.mem m) ∧
    (m.tick.started = false → Makes (.plumbTimer l) s s.mem (m.forAll (List.range 6) fun m c =>
      if m.chkState c = 1 then m.plumb c (Mach.plumbOf l c) else m))) ∧
  (∀ (m : Mach) (c lanes : Nat), m.plumb c (some lanes) =
      (m.modChk c fun x => { x with owed := false }).checkerFault c 0xA (m.plumbGroup c) lanes 0 false ∧
    (c < 6 → (m.plumb c none).plumbGroup c = (m.plumbGroup c + 1) % 8)) ∧
  (∀ (o : CodedOp) (k : CodedCond) (a b : Word), o.mortise (~~~a) (~~~b) = ~~~(o.tenon a b) ∧
    k.mortise (~~~a) (~~~b) = !(k.tenon a b) ∧ (∀ x, lanesOf (o.tenon a b) x = 0 ↔ x = o.mortise (~~~a) (~~~b))) ∧
  (∀ (init : InitId) (c : Fin 6) (v : Word), m.takes init.toNat (Rg.CHK_CMD c) v.toNat .CHK_CMD [c.val] = true → bitOf v.toNat 0 = true →
    (m.chkState c = 3 → Makes (.chkRelease init c v) s s.mem (((m.answer .done).setChk c 0).startCore (0x10 + 2 * c)).showChk) ∧
    (m.chkState c ≠ 3 → Makes (.chkRelease init c v) s s.mem ((m.answer .done).chkIrq c 5))) ∧
  (∀ (init : InitId) (k : Nat) (gd : Fin 32) (g : Fin 8) (lanes : Word), m.coder init.toNat = some k →
    (m.fab.coded = true → m.chkState k = 2 → Makes (.csync init) s s.mem (m.modChk k fun x => { x with csync := true })) ∧
    (m.fab.coded = false ∨ m.chkState k ≠ 2 → Makes (.csync init) s s.mem (m.answer .done)) ∧
    (m.fab.coded = false → Makes (.ctest init gd none) s s.mem (m.setReg init.toNat gd 0xFFFFFFFF)) ∧
    (m.fab.coded = true → Makes (.ctest init gd none) s s.mem (m.setReg init.toNat gd 0) ∧
      Makes (.ctest init gd (some (g, lanes))) s s.mem (m.checkerFault k 0xA g lanes.toNat 0 false)) ∧
    (m.fab.coded = true → m.isHeart init.toNat = true → m.bit (Rg.CHK_CTRL k) 2 = true →
      Makes (.cinj init) s s.mem (m.modChk k fun x => { x with inj := true })))

/-- R396, R397, R398, R400, R401, R402, R403: a failure signal of a running bent records, reports and raises 0x130, and hands its
duties over; with no bent left to take them 0x131 follows; a planned switch-over and a repair begin where the states
allow them; a repaired bent that passes its tests resynchronises by a copy of the other bent's TCM.
Choices of the model it rests on: log entries 56 and 69. -/
def Obligations.Bents : Prop := ∀ (s : State), s.now.rst.cReset = false →
  let m := s.now
  (∀ (b : Fin 2) (src : Fin 6) (k : Fin 8), src ≠ 0 → src ≠ 4 →
    let t := ((((m.recordFail b src (if src = 1 then k.val else 7)).raise 0x130 b).setBent b 2).holdBent b).fire Rg.BENT_IRQ_STATUS 1
    (m.bentState b = 1 → m.bentState (1 - b.val) = 1 →
      Makes (.bentFailureSignal b src k) s s.mem ((t.switchOver b (1 - b.val)).followCores true)) ∧
    (m.bentState b = 1 → m.bentState (1 - b.val) = 2 → Makes (.bentFailureSignal b src k) s s.mem ((t.raise 0x131 b).followCores true)) ∧
    (m.bentState b = 2 → Makes (.bentFailureSignal b src k) s s.mem (m.followCores true))) ∧
  (m.bent.overlap ≠ 0 → Makes .overlapWindowEnd s s.mem { m.laneArrives with bent := { m.laneArrives.bent with overlap := 0 } }) ∧
  (∀ (init : InitId) (v : Word), m.takes init.toNat Rg.BENT_CMD v.toNat .BENT_CMD [] = true →
    let b := bitsOf v.toNat 8 8
    let w := m.answer .done
    (bitsOf v.toNat 31 16 = 0xB3E7 → bitsOf v.toNat 1 0 = 1 → m.bentState (1 - b) = 1 →
      (m.bentState b ≠ 0 → m.bentState b ≠ 2 → Makes (.bentSwitch init v) s s.mem
        (((w.recordFail b 4 7).raise 0x130 b).modBent fun x => { x with planned := x.planned ++ [b] })) ∧
      (m.bentState b = 0 ∨ m.bentState b = 2 → Makes (.bentSwitch init v) s s.mem w)) ∧
    (bitsOf v.toNat 31 16 = 0xB3E7 → bitsOf v.toNat 1 0 = 2 → m.bentState b = 2 → m.bentState (1 - b) = 1 →
      m.bit Rg.RSTC_GROUP_RST (25 + b) = false → (∀ k, k < 3 → m.chkState (3 * b + k) ≠ 3) →
      Makes (.bentRepair init v) s s.mem (w.setBent b 3)) ∧
    (bitsOf v.toNat 31 16 ≠ 0xB3E7 → Makes (.bentSwitch init v) s s.mem (w.bentIrq 6) ∧
      Makes (.bentRepair init v) s s.mem (w.bentIrq 6))) ∧
  (∀ b, m.bentIn 3 = some b →
    ((∀ p ∈ Mach.bentParts b, m.bistShown p = 1) → Makes (.repairTestDone true) s s.mem (m.setBent b 4)) ∧
    Makes (.repairTestDone false) s s.mem
      ((((m.setBent b 2).modBent fun x => { x with copied := none }).bentIrq 4).raise 0x133 b)) ∧
  (∀ b, m.bentIn 4 = some b →
    Makes .tcmCopyDone s (Mach.copyTcm s.mem b) ((m.unpoison (bTCM b) 0xF0000).modBent fun x => { x with copied := some b }))

/-! ### Worlds and debug -/

/-- R407, R408, R409, R411, R412, R414: PEG does nothing; WCALL enters the core's heartwood at a PEG inside an enabled window and
hands over g1 to g8, writes the unavailable code while the partition is not ready, and faults elsewhere; WRET hands
the result back; a visit that lasts too long is abandoned and its partition restarts; a heartwood partition reports
ready once; a claim holds its lease until it is released or lapses.
Choices of the model it rests on: log entries 57 and 65. -/
def Obligations.Worlds : Prop := ∀ (s : State), s.now.rst.cReset = false →
  let m := s.now
  (∀ init : InitId, Makes (.peg init) s s.mem m) ∧
  (∀ (init : InitId) (gd gs : Fin 32) (c : Core), m.core init.toNat = some c → c.run = true → c.halted = false →
    let p := c.heart.getD 0
    let a := (c.gSap.getD gs 0).toNat
    (Mach.isShared c = false → Makes (.wcall init gd gs) s s.mem (m.modCore init.toNat fun c => { c with lastFault := 5 }) ∧
      Makes (.wret init gs) s s.mem (m.modCore init.toNat fun c => { c with lastFault := 5 })) ∧
    (Mach.isShared c = true → c.heartNow = false →
      (m.hwState p ≠ 1 ∨ m.partState p ≠ 2 → Makes (.wcall init gd gs) s s.mem
        (m.modCore init.toNat fun c => { c with gSap := setG c.gSap gd hwUnavailable })) ∧
      (∀ e, m.hwState p = 1 → m.partState p = 2 → e < 32 → m.bit (Rg.WORLD_PEG_LO e) 0 = true →
        m.fld (Rg.WORLD_PEG_SIZE e) 19 16 = p → inRange a (m.pegSpan e (m.rd (Rg.WORLD_PEG_LO e))).1
          (m.pegSpan e (m.rd (Rg.WORLD_PEG_LO e))).2 = true → leNat (memRead s.mem a 4) = pegWord →
        Makes (.wcall init gd gs) s s.mem ((m.modCore init.toNat fun c => { c with gHeart := copyArgs c.gSap c.gHeart }).startVisit
          init.toNat { gd := gd })) ∧
      (m.hwState p = 1 → m.partState p = 2 → leNat (memRead s.mem a 4) ≠ pegWord → Makes (.wcall init gd gs) s s.mem
        (((m.modCore init.toNat fun c => { c with lastFault := 4 }).bump Rg.WORLD_PEG_FAULT_CNT).fire Rg.WORLD_IRQ_STATUS 1))) ∧
    (∀ v, Mach.isShared c = true → c.inHeart = true → c.visit = some v →
      let r (d : Core) : Nat := (d.gHeart.getD gs 0).toNat
      let g (d : Core) : List Word := if v.byIrq = true ∨ v.initial = true then d.gSap
        else setG (copyArgs d.gHeart d.gSap) v.gd (if hwUnavailable ≤ r d then hwBadReturn else r d)
      Makes (.wret init gs) s s.mem (((m.modCore init.toNat fun d => { d with
          inHeart := false, visit := none, run := d.sapReady && m.partUp d.sap, restartSap := d.restartSap && !m.partUp d.sap,
          gSap := if d.restartSap then noRegs else g d }).honourHalt init.toNat).showChk))) ∧
  (∀ (init : InitId) (c : Core) (v : Visit) (p : Fin 16), m.core init.toNat = some c → c.visit = some v → c.heart = some p.val →
    v.initial = false → c.halted = false → m.hwState p = 1 → p.val ∉ m.world.hung → m.todo = [] →
    Does (.visitTimeout init) s fun mem t => mem = s.mem ∧ t.hwState p = 2 ∧ t.world.hung = p.val :: m.world.hung ∧
      t.todo = [.partRestart p] ∧ t.rd Rg.WORLD_TIMEOUT_CNT = satInc 32 (m.rd Rg.WORLD_TIMEOUT_CNT) ∧ t.bit Rg.WORLD_IRQ_STATUS 2 = true) ∧
  (∀ (init : InitId) (p : Fin 16) (v : Word), m.takes init.toNat (Rg.WORLD_HW_READY p) v.toNat .WORLD_HW_READY [p.val] = true →
    bitOf v.toNat 0 = true → m.hwState p = 0 →
    Makes (.worldHwReady init p v) s s.mem (((m.answer .done).setHw p 1).fire Rg.WORLD_IRQ_STATUS 3)) ∧
  (∀ (init : InitId) (k : Fin 4) (v : Word), m.takes init.toNat (Rg.WORLD_CLAIM k) v.toNat .WORLD_CLAIM [k.val] = true →
    let w := (m.answer .done).wr (Rg.WORLD_CLAIM k) (v.toNat &&& 0xFFFF0001)
    (bitOf v.toNat 0 = true → Makes (.worldClaim init k v) s s.mem
      ((w.modWorld fun x => { x with lease := kput x.lease k (m.clk.lt + bitsOf v.toNat 31 16 * 1000000) }).setFld
        (Rg.WORLD_CLAIM_LEFT k) 31 28 ((m.partOf init.toNat).getD 0))) ∧
    (bitOf v.toNat 0 = false → Makes (.worldClaimRelease init k v) s s.mem
      (w.modWorld fun x => { x with lease := kdel x.lease k }))) ∧
  (∀ k : Fin 4, (kget m.world.lease k).isSome = true → Makes (.leaseExpiry k) s s.mem
    (((m.modWorld fun x => { x with lease := kdel x.lease k }).setBit (Rg.WORLD_CLAIM k) 0 false).fire Rg.WORLD_IRQ_STATUS 4))

/-- R94, R389, R417, R418, R419, R421: the debug port halts, steps and resumes a core only in a world whose invasive enable is set,
and a request waits otherwise, as it does during a replay; a register write whose replay path fails is a checker fault; a challenge gets a fresh nonce, its last word starts the check, a good response grants
what the lifecycle allows, a bad one is counted, a lock withdraws it; EXTEST needs both enables; a peg window is
enabled only where the conditions hold; a reset request has cause DEBUG.
Choices of the model it rests on: log entries 21 and 58. -/
def Obligations.DebugRights : Prop := ∀ (s : State), s.now.rst.cReset = false →
  let m := s.now
  (∀ (id : InitId) (c : Core), m.fab.cores = [(id.toNat, c)] → Mach.safeOf id.toNat = none →
    (c.halted = false → c.run = true → m.mayHalt c = true →
      let w : Mach := { m with fab := { m.fab with cores := [(id.toNat, { c with halted := true, haltReq := false })] } }
      Makes (.debugHalt id) s s.mem w ∧ Makes (.debugStep id) s s.mem w) ∧
    (c.halted = false → m.mayHalt c = false →
      Makes (.debugHalt id) s s.mem { m with fab := { m.fab with cores := [(id.toNat, { c with haltReq := true })] } }) ∧
    (c.halted = true → Makes (.debugStep id) s s.mem m) ∧
    (c.halted = true → m.mayHalt c = true → ∀ (g : DbgTarget) (v f : Word),
      Makes (.debugRegisterWrite id g v f) s s.mem ((m.debugSet id.toNat g v.toNat).answer .done)) ∧
    (c.halted = false → ∀ (g : DbgTarget) (v f : Word), Makes (.debugRegisterWrite id g v f) s s.mem (m.answer .busError)) ∧
    (c.halted = true → m.mayHalt c = true → Makes (.debugResume id) s s.mem
      { m with fab := { m.fab with cores := [(id.toNat, { c with halted := false, haltReq := false })] } })) ∧
  (∀ (id : InitId) (c : Core) (k : Nat), m.core id.toNat = some c → Mach.safeOf id.toNat = some k → m.mayHalt c = true →
    (c.halted = false → c.run = true → m.fab.coded = true → m.chkState k = 1 → Makes (.debugHalt id) s s.mem
      ((m.modCore id.toNat fun c => { c with halted := true, haltReq := false }).setChk k 4)) ∧
    (c.halted = false → c.run = true → m.fab.coded = true → m.chkState k = 2 → Makes (.debugHalt id) s s.mem
      (m.modCore id.toNat fun c => { c with haltReq := !c.halted })) ∧
    (c.halted = true → ∀ (g : DbgTarget) (v f : Word),
      (m.fab.coded = true → f ≠ 0 → Makes (.debugRegisterWrite id g v f) s s.mem (m.checkerFault k 0xB 7 f.toNat 0 false)) ∧
      (m.fab.coded = false ∨ f = 0 → Makes (.debugRegisterWrite id g v f) s s.mem ((m.debugSet id.toNat g v.toNat).answer .done)))) ∧
  (∀ (init : InitId) (v : Word), (m.takes init.toNat Rg.WORLD_DBG_REQ v.toNat .WORLD_DBG_REQ [] = true →
      Does (.dbgRequest init v) s fun mem t => mem = s.mem ∧ t.world.nonce = true ∧ t.world.req = v.toNat % 16 ∧
        t.world.checking = false ∧ t.world.granted = m.world.granted ∧ t.drawn = m.drawn + 4) ∧
    (m.takes init.toNat (Rg.WORLD_DBG_RESP 7) v.toNat .WORLD_DBG_RESP [7] = true → Makes (.dbgResponse init v) s s.mem
      (((m.answer .done).wr (Rg.WORLD_DBG_RESP 7) v.toNat).modWorld fun x => { x with checking := true })) ∧
    (m.takes init.toNat Rg.WORLD_DBG_LOCK v.toNat .WORLD_DBG_LOCK [] = true → bitOf v.toNat 0 = true →
      Makes (.dbgLock init v) s s.mem (((m.answer .done).modWorld fun x => { x with granted := 0 }).showDbg))) ∧
  (m.world.checking = true →
    let w := m.modWorld fun x => { x with checking := false }
    let words (r : Nat → Nat) (n : Nat) : List Byte := ((List.range n).map fun i => leBytes 4 (m.rd (r i))).flatten
    let good (k : List Byte) : List Byte :=
      Mach.kmac k "MZ4820-DEBUG" (words Rg.WORLD_DBG_NONCE 4 ++ Mach.uidBytes ++ leBytes 4 m.world.req) 32
    (m.keyWith 5 = none → Makes .dbgCheckDone s s.mem w.dbgFails) ∧
    (∀ k, m.keyWith 5 = some k → m.world.nonce = true → m.bit Rg.WORLD_DBG_STATUS 12 = false → words Rg.WORLD_DBG_RESP 8 = good k →
      Makes .dbgCheckDone s s.mem ((((w.modWorld fun x => { x with
        granted := x.granted ||| (x.req &&& dbgByChallenge m.lifecycle) }).voidNonce).showDbg).fire Rg.WORLD_IRQ_STATUS 5)) ∧
    (∀ k, m.keyWith 5 = some k → words Rg.WORLD_DBG_RESP 8 ≠ good k → Makes .dbgCheckDone s s.mem w.dbgFails)) ∧
  ((∀ i, i < 5 → m.pinFn (ballNo 6 (22 + i)) = some 0x70) →
    (bitOf m.dbgEnables 1 = true → bitOf m.dbgEnables 3 = true →
      Makes .boundaryScanExtest s s.mem ((m.modWorld fun x => { x with extest := true }).answer .done)) ∧
    (bitOf m.dbgEnables 1 = false ∨ bitOf m.dbgEnables 3 = false → Makes .boundaryScanExtest s s.mem (m.answer .busError))) ∧
  (∀ (init : InitId) (e : Fin 32) (v : Word), m.takes init.toNat (Rg.WORLD_PEG_LO e) v.toNat .WORLD_PEG_LO [e.val] = true →
    m.bit (Rg.WORLD_PEG_LO e) 0 = false → bitOf v.toNat 0 = true → let w := m.answer .done
    (w.pegOk e v.toNat = true → Makes (.pegWindowEnable init e v) s s.mem (w.wr (Rg.WORLD_PEG_LO e) (v.toNat &&& 0xFFFFF001))) ∧
    (w.pegOk e v.toNat = false → Makes (.pegWindowEnable init e v) s s.mem
      ((w.wr (Rg.WORLD_PEG_LO e) (v.toNat &&& 0xFFFFF000)).fire Rg.WORLD_IRQ_STATUS 7))) ∧
  (∀ warm, Makes (.debugResetRequest warm) s s.mem (m.request 0xF warm))

/-! ### Virtual device instances -/

/-- R425, R426, R430, R434, R435, R437, R438: what a state allows waits for the edge, starts, or is forwarded; anything else is
refused with STATE or BUSY; a reset takes the instance to RESET in a new generation; a quiet instance freezes and
holds its pending vectors; a save voids the magic first, and the saved record carries its tag; a refused record leaves its code and detail.
Choices of the model it rests on: log entry 59. -/
def Obligations.Instances : Prop := ∀ (s : State), s.now.rst.cReset = false →
  let m := s.now
  (∀ (init : InitId) (i : Fin 128) (v : Word), m.takes init.toNat (Rg.VDEV_INST_CMD i) v.toNat .VDEV_INST_CMD [i.val] = true →
    m.instDefined i = true →
    let w := m.answer .done
    let begin' (m : Mach) : Mach := (m.setBusy i true).setBit (Rg.VDEV_INST_RESULT i) 31 false
    let waits (op : Nat) : Mach := begin' (w.modInst i fun x => { x with cmd := some op })
    let job (op : Nat) : Mach := begin' (w.modInst i fun x => { x with job := some (op, m.instAddr i) })
    let op := bitsOf v.toNat 3 0
    (m.instState i ≠ 4 → op = 3 → Makes (.vdevReset init i v) s s.mem (w.instResetCmd i)) ∧
    (m.instState i = 4 → op = 3 → (m.inst i).job = none → (m.inst i).ready = none →
      Makes (.vdevReset init i v) s s.mem (w.instResult i 2 0xFF)) ∧
    (m.instState i = 2 → op ≠ 3 → Makes (.vdevFreeze init i v) s s.mem (w.instResult i 2 0xFF)) ∧
    ((m.inst i).resetNow = false → (m.inst i).ready = none →
      (m.instBusy i = true → m.instState i = 1 → op = 1 → Makes (.vdevFreeze init i v) s s.mem (w.instResult i 1 0xFF)) ∧
      (m.instBusy i = false →
        (m.instState i = 1 → op = 1 → Makes (.vdevFreeze init i v) s s.mem (waits 1)) ∧
        (m.instState i = 3 → op = 2 → Makes (.vdevThaw init i v) s s.mem (waits 2)) ∧
        (m.instState i = 4 → op = 4 → Makes (.vdevRelease init i v) s s.mem (waits 4)) ∧
        (m.instState i = 3 → op = 5 → w.saveCode i = 0 → (m.inst i).job = none →
          Makes (.vdevSave init i v) s (m.memStore s.mem (m.instAddr i) (List.replicate 4 0)) (job 5)) ∧
        (∀ c, m.instState i = 3 → op = 5 → w.saveCode i = c → c ≠ 0 →
          Makes (.vdevSave init i v) s s.mem (w.instResult i c 0xFF)) ∧
        (m.instState i = 4 → op = 6 → Makes (.vdevRestore init i v) s s.mem (job 6)) ∧
        ((m.instState i = 1 ∨ m.instState i = 4) →
          let t := bitsOf v.toNat 29 29
          let k := bitsOf v.toNat 28 16
          let words := (List.range 7).map fun x => m.rd (Rg.VDEV_GWY_DATA i x)
          let go : Mach := (begin' w).tblStart (op - 5) t k words (some i.val)
          (w.gwyInRange i op t k words = true → m.gwy.cmd = none →
            (op = 7 → Makes (.vdevGwyWrite init i v) s s.mem go) ∧ (op = 8 → Makes (.vdevGwyClear init i v) s s.mem go)) ∧
          (w.gwyInRange i op t k words = false → op = 7 → Makes (.vdevGwyWrite init i v) s s.mem (w.instResult i 0xB 0xFF)))))) ∧
  (∀ (m : Mach) (i : Nat), i < 128 → m.instDefined i = true → (m.instReset i).instState i = 4 ∧
    (m.instReset i).instGen i = (if m.instGen i = 0xFFFF then 1 else m.instGen i + 1) ∧ (m.instReset i).instBusy i = false) ∧
  (∀ i : Fin 128, m.instState i = 2 → Does (.vdevFrozen i) s fun mem t => mem = s.mem ∧ t.instState i = 3 ∧ t.instBusy i = false ∧
    t.bit (Rg.VDEV_EVT i 0) 31 = true ∧ t.irq.vec = m.irq.vec.filter fun v => !(m.instVecs i).contains v) ∧
  (∀ (i : Fin 128) (a : Nat), (m.inst i).job = some (5, a) →
    let ended (m : Mach) (code detail : Nat) : Mach := ((m.setBusy i false).instResult i code detail).instDone i
    (∀ k, m.scarfKey = some k → let b := Mach.scarfBody s.mem m i
      Makes (.vdevSaveDone i) s (m.memStore s.mem a (b ++ Mach.kmac k "MZ4820-SCARF" b 32))
        (ended ((m.unpoison a (b.length + 32)).modInst i fun x => { x with job := none }) 0 0xFF)) ∧
    (m.scarfKey = none → Makes (.vdevSaveDone i) s s.mem (ended (m.modInst i fun x => { x with job := none }) 4 0xFF))) ∧
  (∀ (i : Fin 128) (a : Nat), (m.inst i).job = some (6, a) → let c := Mach.restoreCode s.mem m i a
    let r := Mach.restoreEnds s.mem m i a c.1 c.2
    Makes (.vdevRestoreDone i) s r.1 r.2) ∧
  (∀ (mem : Mem) (m : Mach) (i a c d : Nat), let w := (m.modInst i fun x => { x with job := none }).setBusy i false
    (c ≠ 0 → Mach.restoreEnds mem m i a c d = (mem, (w.instResult i c d).instDone i)) ∧
    (m.instRegions i = [] → Mach.restoreEnds mem m i a 0 d = (mem,
      ((w.modInst i fun x => { x with ready := some (memRead mem a (leNat (memRead mem (a + 8) 4))) }).instResult i 0 0xFF).instDone i)))

/-- R428, R429, R433: a re-division operation that passes its check waits for the commit and reports; one that does not
reports its code and slot; a completion of another generation is discarded and counted; an event of a slot is latched,
and in RUN raises the slot's vector.
Choices of the model it rests on: log entry 59. -/
def Obligations.Redivision : Prop := ∀ (s : State), s.now.rst.cReset = false →
  let m := s.now
  (∀ (init : InitId) (v : Word), m.takes init.toNat Rg.VDEV_REDIV v.toNat .VDEV_REDIV [] = true →
    let w := m.answer .done
    let r : Rediv := ⟨bitsOf v.toNat 31 30, bitsOf v.toNat 29 23, bitsOf v.toNat 22 16, bitsOf v.toNat 15 12, m.fld Rg.VDEV_REDIV_AMOUNT 23 0⟩
    let l := m.vdev.rediv.foldl Mach.redivApply m.vdev.slots
    (∀ d, w.redivCode l r = (0, d) →
      let t := (((w.modVdev fun x => { x with rediv := x.rediv ++ [r] }).wr Rg.VDEV_REDIV_RESULT (1 <<< 31 ||| 0 <<< 30 ||| 0 <<< 8 ||| d)).showVdev)
      (r.op = 1 → Makes (.redivSet init v) s s.mem t) ∧ (r.op = 2 → Makes (.redivMove init v) s s.mem t) ∧
      (r.op = 3 → Makes (.redivMoveAll init v) s s.mem t)) ∧
    (∀ c d, w.redivCode l r = (c, d) → c ≠ 0 →
      let t := (w.wr Rg.VDEV_REDIV_RESULT (1 <<< 31 ||| 1 <<< 30 ||| c <<< 8 ||| d)).showVdev
      (r.op = 1 → Makes (.redivSet init v) s s.mem t) ∧ (r.op = 2 → Makes (.redivMove init v) s s.mem t) ∧
      (r.op = 3 → Makes (.redivMoveAll init v) s s.mem t))) ∧
  (∀ (i : Fin 128) (g : BitVec 16), m.instDefined i = true →
    (m.instGen i ≠ g.toNat → Makes (.lateCompletion i g) s s.mem
      ((m.bump (Rg.VDEV_LATE_CNT i)).modInst i fun x => { x with late := true })) ∧
    (m.instGen i = g.toNat → Makes (.lateCompletion i g) s s.mem m)) ∧
  (∀ (i : Fin 128) (e : Fin 16) (b : Fin 4) (x : VSlot), m.instSlot i e = some x →
    ((x.kind = kRXQ ∨ x.kind = kTXQ) ∧ b.val < 2 ∨ x.kind = kRING ∨ (x.kind = kLOAD ∨ x.kind = kBW) ∧ b.val = 0 →
      Makes (.virtualEvent i e b) s s.mem (m.slotEvent x b)) ∧
    (x.kind = kROUTES ∨ x.kind = kPDUS → Makes (.virtualEvent i e b) s s.mem m)) ∧
  (∀ (m : Mach) (x : VSlot) (b : Nat), x.inst < 128 → x.e < 16 → let w := m.setBit (Rg.VDEV_EVT x.inst x.e) b true
    m.slotEvent x b = if m.instState x.inst = 1 then w.setVec (m.vecOf x.inst x.e) else w)

/-! ### Security engine and Buile sessions -/

/-- R443, R453, R454, R459, R460: a descriptor is taken or queued; the running operation answers its descriptor and makes
room for the next; a MAC uses its slot's key, the exported identity is the public key; the identity becomes ready
with its hash, and then answers what has waited for it; a nonce, a session and the lockout end with their time.
Choices of the model it rests on: log entries 8, 60 and 61. -/
def Obligations.KeyOperations : Prop := ∀ (s : State), s.now.rst.cReset = false →
  let m := s.now
  (∀ (init : InitId) (v : Word), m.takes init.toNat Rg.KEY_SUBMIT v.toNat .KEY_SUBMIT [] = true →
    let a := v.toNat &&& 0xFFFFFFE0
    let w := m.answer .done
    (∀ d, m.key.cur = none → m.dmaRead s.mem init.toNat a 32 = some d → 1 ≤ leAt d 0 1 → leAt d 0 1 ≤ 4 →
      Makes (.keySubmit init v) s s.mem
        (((w.modKey fun k => { k with cur := some (a, init.toNat), start := k.slots }).showKeyStatus).chargeFab init.toNat 32)) ∧
    (m.key.cur.isSome = true → m.key.queue.length < 8 → Makes (.keySubmit init v) s s.mem
      ((w.modKey fun k => { k with queue := k.queue ++ [(a, init.toNat)] }).showKeyStatus)) ∧
    (m.key.cur.isSome = true → 8 ≤ m.key.queue.length →
      Makes (.keySubmit init v) s s.mem ((w.fire Rg.KEY_IRQ_STATUS 1).answer .busError))) ∧
  (∀ (a i : Nat) (d : List Byte), m.keyRuns = true → m.key.cur = some (a, i) → m.dmaRead s.mem i a 32 = some d →
    let gives (c : Instr) (r : Mem × Mach × Nat × List Byte) : Prop :=
      let x := Mach.keyAnswer s.mem m a i d r
      let y := Mach.keyTake x.1 x.2.keyNext 9
      Makes c s y.1 y.2
    (leAt d 0 1 = 1 → gives .keyOpUpdate (s.mem, Mach.updateOp s.mem m i d)) ∧
    (leAt d 0 1 = 2 → gives .keyOpMac (s.mem, Mach.macOp s.mem m i d)) ∧
    (leAt d 0 1 = 3 → m.bit Rg.KEY_STATUS 16 = true → gives .keyOpExportId (s.mem, m, 0, Mach.idPublic)) ∧
    (leAt d 0 1 = 4 → Mach.buileHeld s.mem m = false → gives .keyOpBuile (Mach.buileOp s.mem m i d)) ∧
    (Mach.buileHeld s.mem m = true → Makes .keyOpBuile s s.mem m) ∧
    (∀ k x, m.startSlot (leAt d 1 1) = some k → bitOf k.usage 7 = true → m.admits i (m.keyOwner (leAt d 1 1)) = true →
      Mach.keyInput s.mem m i d = some x → Mach.macOp s.mem m i d = (m.chargeFab i x.length, 0, Mach.kmac k.value "MZ4820-APP" x 32)) ∧
    (∀ mem t c o, c ≠ 0 → Mach.keyAnswer s.mem m a i d (mem, t, c, o) = Mach.descEnd mem t a i c 0) ∧
    (∀ mem t o, leAt d 20 4 < o.length → Mach.keyAnswer s.mem m a i d (mem, t, 0, o) = Mach.descEnd s.mem m a i 3 0)) ∧
  (m.keyRuns = true → m.key.fuseBad = false →
    let t := ((m.forAll (List.range 8) fun m w =>
      m.wr (Rg.KEY_ID_HASH w) (leAt (leBytes 32 (Config.sha3x256 Mach.idPublic).toNat) (4 * w) 4)).setBit Rg.KEY_STATUS 16 true)
    let cold : Prop := m.rst.warmStart = false ∧ m.rst.step = 7 ∧ m.isStranded = false
    (cold → m.key.waits = [] → Makes .identityReady s s.mem (t.showStage 8)) ∧
    (¬cold → m.key.waits = [] → Makes .identityReady s s.mem t) ∧
    (∀ fr, ¬cold → m.key.waits = [(none, fr)] →
      let r := Mach.buile s.mem (t.modKey fun k => { k with waits := [] }) fr
      Makes .identityReady s r.1 (r.2.1.modKey fun k => { k with reply := r.2.2 }))) ∧
  Makes .nonceExpiry s s.mem (m.modKey fun k => { k with nonces := k.nonces.dropLast }) ∧
  Makes .openLockoutExpiry s s.mem ((m.modKey fun k => { k with lockout := false }).showKeyStatus) ∧
  (∀ n : Fin 8, ((kget m.key.sess n).isSome = true → Makes (.sessionIdleTimeout n) s s.mem
      (((m.modKey fun k => { k with sess := kdel k.sess n }).fire Rg.KEY_IRQ_STATUS 5).showSessions)) ∧
    (kget m.key.sess n = none → Makes (.sessionIdleTimeout n) s s.mem m))

/-- R452, R457, R458, R459, R460, R461, R470, R479: HELLO gives a nonce; OPEN opens the lowest free session or is refused and counted;
a request of an open session with the next sequence number and a good tag is answered, with the right it needs, by what
its type means, one that needs the identity once it is ready; a wrong session, sequence number or tag is refused; segments are put together and answered.
Choices of the model it rests on: log entries 8 and 61. -/
def Obligations.BuileRequests : Prop := ∀ (s : State), s.now.rst.cReset = false → s.now.keyRuns = true →
  let m := s.now
  let replies (c : Instr) (mem : Mem) (t : Mach) (r : List Byte) : Prop := Makes c s mem (t.modKey fun k => { k with reply := r })
  (∀ (fr : List Byte) (f : BFrame), buileParse fr = some f →
    (f.typ = 1 → replies (.buileHello fr) s.mem m.freshNonce.2
      (buileReply 1 f.ses f.seq 0 m.freshNonce.1 ((kget m.freshNonce.2.key.sess f.ses).map (·.sk)))) ∧
    (f.typ = 2 → f.body.length = 100 →
      let n := sliceBytes f.body 4 32
      let w := m.modKey fun k => { k with nonces := k.nonces.erase n }
      (∀ k x, w.openCheck f.body (m.key.nonces.contains n) = .ok (k, x) → replies (.buileOpen fr) s.mem
        ((w.modKey fun y : KeySt => { y with sess := kput y.sess k x, openFails := 0 }).showSessions.journal 0x44 k x.keyRef x.rights)
        (buileReply 2 f.ses f.seq 0 [] (some x.sk))) ∧
      (∀ c, w.openCheck f.body (m.key.nonces.contains n) = .error c → replies (.buileOpen fr) s.mem (w.openFails c (leAt f.body 0 2))
        (buileReply 2 f.ses f.seq c [] none))) ∧
    (f.typ = 2 → f.body.length ≠ 100 → replies (.buileOpen fr) s.mem (m.openFails 3 (leAt f.body 0 2))
      (buileReply 2 f.ses f.seq 3 [] none)) ∧
    (f.typ = 4 → kget m.key.sess f.ses = none → replies (.builePing fr) s.mem m (buileReply 4 f.ses f.seq 0x23 [] none)) ∧
    (∀ x, f.typ = 4 → kget m.key.sess f.ses = some x → f.seq ≠ x.seq + 1 →
      replies (.builePing fr) s.mem (m.sessFails f.ses x) (buileReply 4 f.ses f.seq 0x24 [] none)) ∧
    (∀ x, f.typ = 4 → kget m.key.sess f.ses = some x → f.seq = x.seq + 1 → f.tag ≠ buileTag x.sk f.hdr f.body 0 →
      replies (.builePing fr) s.mem (m.sessFails f.ses x) (buileReply 4 f.ses f.seq 0x25 [] none)) ∧
    (∀ x, kget m.key.sess f.ses = some x → f.seq = x.seq + 1 → f.tag = buileTag x.sk f.hdr f.body 0 → m.bit Rg.KEY_STATUS 16 = false →
      let w := m.modKey fun k => { k with waits := k.waits ++ [(none, fr)] }
      (f.typ = 17 → Makes (.buileAttestSigned fr) s s.mem w) ∧ (f.typ = 18 → Makes (.buileReadIdentity fr) s s.mem w)) ∧
    (∀ x, kget m.key.sess f.ses = some x → f.seq = x.seq + 1 → f.tag = buileTag x.sk f.hdr f.body 0 → f.seq ≠ 0xFFFFFFFF →
      m.isStranded = false →
      let w := m.modKey fun k => { k with sess := kput k.sess f.ses { x with seq := f.seq, fails := 0 } }
      let sk (t : Mach) : Option (List Byte) := (kget t.key.sess f.ses).map (·.sk)
      let good (c : Instr) (mem : Mem) (t : Mach) (b : List Byte) : Prop := replies c mem t (buileReply f.typ f.ses f.seq 0 b (sk t))
      let ends (c : Instr) (mem : Mem) (t : Mach) (code : Nat) (b : List Byte) : Prop :=
        replies c mem t (buileReply f.typ f.ses f.seq code b (if code = 0 then sk t else none))
      let needs (c : Instr) (r : Nat) : Prop :=
        bitOf x.rights r = false → replies c s.mem w (buileReply f.typ f.ses f.seq 0x26 [] none)
      (f.typ = 3 → replies (.buileClose fr) s.mem ((w.modKey fun k => { k with sess := kdel k.sess f.ses }).showSessions)
        (buileReply 3 f.ses f.seq 0 [] (sk w))) ∧
      (f.typ = 4 → good (.builePing fr) s.mem w []) ∧
      (f.typ = 16 → ends (.buileAttest fr) s.mem w (w.buileAttest f.body).1 (w.buileAttest f.body).2) ∧
      (f.typ = 17 → m.bit Rg.KEY_STATUS 16 = true → ends (.buileAttestSigned fr) s.mem (w.buileSigned f.body).1 (w.buileSigned f.body).2.1 (w.buileSigned f.body).2.2) ∧
      (f.typ = 18 → m.bit Rg.KEY_STATUS 16 = true → good (.buileReadIdentity fr) s.mem w Mach.idPublic) ∧
      (f.typ = 32 → ends (.buileKeyUpdate fr) s.mem (w.keyUpdate f.body).1 (w.keyUpdate f.body).2 []) ∧
      (f.typ = 34 → bitOf x.rights 0 = true → let r := Mach.buileCal s.mem w f.body f.ses
        ends (.buileCalWrite fr) r.mem r.m r.code r.body) ∧
      (f.typ = 34 → needs (.buileCalWrite fr) 0) ∧
      (f.typ = 35 → bitOf x.rights 3 = true →
        ends (.buileReadJournal fr) s.mem w (Mach.buileJournal s.mem f.body).1 (Mach.buileJournal s.mem f.body).2) ∧
      (f.typ = 35 → needs (.buileReadJournal fr) 3) ∧
      (f.typ = 53 → bitOf x.rights 2 = true → good (.buileUpdateStatus fr) s.mem w
        (leBytes 4 (w.rd Rg.UPD_STATUS) ++ leBytes 4 (w.rd Rg.UPD_RESULT) ++ leBytes 4 (w.rd Rg.UPD_DETAIL))) ∧
      (f.typ = 53 → needs (.buileUpdateStatus fr) 2) ∧
      (∀ succ, f.typ = 33 → bitOf x.rights 1 = true → f.body.length = 36 → w.lcCode (leAt f.body 0 1) (x.keyRef / 256) = 0 →
        w.lcSuccessor { x with seq := f.seq } f.body = some succ →
        let y := Mach.lcChange s.mem w (leAt f.body 0 1) succ
        replies (.buileLifecycle fr) y.1 y.2 (buileReply 33 f.ses f.seq 0 [] (some x.sk))) ∧
      (f.typ = 33 → needs (.buileLifecycle fr) 1))) ∧
  (∀ fr : List Byte, m.isStranded = true → beNat (sliceBytes fr 12 2) = m.fld Rg.UPD_SVC_CFG 31 16 → 18 ≤ fr.length → m.upd.rx = none →
    (beNat (sliceBytes fr 16 2) = 1 → beNat (sliceBytes fr 14 2) = 0 →
      let whole := (fr.drop 18).take 1456
      m.idWaits (whole.take (buileLen whole)) = false →
      let r := Mach.buile s.mem m (whole.take (buileLen whole))
      Makes (.servicePortSegment fr) s r.1 ((r.2.1.modKey fun k => { k with reply := r.2.2 }).modUpd fun u => { u with
        rx := none, tx := Mach.segments (m.fld Rg.UPD_SVC_CFG 31 16) (sliceBytes fr 6 6) r.2.2 })) ∧
    (beNat (sliceBytes fr 14 2) < beNat (sliceBytes fr 16 2) → 1 < beNat (sliceBytes fr 16 2) → Makes (.servicePortSegment fr) s s.mem
      (m.modUpd fun u => { u with rx := some ⟨leNat (sliceBytes fr 6 6), beNat (sliceBytes fr 16 2),
        [(beNat (sliceBytes fr 14 2), (fr.drop 18).take 1456)]⟩ }))) ∧
  Makes .segmentTimeout s s.mem (m.modUpd fun u => { u with rx := none })

/-- R448: a key-update message is checked in the order of its table, and the code of its first failure is returned, counted
and recorded; one that passes every check has code 0. A nonzero slot byte with an authority of kind 0 is left out (a choice
of the model, log entry 60). -/
def Obligations.KeyUpdateChecks : Prop :=
  (∀ (m : Mach) (b : List Byte), m.kuCode b ≠ 0 → m.keyUpdate b =
    ((m.bump Rg.KEY_KU_REJECT_CNT).journal 0x41 (m.kuCode b) (leAt b 7 1) (leAt b 24 4), m.kuCode b)) ∧
  (∀ (m : Mach) (b : List Byte), (leAt b 29 1 = 0 → leAt b 28 1 = 0) →
    let op := leAt b 6 1
    let alg := leAt b 30 1
    let len := leAt b 36 4
    let kind := leAt b 28 2 / 256
    let key := m.authKey (leAt b 28 2)
    let form : Prop := leAt b 4 2 = 1 ∧ leAt b 34 2 = 0 ∧ leAt b 31 1 < 2 ∧ b.length = 72 + 8 * ((len + 7) / 8) ∧
      ((op = 1 ∧ alg = 1 ∧ len = 32 ∧ leAt b 31 1 = 1) ∨ (op = 1 ∧ alg = 2 ∧ len = 2592) ∨ (op = 2 ∧ alg = 0 ∧ len = 0))
    let body := b.take (b.length - 32)
    let magicOk : Prop := leAt b 0 4 = 0x4B555044
    let uidOk : Prop := sliceBytes b 8 16 = Mach.uidBytes
    let kindOk : Prop := (kind = 0 ∧ m.lifecycle ∈ [0, 1, 3]) ∨ (kind = 1 ∧ m.lifecycle ∈ [1, 2, 3])
    let slotAuth : Prop := kind = 0 ∨ ∃ k, m.keySlot (leAt b 28 2 % 256) = some k ∧ bitOf k.usage 2 = true
    let tagOk : Prop := ∃ k, key = some k ∧ b.drop (b.length - 32) = Mach.kmac k "MZ4820-KEYUPD-MAC" body 32
    let slotOk : Prop := if op = 2 then leAt b 7 1 < 64 ∧ leAt b 32 2 = 0 else m.slotTakes (leAt b 7 1) alg (leAt b 32 2) = true
    (¬magicOk → m.kuCode b = 0x10) ∧ (magicOk → ¬form → m.kuCode b = 0x11) ∧ (magicOk → form → ¬uidOk → m.kuCode b = 0x12) ∧
    (magicOk → form → uidOk → m.lifecycle = 4 → m.kuCode b = 0x18) ∧
    (magicOk → form → uidOk → m.lifecycle ≠ 4 → ¬kindOk → m.kuCode b = 0x13) ∧
    (magicOk → form → uidOk → m.lifecycle ≠ 4 → kindOk → ¬slotAuth → m.kuCode b = 0x14) ∧
    (magicOk → form → uidOk → m.lifecycle ≠ 4 → kindOk → slotAuth → (¬tagOk → m.kuCode b = 0x15) ∧
      (tagOk → leAt b 24 4 ≤ m.keyCounter → m.kuCode b = 0x16) ∧
      (tagOk → m.keyCounter < leAt b 24 4 → (¬slotOk → m.kuCode b = 0x17) ∧ (slotOk → m.kuCode b = 0))))

/-! ### Field update -/

/-- R467, R468, R470, R471, R472: BEGIN takes the holder and voids the inactive bank; WRITE stores into it and returns to STAGING; VERIFY
runs and ends VERIFIED with the digests, or FAILED with code, entry and detail; COMMIT starts a restart or a handover;
ABORT and END close; a command out of its state, or of one that is not the holder, is refused with code 1.
Choices of the model it rests on: log entry 63. -/
def Obligations.UpdateCommands : Prop := ∀ (s : State), s.now.rst.cReset = false →
  let m := s.now
  (∀ (init : InitId) (v : Word), m.takes init.toNat Rg.UPD_CMD v.toNat .UPD_CMD [] = true →
    let w := m.answer .done
    let op := bitsOf v.toNat 31 28
    let b := 1 - m.activeBank
    (op = 1 → m.updState = 0 ∨ m.updState = 7 → m.updHolder = 0 →
      let t := (((((w.modUpd fun u => { u with session := none, staged := [], stagedImage := none }).setFld Rg.UPD_STATUS 11 10 1).setFld
        Rg.UPD_STATUS 4 4 b).setUpd 1).setFld Rg.UPD_STATUS 9 8 0)
      Makes (.updBegin init v) s (memWrite (memWrite s.mem (bankBase b + imageArea) (List.replicate 4 0)) (bankBase b + truSlot)
        (List.replicate 4 0)) ((t.journal 0x50 1 b 0).updResult 0 0xFF 0)) ∧
    (op = 1 → m.updState ≠ 0 → m.updState ≠ 7 → Makes (.updBegin init v) s s.mem (w.updRefuse 1)) ∧
    (m.updHolder = 1 →
      (∀ x, op = 2 → m.updState = 1 ∨ m.updState = 3 ∨ m.updState = 4 →
        let n := m.fld Rg.UPD_LEN 16 0
        let o := m.rd Rg.UPD_OFFSET
        let a := bankBase (m.fld Rg.UPD_STATUS 4 4) + o
        inSpan n 32 65536 = true → n % 32 = 0 → o % 32 = 0 → o + n ≤ 0x1000000 →
        m.dmaRead s.mem idLOADER (m.rd Rg.UPD_SRC_LO + 2 ^ 32 * m.fld Rg.UPD_SRC_HI 7 0) n = some x →
        Makes (.updWrite init v) s (memWrite s.mem a (sliceBytes x 0 n)) ((((w.chargeFab idLOADER n).unpoison a n).setUpd 1).updResult 0 0xFF 0)) ∧
      (op = 2 → m.updState = 1 → 0x1000000 < m.rd Rg.UPD_OFFSET + m.fld Rg.UPD_LEN 16 0 →
        Makes (.updWrite init v) s s.mem ((w.chargeFab idLOADER (m.fld Rg.UPD_LEN 16 0)).updRefuse 0x12)) ∧
      (op = 3 → m.updState = 1 → Makes (.updVerify init v) s s.mem ((w.wr Rg.UPD_RESULT 0xFF00).setUpd 2)) ∧
      (∀ i, op = 4 → m.updState = 3 → m.upd.stagedImage = some i →
        let e1 := m.tickCount + 1 + max 2 (bitsOf v.toNat 15 0)
        (w.mayHandOver i = false → Makes (.updCommit init v) s s.mem (((w.modUpd fun u : UpdSt => { u with
          commit := some { restart := true, first := bitsOf v.toNat 24 24, a := m.tickCount + 1, e1 := e1 } }).wr Rg.UPD_RESULT 0xFF00).setUpd 5)) ∧
        (w.mayHandOver i = true → m.bentState 0 ≠ 1 ∨ m.bentState 1 ≠ 1 → Makes (.updCommit init v) s s.mem (w.updRefuse 0x10)) ∧
        (w.mayHandOver i = true → m.bentState 0 = 1 → m.bentState 1 = 1 →
          let inY (p : Nat) : Bool := w.partBent p == some (1 - bitsOf v.toNat 24 24)
          let ups := w.updatedParts
          Makes (.updCommit init v) s s.mem ((((w.clearParts.modUpd fun u : UpdSt => { u with
            commit := some { restart := false, first := bitsOf v.toNat 24 24, a := m.tickCount + 1, e1 := e1, early := ups.filter (!inY ·), late := ups.filter inY } }).forAll
            ups fun m p => m.wr (Rg.UPD_PART_STATUS p) 0x80000000).wr Rg.UPD_RESULT 0xFF00).setUpd 5))) ∧
      (m.upd.commit = none → (op = 5 → Makes (.updAbort init v) s s.mem (w.updClose.updResult 0 0xFF 0)) ∧
        (op = 6 → Makes (.updEnd init v) s s.mem (w.updClose.updResult 0 0xFF 0)))) ∧
    (m.updHolder ≠ 1 → (op = 3 → Makes (.updVerify init v) s s.mem (w.updRefuse 1)) ∧
      (op = 4 → Makes (.updCommit init v) s s.mem (w.updRefuse 1)) ∧ (op = 5 → Makes (.updAbort init v) s s.mem (w.updRefuse 1)))) ∧
  (m.updState = 2 →
    let b := m.fld Rg.UPD_STATUS 4 4
    let r := m.detailed (Mach.bankVerify s.mem m b)
    Makes .updVerifyDone s s.mem (r.1.verifyEnds b r.2)) ∧
  (∀ (m : Mach) (b : Nat) (v : BankVerdict),
    (∀ i, v.img = some i → m.verifyEnds b v =
      (((m.modUpd fun u => { u with staged := v.digests, stagedImage := some i }).setUpd 3).journal 0x51 i.serial v.digests.length b
        ).updResult 0 0xFF 0) ∧
    (v.img = none → m.verifyEnds b v = ((m.setUpd 4).journal 0x52 v.code v.detail v.entry).updResult v.code v.entry v.detail)) ∧
  (m.updState ≠ 2 → Makes .updVerifyDone s s.mem m)

/-- R473, R474, R475, R477: at its edge a commit passes its commit point: the active bank and the counter floor change, and a RESTART
asks for a cold reset, as it does at once in a Stranded module without a tick; a handover restarts the partitions of phase 1; phases 2 and 3 complete in turn, the third
ending the update; a partition confirms, or its failure to do so leaves the module Stranded.
Choices of the model it rests on: log entry 64. -/
def Obligations.UpdateCommits : Prop := ∀ (s : State), s.now.rst.cReset = false →
  let m := s.now
  let put (m : Mach) (c : UpdCommit) : Mach := m.modUpd fun u => { u with commit := some c }
  (∀ (c : UpdCommit) (i : Image), m.upd.commit = some c → m.upd.stagedImage = some i → c.passed = false →
    (m.tickCount < c.e1 → m.isStranded = false ∨ m.tick.started = true → Makes .commitPoint s s.mem m) ∧
    (c.e1 ≤ m.tickCount ∨ (m.isStranded = true ∧ m.tick.started = false) → c.restart = true → let p := Mach.pointTaken s.mem m i 1
      Makes .commitPoint s p.1 (((put p.2 { c with passed := true }).updResult 0 0xFF 0).push (.request 7 false))) ∧
    (∀ run, c.e1 ≤ m.tickCount → c.restart = false → c.checked = some 0 → m.truss.image = some run →
      let p := Mach.pointTaken s.mem (m.liveTables i (liveSections run i)) i 0
      let t := (p.2.handOver c.early).phaseDone 1
      let e2 := m.tickCount + t.fld Rg.UPD_CFG 15 8
      Makes .commitPoint s p.1 ((put t { c with
        passed := true, phase := 1, checked := none, deferred := 0, e1 := m.tickCount, e2 := e2, e3 := e2 + 2 }).setUpd 6))) ∧
  (∀ (mem : Mem) (m : Mach) (i : Image) (k : Nat), let p := Mach.pointTaken mem m i k
    p.2.floor = max m.floor i.counter ∧ p.2.upd.sinceCommit = true) ∧
  (∀ c : UpdCommit, m.upd.commit = some c → c.passed = true →
    (c.phase = 1 → c.e2 ≤ m.tickCount → Makes .handoverPhase2 s s.mem ((put m { c with phase := 2 }).phaseDone 2)) ∧
    (c.phase = 1 → m.tickCount < c.e2 → Makes .handoverPhase2 s s.mem m) ∧
    (c.phase = 2 → c.e3 ≤ m.tickCount → c.checked = some 0 → Makes .handoverPhase3 s s.mem
      ((((m.handOver c.late).phaseDone 3).journal 0x55 (c.e3 % 2 ^ 32) (maskOfList (c.early ++ c.late)) 0).updRelease.updResult 0 0xFF 0)) ∧
    (c.phase = 2 → c.e3 ≤ m.tickCount → c.checked ≠ some 0 →
      Makes .handoverPhase3 s s.mem (put m { c with e3 := m.tickCount + 1 }))) ∧
  (∀ (init : InitId) (p : Fin 16) (v : Word), m.takes init.toNat (Rg.UPD_CONFIRM p) v.toNat .UPD_CONFIRM [p.val] = true →
    bitOf v.toNat 0 = true → (kget m.upd.confirm p).isSome = true → Makes (.updConfirm init p v) s s.mem
      (((m.answer .done).modUpd fun u => { u with confirm := kdel u.confirm p }).setBit (Rg.UPD_PART_STATUS p) 28 true)) ∧
  (∀ (p : Fin 16) (d : Nat), kget m.upd.confirm p = some d →
    (d ≤ m.tickCount → let r := Mach.strandUpdate s.mem m 0x11 p
      Makes (.confirmTimeout p) s r.1 r.2) ∧
    (m.tickCount < d → Makes (.confirmTimeout p) s s.mem m))

/-! ### The whole machine -/

/-- A step carries out the command at the front of the queue, on the state with the queue's rest; an empty queue leaves
the state as it is (a choice of the model, log entry 3). -/
def Obligations.StepRunsFront : Prop := ∀ s : State,
  (∀ c rest, s.pending = c :: rest → step s = exec c { s with pending := rest }) ∧ (s.pending = [] → step s = .next s)

/-- Every command answers a next state, with the queue it found and nothing of its own outstanding, but for KL30 above 40 V,
outside the ratings of R483, where the machine stops.
The stop is the model's choice (log entry 9). -/
def Obligations.CommandsComplete : Prop := ∀ (c : Instr) (s : State),
  (∃ t, exec c s = .next t ∧ t.pending = s.pending ∧ t.mach.jq = [] ∧ t.mach.todo = [])
    ∨ ∃ mv, c = .kl30LevelChange mv ∧ 40000 < mv ∧ exec c s = .fault .outsideRatings

/-- Where nothing is raised and nothing that a command's end watches has changed, the end of a command changes nothing: its own
effect is the next state. -/
def Obligations.QuietEnd : Prop := ∀ (s : State) (mem : Mem) (m : Mach), Quiet s.mach m →
  s.after mem m = { s with mem := mem, mach := m }

/-- Memory keeps its canonical form in every step from a state that has it, and no command leaves anything to do. -/
def Obligations.MemoryStaysCanonical : Prop := ∀ s t : State, s.Settled → step s = .next t → t.Settled

/-- R102, R104: after power-on the state is settled, its queue is empty, NRESET is low, the C-die is held in reset, and every
register reads its cold value.
Choices of the model it rests on: log entries 10 and 13. -/
def Obligations.ResetState : Prop := State.reset.Settled ∧ State.reset.pending = [] ∧ State.reset.mach.rst.low = true ∧
  State.reset.mach.rst.cReset = true ∧ ∀ a, State.reset.mach.rd a = coldAt a
end

