-- ==== Sys2Proof/Laws/State.lean ====
section
/-! SUPPORT. One lemma for each field of the machine and each update: which fields an update leaves, and what it gives
the one it changes. -/

namespace Sys2Proof.Machine

variable (m : Mach)

/-! ### wr -/

@[simp] theorem Mach.wr_resp (a v : Nat) : (m.wr a v).resp = m.resp := by unfold Mach.wr; split <;> rfl
@[simp] theorem Mach.wr_drawn (a v : Nat) : (m.wr a v).drawn = m.drawn := by unfold Mach.wr; split <;> rfl
@[simp] theorem Mach.wr_jq (a v : Nat) : (m.wr a v).jq = m.jq := by unfold Mach.wr; split <;> rfl
@[simp] theorem Mach.wr_rst (a v : Nat) : (m.wr a v).rst = m.rst := by unfold Mach.wr; split <;> rfl
@[simp] theorem Mach.wr_sill (a v : Nat) : (m.wr a v).sill = m.sill := by unfold Mach.wr; split <;> rfl
@[simp] theorem Mach.wr_stage (a v : Nat) : (m.wr a v).stage = m.stage := by unfold Mach.wr; split <;> rfl
@[simp] theorem Mach.wr_tick (a v : Nat) : (m.wr a v).tick = m.tick := by unfold Mach.wr; split <;> rfl
@[simp] theorem Mach.wr_truss (a v : Nat) : (m.wr a v).truss = m.truss := by unfold Mach.wr; split <;> rfl
@[simp] theorem Mach.wr_fab (a v : Nat) : (m.wr a v).fab = m.fab := by unfold Mach.wr; split <;> rfl
@[simp] theorem Mach.wr_irq (a v : Nat) : (m.wr a v).irq = m.irq := by unfold Mach.wr; split <;> rfl
@[simp] theorem Mach.wr_memc (a v : Nat) : (m.wr a v).memc = m.memc := by unfold Mach.wr; split <;> rfl
@[simp] theorem Mach.wr_todo (a v : Nat) : (m.wr a v).todo = m.todo := by unfold Mach.wr; split <;> rfl
@[simp] theorem Mach.wr_bent (a v : Nat) : (m.wr a v).bent = m.bent := by unfold Mach.wr; split <;> rfl
@[simp] theorem Mach.wr_load (a v : Nat) : (m.wr a v).load = m.load := by unfold Mach.wr; split <;> rfl
@[simp] theorem Mach.wr_meas (a v : Nat) : (m.wr a v).meas = m.meas := by unfold Mach.wr; split <;> rfl
@[simp] theorem Mach.wr_clk (a v : Nat) : (m.wr a v).clk = m.clk := by unfold Mach.wr; split <;> rfl
@[simp] theorem Mach.wr_swc (a v : Nat) : (m.wr a v).swc = m.swc := by unfold Mach.wr; split <;> rfl
@[simp] theorem Mach.wr_eport (a v : Nat) : (m.wr a v).eport = m.eport := by unfold Mach.wr; split <;> rfl
@[simp] theorem Mach.wr_mbus (a v : Nat) : (m.wr a v).mbus = m.mbus := by unfold Mach.wr; split <;> rfl
@[simp] theorem Mach.wr_vdev (a v : Nat) : (m.wr a v).vdev = m.vdev := by unfold Mach.wr; split <;> rfl
@[simp] theorem Mach.wr_lin (a v : Nat) : (m.wr a v).lin = m.lin := by unfold Mach.wr; split <;> rfl
@[simp] theorem Mach.wr_nm (a v : Nat) : (m.wr a v).nm = m.nm := by unfold Mach.wr; split <;> rfl
@[simp] theorem Mach.wr_gwy (a v : Nat) : (m.wr a v).gwy = m.gwy := by unfold Mach.wr; split <;> rfl
@[simp] theorem Mach.wr_lath (a v : Nat) : (m.wr a v).lath = m.lath := by unfold Mach.wr; split <;> rfl
@[simp] theorem Mach.wr_chk (a v : Nat) : (m.wr a v).chk = m.chk := by unfold Mach.wr; split <;> rfl
@[simp] theorem Mach.wr_world (a v : Nat) : (m.wr a v).world = m.world := by unfold Mach.wr; split <;> rfl
@[simp] theorem Mach.wr_key (a v : Nat) : (m.wr a v).key = m.key := by unfold Mach.wr; split <;> rfl
@[simp] theorem Mach.wr_upd (a v : Nat) : (m.wr a v).upd = m.upd := by unfold Mach.wr; split <;> rfl

/-! ### setFld -/

@[simp] theorem Mach.setFld_resp (a hi lo x : Nat) : (m.setFld a hi lo x).resp = m.resp := Mach.wr_resp _ _ _
@[simp] theorem Mach.setFld_drawn (a hi lo x : Nat) : (m.setFld a hi lo x).drawn = m.drawn := Mach.wr_drawn _ _ _
@[simp] theorem Mach.setFld_jq (a hi lo x : Nat) : (m.setFld a hi lo x).jq = m.jq := Mach.wr_jq _ _ _
@[simp] theorem Mach.setFld_rst (a hi lo x : Nat) : (m.setFld a hi lo x).rst = m.rst := Mach.wr_rst _ _ _
@[simp] theorem Mach.setFld_sill (a hi lo x : Nat) : (m.setFld a hi lo x).sill = m.sill := Mach.wr_sill _ _ _
@[simp] theorem Mach.setFld_stage (a hi lo x : Nat) : (m.setFld a hi lo x).stage = m.stage := Mach.wr_stage _ _ _
@[simp] theorem Mach.setFld_tick (a hi lo x : Nat) : (m.setFld a hi lo x).tick = m.tick := Mach.wr_tick _ _ _
@[simp] theorem Mach.setFld_truss (a hi lo x : Nat) : (m.setFld a hi lo x).truss = m.truss := Mach.wr_truss _ _ _
@[simp] theorem Mach.setFld_fab (a hi lo x : Nat) : (m.setFld a hi lo x).fab = m.fab := Mach.wr_fab _ _ _
@[simp] theorem Mach.setFld_irq (a hi lo x : Nat) : (m.setFld a hi lo x).irq = m.irq := Mach.wr_irq _ _ _
@[simp] theorem Mach.setFld_memc (a hi lo x : Nat) : (m.setFld a hi lo x).memc = m.memc := Mach.wr_memc _ _ _
@[simp] theorem Mach.setFld_todo (a hi lo x : Nat) : (m.setFld a hi lo x).todo = m.todo := Mach.wr_todo _ _ _
@[simp] theorem Mach.setFld_bent (a hi lo x : Nat) : (m.setFld a hi lo x).bent = m.bent := Mach.wr_bent _ _ _
@[simp] theorem Mach.setFld_load (a hi lo x : Nat) : (m.setFld a hi lo x).load = m.load := Mach.wr_load _ _ _
@[simp] theorem Mach.setFld_meas (a hi lo x : Nat) : (m.setFld a hi lo x).meas = m.meas := Mach.wr_meas _ _ _
@[simp] theorem Mach.setFld_clk (a hi lo x : Nat) : (m.setFld a hi lo x).clk = m.clk := Mach.wr_clk _ _ _
@[simp] theorem Mach.setFld_swc (a hi lo x : Nat) : (m.setFld a hi lo x).swc = m.swc := Mach.wr_swc _ _ _
@[simp] theorem Mach.setFld_eport (a hi lo x : Nat) : (m.setFld a hi lo x).eport = m.eport := Mach.wr_eport _ _ _
@[simp] theorem Mach.setFld_mbus (a hi lo x : Nat) : (m.setFld a hi lo x).mbus = m.mbus := Mach.wr_mbus _ _ _
@[simp] theorem Mach.setFld_vdev (a hi lo x : Nat) : (m.setFld a hi lo x).vdev = m.vdev := Mach.wr_vdev _ _ _
@[simp] theorem Mach.setFld_lin (a hi lo x : Nat) : (m.setFld a hi lo x).lin = m.lin := Mach.wr_lin _ _ _
@[simp] theorem Mach.setFld_nm (a hi lo x : Nat) : (m.setFld a hi lo x).nm = m.nm := Mach.wr_nm _ _ _
@[simp] theorem Mach.setFld_gwy (a hi lo x : Nat) : (m.setFld a hi lo x).gwy = m.gwy := Mach.wr_gwy _ _ _
@[simp] theorem Mach.setFld_lath (a hi lo x : Nat) : (m.setFld a hi lo x).lath = m.lath := Mach.wr_lath _ _ _
@[simp] theorem Mach.setFld_chk (a hi lo x : Nat) : (m.setFld a hi lo x).chk = m.chk := Mach.wr_chk _ _ _
@[simp] theorem Mach.setFld_world (a hi lo x : Nat) : (m.setFld a hi lo x).world = m.world := Mach.wr_world _ _ _
@[simp] theorem Mach.setFld_key (a hi lo x : Nat) : (m.setFld a hi lo x).key = m.key := Mach.wr_key _ _ _
@[simp] theorem Mach.setFld_upd (a hi lo x : Nat) : (m.setFld a hi lo x).upd = m.upd := Mach.wr_upd _ _ _

/-! ### setBit -/

@[simp] theorem Mach.setBit_resp (a i : Nat) (b : Bool) : (m.setBit a i b).resp = m.resp := Mach.wr_resp _ _ _
@[simp] theorem Mach.setBit_drawn (a i : Nat) (b : Bool) : (m.setBit a i b).drawn = m.drawn := Mach.wr_drawn _ _ _
@[simp] theorem Mach.setBit_jq (a i : Nat) (b : Bool) : (m.setBit a i b).jq = m.jq := Mach.wr_jq _ _ _
@[simp] theorem Mach.setBit_rst (a i : Nat) (b : Bool) : (m.setBit a i b).rst = m.rst := Mach.wr_rst _ _ _
@[simp] theorem Mach.setBit_sill (a i : Nat) (b : Bool) : (m.setBit a i b).sill = m.sill := Mach.wr_sill _ _ _
@[simp] theorem Mach.setBit_stage (a i : Nat) (b : Bool) : (m.setBit a i b).stage = m.stage := Mach.wr_stage _ _ _
@[simp] theorem Mach.setBit_tick (a i : Nat) (b : Bool) : (m.setBit a i b).tick = m.tick := Mach.wr_tick _ _ _
@[simp] theorem Mach.setBit_truss (a i : Nat) (b : Bool) : (m.setBit a i b).truss = m.truss := Mach.wr_truss _ _ _
@[simp] theorem Mach.setBit_fab (a i : Nat) (b : Bool) : (m.setBit a i b).fab = m.fab := Mach.wr_fab _ _ _
@[simp] theorem Mach.setBit_irq (a i : Nat) (b : Bool) : (m.setBit a i b).irq = m.irq := Mach.wr_irq _ _ _
@[simp] theorem Mach.setBit_memc (a i : Nat) (b : Bool) : (m.setBit a i b).memc = m.memc := Mach.wr_memc _ _ _
@[simp] theorem Mach.setBit_todo (a i : Nat) (b : Bool) : (m.setBit a i b).todo = m.todo := Mach.wr_todo _ _ _
@[simp] theorem Mach.setBit_bent (a i : Nat) (b : Bool) : (m.setBit a i b).bent = m.bent := Mach.wr_bent _ _ _
@[simp] theorem Mach.setBit_load (a i : Nat) (b : Bool) : (m.setBit a i b).load = m.load := Mach.wr_load _ _ _
@[simp] theorem Mach.setBit_meas (a i : Nat) (b : Bool) : (m.setBit a i b).meas = m.meas := Mach.wr_meas _ _ _
@[simp] theorem Mach.setBit_clk (a i : Nat) (b : Bool) : (m.setBit a i b).clk = m.clk := Mach.wr_clk _ _ _
@[simp] theorem Mach.setBit_swc (a i : Nat) (b : Bool) : (m.setBit a i b).swc = m.swc := Mach.wr_swc _ _ _
@[simp] theorem Mach.setBit_eport (a i : Nat) (b : Bool) : (m.setBit a i b).eport = m.eport := Mach.wr_eport _ _ _
@[simp] theorem Mach.setBit_mbus (a i : Nat) (b : Bool) : (m.setBit a i b).mbus = m.mbus := Mach.wr_mbus _ _ _
@[simp] theorem Mach.setBit_vdev (a i : Nat) (b : Bool) : (m.setBit a i b).vdev = m.vdev := Mach.wr_vdev _ _ _
@[simp] theorem Mach.setBit_lin (a i : Nat) (b : Bool) : (m.setBit a i b).lin = m.lin := Mach.wr_lin _ _ _
@[simp] theorem Mach.setBit_nm (a i : Nat) (b : Bool) : (m.setBit a i b).nm = m.nm := Mach.wr_nm _ _ _
@[simp] theorem Mach.setBit_gwy (a i : Nat) (b : Bool) : (m.setBit a i b).gwy = m.gwy := Mach.wr_gwy _ _ _
@[simp] theorem Mach.setBit_lath (a i : Nat) (b : Bool) : (m.setBit a i b).lath = m.lath := Mach.wr_lath _ _ _
@[simp] theorem Mach.setBit_chk (a i : Nat) (b : Bool) : (m.setBit a i b).chk = m.chk := Mach.wr_chk _ _ _
@[simp] theorem Mach.setBit_world (a i : Nat) (b : Bool) : (m.setBit a i b).world = m.world := Mach.wr_world _ _ _
@[simp] theorem Mach.setBit_key (a i : Nat) (b : Bool) : (m.setBit a i b).key = m.key := Mach.wr_key _ _ _
@[simp] theorem Mach.setBit_upd (a i : Nat) (b : Bool) : (m.setBit a i b).upd = m.upd := Mach.wr_upd _ _ _

/-! ### fire -/

@[simp] theorem Mach.fire_resp (a i : Nat) : (m.fire a i).resp = m.resp := Mach.wr_resp _ _ _
@[simp] theorem Mach.fire_drawn (a i : Nat) : (m.fire a i).drawn = m.drawn := Mach.wr_drawn _ _ _
@[simp] theorem Mach.fire_jq (a i : Nat) : (m.fire a i).jq = m.jq := Mach.wr_jq _ _ _
@[simp] theorem Mach.fire_rst (a i : Nat) : (m.fire a i).rst = m.rst := Mach.wr_rst _ _ _
@[simp] theorem Mach.fire_sill (a i : Nat) : (m.fire a i).sill = m.sill := Mach.wr_sill _ _ _
@[simp] theorem Mach.fire_stage (a i : Nat) : (m.fire a i).stage = m.stage := Mach.wr_stage _ _ _
@[simp] theorem Mach.fire_tick (a i : Nat) : (m.fire a i).tick = m.tick := Mach.wr_tick _ _ _
@[simp] theorem Mach.fire_truss (a i : Nat) : (m.fire a i).truss = m.truss := Mach.wr_truss _ _ _
@[simp] theorem Mach.fire_fab (a i : Nat) : (m.fire a i).fab = m.fab := Mach.wr_fab _ _ _
@[simp] theorem Mach.fire_irq (a i : Nat) : (m.fire a i).irq = m.irq := Mach.wr_irq _ _ _
@[simp] theorem Mach.fire_memc (a i : Nat) : (m.fire a i).memc = m.memc := Mach.wr_memc _ _ _
@[simp] theorem Mach.fire_todo (a i : Nat) : (m.fire a i).todo = m.todo := Mach.wr_todo _ _ _
@[simp] theorem Mach.fire_bent (a i : Nat) : (m.fire a i).bent = m.bent := Mach.wr_bent _ _ _
@[simp] theorem Mach.fire_load (a i : Nat) : (m.fire a i).load = m.load := Mach.wr_load _ _ _
@[simp] theorem Mach.fire_meas (a i : Nat) : (m.fire a i).meas = m.meas := Mach.wr_meas _ _ _
@[simp] theorem Mach.fire_clk (a i : Nat) : (m.fire a i).clk = m.clk := Mach.wr_clk _ _ _
@[simp] theorem Mach.fire_swc (a i : Nat) : (m.fire a i).swc = m.swc := Mach.wr_swc _ _ _
@[simp] theorem Mach.fire_eport (a i : Nat) : (m.fire a i).eport = m.eport := Mach.wr_eport _ _ _
@[simp] theorem Mach.fire_mbus (a i : Nat) : (m.fire a i).mbus = m.mbus := Mach.wr_mbus _ _ _
@[simp] theorem Mach.fire_vdev (a i : Nat) : (m.fire a i).vdev = m.vdev := Mach.wr_vdev _ _ _
@[simp] theorem Mach.fire_lin (a i : Nat) : (m.fire a i).lin = m.lin := Mach.wr_lin _ _ _
@[simp] theorem Mach.fire_nm (a i : Nat) : (m.fire a i).nm = m.nm := Mach.wr_nm _ _ _
@[simp] theorem Mach.fire_gwy (a i : Nat) : (m.fire a i).gwy = m.gwy := Mach.wr_gwy _ _ _
@[simp] theorem Mach.fire_lath (a i : Nat) : (m.fire a i).lath = m.lath := Mach.wr_lath _ _ _
@[simp] theorem Mach.fire_chk (a i : Nat) : (m.fire a i).chk = m.chk := Mach.wr_chk _ _ _
@[simp] theorem Mach.fire_world (a i : Nat) : (m.fire a i).world = m.world := Mach.wr_world _ _ _
@[simp] theorem Mach.fire_key (a i : Nat) : (m.fire a i).key = m.key := Mach.wr_key _ _ _
@[simp] theorem Mach.fire_upd (a i : Nat) : (m.fire a i).upd = m.upd := Mach.wr_upd _ _ _

/-! ### bump -/

@[simp] theorem Mach.bump_resp (a : Nat) : (m.bump a).resp = m.resp := Mach.wr_resp _ _ _
@[simp] theorem Mach.bump_drawn (a : Nat) : (m.bump a).drawn = m.drawn := Mach.wr_drawn _ _ _
@[simp] theorem Mach.bump_jq (a : Nat) : (m.bump a).jq = m.jq := Mach.wr_jq _ _ _
@[simp] theorem Mach.bump_rst (a : Nat) : (m.bump a).rst = m.rst := Mach.wr_rst _ _ _
@[simp] theorem Mach.bump_sill (a : Nat) : (m.bump a).sill = m.sill := Mach.wr_sill _ _ _
@[simp] theorem Mach.bump_stage (a : Nat) : (m.bump a).stage = m.stage := Mach.wr_stage _ _ _
@[simp] theorem Mach.bump_tick (a : Nat) : (m.bump a).tick = m.tick := Mach.wr_tick _ _ _
@[simp] theorem Mach.bump_truss (a : Nat) : (m.bump a).truss = m.truss := Mach.wr_truss _ _ _
@[simp] theorem Mach.bump_fab (a : Nat) : (m.bump a).fab = m.fab := Mach.wr_fab _ _ _
@[simp] theorem Mach.bump_irq (a : Nat) : (m.bump a).irq = m.irq := Mach.wr_irq _ _ _
@[simp] theorem Mach.bump_memc (a : Nat) : (m.bump a).memc = m.memc := Mach.wr_memc _ _ _
@[simp] theorem Mach.bump_todo (a : Nat) : (m.bump a).todo = m.todo := Mach.wr_todo _ _ _
@[simp] theorem Mach.bump_bent (a : Nat) : (m.bump a).bent = m.bent := Mach.wr_bent _ _ _
@[simp] theorem Mach.bump_load (a : Nat) : (m.bump a).load = m.load := Mach.wr_load _ _ _
@[simp] theorem Mach.bump_meas (a : Nat) : (m.bump a).meas = m.meas := Mach.wr_meas _ _ _
@[simp] theorem Mach.bump_clk (a : Nat) : (m.bump a).clk = m.clk := Mach.wr_clk _ _ _
@[simp] theorem Mach.bump_swc (a : Nat) : (m.bump a).swc = m.swc := Mach.wr_swc _ _ _
@[simp] theorem Mach.bump_eport (a : Nat) : (m.bump a).eport = m.eport := Mach.wr_eport _ _ _
@[simp] theorem Mach.bump_mbus (a : Nat) : (m.bump a).mbus = m.mbus := Mach.wr_mbus _ _ _
@[simp] theorem Mach.bump_vdev (a : Nat) : (m.bump a).vdev = m.vdev := Mach.wr_vdev _ _ _
@[simp] theorem Mach.bump_lin (a : Nat) : (m.bump a).lin = m.lin := Mach.wr_lin _ _ _
@[simp] theorem Mach.bump_nm (a : Nat) : (m.bump a).nm = m.nm := Mach.wr_nm _ _ _
@[simp] theorem Mach.bump_gwy (a : Nat) : (m.bump a).gwy = m.gwy := Mach.wr_gwy _ _ _
@[simp] theorem Mach.bump_lath (a : Nat) : (m.bump a).lath = m.lath := Mach.wr_lath _ _ _
@[simp] theorem Mach.bump_chk (a : Nat) : (m.bump a).chk = m.chk := Mach.wr_chk _ _ _
@[simp] theorem Mach.bump_world (a : Nat) : (m.bump a).world = m.world := Mach.wr_world _ _ _
@[simp] theorem Mach.bump_key (a : Nat) : (m.bump a).key = m.key := Mach.wr_key _ _ _
@[simp] theorem Mach.bump_upd (a : Nat) : (m.bump a).upd = m.upd := Mach.wr_upd _ _ _

/-! ### bump16 -/

@[simp] theorem Mach.bump16_resp (a : Nat) : (m.bump16 a).resp = m.resp := Mach.wr_resp _ _ _
@[simp] theorem Mach.bump16_drawn (a : Nat) : (m.bump16 a).drawn = m.drawn := Mach.wr_drawn _ _ _
@[simp] theorem Mach.bump16_jq (a : Nat) : (m.bump16 a).jq = m.jq := Mach.wr_jq _ _ _
@[simp] theorem Mach.bump16_rst (a : Nat) : (m.bump16 a).rst = m.rst := Mach.wr_rst _ _ _
@[simp] theorem Mach.bump16_sill (a : Nat) : (m.bump16 a).sill = m.sill := Mach.wr_sill _ _ _
@[simp] theorem Mach.bump16_stage (a : Nat) : (m.bump16 a).stage = m.stage := Mach.wr_stage _ _ _
@[simp] theorem Mach.bump16_tick (a : Nat) : (m.bump16 a).tick = m.tick := Mach.wr_tick _ _ _
@[simp] theorem Mach.bump16_truss (a : Nat) : (m.bump16 a).truss = m.truss := Mach.wr_truss _ _ _
@[simp] theorem Mach.bump16_fab (a : Nat) : (m.bump16 a).fab = m.fab := Mach.wr_fab _ _ _
@[simp] theorem Mach.bump16_irq (a : Nat) : (m.bump16 a).irq = m.irq := Mach.wr_irq _ _ _
@[simp] theorem Mach.bump16_memc (a : Nat) : (m.bump16 a).memc = m.memc := Mach.wr_memc _ _ _
@[simp] theorem Mach.bump16_todo (a : Nat) : (m.bump16 a).todo = m.todo := Mach.wr_todo _ _ _
@[simp] theorem Mach.bump16_bent (a : Nat) : (m.bump16 a).bent = m.bent := Mach.wr_bent _ _ _
@[simp] theorem Mach.bump16_load (a : Nat) : (m.bump16 a).load = m.load := Mach.wr_load _ _ _
@[simp] theorem Mach.bump16_meas (a : Nat) : (m.bump16 a).meas = m.meas := Mach.wr_meas _ _ _
@[simp] theorem Mach.bump16_clk (a : Nat) : (m.bump16 a).clk = m.clk := Mach.wr_clk _ _ _
@[simp] theorem Mach.bump16_swc (a : Nat) : (m.bump16 a).swc = m.swc := Mach.wr_swc _ _ _
@[simp] theorem Mach.bump16_eport (a : Nat) : (m.bump16 a).eport = m.eport := Mach.wr_eport _ _ _
@[simp] theorem Mach.bump16_mbus (a : Nat) : (m.bump16 a).mbus = m.mbus := Mach.wr_mbus _ _ _
@[simp] theorem Mach.bump16_vdev (a : Nat) : (m.bump16 a).vdev = m.vdev := Mach.wr_vdev _ _ _
@[simp] theorem Mach.bump16_lin (a : Nat) : (m.bump16 a).lin = m.lin := Mach.wr_lin _ _ _
@[simp] theorem Mach.bump16_nm (a : Nat) : (m.bump16 a).nm = m.nm := Mach.wr_nm _ _ _
@[simp] theorem Mach.bump16_gwy (a : Nat) : (m.bump16 a).gwy = m.gwy := Mach.wr_gwy _ _ _
@[simp] theorem Mach.bump16_lath (a : Nat) : (m.bump16 a).lath = m.lath := Mach.wr_lath _ _ _
@[simp] theorem Mach.bump16_chk (a : Nat) : (m.bump16 a).chk = m.chk := Mach.wr_chk _ _ _
@[simp] theorem Mach.bump16_world (a : Nat) : (m.bump16 a).world = m.world := Mach.wr_world _ _ _
@[simp] theorem Mach.bump16_key (a : Nat) : (m.bump16 a).key = m.key := Mach.wr_key _ _ _
@[simp] theorem Mach.bump16_upd (a : Nat) : (m.bump16 a).upd = m.upd := Mach.wr_upd _ _ _

/-! ### bumpBy -/

@[simp] theorem Mach.bumpBy_resp (a n : Nat) : (m.bumpBy a n).resp = m.resp := Mach.wr_resp _ _ _
@[simp] theorem Mach.bumpBy_drawn (a n : Nat) : (m.bumpBy a n).drawn = m.drawn := Mach.wr_drawn _ _ _
@[simp] theorem Mach.bumpBy_jq (a n : Nat) : (m.bumpBy a n).jq = m.jq := Mach.wr_jq _ _ _
@[simp] theorem Mach.bumpBy_rst (a n : Nat) : (m.bumpBy a n).rst = m.rst := Mach.wr_rst _ _ _
@[simp] theorem Mach.bumpBy_sill (a n : Nat) : (m.bumpBy a n).sill = m.sill := Mach.wr_sill _ _ _
@[simp] theorem Mach.bumpBy_stage (a n : Nat) : (m.bumpBy a n).stage = m.stage := Mach.wr_stage _ _ _
@[simp] theorem Mach.bumpBy_tick (a n : Nat) : (m.bumpBy a n).tick = m.tick := Mach.wr_tick _ _ _
@[simp] theorem Mach.bumpBy_truss (a n : Nat) : (m.bumpBy a n).truss = m.truss := Mach.wr_truss _ _ _
@[simp] theorem Mach.bumpBy_fab (a n : Nat) : (m.bumpBy a n).fab = m.fab := Mach.wr_fab _ _ _
@[simp] theorem Mach.bumpBy_irq (a n : Nat) : (m.bumpBy a n).irq = m.irq := Mach.wr_irq _ _ _
@[simp] theorem Mach.bumpBy_memc (a n : Nat) : (m.bumpBy a n).memc = m.memc := Mach.wr_memc _ _ _
@[simp] theorem Mach.bumpBy_todo (a n : Nat) : (m.bumpBy a n).todo = m.todo := Mach.wr_todo _ _ _
@[simp] theorem Mach.bumpBy_bent (a n : Nat) : (m.bumpBy a n).bent = m.bent := Mach.wr_bent _ _ _
@[simp] theorem Mach.bumpBy_load (a n : Nat) : (m.bumpBy a n).load = m.load := Mach.wr_load _ _ _
@[simp] theorem Mach.bumpBy_meas (a n : Nat) : (m.bumpBy a n).meas = m.meas := Mach.wr_meas _ _ _
@[simp] theorem Mach.bumpBy_clk (a n : Nat) : (m.bumpBy a n).clk = m.clk := Mach.wr_clk _ _ _
@[simp] theorem Mach.bumpBy_swc (a n : Nat) : (m.bumpBy a n).swc = m.swc := Mach.wr_swc _ _ _
@[simp] theorem Mach.bumpBy_eport (a n : Nat) : (m.bumpBy a n).eport = m.eport := Mach.wr_eport _ _ _
@[simp] theorem Mach.bumpBy_mbus (a n : Nat) : (m.bumpBy a n).mbus = m.mbus := Mach.wr_mbus _ _ _
@[simp] theorem Mach.bumpBy_vdev (a n : Nat) : (m.bumpBy a n).vdev = m.vdev := Mach.wr_vdev _ _ _
@[simp] theorem Mach.bumpBy_lin (a n : Nat) : (m.bumpBy a n).lin = m.lin := Mach.wr_lin _ _ _
@[simp] theorem Mach.bumpBy_nm (a n : Nat) : (m.bumpBy a n).nm = m.nm := Mach.wr_nm _ _ _
@[simp] theorem Mach.bumpBy_gwy (a n : Nat) : (m.bumpBy a n).gwy = m.gwy := Mach.wr_gwy _ _ _
@[simp] theorem Mach.bumpBy_lath (a n : Nat) : (m.bumpBy a n).lath = m.lath := Mach.wr_lath _ _ _
@[simp] theorem Mach.bumpBy_chk (a n : Nat) : (m.bumpBy a n).chk = m.chk := Mach.wr_chk _ _ _
@[simp] theorem Mach.bumpBy_world (a n : Nat) : (m.bumpBy a n).world = m.world := Mach.wr_world _ _ _
@[simp] theorem Mach.bumpBy_key (a n : Nat) : (m.bumpBy a n).key = m.key := Mach.wr_key _ _ _
@[simp] theorem Mach.bumpBy_upd (a n : Nat) : (m.bumpBy a n).upd = m.upd := Mach.wr_upd _ _ _

/-! ### wr64 -/

@[simp] theorem Mach.wr64_resp (lo hi v : Nat) : (m.wr64 lo hi v).resp = m.resp := (Mach.wr_resp _ _ _).trans (Mach.wr_resp _ _ _)
@[simp] theorem Mach.wr64_drawn (lo hi v : Nat) : (m.wr64 lo hi v).drawn = m.drawn := (Mach.wr_drawn _ _ _).trans (Mach.wr_drawn _ _ _)
@[simp] theorem Mach.wr64_jq (lo hi v : Nat) : (m.wr64 lo hi v).jq = m.jq := (Mach.wr_jq _ _ _).trans (Mach.wr_jq _ _ _)
@[simp] theorem Mach.wr64_rst (lo hi v : Nat) : (m.wr64 lo hi v).rst = m.rst := (Mach.wr_rst _ _ _).trans (Mach.wr_rst _ _ _)
@[simp] theorem Mach.wr64_sill (lo hi v : Nat) : (m.wr64 lo hi v).sill = m.sill := (Mach.wr_sill _ _ _).trans (Mach.wr_sill _ _ _)
@[simp] theorem Mach.wr64_stage (lo hi v : Nat) : (m.wr64 lo hi v).stage = m.stage := (Mach.wr_stage _ _ _).trans (Mach.wr_stage _ _ _)
@[simp] theorem Mach.wr64_tick (lo hi v : Nat) : (m.wr64 lo hi v).tick = m.tick := (Mach.wr_tick _ _ _).trans (Mach.wr_tick _ _ _)
@[simp] theorem Mach.wr64_truss (lo hi v : Nat) : (m.wr64 lo hi v).truss = m.truss := (Mach.wr_truss _ _ _).trans (Mach.wr_truss _ _ _)
@[simp] theorem Mach.wr64_fab (lo hi v : Nat) : (m.wr64 lo hi v).fab = m.fab := (Mach.wr_fab _ _ _).trans (Mach.wr_fab _ _ _)
@[simp] theorem Mach.wr64_irq (lo hi v : Nat) : (m.wr64 lo hi v).irq = m.irq := (Mach.wr_irq _ _ _).trans (Mach.wr_irq _ _ _)
@[simp] theorem Mach.wr64_memc (lo hi v : Nat) : (m.wr64 lo hi v).memc = m.memc := (Mach.wr_memc _ _ _).trans (Mach.wr_memc _ _ _)
@[simp] theorem Mach.wr64_todo (lo hi v : Nat) : (m.wr64 lo hi v).todo = m.todo := (Mach.wr_todo _ _ _).trans (Mach.wr_todo _ _ _)
@[simp] theorem Mach.wr64_bent (lo hi v : Nat) : (m.wr64 lo hi v).bent = m.bent := (Mach.wr_bent _ _ _).trans (Mach.wr_bent _ _ _)
@[simp] theorem Mach.wr64_load (lo hi v : Nat) : (m.wr64 lo hi v).load = m.load := (Mach.wr_load _ _ _).trans (Mach.wr_load _ _ _)
@[simp] theorem Mach.wr64_meas (lo hi v : Nat) : (m.wr64 lo hi v).meas = m.meas := (Mach.wr_meas _ _ _).trans (Mach.wr_meas _ _ _)
@[simp] theorem Mach.wr64_clk (lo hi v : Nat) : (m.wr64 lo hi v).clk = m.clk := (Mach.wr_clk _ _ _).trans (Mach.wr_clk _ _ _)
@[simp] theorem Mach.wr64_swc (lo hi v : Nat) : (m.wr64 lo hi v).swc = m.swc := (Mach.wr_swc _ _ _).trans (Mach.wr_swc _ _ _)
@[simp] theorem Mach.wr64_eport (lo hi v : Nat) : (m.wr64 lo hi v).eport = m.eport := (Mach.wr_eport _ _ _).trans (Mach.wr_eport _ _ _)
@[simp] theorem Mach.wr64_mbus (lo hi v : Nat) : (m.wr64 lo hi v).mbus = m.mbus := (Mach.wr_mbus _ _ _).trans (Mach.wr_mbus _ _ _)
@[simp] theorem Mach.wr64_vdev (lo hi v : Nat) : (m.wr64 lo hi v).vdev = m.vdev := (Mach.wr_vdev _ _ _).trans (Mach.wr_vdev _ _ _)
@[simp] theorem Mach.wr64_lin (lo hi v : Nat) : (m.wr64 lo hi v).lin = m.lin := (Mach.wr_lin _ _ _).trans (Mach.wr_lin _ _ _)
@[simp] theorem Mach.wr64_nm (lo hi v : Nat) : (m.wr64 lo hi v).nm = m.nm := (Mach.wr_nm _ _ _).trans (Mach.wr_nm _ _ _)
@[simp] theorem Mach.wr64_gwy (lo hi v : Nat) : (m.wr64 lo hi v).gwy = m.gwy := (Mach.wr_gwy _ _ _).trans (Mach.wr_gwy _ _ _)
@[simp] theorem Mach.wr64_lath (lo hi v : Nat) : (m.wr64 lo hi v).lath = m.lath := (Mach.wr_lath _ _ _).trans (Mach.wr_lath _ _ _)
@[simp] theorem Mach.wr64_chk (lo hi v : Nat) : (m.wr64 lo hi v).chk = m.chk := (Mach.wr_chk _ _ _).trans (Mach.wr_chk _ _ _)
@[simp] theorem Mach.wr64_world (lo hi v : Nat) : (m.wr64 lo hi v).world = m.world := (Mach.wr_world _ _ _).trans (Mach.wr_world _ _ _)
@[simp] theorem Mach.wr64_key (lo hi v : Nat) : (m.wr64 lo hi v).key = m.key := (Mach.wr_key _ _ _).trans (Mach.wr_key _ _ _)
@[simp] theorem Mach.wr64_upd (lo hi v : Nat) : (m.wr64 lo hi v).upd = m.upd := (Mach.wr_upd _ _ _).trans (Mach.wr_upd _ _ _)

/-! ### answer -/

@[simp] theorem Mach.answer_regs (r : Resp) : (m.answer r).regs = m.regs := rfl
@[simp] theorem Mach.answer_drawn (r : Resp) : (m.answer r).drawn = m.drawn := rfl
@[simp] theorem Mach.answer_jq (r : Resp) : (m.answer r).jq = m.jq := rfl
@[simp] theorem Mach.answer_rst (r : Resp) : (m.answer r).rst = m.rst := rfl
@[simp] theorem Mach.answer_sill (r : Resp) : (m.answer r).sill = m.sill := rfl
@[simp] theorem Mach.answer_stage (r : Resp) : (m.answer r).stage = m.stage := rfl
@[simp] theorem Mach.answer_tick (r : Resp) : (m.answer r).tick = m.tick := rfl
@[simp] theorem Mach.answer_truss (r : Resp) : (m.answer r).truss = m.truss := rfl
@[simp] theorem Mach.answer_fab (r : Resp) : (m.answer r).fab = m.fab := rfl
@[simp] theorem Mach.answer_irq (r : Resp) : (m.answer r).irq = m.irq := rfl
@[simp] theorem Mach.answer_memc (r : Resp) : (m.answer r).memc = m.memc := rfl
@[simp] theorem Mach.answer_todo (r : Resp) : (m.answer r).todo = m.todo := rfl
@[simp] theorem Mach.answer_bent (r : Resp) : (m.answer r).bent = m.bent := rfl
@[simp] theorem Mach.answer_load (r : Resp) : (m.answer r).load = m.load := rfl
@[simp] theorem Mach.answer_meas (r : Resp) : (m.answer r).meas = m.meas := rfl
@[simp] theorem Mach.answer_clk (r : Resp) : (m.answer r).clk = m.clk := rfl
@[simp] theorem Mach.answer_swc (r : Resp) : (m.answer r).swc = m.swc := rfl
@[simp] theorem Mach.answer_eport (r : Resp) : (m.answer r).eport = m.eport := rfl
@[simp] theorem Mach.answer_mbus (r : Resp) : (m.answer r).mbus = m.mbus := rfl
@[simp] theorem Mach.answer_vdev (r : Resp) : (m.answer r).vdev = m.vdev := rfl
@[simp] theorem Mach.answer_lin (r : Resp) : (m.answer r).lin = m.lin := rfl
@[simp] theorem Mach.answer_nm (r : Resp) : (m.answer r).nm = m.nm := rfl
@[simp] theorem Mach.answer_gwy (r : Resp) : (m.answer r).gwy = m.gwy := rfl
@[simp] theorem Mach.answer_lath (r : Resp) : (m.answer r).lath = m.lath := rfl
@[simp] theorem Mach.answer_chk (r : Resp) : (m.answer r).chk = m.chk := rfl
@[simp] theorem Mach.answer_world (r : Resp) : (m.answer r).world = m.world := rfl
@[simp] theorem Mach.answer_key (r : Resp) : (m.answer r).key = m.key := rfl
@[simp] theorem Mach.answer_upd (r : Resp) : (m.answer r).upd = m.upd := rfl
@[simp] theorem Mach.answer_rd (r : Resp) (x₀ : Nat) : (m.answer r).rd x₀ = m.rd x₀ := rfl
@[simp] theorem Mach.answer_fld (r : Resp) (x₀ h₀ l₀ : Nat) : (m.answer r).fld x₀ h₀ l₀ = m.fld x₀ h₀ l₀ := rfl
@[simp] theorem Mach.answer_bit (r : Resp) (x₀ i₀ : Nat) : (m.answer r).bit x₀ i₀ = m.bit x₀ i₀ := rfl
@[simp] theorem Mach.answer_resp (r : Resp) : (m.answer r).resp = r := rfl

/-! ### journal -/

@[simp] theorem Mach.journal_regs (c x y z : Nat) : (m.journal c x y z).regs = m.regs := rfl
@[simp] theorem Mach.journal_resp (c x y z : Nat) : (m.journal c x y z).resp = m.resp := rfl
@[simp] theorem Mach.journal_drawn (c x y z : Nat) : (m.journal c x y z).drawn = m.drawn := rfl
@[simp] theorem Mach.journal_rst (c x y z : Nat) : (m.journal c x y z).rst = m.rst := rfl
@[simp] theorem Mach.journal_sill (c x y z : Nat) : (m.journal c x y z).sill = m.sill := rfl
@[simp] theorem Mach.journal_stage (c x y z : Nat) : (m.journal c x y z).stage = m.stage := rfl
@[simp] theorem Mach.journal_tick (c x y z : Nat) : (m.journal c x y z).tick = m.tick := rfl
@[simp] theorem Mach.journal_truss (c x y z : Nat) : (m.journal c x y z).truss = m.truss := rfl
@[simp] theorem Mach.journal_fab (c x y z : Nat) : (m.journal c x y z).fab = m.fab := rfl
@[simp] theorem Mach.journal_irq (c x y z : Nat) : (m.journal c x y z).irq = m.irq := rfl
@[simp] theorem Mach.journal_memc (c x y z : Nat) : (m.journal c x y z).memc = m.memc := rfl
@[simp] theorem Mach.journal_todo (c x y z : Nat) : (m.journal c x y z).todo = m.todo := rfl
@[simp] theorem Mach.journal_bent (c x y z : Nat) : (m.journal c x y z).bent = m.bent := rfl
@[simp] theorem Mach.journal_load (c x y z : Nat) : (m.journal c x y z).load = m.load := rfl
@[simp] theorem Mach.journal_meas (c x y z : Nat) : (m.journal c x y z).meas = m.meas := rfl
@[simp] theorem Mach.journal_clk (c x y z : Nat) : (m.journal c x y z).clk = m.clk := rfl
@[simp] theorem Mach.journal_swc (c x y z : Nat) : (m.journal c x y z).swc = m.swc := rfl
@[simp] theorem Mach.journal_eport (c x y z : Nat) : (m.journal c x y z).eport = m.eport := rfl
@[simp] theorem Mach.journal_mbus (c x y z : Nat) : (m.journal c x y z).mbus = m.mbus := rfl
@[simp] theorem Mach.journal_vdev (c x y z : Nat) : (m.journal c x y z).vdev = m.vdev := rfl
@[simp] theorem Mach.journal_lin (c x y z : Nat) : (m.journal c x y z).lin = m.lin := rfl
@[simp] theorem Mach.journal_nm (c x y z : Nat) : (m.journal c x y z).nm = m.nm := rfl
@[simp] theorem Mach.journal_gwy (c x y z : Nat) : (m.journal c x y z).gwy = m.gwy := rfl
@[simp] theorem Mach.journal_lath (c x y z : Nat) : (m.journal c x y z).lath = m.lath := rfl
@[simp] theorem Mach.journal_chk (c x y z : Nat) : (m.journal c x y z).chk = m.chk := rfl
@[simp] theorem Mach.journal_world (c x y z : Nat) : (m.journal c x y z).world = m.world := rfl
@[simp] theorem Mach.journal_key (c x y z : Nat) : (m.journal c x y z).key = m.key := rfl
@[simp] theorem Mach.journal_upd (c x y z : Nat) : (m.journal c x y z).upd = m.upd := rfl
@[simp] theorem Mach.journal_rd (c x y z : Nat) (x₀ : Nat) : (m.journal c x y z).rd x₀ = m.rd x₀ := rfl
@[simp] theorem Mach.journal_fld (c x y z : Nat) (x₀ h₀ l₀ : Nat) : (m.journal c x y z).fld x₀ h₀ l₀ = m.fld x₀ h₀ l₀ := rfl
@[simp] theorem Mach.journal_bit (c x y z : Nat) (x₀ i₀ : Nat) : (m.journal c x y z).bit x₀ i₀ = m.bit x₀ i₀ := rfl
@[simp] theorem Mach.journal_jq (c x y z : Nat) : (m.journal c x y z).jq = m.jq ++ [⟨c, x, y, z⟩] := rfl

/-! ### push -/

@[simp] theorem Mach.push_regs (t : Todo) : (m.push t).regs = m.regs := rfl
@[simp] theorem Mach.push_resp (t : Todo) : (m.push t).resp = m.resp := rfl
@[simp] theorem Mach.push_drawn (t : Todo) : (m.push t).drawn = m.drawn := rfl
@[simp] theorem Mach.push_jq (t : Todo) : (m.push t).jq = m.jq := rfl
@[simp] theorem Mach.push_rst (t : Todo) : (m.push t).rst = m.rst := rfl
@[simp] theorem Mach.push_sill (t : Todo) : (m.push t).sill = m.sill := rfl
@[simp] theorem Mach.push_stage (t : Todo) : (m.push t).stage = m.stage := rfl
@[simp] theorem Mach.push_tick (t : Todo) : (m.push t).tick = m.tick := rfl
@[simp] theorem Mach.push_truss (t : Todo) : (m.push t).truss = m.truss := rfl
@[simp] theorem Mach.push_fab (t : Todo) : (m.push t).fab = m.fab := rfl
@[simp] theorem Mach.push_irq (t : Todo) : (m.push t).irq = m.irq := rfl
@[simp] theorem Mach.push_memc (t : Todo) : (m.push t).memc = m.memc := rfl
@[simp] theorem Mach.push_bent (t : Todo) : (m.push t).bent = m.bent := rfl
@[simp] theorem Mach.push_load (t : Todo) : (m.push t).load = m.load := rfl
@[simp] theorem Mach.push_meas (t : Todo) : (m.push t).meas = m.meas := rfl
@[simp] theorem Mach.push_clk (t : Todo) : (m.push t).clk = m.clk := rfl
@[simp] theorem Mach.push_swc (t : Todo) : (m.push t).swc = m.swc := rfl
@[simp] theorem Mach.push_eport (t : Todo) : (m.push t).eport = m.eport := rfl
@[simp] theorem Mach.push_mbus (t : Todo) : (m.push t).mbus = m.mbus := rfl
@[simp] theorem Mach.push_vdev (t : Todo) : (m.push t).vdev = m.vdev := rfl
@[simp] theorem Mach.push_lin (t : Todo) : (m.push t).lin = m.lin := rfl
@[simp] theorem Mach.push_nm (t : Todo) : (m.push t).nm = m.nm := rfl
@[simp] theorem Mach.push_gwy (t : Todo) : (m.push t).gwy = m.gwy := rfl
@[simp] theorem Mach.push_lath (t : Todo) : (m.push t).lath = m.lath := rfl
@[simp] theorem Mach.push_chk (t : Todo) : (m.push t).chk = m.chk := rfl
@[simp] theorem Mach.push_world (t : Todo) : (m.push t).world = m.world := rfl
@[simp] theorem Mach.push_key (t : Todo) : (m.push t).key = m.key := rfl
@[simp] theorem Mach.push_upd (t : Todo) : (m.push t).upd = m.upd := rfl
@[simp] theorem Mach.push_rd (t : Todo) (x₀ : Nat) : (m.push t).rd x₀ = m.rd x₀ := rfl
@[simp] theorem Mach.push_fld (t : Todo) (x₀ h₀ l₀ : Nat) : (m.push t).fld x₀ h₀ l₀ = m.fld x₀ h₀ l₀ := rfl
@[simp] theorem Mach.push_bit (t : Todo) (x₀ i₀ : Nat) : (m.push t).bit x₀ i₀ = m.bit x₀ i₀ := rfl
@[simp] theorem Mach.push_todo (t : Todo) : (m.push t).todo = m.todo ++ [t] := rfl

/-! ### raise -/

@[simp] theorem Mach.raise_regs (c a : Nat) : (m.raise c a).regs = m.regs := rfl
@[simp] theorem Mach.raise_resp (c a : Nat) : (m.raise c a).resp = m.resp := rfl
@[simp] theorem Mach.raise_drawn (c a : Nat) : (m.raise c a).drawn = m.drawn := rfl
@[simp] theorem Mach.raise_jq (c a : Nat) : (m.raise c a).jq = m.jq := rfl
@[simp] theorem Mach.raise_rst (c a : Nat) : (m.raise c a).rst = m.rst := rfl
@[simp] theorem Mach.raise_sill (c a : Nat) : (m.raise c a).sill = m.sill := rfl
@[simp] theorem Mach.raise_stage (c a : Nat) : (m.raise c a).stage = m.stage := rfl
@[simp] theorem Mach.raise_tick (c a : Nat) : (m.raise c a).tick = m.tick := rfl
@[simp] theorem Mach.raise_truss (c a : Nat) : (m.raise c a).truss = m.truss := rfl
@[simp] theorem Mach.raise_fab (c a : Nat) : (m.raise c a).fab = m.fab := rfl
@[simp] theorem Mach.raise_irq (c a : Nat) : (m.raise c a).irq = m.irq := rfl
@[simp] theorem Mach.raise_memc (c a : Nat) : (m.raise c a).memc = m.memc := rfl
@[simp] theorem Mach.raise_bent (c a : Nat) : (m.raise c a).bent = m.bent := rfl
@[simp] theorem Mach.raise_load (c a : Nat) : (m.raise c a).load = m.load := rfl
@[simp] theorem Mach.raise_meas (c a : Nat) : (m.raise c a).meas = m.meas := rfl
@[simp] theorem Mach.raise_clk (c a : Nat) : (m.raise c a).clk = m.clk := rfl
@[simp] theorem Mach.raise_swc (c a : Nat) : (m.raise c a).swc = m.swc := rfl
@[simp] theorem Mach.raise_eport (c a : Nat) : (m.raise c a).eport = m.eport := rfl
@[simp] theorem Mach.raise_mbus (c a : Nat) : (m.raise c a).mbus = m.mbus := rfl
@[simp] theorem Mach.raise_vdev (c a : Nat) : (m.raise c a).vdev = m.vdev := rfl
@[simp] theorem Mach.raise_lin (c a : Nat) : (m.raise c a).lin = m.lin := rfl
@[simp] theorem Mach.raise_nm (c a : Nat) : (m.raise c a).nm = m.nm := rfl
@[simp] theorem Mach.raise_gwy (c a : Nat) : (m.raise c a).gwy = m.gwy := rfl
@[simp] theorem Mach.raise_lath (c a : Nat) : (m.raise c a).lath = m.lath := rfl
@[simp] theorem Mach.raise_chk (c a : Nat) : (m.raise c a).chk = m.chk := rfl
@[simp] theorem Mach.raise_world (c a : Nat) : (m.raise c a).world = m.world := rfl
@[simp] theorem Mach.raise_key (c a : Nat) : (m.raise c a).key = m.key := rfl
@[simp] theorem Mach.raise_upd (c a : Nat) : (m.raise c a).upd = m.upd := rfl
@[simp] theorem Mach.raise_rd (c a : Nat) (x₀ : Nat) : (m.raise c a).rd x₀ = m.rd x₀ := rfl
@[simp] theorem Mach.raise_fld (c a : Nat) (x₀ h₀ l₀ : Nat) : (m.raise c a).fld x₀ h₀ l₀ = m.fld x₀ h₀ l₀ := rfl
@[simp] theorem Mach.raise_bit (c a : Nat) (x₀ i₀ : Nat) : (m.raise c a).bit x₀ i₀ = m.bit x₀ i₀ := rfl
@[simp] theorem Mach.raise_todo (c a : Nat) : (m.raise c a).todo = m.todo ++ [.safety c a] := rfl

/-! ### modRst -/

@[simp] theorem Mach.modRst_regs (f : RstSt → RstSt) : (m.modRst f).regs = m.regs := rfl
@[simp] theorem Mach.modRst_resp (f : RstSt → RstSt) : (m.modRst f).resp = m.resp := rfl
@[simp] theorem Mach.modRst_drawn (f : RstSt → RstSt) : (m.modRst f).drawn = m.drawn := rfl
@[simp] theorem Mach.modRst_jq (f : RstSt → RstSt) : (m.modRst f).jq = m.jq := rfl
@[simp] theorem Mach.modRst_sill (f : RstSt → RstSt) : (m.modRst f).sill = m.sill := rfl
@[simp] theorem Mach.modRst_stage (f : RstSt → RstSt) : (m.modRst f).stage = m.stage := rfl
@[simp] theorem Mach.modRst_tick (f : RstSt → RstSt) : (m.modRst f).tick = m.tick := rfl
@[simp] theorem Mach.modRst_truss (f : RstSt → RstSt) : (m.modRst f).truss = m.truss := rfl
@[simp] theorem Mach.modRst_fab (f : RstSt → RstSt) : (m.modRst f).fab = m.fab := rfl
@[simp] theorem Mach.modRst_irq (f : RstSt → RstSt) : (m.modRst f).irq = m.irq := rfl
@[simp] theorem Mach.modRst_memc (f : RstSt → RstSt) : (m.modRst f).memc = m.memc := rfl
@[simp] theorem Mach.modRst_todo (f : RstSt → RstSt) : (m.modRst f).todo = m.todo := rfl
@[simp] theorem Mach.modRst_bent (f : RstSt → RstSt) : (m.modRst f).bent = m.bent := rfl
@[simp] theorem Mach.modRst_load (f : RstSt → RstSt) : (m.modRst f).load = m.load := rfl
@[simp] theorem Mach.modRst_meas (f : RstSt → RstSt) : (m.modRst f).meas = m.meas := rfl
@[simp] theorem Mach.modRst_clk (f : RstSt → RstSt) : (m.modRst f).clk = m.clk := rfl
@[simp] theorem Mach.modRst_swc (f : RstSt → RstSt) : (m.modRst f).swc = m.swc := rfl
@[simp] theorem Mach.modRst_eport (f : RstSt → RstSt) : (m.modRst f).eport = m.eport := rfl
@[simp] theorem Mach.modRst_mbus (f : RstSt → RstSt) : (m.modRst f).mbus = m.mbus := rfl
@[simp] theorem Mach.modRst_vdev (f : RstSt → RstSt) : (m.modRst f).vdev = m.vdev := rfl
@[simp] theorem Mach.modRst_lin (f : RstSt → RstSt) : (m.modRst f).lin = m.lin := rfl
@[simp] theorem Mach.modRst_nm (f : RstSt → RstSt) : (m.modRst f).nm = m.nm := rfl
@[simp] theorem Mach.modRst_gwy (f : RstSt → RstSt) : (m.modRst f).gwy = m.gwy := rfl
@[simp] theorem Mach.modRst_lath (f : RstSt → RstSt) : (m.modRst f).lath = m.lath := rfl
@[simp] theorem Mach.modRst_chk (f : RstSt → RstSt) : (m.modRst f).chk = m.chk := rfl
@[simp] theorem Mach.modRst_world (f : RstSt → RstSt) : (m.modRst f).world = m.world := rfl
@[simp] theorem Mach.modRst_key (f : RstSt → RstSt) : (m.modRst f).key = m.key := rfl
@[simp] theorem Mach.modRst_upd (f : RstSt → RstSt) : (m.modRst f).upd = m.upd := rfl
@[simp] theorem Mach.modRst_rd (f : RstSt → RstSt) (x₀ : Nat) : (m.modRst f).rd x₀ = m.rd x₀ := rfl
@[simp] theorem Mach.modRst_fld (f : RstSt → RstSt) (x₀ h₀ l₀ : Nat) : (m.modRst f).fld x₀ h₀ l₀ = m.fld x₀ h₀ l₀ := rfl
@[simp] theorem Mach.modRst_bit (f : RstSt → RstSt) (x₀ i₀ : Nat) : (m.modRst f).bit x₀ i₀ = m.bit x₀ i₀ := rfl
@[simp] theorem Mach.modRst_rst (f : RstSt → RstSt) : (m.modRst f).rst = f m.rst := rfl

/-! ### modSill -/

@[simp] theorem Mach.modSill_regs (f : SillSt → SillSt) : (m.modSill f).regs = m.regs := rfl
@[simp] theorem Mach.modSill_resp (f : SillSt → SillSt) : (m.modSill f).resp = m.resp := rfl
@[simp] theorem Mach.modSill_drawn (f : SillSt → SillSt) : (m.modSill f).drawn = m.drawn := rfl
@[simp] theorem Mach.modSill_jq (f : SillSt → SillSt) : (m.modSill f).jq = m.jq := rfl
@[simp] theorem Mach.modSill_rst (f : SillSt → SillSt) : (m.modSill f).rst = m.rst := rfl
@[simp] theorem Mach.modSill_stage (f : SillSt → SillSt) : (m.modSill f).stage = m.stage := rfl
@[simp] theorem Mach.modSill_tick (f : SillSt → SillSt) : (m.modSill f).tick = m.tick := rfl
@[simp] theorem Mach.modSill_truss (f : SillSt → SillSt) : (m.modSill f).truss = m.truss := rfl
@[simp] theorem Mach.modSill_fab (f : SillSt → SillSt) : (m.modSill f).fab = m.fab := rfl
@[simp] theorem Mach.modSill_irq (f : SillSt → SillSt) : (m.modSill f).irq = m.irq := rfl
@[simp] theorem Mach.modSill_memc (f : SillSt → SillSt) : (m.modSill f).memc = m.memc := rfl
@[simp] theorem Mach.modSill_todo (f : SillSt → SillSt) : (m.modSill f).todo = m.todo := rfl
@[simp] theorem Mach.modSill_bent (f : SillSt → SillSt) : (m.modSill f).bent = m.bent := rfl
@[simp] theorem Mach.modSill_load (f : SillSt → SillSt) : (m.modSill f).load = m.load := rfl
@[simp] theorem Mach.modSill_meas (f : SillSt → SillSt) : (m.modSill f).meas = m.meas := rfl
@[simp] theorem Mach.modSill_clk (f : SillSt → SillSt) : (m.modSill f).clk = m.clk := rfl
@[simp] theorem Mach.modSill_swc (f : SillSt → SillSt) : (m.modSill f).swc = m.swc := rfl
@[simp] theorem Mach.modSill_eport (f : SillSt → SillSt) : (m.modSill f).eport = m.eport := rfl
@[simp] theorem Mach.modSill_mbus (f : SillSt → SillSt) : (m.modSill f).mbus = m.mbus := rfl
@[simp] theorem Mach.modSill_vdev (f : SillSt → SillSt) : (m.modSill f).vdev = m.vdev := rfl
@[simp] theorem Mach.modSill_lin (f : SillSt → SillSt) : (m.modSill f).lin = m.lin := rfl
@[simp] theorem Mach.modSill_nm (f : SillSt → SillSt) : (m.modSill f).nm = m.nm := rfl
@[simp] theorem Mach.modSill_gwy (f : SillSt → SillSt) : (m.modSill f).gwy = m.gwy := rfl
@[simp] theorem Mach.modSill_lath (f : SillSt → SillSt) : (m.modSill f).lath = m.lath := rfl
@[simp] theorem Mach.modSill_chk (f : SillSt → SillSt) : (m.modSill f).chk = m.chk := rfl
@[simp] theorem Mach.modSill_world (f : SillSt → SillSt) : (m.modSill f).world = m.world := rfl
@[simp] theorem Mach.modSill_key (f : SillSt → SillSt) : (m.modSill f).key = m.key := rfl
@[simp] theorem Mach.modSill_upd (f : SillSt → SillSt) : (m.modSill f).upd = m.upd := rfl
@[simp] theorem Mach.modSill_rd (f : SillSt → SillSt) (x₀ : Nat) : (m.modSill f).rd x₀ = m.rd x₀ := rfl
@[simp] theorem Mach.modSill_fld (f : SillSt → SillSt) (x₀ h₀ l₀ : Nat) : (m.modSill f).fld x₀ h₀ l₀ = m.fld x₀ h₀ l₀ := rfl
@[simp] theorem Mach.modSill_bit (f : SillSt → SillSt) (x₀ i₀ : Nat) : (m.modSill f).bit x₀ i₀ = m.bit x₀ i₀ := rfl
@[simp] theorem Mach.modSill_sill (f : SillSt → SillSt) : (m.modSill f).sill = f m.sill := rfl

/-! ### modBent -/

@[simp] theorem Mach.modBent_regs (f : BentSt → BentSt) : (m.modBent f).regs = m.regs := rfl
@[simp] theorem Mach.modBent_resp (f : BentSt → BentSt) : (m.modBent f).resp = m.resp := rfl
@[simp] theorem Mach.modBent_drawn (f : BentSt → BentSt) : (m.modBent f).drawn = m.drawn := rfl
@[simp] theorem Mach.modBent_jq (f : BentSt → BentSt) : (m.modBent f).jq = m.jq := rfl
@[simp] theorem Mach.modBent_rst (f : BentSt → BentSt) : (m.modBent f).rst = m.rst := rfl
@[simp] theorem Mach.modBent_sill (f : BentSt → BentSt) : (m.modBent f).sill = m.sill := rfl
@[simp] theorem Mach.modBent_stage (f : BentSt → BentSt) : (m.modBent f).stage = m.stage := rfl
@[simp] theorem Mach.modBent_tick (f : BentSt → BentSt) : (m.modBent f).tick = m.tick := rfl
@[simp] theorem Mach.modBent_truss (f : BentSt → BentSt) : (m.modBent f).truss = m.truss := rfl
@[simp] theorem Mach.modBent_fab (f : BentSt → BentSt) : (m.modBent f).fab = m.fab := rfl
@[simp] theorem Mach.modBent_irq (f : BentSt → BentSt) : (m.modBent f).irq = m.irq := rfl
@[simp] theorem Mach.modBent_memc (f : BentSt → BentSt) : (m.modBent f).memc = m.memc := rfl
@[simp] theorem Mach.modBent_todo (f : BentSt → BentSt) : (m.modBent f).todo = m.todo := rfl
@[simp] theorem Mach.modBent_load (f : BentSt → BentSt) : (m.modBent f).load = m.load := rfl
@[simp] theorem Mach.modBent_meas (f : BentSt → BentSt) : (m.modBent f).meas = m.meas := rfl
@[simp] theorem Mach.modBent_clk (f : BentSt → BentSt) : (m.modBent f).clk = m.clk := rfl
@[simp] theorem Mach.modBent_swc (f : BentSt → BentSt) : (m.modBent f).swc = m.swc := rfl
@[simp] theorem Mach.modBent_eport (f : BentSt → BentSt) : (m.modBent f).eport = m.eport := rfl
@[simp] theorem Mach.modBent_mbus (f : BentSt → BentSt) : (m.modBent f).mbus = m.mbus := rfl
@[simp] theorem Mach.modBent_vdev (f : BentSt → BentSt) : (m.modBent f).vdev = m.vdev := rfl
@[simp] theorem Mach.modBent_lin (f : BentSt → BentSt) : (m.modBent f).lin = m.lin := rfl
@[simp] theorem Mach.modBent_nm (f : BentSt → BentSt) : (m.modBent f).nm = m.nm := rfl
@[simp] theorem Mach.modBent_gwy (f : BentSt → BentSt) : (m.modBent f).gwy = m.gwy := rfl
@[simp] theorem Mach.modBent_lath (f : BentSt → BentSt) : (m.modBent f).lath = m.lath := rfl
@[simp] theorem Mach.modBent_chk (f : BentSt → BentSt) : (m.modBent f).chk = m.chk := rfl
@[simp] theorem Mach.modBent_world (f : BentSt → BentSt) : (m.modBent f).world = m.world := rfl
@[simp] theorem Mach.modBent_key (f : BentSt → BentSt) : (m.modBent f).key = m.key := rfl
@[simp] theorem Mach.modBent_upd (f : BentSt → BentSt) : (m.modBent f).upd = m.upd := rfl
@[simp] theorem Mach.modBent_rd (f : BentSt → BentSt) (x₀ : Nat) : (m.modBent f).rd x₀ = m.rd x₀ := rfl
@[simp] theorem Mach.modBent_fld (f : BentSt → BentSt) (x₀ h₀ l₀ : Nat) : (m.modBent f).fld x₀ h₀ l₀ = m.fld x₀ h₀ l₀ := rfl
@[simp] theorem Mach.modBent_bit (f : BentSt → BentSt) (x₀ i₀ : Nat) : (m.modBent f).bit x₀ i₀ = m.bit x₀ i₀ := rfl
@[simp] theorem Mach.modBent_bent (f : BentSt → BentSt) : (m.modBent f).bent = f m.bent := rfl

/-! ### modChk -/

@[simp] theorem Mach.modChk_regs (c : Nat) (f : ChkCore → ChkCore) : (m.modChk c f).regs = m.regs := rfl
@[simp] theorem Mach.modChk_resp (c : Nat) (f : ChkCore → ChkCore) : (m.modChk c f).resp = m.resp := rfl
@[simp] theorem Mach.modChk_drawn (c : Nat) (f : ChkCore → ChkCore) : (m.modChk c f).drawn = m.drawn := rfl
@[simp] theorem Mach.modChk_jq (c : Nat) (f : ChkCore → ChkCore) : (m.modChk c f).jq = m.jq := rfl
@[simp] theorem Mach.modChk_rst (c : Nat) (f : ChkCore → ChkCore) : (m.modChk c f).rst = m.rst := rfl
@[simp] theorem Mach.modChk_sill (c : Nat) (f : ChkCore → ChkCore) : (m.modChk c f).sill = m.sill := rfl
@[simp] theorem Mach.modChk_stage (c : Nat) (f : ChkCore → ChkCore) : (m.modChk c f).stage = m.stage := rfl
@[simp] theorem Mach.modChk_tick (c : Nat) (f : ChkCore → ChkCore) : (m.modChk c f).tick = m.tick := rfl
@[simp] theorem Mach.modChk_truss (c : Nat) (f : ChkCore → ChkCore) : (m.modChk c f).truss = m.truss := rfl
@[simp] theorem Mach.modChk_fab (c : Nat) (f : ChkCore → ChkCore) : (m.modChk c f).fab = m.fab := rfl
@[simp] theorem Mach.modChk_irq (c : Nat) (f : ChkCore → ChkCore) : (m.modChk c f).irq = m.irq := rfl
@[simp] theorem Mach.modChk_memc (c : Nat) (f : ChkCore → ChkCore) : (m.modChk c f).memc = m.memc := rfl
@[simp] theorem Mach.modChk_todo (c : Nat) (f : ChkCore → ChkCore) : (m.modChk c f).todo = m.todo := rfl
@[simp] theorem Mach.modChk_bent (c : Nat) (f : ChkCore → ChkCore) : (m.modChk c f).bent = m.bent := rfl
@[simp] theorem Mach.modChk_load (c : Nat) (f : ChkCore → ChkCore) : (m.modChk c f).load = m.load := rfl
@[simp] theorem Mach.modChk_meas (c : Nat) (f : ChkCore → ChkCore) : (m.modChk c f).meas = m.meas := rfl
@[simp] theorem Mach.modChk_clk (c : Nat) (f : ChkCore → ChkCore) : (m.modChk c f).clk = m.clk := rfl
@[simp] theorem Mach.modChk_swc (c : Nat) (f : ChkCore → ChkCore) : (m.modChk c f).swc = m.swc := rfl
@[simp] theorem Mach.modChk_eport (c : Nat) (f : ChkCore → ChkCore) : (m.modChk c f).eport = m.eport := rfl
@[simp] theorem Mach.modChk_mbus (c : Nat) (f : ChkCore → ChkCore) : (m.modChk c f).mbus = m.mbus := rfl
@[simp] theorem Mach.modChk_vdev (c : Nat) (f : ChkCore → ChkCore) : (m.modChk c f).vdev = m.vdev := rfl
@[simp] theorem Mach.modChk_lin (c : Nat) (f : ChkCore → ChkCore) : (m.modChk c f).lin = m.lin := rfl
@[simp] theorem Mach.modChk_nm (c : Nat) (f : ChkCore → ChkCore) : (m.modChk c f).nm = m.nm := rfl
@[simp] theorem Mach.modChk_gwy (c : Nat) (f : ChkCore → ChkCore) : (m.modChk c f).gwy = m.gwy := rfl
@[simp] theorem Mach.modChk_lath (c : Nat) (f : ChkCore → ChkCore) : (m.modChk c f).lath = m.lath := rfl
@[simp] theorem Mach.modChk_world (c : Nat) (f : ChkCore → ChkCore) : (m.modChk c f).world = m.world := rfl
@[simp] theorem Mach.modChk_key (c : Nat) (f : ChkCore → ChkCore) : (m.modChk c f).key = m.key := rfl
@[simp] theorem Mach.modChk_upd (c : Nat) (f : ChkCore → ChkCore) : (m.modChk c f).upd = m.upd := rfl
@[simp] theorem Mach.modChk_rd (c : Nat) (f : ChkCore → ChkCore) (x₀ : Nat) : (m.modChk c f).rd x₀ = m.rd x₀ := rfl
@[simp] theorem Mach.modChk_fld (c : Nat) (f : ChkCore → ChkCore) (x₀ h₀ l₀ : Nat) : (m.modChk c f).fld x₀ h₀ l₀ = m.fld x₀ h₀ l₀ := rfl
@[simp] theorem Mach.modChk_bit (c : Nat) (f : ChkCore → ChkCore) (x₀ i₀ : Nat) : (m.modChk c f).bit x₀ i₀ = m.bit x₀ i₀ := rfl

/-! ### modPort -/

@[simp] theorem Mach.modPort_regs (p : Nat) (f : PortSt → PortSt) : (m.modPort p f).regs = m.regs := rfl
@[simp] theorem Mach.modPort_resp (p : Nat) (f : PortSt → PortSt) : (m.modPort p f).resp = m.resp := rfl
@[simp] theorem Mach.modPort_drawn (p : Nat) (f : PortSt → PortSt) : (m.modPort p f).drawn = m.drawn := rfl
@[simp] theorem Mach.modPort_jq (p : Nat) (f : PortSt → PortSt) : (m.modPort p f).jq = m.jq := rfl
@[simp] theorem Mach.modPort_rst (p : Nat) (f : PortSt → PortSt) : (m.modPort p f).rst = m.rst := rfl
@[simp] theorem Mach.modPort_sill (p : Nat) (f : PortSt → PortSt) : (m.modPort p f).sill = m.sill := rfl
@[simp] theorem Mach.modPort_stage (p : Nat) (f : PortSt → PortSt) : (m.modPort p f).stage = m.stage := rfl
@[simp] theorem Mach.modPort_tick (p : Nat) (f : PortSt → PortSt) : (m.modPort p f).tick = m.tick := rfl
@[simp] theorem Mach.modPort_truss (p : Nat) (f : PortSt → PortSt) : (m.modPort p f).truss = m.truss := rfl
@[simp] theorem Mach.modPort_fab (p : Nat) (f : PortSt → PortSt) : (m.modPort p f).fab = m.fab := rfl
@[simp] theorem Mach.modPort_irq (p : Nat) (f : PortSt → PortSt) : (m.modPort p f).irq = m.irq := rfl
@[simp] theorem Mach.modPort_memc (p : Nat) (f : PortSt → PortSt) : (m.modPort p f).memc = m.memc := rfl
@[simp] theorem Mach.modPort_todo (p : Nat) (f : PortSt → PortSt) : (m.modPort p f).todo = m.todo := rfl
@[simp] theorem Mach.modPort_bent (p : Nat) (f : PortSt → PortSt) : (m.modPort p f).bent = m.bent := rfl
@[simp] theorem Mach.modPort_load (p : Nat) (f : PortSt → PortSt) : (m.modPort p f).load = m.load := rfl
@[simp] theorem Mach.modPort_meas (p : Nat) (f : PortSt → PortSt) : (m.modPort p f).meas = m.meas := rfl
@[simp] theorem Mach.modPort_clk (p : Nat) (f : PortSt → PortSt) : (m.modPort p f).clk = m.clk := rfl
@[simp] theorem Mach.modPort_swc (p : Nat) (f : PortSt → PortSt) : (m.modPort p f).swc = m.swc := rfl
@[simp] theorem Mach.modPort_mbus (p : Nat) (f : PortSt → PortSt) : (m.modPort p f).mbus = m.mbus := rfl
@[simp] theorem Mach.modPort_vdev (p : Nat) (f : PortSt → PortSt) : (m.modPort p f).vdev = m.vdev := rfl
@[simp] theorem Mach.modPort_lin (p : Nat) (f : PortSt → PortSt) : (m.modPort p f).lin = m.lin := rfl
@[simp] theorem Mach.modPort_nm (p : Nat) (f : PortSt → PortSt) : (m.modPort p f).nm = m.nm := rfl
@[simp] theorem Mach.modPort_gwy (p : Nat) (f : PortSt → PortSt) : (m.modPort p f).gwy = m.gwy := rfl
@[simp] theorem Mach.modPort_lath (p : Nat) (f : PortSt → PortSt) : (m.modPort p f).lath = m.lath := rfl
@[simp] theorem Mach.modPort_chk (p : Nat) (f : PortSt → PortSt) : (m.modPort p f).chk = m.chk := rfl
@[simp] theorem Mach.modPort_world (p : Nat) (f : PortSt → PortSt) : (m.modPort p f).world = m.world := rfl
@[simp] theorem Mach.modPort_key (p : Nat) (f : PortSt → PortSt) : (m.modPort p f).key = m.key := rfl
@[simp] theorem Mach.modPort_upd (p : Nat) (f : PortSt → PortSt) : (m.modPort p f).upd = m.upd := rfl
@[simp] theorem Mach.modPort_rd (p : Nat) (f : PortSt → PortSt) (x₀ : Nat) : (m.modPort p f).rd x₀ = m.rd x₀ := rfl
@[simp] theorem Mach.modPort_fld (p : Nat) (f : PortSt → PortSt) (x₀ h₀ l₀ : Nat) : (m.modPort p f).fld x₀ h₀ l₀ = m.fld x₀ h₀ l₀ := rfl
@[simp] theorem Mach.modPort_bit (p : Nat) (f : PortSt → PortSt) (x₀ i₀ : Nat) : (m.modPort p f).bit x₀ i₀ = m.bit x₀ i₀ := rfl

/-! ### modCore -/

@[simp] theorem Mach.modCore_regs (i : Nat) (f : Core → Core) : (m.modCore i f).regs = m.regs := rfl
@[simp] theorem Mach.modCore_resp (i : Nat) (f : Core → Core) : (m.modCore i f).resp = m.resp := rfl
@[simp] theorem Mach.modCore_drawn (i : Nat) (f : Core → Core) : (m.modCore i f).drawn = m.drawn := rfl
@[simp] theorem Mach.modCore_jq (i : Nat) (f : Core → Core) : (m.modCore i f).jq = m.jq := rfl
@[simp] theorem Mach.modCore_rst (i : Nat) (f : Core → Core) : (m.modCore i f).rst = m.rst := rfl
@[simp] theorem Mach.modCore_sill (i : Nat) (f : Core → Core) : (m.modCore i f).sill = m.sill := rfl
@[simp] theorem Mach.modCore_stage (i : Nat) (f : Core → Core) : (m.modCore i f).stage = m.stage := rfl
@[simp] theorem Mach.modCore_tick (i : Nat) (f : Core → Core) : (m.modCore i f).tick = m.tick := rfl
@[simp] theorem Mach.modCore_truss (i : Nat) (f : Core → Core) : (m.modCore i f).truss = m.truss := rfl
@[simp] theorem Mach.modCore_irq (i : Nat) (f : Core → Core) : (m.modCore i f).irq = m.irq := rfl
@[simp] theorem Mach.modCore_memc (i : Nat) (f : Core → Core) : (m.modCore i f).memc = m.memc := rfl
@[simp] theorem Mach.modCore_todo (i : Nat) (f : Core → Core) : (m.modCore i f).todo = m.todo := rfl
@[simp] theorem Mach.modCore_bent (i : Nat) (f : Core → Core) : (m.modCore i f).bent = m.bent := rfl
@[simp] theorem Mach.modCore_load (i : Nat) (f : Core → Core) : (m.modCore i f).load = m.load := rfl
@[simp] theorem Mach.modCore_meas (i : Nat) (f : Core → Core) : (m.modCore i f).meas = m.meas := rfl
@[simp] theorem Mach.modCore_clk (i : Nat) (f : Core → Core) : (m.modCore i f).clk = m.clk := rfl
@[simp] theorem Mach.modCore_swc (i : Nat) (f : Core → Core) : (m.modCore i f).swc = m.swc := rfl
@[simp] theorem Mach.modCore_eport (i : Nat) (f : Core → Core) : (m.modCore i f).eport = m.eport := rfl
@[simp] theorem Mach.modCore_mbus (i : Nat) (f : Core → Core) : (m.modCore i f).mbus = m.mbus := rfl
@[simp] theorem Mach.modCore_vdev (i : Nat) (f : Core → Core) : (m.modCore i f).vdev = m.vdev := rfl
@[simp] theorem Mach.modCore_lin (i : Nat) (f : Core → Core) : (m.modCore i f).lin = m.lin := rfl
@[simp] theorem Mach.modCore_nm (i : Nat) (f : Core → Core) : (m.modCore i f).nm = m.nm := rfl
@[simp] theorem Mach.modCore_gwy (i : Nat) (f : Core → Core) : (m.modCore i f).gwy = m.gwy := rfl
@[simp] theorem Mach.modCore_lath (i : Nat) (f : Core → Core) : (m.modCore i f).lath = m.lath := rfl
@[simp] theorem Mach.modCore_chk (i : Nat) (f : Core → Core) : (m.modCore i f).chk = m.chk := rfl
@[simp] theorem Mach.modCore_world (i : Nat) (f : Core → Core) : (m.modCore i f).world = m.world := rfl
@[simp] theorem Mach.modCore_key (i : Nat) (f : Core → Core) : (m.modCore i f).key = m.key := rfl
@[simp] theorem Mach.modCore_upd (i : Nat) (f : Core → Core) : (m.modCore i f).upd = m.upd := rfl
@[simp] theorem Mach.modCore_rd (i : Nat) (f : Core → Core) (x₀ : Nat) : (m.modCore i f).rd x₀ = m.rd x₀ := rfl
@[simp] theorem Mach.modCore_fld (i : Nat) (f : Core → Core) (x₀ h₀ l₀ : Nat) : (m.modCore i f).fld x₀ h₀ l₀ = m.fld x₀ h₀ l₀ := rfl
@[simp] theorem Mach.modCore_bit (i : Nat) (f : Core → Core) (x₀ i₀ : Nat) : (m.modCore i f).bit x₀ i₀ = m.bit x₀ i₀ := rfl

/-! ### modGwy -/

@[simp] theorem Mach.modGwy_regs (f : GwySt → GwySt) : (m.modGwy f).regs = m.regs := rfl
@[simp] theorem Mach.modGwy_resp (f : GwySt → GwySt) : (m.modGwy f).resp = m.resp := rfl
@[simp] theorem Mach.modGwy_drawn (f : GwySt → GwySt) : (m.modGwy f).drawn = m.drawn := rfl
@[simp] theorem Mach.modGwy_jq (f : GwySt → GwySt) : (m.modGwy f).jq = m.jq := rfl
@[simp] theorem Mach.modGwy_rst (f : GwySt → GwySt) : (m.modGwy f).rst = m.rst := rfl
@[simp] theorem Mach.modGwy_sill (f : GwySt → GwySt) : (m.modGwy f).sill = m.sill := rfl
@[simp] theorem Mach.modGwy_stage (f : GwySt → GwySt) : (m.modGwy f).stage = m.stage := rfl
@[simp] theorem Mach.modGwy_tick (f : GwySt → GwySt) : (m.modGwy f).tick = m.tick := rfl
@[simp] theorem Mach.modGwy_truss (f : GwySt → GwySt) : (m.modGwy f).truss = m.truss := rfl
@[simp] theorem Mach.modGwy_fab (f : GwySt → GwySt) : (m.modGwy f).fab = m.fab := rfl
@[simp] theorem Mach.modGwy_irq (f : GwySt → GwySt) : (m.modGwy f).irq = m.irq := rfl
@[simp] theorem Mach.modGwy_memc (f : GwySt → GwySt) : (m.modGwy f).memc = m.memc := rfl
@[simp] theorem Mach.modGwy_todo (f : GwySt → GwySt) : (m.modGwy f).todo = m.todo := rfl
@[simp] theorem Mach.modGwy_bent (f : GwySt → GwySt) : (m.modGwy f).bent = m.bent := rfl
@[simp] theorem Mach.modGwy_load (f : GwySt → GwySt) : (m.modGwy f).load = m.load := rfl
@[simp] theorem Mach.modGwy_meas (f : GwySt → GwySt) : (m.modGwy f).meas = m.meas := rfl
@[simp] theorem Mach.modGwy_clk (f : GwySt → GwySt) : (m.modGwy f).clk = m.clk := rfl
@[simp] theorem Mach.modGwy_swc (f : GwySt → GwySt) : (m.modGwy f).swc = m.swc := rfl
@[simp] theorem Mach.modGwy_eport (f : GwySt → GwySt) : (m.modGwy f).eport = m.eport := rfl
@[simp] theorem Mach.modGwy_mbus (f : GwySt → GwySt) : (m.modGwy f).mbus = m.mbus := rfl
@[simp] theorem Mach.modGwy_vdev (f : GwySt → GwySt) : (m.modGwy f).vdev = m.vdev := rfl
@[simp] theorem Mach.modGwy_lin (f : GwySt → GwySt) : (m.modGwy f).lin = m.lin := rfl
@[simp] theorem Mach.modGwy_nm (f : GwySt → GwySt) : (m.modGwy f).nm = m.nm := rfl
@[simp] theorem Mach.modGwy_lath (f : GwySt → GwySt) : (m.modGwy f).lath = m.lath := rfl
@[simp] theorem Mach.modGwy_chk (f : GwySt → GwySt) : (m.modGwy f).chk = m.chk := rfl
@[simp] theorem Mach.modGwy_world (f : GwySt → GwySt) : (m.modGwy f).world = m.world := rfl
@[simp] theorem Mach.modGwy_key (f : GwySt → GwySt) : (m.modGwy f).key = m.key := rfl
@[simp] theorem Mach.modGwy_upd (f : GwySt → GwySt) : (m.modGwy f).upd = m.upd := rfl
@[simp] theorem Mach.modGwy_rd (f : GwySt → GwySt) (x₀ : Nat) : (m.modGwy f).rd x₀ = m.rd x₀ := rfl
@[simp] theorem Mach.modGwy_fld (f : GwySt → GwySt) (x₀ h₀ l₀ : Nat) : (m.modGwy f).fld x₀ h₀ l₀ = m.fld x₀ h₀ l₀ := rfl
@[simp] theorem Mach.modGwy_bit (f : GwySt → GwySt) (x₀ i₀ : Nat) : (m.modGwy f).bit x₀ i₀ = m.bit x₀ i₀ := rfl
@[simp] theorem Mach.modGwy_gwy (f : GwySt → GwySt) : (m.modGwy f).gwy = f m.gwy := rfl

/-! ### modKey -/

@[simp] theorem Mach.modKey_regs (f : KeySt → KeySt) : (m.modKey f).regs = m.regs := rfl
@[simp] theorem Mach.modKey_resp (f : KeySt → KeySt) : (m.modKey f).resp = m.resp := rfl
@[simp] theorem Mach.modKey_drawn (f : KeySt → KeySt) : (m.modKey f).drawn = m.drawn := rfl
@[simp] theorem Mach.modKey_jq (f : KeySt → KeySt) : (m.modKey f).jq = m.jq := rfl
@[simp] theorem Mach.modKey_rst (f : KeySt → KeySt) : (m.modKey f).rst = m.rst := rfl
@[simp] theorem Mach.modKey_sill (f : KeySt → KeySt) : (m.modKey f).sill = m.sill := rfl
@[simp] theorem Mach.modKey_stage (f : KeySt → KeySt) : (m.modKey f).stage = m.stage := rfl
@[simp] theorem Mach.modKey_tick (f : KeySt → KeySt) : (m.modKey f).tick = m.tick := rfl
@[simp] theorem Mach.modKey_truss (f : KeySt → KeySt) : (m.modKey f).truss = m.truss := rfl
@[simp] theorem Mach.modKey_fab (f : KeySt → KeySt) : (m.modKey f).fab = m.fab := rfl
@[simp] theorem Mach.modKey_irq (f : KeySt → KeySt) : (m.modKey f).irq = m.irq := rfl
@[simp] theorem Mach.modKey_memc (f : KeySt → KeySt) : (m.modKey f).memc = m.memc := rfl
@[simp] theorem Mach.modKey_todo (f : KeySt → KeySt) : (m.modKey f).todo = m.todo := rfl
@[simp] theorem Mach.modKey_bent (f : KeySt → KeySt) : (m.modKey f).bent = m.bent := rfl
@[simp] theorem Mach.modKey_load (f : KeySt → KeySt) : (m.modKey f).load = m.load := rfl
@[simp] theorem Mach.modKey_meas (f : KeySt → KeySt) : (m.modKey f).meas = m.meas := rfl
@[simp] theorem Mach.modKey_clk (f : KeySt → KeySt) : (m.modKey f).clk = m.clk := rfl
@[simp] theorem Mach.modKey_swc (f : KeySt → KeySt) : (m.modKey f).swc = m.swc := rfl
@[simp] theorem Mach.modKey_eport (f : KeySt → KeySt) : (m.modKey f).eport = m.eport := rfl
@[simp] theorem Mach.modKey_mbus (f : KeySt → KeySt) : (m.modKey f).mbus = m.mbus := rfl
@[simp] theorem Mach.modKey_vdev (f : KeySt → KeySt) : (m.modKey f).vdev = m.vdev := rfl
@[simp] theorem Mach.modKey_lin (f : KeySt → KeySt) : (m.modKey f).lin = m.lin := rfl
@[simp] theorem Mach.modKey_nm (f : KeySt → KeySt) : (m.modKey f).nm = m.nm := rfl
@[simp] theorem Mach.modKey_gwy (f : KeySt → KeySt) : (m.modKey f).gwy = m.gwy := rfl
@[simp] theorem Mach.modKey_lath (f : KeySt → KeySt) : (m.modKey f).lath = m.lath := rfl
@[simp] theorem Mach.modKey_chk (f : KeySt → KeySt) : (m.modKey f).chk = m.chk := rfl
@[simp] theorem Mach.modKey_world (f : KeySt → KeySt) : (m.modKey f).world = m.world := rfl
@[simp] theorem Mach.modKey_upd (f : KeySt → KeySt) : (m.modKey f).upd = m.upd := rfl
@[simp] theorem Mach.modKey_rd (f : KeySt → KeySt) (x₀ : Nat) : (m.modKey f).rd x₀ = m.rd x₀ := rfl
@[simp] theorem Mach.modKey_fld (f : KeySt → KeySt) (x₀ h₀ l₀ : Nat) : (m.modKey f).fld x₀ h₀ l₀ = m.fld x₀ h₀ l₀ := rfl
@[simp] theorem Mach.modKey_bit (f : KeySt → KeySt) (x₀ i₀ : Nat) : (m.modKey f).bit x₀ i₀ = m.bit x₀ i₀ := rfl
@[simp] theorem Mach.modKey_key (f : KeySt → KeySt) : (m.modKey f).key = f m.key := rfl

/-! ### modLath -/

@[simp] theorem Mach.modLath_regs (f : LathSt → LathSt) : (m.modLath f).regs = m.regs := rfl
@[simp] theorem Mach.modLath_resp (f : LathSt → LathSt) : (m.modLath f).resp = m.resp := rfl
@[simp] theorem Mach.modLath_drawn (f : LathSt → LathSt) : (m.modLath f).drawn = m.drawn := rfl
@[simp] theorem Mach.modLath_jq (f : LathSt → LathSt) : (m.modLath f).jq = m.jq := rfl
@[simp] theorem Mach.modLath_rst (f : LathSt → LathSt) : (m.modLath f).rst = m.rst := rfl
@[simp] theorem Mach.modLath_sill (f : LathSt → LathSt) : (m.modLath f).sill = m.sill := rfl
@[simp] theorem Mach.modLath_stage (f : LathSt → LathSt) : (m.modLath f).stage = m.stage := rfl
@[simp] theorem Mach.modLath_tick (f : LathSt → LathSt) : (m.modLath f).tick = m.tick := rfl
@[simp] theorem Mach.modLath_truss (f : LathSt → LathSt) : (m.modLath f).truss = m.truss := rfl
@[simp] theorem Mach.modLath_fab (f : LathSt → LathSt) : (m.modLath f).fab = m.fab := rfl
@[simp] theorem Mach.modLath_irq (f : LathSt → LathSt) : (m.modLath f).irq = m.irq := rfl
@[simp] theorem Mach.modLath_memc (f : LathSt → LathSt) : (m.modLath f).memc = m.memc := rfl
@[simp] theorem Mach.modLath_todo (f : LathSt → LathSt) : (m.modLath f).todo = m.todo := rfl
@[simp] theorem Mach.modLath_bent (f : LathSt → LathSt) : (m.modLath f).bent = m.bent := rfl
@[simp] theorem Mach.modLath_load (f : LathSt → LathSt) : (m.modLath f).load = m.load := rfl
@[simp] theorem Mach.modLath_meas (f : LathSt → LathSt) : (m.modLath f).meas = m.meas := rfl
@[simp] theorem Mach.modLath_clk (f : LathSt → LathSt) : (m.modLath f).clk = m.clk := rfl
@[simp] theorem Mach.modLath_swc (f : LathSt → LathSt) : (m.modLath f).swc = m.swc := rfl
@[simp] theorem Mach.modLath_eport (f : LathSt → LathSt) : (m.modLath f).eport = m.eport := rfl
@[simp] theorem Mach.modLath_mbus (f : LathSt → LathSt) : (m.modLath f).mbus = m.mbus := rfl
@[simp] theorem Mach.modLath_vdev (f : LathSt → LathSt) : (m.modLath f).vdev = m.vdev := rfl
@[simp] theorem Mach.modLath_lin (f : LathSt → LathSt) : (m.modLath f).lin = m.lin := rfl
@[simp] theorem Mach.modLath_nm (f : LathSt → LathSt) : (m.modLath f).nm = m.nm := rfl
@[simp] theorem Mach.modLath_gwy (f : LathSt → LathSt) : (m.modLath f).gwy = m.gwy := rfl
@[simp] theorem Mach.modLath_chk (f : LathSt → LathSt) : (m.modLath f).chk = m.chk := rfl
@[simp] theorem Mach.modLath_world (f : LathSt → LathSt) : (m.modLath f).world = m.world := rfl
@[simp] theorem Mach.modLath_key (f : LathSt → LathSt) : (m.modLath f).key = m.key := rfl
@[simp] theorem Mach.modLath_upd (f : LathSt → LathSt) : (m.modLath f).upd = m.upd := rfl
@[simp] theorem Mach.modLath_rd (f : LathSt → LathSt) (x₀ : Nat) : (m.modLath f).rd x₀ = m.rd x₀ := rfl
@[simp] theorem Mach.modLath_fld (f : LathSt → LathSt) (x₀ h₀ l₀ : Nat) : (m.modLath f).fld x₀ h₀ l₀ = m.fld x₀ h₀ l₀ := rfl
@[simp] theorem Mach.modLath_bit (f : LathSt → LathSt) (x₀ i₀ : Nat) : (m.modLath f).bit x₀ i₀ = m.bit x₀ i₀ := rfl
@[simp] theorem Mach.modLath_lath (f : LathSt → LathSt) : (m.modLath f).lath = f m.lath := rfl

/-! ### modLch -/

@[simp] theorem Mach.modLch_regs (c : Nat) (f : LinCh → LinCh) : (m.modLch c f).regs = m.regs := rfl
@[simp] theorem Mach.modLch_resp (c : Nat) (f : LinCh → LinCh) : (m.modLch c f).resp = m.resp := rfl
@[simp] theorem Mach.modLch_drawn (c : Nat) (f : LinCh → LinCh) : (m.modLch c f).drawn = m.drawn := rfl
@[simp] theorem Mach.modLch_jq (c : Nat) (f : LinCh → LinCh) : (m.modLch c f).jq = m.jq := rfl
@[simp] theorem Mach.modLch_rst (c : Nat) (f : LinCh → LinCh) : (m.modLch c f).rst = m.rst := rfl
@[simp] theorem Mach.modLch_sill (c : Nat) (f : LinCh → LinCh) : (m.modLch c f).sill = m.sill := rfl
@[simp] theorem Mach.modLch_stage (c : Nat) (f : LinCh → LinCh) : (m.modLch c f).stage = m.stage := rfl
@[simp] theorem Mach.modLch_tick (c : Nat) (f : LinCh → LinCh) : (m.modLch c f).tick = m.tick := rfl
@[simp] theorem Mach.modLch_truss (c : Nat) (f : LinCh → LinCh) : (m.modLch c f).truss = m.truss := rfl
@[simp] theorem Mach.modLch_fab (c : Nat) (f : LinCh → LinCh) : (m.modLch c f).fab = m.fab := rfl
@[simp] theorem Mach.modLch_irq (c : Nat) (f : LinCh → LinCh) : (m.modLch c f).irq = m.irq := rfl
@[simp] theorem Mach.modLch_memc (c : Nat) (f : LinCh → LinCh) : (m.modLch c f).memc = m.memc := rfl
@[simp] theorem Mach.modLch_todo (c : Nat) (f : LinCh → LinCh) : (m.modLch c f).todo = m.todo := rfl
@[simp] theorem Mach.modLch_bent (c : Nat) (f : LinCh → LinCh) : (m.modLch c f).bent = m.bent := rfl
@[simp] theorem Mach.modLch_load (c : Nat) (f : LinCh → LinCh) : (m.modLch c f).load = m.load := rfl
@[simp] theorem Mach.modLch_meas (c : Nat) (f : LinCh → LinCh) : (m.modLch c f).meas = m.meas := rfl
@[simp] theorem Mach.modLch_clk (c : Nat) (f : LinCh → LinCh) : (m.modLch c f).clk = m.clk := rfl
@[simp] theorem Mach.modLch_swc (c : Nat) (f : LinCh → LinCh) : (m.modLch c f).swc = m.swc := rfl
@[simp] theorem Mach.modLch_eport (c : Nat) (f : LinCh → LinCh) : (m.modLch c f).eport = m.eport := rfl
@[simp] theorem Mach.modLch_mbus (c : Nat) (f : LinCh → LinCh) : (m.modLch c f).mbus = m.mbus := rfl
@[simp] theorem Mach.modLch_vdev (c : Nat) (f : LinCh → LinCh) : (m.modLch c f).vdev = m.vdev := rfl
@[simp] theorem Mach.modLch_nm (c : Nat) (f : LinCh → LinCh) : (m.modLch c f).nm = m.nm := rfl
@[simp] theorem Mach.modLch_gwy (c : Nat) (f : LinCh → LinCh) : (m.modLch c f).gwy = m.gwy := rfl
@[simp] theorem Mach.modLch_lath (c : Nat) (f : LinCh → LinCh) : (m.modLch c f).lath = m.lath := rfl
@[simp] theorem Mach.modLch_chk (c : Nat) (f : LinCh → LinCh) : (m.modLch c f).chk = m.chk := rfl
@[simp] theorem Mach.modLch_world (c : Nat) (f : LinCh → LinCh) : (m.modLch c f).world = m.world := rfl
@[simp] theorem Mach.modLch_key (c : Nat) (f : LinCh → LinCh) : (m.modLch c f).key = m.key := rfl
@[simp] theorem Mach.modLch_upd (c : Nat) (f : LinCh → LinCh) : (m.modLch c f).upd = m.upd := rfl
@[simp] theorem Mach.modLch_rd (c : Nat) (f : LinCh → LinCh) (x₀ : Nat) : (m.modLch c f).rd x₀ = m.rd x₀ := rfl
@[simp] theorem Mach.modLch_fld (c : Nat) (f : LinCh → LinCh) (x₀ h₀ l₀ : Nat) : (m.modLch c f).fld x₀ h₀ l₀ = m.fld x₀ h₀ l₀ := rfl
@[simp] theorem Mach.modLch_bit (c : Nat) (f : LinCh → LinCh) (x₀ i₀ : Nat) : (m.modLch c f).bit x₀ i₀ = m.bit x₀ i₀ := rfl

/-! ### modSin -/

@[simp] theorem Mach.modSin_regs (i : Nat) (f : SentIn → SentIn) : (m.modSin i f).regs = m.regs := rfl
@[simp] theorem Mach.modSin_resp (i : Nat) (f : SentIn → SentIn) : (m.modSin i f).resp = m.resp := rfl
@[simp] theorem Mach.modSin_drawn (i : Nat) (f : SentIn → SentIn) : (m.modSin i f).drawn = m.drawn := rfl
@[simp] theorem Mach.modSin_jq (i : Nat) (f : SentIn → SentIn) : (m.modSin i f).jq = m.jq := rfl
@[simp] theorem Mach.modSin_rst (i : Nat) (f : SentIn → SentIn) : (m.modSin i f).rst = m.rst := rfl
@[simp] theorem Mach.modSin_sill (i : Nat) (f : SentIn → SentIn) : (m.modSin i f).sill = m.sill := rfl
@[simp] theorem Mach.modSin_stage (i : Nat) (f : SentIn → SentIn) : (m.modSin i f).stage = m.stage := rfl
@[simp] theorem Mach.modSin_tick (i : Nat) (f : SentIn → SentIn) : (m.modSin i f).tick = m.tick := rfl
@[simp] theorem Mach.modSin_truss (i : Nat) (f : SentIn → SentIn) : (m.modSin i f).truss = m.truss := rfl
@[simp] theorem Mach.modSin_fab (i : Nat) (f : SentIn → SentIn) : (m.modSin i f).fab = m.fab := rfl
@[simp] theorem Mach.modSin_irq (i : Nat) (f : SentIn → SentIn) : (m.modSin i f).irq = m.irq := rfl
@[simp] theorem Mach.modSin_memc (i : Nat) (f : SentIn → SentIn) : (m.modSin i f).memc = m.memc := rfl
@[simp] theorem Mach.modSin_todo (i : Nat) (f : SentIn → SentIn) : (m.modSin i f).todo = m.todo := rfl
@[simp] theorem Mach.modSin_bent (i : Nat) (f : SentIn → SentIn) : (m.modSin i f).bent = m.bent := rfl
@[simp] theorem Mach.modSin_load (i : Nat) (f : SentIn → SentIn) : (m.modSin i f).load = m.load := rfl
@[simp] theorem Mach.modSin_meas (i : Nat) (f : SentIn → SentIn) : (m.modSin i f).meas = m.meas := rfl
@[simp] theorem Mach.modSin_clk (i : Nat) (f : SentIn → SentIn) : (m.modSin i f).clk = m.clk := rfl
@[simp] theorem Mach.modSin_swc (i : Nat) (f : SentIn → SentIn) : (m.modSin i f).swc = m.swc := rfl
@[simp] theorem Mach.modSin_eport (i : Nat) (f : SentIn → SentIn) : (m.modSin i f).eport = m.eport := rfl
@[simp] theorem Mach.modSin_mbus (i : Nat) (f : SentIn → SentIn) : (m.modSin i f).mbus = m.mbus := rfl
@[simp] theorem Mach.modSin_vdev (i : Nat) (f : SentIn → SentIn) : (m.modSin i f).vdev = m.vdev := rfl
@[simp] theorem Mach.modSin_nm (i : Nat) (f : SentIn → SentIn) : (m.modSin i f).nm = m.nm := rfl
@[simp] theorem Mach.modSin_gwy (i : Nat) (f : SentIn → SentIn) : (m.modSin i f).gwy = m.gwy := rfl
@[simp] theorem Mach.modSin_lath (i : Nat) (f : SentIn → SentIn) : (m.modSin i f).lath = m.lath := rfl
@[simp] theorem Mach.modSin_chk (i : Nat) (f : SentIn → SentIn) : (m.modSin i f).chk = m.chk := rfl
@[simp] theorem Mach.modSin_world (i : Nat) (f : SentIn → SentIn) : (m.modSin i f).world = m.world := rfl
@[simp] theorem Mach.modSin_key (i : Nat) (f : SentIn → SentIn) : (m.modSin i f).key = m.key := rfl
@[simp] theorem Mach.modSin_upd (i : Nat) (f : SentIn → SentIn) : (m.modSin i f).upd = m.upd := rfl
@[simp] theorem Mach.modSin_rd (i : Nat) (f : SentIn → SentIn) (x₀ : Nat) : (m.modSin i f).rd x₀ = m.rd x₀ := rfl
@[simp] theorem Mach.modSin_fld (i : Nat) (f : SentIn → SentIn) (x₀ h₀ l₀ : Nat) : (m.modSin i f).fld x₀ h₀ l₀ = m.fld x₀ h₀ l₀ := rfl
@[simp] theorem Mach.modSin_bit (i : Nat) (f : SentIn → SentIn) (x₀ i₀ : Nat) : (m.modSin i f).bit x₀ i₀ = m.bit x₀ i₀ := rfl

/-! ### modCh -/

@[simp] theorem Mach.modCh_regs (n : Nat) (f : Chan → Chan) : (m.modCh n f).regs = m.regs := rfl
@[simp] theorem Mach.modCh_resp (n : Nat) (f : Chan → Chan) : (m.modCh n f).resp = m.resp := rfl
@[simp] theorem Mach.modCh_drawn (n : Nat) (f : Chan → Chan) : (m.modCh n f).drawn = m.drawn := rfl
@[simp] theorem Mach.modCh_jq (n : Nat) (f : Chan → Chan) : (m.modCh n f).jq = m.jq := rfl
@[simp] theorem Mach.modCh_rst (n : Nat) (f : Chan → Chan) : (m.modCh n f).rst = m.rst := rfl
@[simp] theorem Mach.modCh_sill (n : Nat) (f : Chan → Chan) : (m.modCh n f).sill = m.sill := rfl
@[simp] theorem Mach.modCh_stage (n : Nat) (f : Chan → Chan) : (m.modCh n f).stage = m.stage := rfl
@[simp] theorem Mach.modCh_tick (n : Nat) (f : Chan → Chan) : (m.modCh n f).tick = m.tick := rfl
@[simp] theorem Mach.modCh_truss (n : Nat) (f : Chan → Chan) : (m.modCh n f).truss = m.truss := rfl
@[simp] theorem Mach.modCh_fab (n : Nat) (f : Chan → Chan) : (m.modCh n f).fab = m.fab := rfl
@[simp] theorem Mach.modCh_irq (n : Nat) (f : Chan → Chan) : (m.modCh n f).irq = m.irq := rfl
@[simp] theorem Mach.modCh_memc (n : Nat) (f : Chan → Chan) : (m.modCh n f).memc = m.memc := rfl
@[simp] theorem Mach.modCh_todo (n : Nat) (f : Chan → Chan) : (m.modCh n f).todo = m.todo := rfl
@[simp] theorem Mach.modCh_bent (n : Nat) (f : Chan → Chan) : (m.modCh n f).bent = m.bent := rfl
@[simp] theorem Mach.modCh_meas (n : Nat) (f : Chan → Chan) : (m.modCh n f).meas = m.meas := rfl
@[simp] theorem Mach.modCh_clk (n : Nat) (f : Chan → Chan) : (m.modCh n f).clk = m.clk := rfl
@[simp] theorem Mach.modCh_swc (n : Nat) (f : Chan → Chan) : (m.modCh n f).swc = m.swc := rfl
@[simp] theorem Mach.modCh_eport (n : Nat) (f : Chan → Chan) : (m.modCh n f).eport = m.eport := rfl
@[simp] theorem Mach.modCh_mbus (n : Nat) (f : Chan → Chan) : (m.modCh n f).mbus = m.mbus := rfl
@[simp] theorem Mach.modCh_vdev (n : Nat) (f : Chan → Chan) : (m.modCh n f).vdev = m.vdev := rfl
@[simp] theorem Mach.modCh_lin (n : Nat) (f : Chan → Chan) : (m.modCh n f).lin = m.lin := rfl
@[simp] theorem Mach.modCh_nm (n : Nat) (f : Chan → Chan) : (m.modCh n f).nm = m.nm := rfl
@[simp] theorem Mach.modCh_gwy (n : Nat) (f : Chan → Chan) : (m.modCh n f).gwy = m.gwy := rfl
@[simp] theorem Mach.modCh_lath (n : Nat) (f : Chan → Chan) : (m.modCh n f).lath = m.lath := rfl
@[simp] theorem Mach.modCh_chk (n : Nat) (f : Chan → Chan) : (m.modCh n f).chk = m.chk := rfl
@[simp] theorem Mach.modCh_world (n : Nat) (f : Chan → Chan) : (m.modCh n f).world = m.world := rfl
@[simp] theorem Mach.modCh_key (n : Nat) (f : Chan → Chan) : (m.modCh n f).key = m.key := rfl
@[simp] theorem Mach.modCh_upd (n : Nat) (f : Chan → Chan) : (m.modCh n f).upd = m.upd := rfl
@[simp] theorem Mach.modCh_rd (n : Nat) (f : Chan → Chan) (x₀ : Nat) : (m.modCh n f).rd x₀ = m.rd x₀ := rfl
@[simp] theorem Mach.modCh_fld (n : Nat) (f : Chan → Chan) (x₀ h₀ l₀ : Nat) : (m.modCh n f).fld x₀ h₀ l₀ = m.fld x₀ h₀ l₀ := rfl
@[simp] theorem Mach.modCh_bit (n : Nat) (f : Chan → Chan) (x₀ i₀ : Nat) : (m.modCh n f).bit x₀ i₀ = m.bit x₀ i₀ := rfl

/-! ### modMch -/

@[simp] theorem Mach.modMch_regs (c : Nat) (f : MbusCh → MbusCh) : (m.modMch c f).regs = m.regs := rfl
@[simp] theorem Mach.modMch_resp (c : Nat) (f : MbusCh → MbusCh) : (m.modMch c f).resp = m.resp := rfl
@[simp] theorem Mach.modMch_drawn (c : Nat) (f : MbusCh → MbusCh) : (m.modMch c f).drawn = m.drawn := rfl
@[simp] theorem Mach.modMch_jq (c : Nat) (f : MbusCh → MbusCh) : (m.modMch c f).jq = m.jq := rfl
@[simp] theorem Mach.modMch_rst (c : Nat) (f : MbusCh → MbusCh) : (m.modMch c f).rst = m.rst := rfl
@[simp] theorem Mach.modMch_sill (c : Nat) (f : MbusCh → MbusCh) : (m.modMch c f).sill = m.sill := rfl
@[simp] theorem Mach.modMch_stage (c : Nat) (f : MbusCh → MbusCh) : (m.modMch c f).stage = m.stage := rfl
@[simp] theorem Mach.modMch_tick (c : Nat) (f : MbusCh → MbusCh) : (m.modMch c f).tick = m.tick := rfl
@[simp] theorem Mach.modMch_truss (c : Nat) (f : MbusCh → MbusCh) : (m.modMch c f).truss = m.truss := rfl
@[simp] theorem Mach.modMch_fab (c : Nat) (f : MbusCh → MbusCh) : (m.modMch c f).fab = m.fab := rfl
@[simp] theorem Mach.modMch_irq (c : Nat) (f : MbusCh → MbusCh) : (m.modMch c f).irq = m.irq := rfl
@[simp] theorem Mach.modMch_memc (c : Nat) (f : MbusCh → MbusCh) : (m.modMch c f).memc = m.memc := rfl
@[simp] theorem Mach.modMch_todo (c : Nat) (f : MbusCh → MbusCh) : (m.modMch c f).todo = m.todo := rfl
@[simp] theorem Mach.modMch_bent (c : Nat) (f : MbusCh → MbusCh) : (m.modMch c f).bent = m.bent := rfl
@[simp] theorem Mach.modMch_load (c : Nat) (f : MbusCh → MbusCh) : (m.modMch c f).load = m.load := rfl
@[simp] theorem Mach.modMch_meas (c : Nat) (f : MbusCh → MbusCh) : (m.modMch c f).meas = m.meas := rfl
@[simp] theorem Mach.modMch_clk (c : Nat) (f : MbusCh → MbusCh) : (m.modMch c f).clk = m.clk := rfl
@[simp] theorem Mach.modMch_swc (c : Nat) (f : MbusCh → MbusCh) : (m.modMch c f).swc = m.swc := rfl
@[simp] theorem Mach.modMch_eport (c : Nat) (f : MbusCh → MbusCh) : (m.modMch c f).eport = m.eport := rfl
@[simp] theorem Mach.modMch_vdev (c : Nat) (f : MbusCh → MbusCh) : (m.modMch c f).vdev = m.vdev := rfl
@[simp] theorem Mach.modMch_lin (c : Nat) (f : MbusCh → MbusCh) : (m.modMch c f).lin = m.lin := rfl
@[simp] theorem Mach.modMch_nm (c : Nat) (f : MbusCh → MbusCh) : (m.modMch c f).nm = m.nm := rfl
@[simp] theorem Mach.modMch_gwy (c : Nat) (f : MbusCh → MbusCh) : (m.modMch c f).gwy = m.gwy := rfl
@[simp] theorem Mach.modMch_lath (c : Nat) (f : MbusCh → MbusCh) : (m.modMch c f).lath = m.lath := rfl
@[simp] theorem Mach.modMch_chk (c : Nat) (f : MbusCh → MbusCh) : (m.modMch c f).chk = m.chk := rfl
@[simp] theorem Mach.modMch_world (c : Nat) (f : MbusCh → MbusCh) : (m.modMch c f).world = m.world := rfl
@[simp] theorem Mach.modMch_key (c : Nat) (f : MbusCh → MbusCh) : (m.modMch c f).key = m.key := rfl
@[simp] theorem Mach.modMch_upd (c : Nat) (f : MbusCh → MbusCh) : (m.modMch c f).upd = m.upd := rfl
@[simp] theorem Mach.modMch_rd (c : Nat) (f : MbusCh → MbusCh) (x₀ : Nat) : (m.modMch c f).rd x₀ = m.rd x₀ := rfl
@[simp] theorem Mach.modMch_fld (c : Nat) (f : MbusCh → MbusCh) (x₀ h₀ l₀ : Nat) : (m.modMch c f).fld x₀ h₀ l₀ = m.fld x₀ h₀ l₀ := rfl
@[simp] theorem Mach.modMch_bit (c : Nat) (f : MbusCh → MbusCh) (x₀ i₀ : Nat) : (m.modMch c f).bit x₀ i₀ = m.bit x₀ i₀ := rfl

/-! ### modIn -/

@[simp] theorem Mach.modIn_regs (i : Nat) (f : MIn → MIn) : (m.modIn i f).regs = m.regs := rfl
@[simp] theorem Mach.modIn_resp (i : Nat) (f : MIn → MIn) : (m.modIn i f).resp = m.resp := rfl
@[simp] theorem Mach.modIn_drawn (i : Nat) (f : MIn → MIn) : (m.modIn i f).drawn = m.drawn := rfl
@[simp] theorem Mach.modIn_jq (i : Nat) (f : MIn → MIn) : (m.modIn i f).jq = m.jq := rfl
@[simp] theorem Mach.modIn_rst (i : Nat) (f : MIn → MIn) : (m.modIn i f).rst = m.rst := rfl
@[simp] theorem Mach.modIn_sill (i : Nat) (f : MIn → MIn) : (m.modIn i f).sill = m.sill := rfl
@[simp] theorem Mach.modIn_stage (i : Nat) (f : MIn → MIn) : (m.modIn i f).stage = m.stage := rfl
@[simp] theorem Mach.modIn_tick (i : Nat) (f : MIn → MIn) : (m.modIn i f).tick = m.tick := rfl
@[simp] theorem Mach.modIn_truss (i : Nat) (f : MIn → MIn) : (m.modIn i f).truss = m.truss := rfl
@[simp] theorem Mach.modIn_fab (i : Nat) (f : MIn → MIn) : (m.modIn i f).fab = m.fab := rfl
@[simp] theorem Mach.modIn_irq (i : Nat) (f : MIn → MIn) : (m.modIn i f).irq = m.irq := rfl
@[simp] theorem Mach.modIn_memc (i : Nat) (f : MIn → MIn) : (m.modIn i f).memc = m.memc := rfl
@[simp] theorem Mach.modIn_todo (i : Nat) (f : MIn → MIn) : (m.modIn i f).todo = m.todo := rfl
@[simp] theorem Mach.modIn_bent (i : Nat) (f : MIn → MIn) : (m.modIn i f).bent = m.bent := rfl
@[simp] theorem Mach.modIn_load (i : Nat) (f : MIn → MIn) : (m.modIn i f).load = m.load := rfl
@[simp] theorem Mach.modIn_clk (i : Nat) (f : MIn → MIn) : (m.modIn i f).clk = m.clk := rfl
@[simp] theorem Mach.modIn_swc (i : Nat) (f : MIn → MIn) : (m.modIn i f).swc = m.swc := rfl
@[simp] theorem Mach.modIn_eport (i : Nat) (f : MIn → MIn) : (m.modIn i f).eport = m.eport := rfl
@[simp] theorem Mach.modIn_mbus (i : Nat) (f : MIn → MIn) : (m.modIn i f).mbus = m.mbus := rfl
@[simp] theorem Mach.modIn_vdev (i : Nat) (f : MIn → MIn) : (m.modIn i f).vdev = m.vdev := rfl
@[simp] theorem Mach.modIn_lin (i : Nat) (f : MIn → MIn) : (m.modIn i f).lin = m.lin := rfl
@[simp] theorem Mach.modIn_nm (i : Nat) (f : MIn → MIn) : (m.modIn i f).nm = m.nm := rfl
@[simp] theorem Mach.modIn_gwy (i : Nat) (f : MIn → MIn) : (m.modIn i f).gwy = m.gwy := rfl
@[simp] theorem Mach.modIn_lath (i : Nat) (f : MIn → MIn) : (m.modIn i f).lath = m.lath := rfl
@[simp] theorem Mach.modIn_chk (i : Nat) (f : MIn → MIn) : (m.modIn i f).chk = m.chk := rfl
@[simp] theorem Mach.modIn_world (i : Nat) (f : MIn → MIn) : (m.modIn i f).world = m.world := rfl
@[simp] theorem Mach.modIn_key (i : Nat) (f : MIn → MIn) : (m.modIn i f).key = m.key := rfl
@[simp] theorem Mach.modIn_upd (i : Nat) (f : MIn → MIn) : (m.modIn i f).upd = m.upd := rfl
@[simp] theorem Mach.modIn_rd (i : Nat) (f : MIn → MIn) (x₀ : Nat) : (m.modIn i f).rd x₀ = m.rd x₀ := rfl
@[simp] theorem Mach.modIn_fld (i : Nat) (f : MIn → MIn) (x₀ h₀ l₀ : Nat) : (m.modIn i f).fld x₀ h₀ l₀ = m.fld x₀ h₀ l₀ := rfl
@[simp] theorem Mach.modIn_bit (i : Nat) (f : MIn → MIn) (x₀ i₀ : Nat) : (m.modIn i f).bit x₀ i₀ = m.bit x₀ i₀ := rfl

/-! ### modSeg -/

@[simp] theorem Mach.modSeg_regs (s : Nat) (f : NmSeg → NmSeg) : (m.modSeg s f).regs = m.regs := rfl
@[simp] theorem Mach.modSeg_resp (s : Nat) (f : NmSeg → NmSeg) : (m.modSeg s f).resp = m.resp := rfl
@[simp] theorem Mach.modSeg_drawn (s : Nat) (f : NmSeg → NmSeg) : (m.modSeg s f).drawn = m.drawn := rfl
@[simp] theorem Mach.modSeg_jq (s : Nat) (f : NmSeg → NmSeg) : (m.modSeg s f).jq = m.jq := rfl
@[simp] theorem Mach.modSeg_rst (s : Nat) (f : NmSeg → NmSeg) : (m.modSeg s f).rst = m.rst := rfl
@[simp] theorem Mach.modSeg_sill (s : Nat) (f : NmSeg → NmSeg) : (m.modSeg s f).sill = m.sill := rfl
@[simp] theorem Mach.modSeg_stage (s : Nat) (f : NmSeg → NmSeg) : (m.modSeg s f).stage = m.stage := rfl
@[simp] theorem Mach.modSeg_tick (s : Nat) (f : NmSeg → NmSeg) : (m.modSeg s f).tick = m.tick := rfl
@[simp] theorem Mach.modSeg_truss (s : Nat) (f : NmSeg → NmSeg) : (m.modSeg s f).truss = m.truss := rfl
@[simp] theorem Mach.modSeg_fab (s : Nat) (f : NmSeg → NmSeg) : (m.modSeg s f).fab = m.fab := rfl
@[simp] theorem Mach.modSeg_irq (s : Nat) (f : NmSeg → NmSeg) : (m.modSeg s f).irq = m.irq := rfl
@[simp] theorem Mach.modSeg_memc (s : Nat) (f : NmSeg → NmSeg) : (m.modSeg s f).memc = m.memc := rfl
@[simp] theorem Mach.modSeg_todo (s : Nat) (f : NmSeg → NmSeg) : (m.modSeg s f).todo = m.todo := rfl
@[simp] theorem Mach.modSeg_bent (s : Nat) (f : NmSeg → NmSeg) : (m.modSeg s f).bent = m.bent := rfl
@[simp] theorem Mach.modSeg_load (s : Nat) (f : NmSeg → NmSeg) : (m.modSeg s f).load = m.load := rfl
@[simp] theorem Mach.modSeg_meas (s : Nat) (f : NmSeg → NmSeg) : (m.modSeg s f).meas = m.meas := rfl
@[simp] theorem Mach.modSeg_clk (s : Nat) (f : NmSeg → NmSeg) : (m.modSeg s f).clk = m.clk := rfl
@[simp] theorem Mach.modSeg_swc (s : Nat) (f : NmSeg → NmSeg) : (m.modSeg s f).swc = m.swc := rfl
@[simp] theorem Mach.modSeg_eport (s : Nat) (f : NmSeg → NmSeg) : (m.modSeg s f).eport = m.eport := rfl
@[simp] theorem Mach.modSeg_mbus (s : Nat) (f : NmSeg → NmSeg) : (m.modSeg s f).mbus = m.mbus := rfl
@[simp] theorem Mach.modSeg_vdev (s : Nat) (f : NmSeg → NmSeg) : (m.modSeg s f).vdev = m.vdev := rfl
@[simp] theorem Mach.modSeg_lin (s : Nat) (f : NmSeg → NmSeg) : (m.modSeg s f).lin = m.lin := rfl
@[simp] theorem Mach.modSeg_gwy (s : Nat) (f : NmSeg → NmSeg) : (m.modSeg s f).gwy = m.gwy := rfl
@[simp] theorem Mach.modSeg_lath (s : Nat) (f : NmSeg → NmSeg) : (m.modSeg s f).lath = m.lath := rfl
@[simp] theorem Mach.modSeg_chk (s : Nat) (f : NmSeg → NmSeg) : (m.modSeg s f).chk = m.chk := rfl
@[simp] theorem Mach.modSeg_world (s : Nat) (f : NmSeg → NmSeg) : (m.modSeg s f).world = m.world := rfl
@[simp] theorem Mach.modSeg_key (s : Nat) (f : NmSeg → NmSeg) : (m.modSeg s f).key = m.key := rfl
@[simp] theorem Mach.modSeg_upd (s : Nat) (f : NmSeg → NmSeg) : (m.modSeg s f).upd = m.upd := rfl
@[simp] theorem Mach.modSeg_rd (s : Nat) (f : NmSeg → NmSeg) (x₀ : Nat) : (m.modSeg s f).rd x₀ = m.rd x₀ := rfl
@[simp] theorem Mach.modSeg_fld (s : Nat) (f : NmSeg → NmSeg) (x₀ h₀ l₀ : Nat) : (m.modSeg s f).fld x₀ h₀ l₀ = m.fld x₀ h₀ l₀ := rfl
@[simp] theorem Mach.modSeg_bit (s : Nat) (f : NmSeg → NmSeg) (x₀ i₀ : Nat) : (m.modSeg s f).bit x₀ i₀ = m.bit x₀ i₀ := rfl

/-! ### modClk -/

@[simp] theorem Mach.modClk_regs (f : ClkSt → ClkSt) : (m.modClk f).regs = m.regs := rfl
@[simp] theorem Mach.modClk_resp (f : ClkSt → ClkSt) : (m.modClk f).resp = m.resp := rfl
@[simp] theorem Mach.modClk_drawn (f : ClkSt → ClkSt) : (m.modClk f).drawn = m.drawn := rfl
@[simp] theorem Mach.modClk_jq (f : ClkSt → ClkSt) : (m.modClk f).jq = m.jq := rfl
@[simp] theorem Mach.modClk_rst (f : ClkSt → ClkSt) : (m.modClk f).rst = m.rst := rfl
@[simp] theorem Mach.modClk_sill (f : ClkSt → ClkSt) : (m.modClk f).sill = m.sill := rfl
@[simp] theorem Mach.modClk_stage (f : ClkSt → ClkSt) : (m.modClk f).stage = m.stage := rfl
@[simp] theorem Mach.modClk_tick (f : ClkSt → ClkSt) : (m.modClk f).tick = m.tick := rfl
@[simp] theorem Mach.modClk_truss (f : ClkSt → ClkSt) : (m.modClk f).truss = m.truss := rfl
@[simp] theorem Mach.modClk_fab (f : ClkSt → ClkSt) : (m.modClk f).fab = m.fab := rfl
@[simp] theorem Mach.modClk_irq (f : ClkSt → ClkSt) : (m.modClk f).irq = m.irq := rfl
@[simp] theorem Mach.modClk_memc (f : ClkSt → ClkSt) : (m.modClk f).memc = m.memc := rfl
@[simp] theorem Mach.modClk_todo (f : ClkSt → ClkSt) : (m.modClk f).todo = m.todo := rfl
@[simp] theorem Mach.modClk_bent (f : ClkSt → ClkSt) : (m.modClk f).bent = m.bent := rfl
@[simp] theorem Mach.modClk_load (f : ClkSt → ClkSt) : (m.modClk f).load = m.load := rfl
@[simp] theorem Mach.modClk_meas (f : ClkSt → ClkSt) : (m.modClk f).meas = m.meas := rfl
@[simp] theorem Mach.modClk_swc (f : ClkSt → ClkSt) : (m.modClk f).swc = m.swc := rfl
@[simp] theorem Mach.modClk_eport (f : ClkSt → ClkSt) : (m.modClk f).eport = m.eport := rfl
@[simp] theorem Mach.modClk_mbus (f : ClkSt → ClkSt) : (m.modClk f).mbus = m.mbus := rfl
@[simp] theorem Mach.modClk_vdev (f : ClkSt → ClkSt) : (m.modClk f).vdev = m.vdev := rfl
@[simp] theorem Mach.modClk_lin (f : ClkSt → ClkSt) : (m.modClk f).lin = m.lin := rfl
@[simp] theorem Mach.modClk_nm (f : ClkSt → ClkSt) : (m.modClk f).nm = m.nm := rfl
@[simp] theorem Mach.modClk_gwy (f : ClkSt → ClkSt) : (m.modClk f).gwy = m.gwy := rfl
@[simp] theorem Mach.modClk_lath (f : ClkSt → ClkSt) : (m.modClk f).lath = m.lath := rfl
@[simp] theorem Mach.modClk_chk (f : ClkSt → ClkSt) : (m.modClk f).chk = m.chk := rfl
@[simp] theorem Mach.modClk_world (f : ClkSt → ClkSt) : (m.modClk f).world = m.world := rfl
@[simp] theorem Mach.modClk_key (f : ClkSt → ClkSt) : (m.modClk f).key = m.key := rfl
@[simp] theorem Mach.modClk_upd (f : ClkSt → ClkSt) : (m.modClk f).upd = m.upd := rfl
@[simp] theorem Mach.modClk_rd (f : ClkSt → ClkSt) (x₀ : Nat) : (m.modClk f).rd x₀ = m.rd x₀ := rfl
@[simp] theorem Mach.modClk_fld (f : ClkSt → ClkSt) (x₀ h₀ l₀ : Nat) : (m.modClk f).fld x₀ h₀ l₀ = m.fld x₀ h₀ l₀ := rfl
@[simp] theorem Mach.modClk_bit (f : ClkSt → ClkSt) (x₀ i₀ : Nat) : (m.modClk f).bit x₀ i₀ = m.bit x₀ i₀ := rfl
@[simp] theorem Mach.modClk_clk (f : ClkSt → ClkSt) : (m.modClk f).clk = f m.clk := rfl

/-! ### modInst -/

@[simp] theorem Mach.modInst_regs (i : Nat) (f : VInst → VInst) : (m.modInst i f).regs = m.regs := rfl
@[simp] theorem Mach.modInst_resp (i : Nat) (f : VInst → VInst) : (m.modInst i f).resp = m.resp := rfl
@[simp] theorem Mach.modInst_drawn (i : Nat) (f : VInst → VInst) : (m.modInst i f).drawn = m.drawn := rfl
@[simp] theorem Mach.modInst_jq (i : Nat) (f : VInst → VInst) : (m.modInst i f).jq = m.jq := rfl
@[simp] theorem Mach.modInst_rst (i : Nat) (f : VInst → VInst) : (m.modInst i f).rst = m.rst := rfl
@[simp] theorem Mach.modInst_sill (i : Nat) (f : VInst → VInst) : (m.modInst i f).sill = m.sill := rfl
@[simp] theorem Mach.modInst_stage (i : Nat) (f : VInst → VInst) : (m.modInst i f).stage = m.stage := rfl
@[simp] theorem Mach.modInst_tick (i : Nat) (f : VInst → VInst) : (m.modInst i f).tick = m.tick := rfl
@[simp] theorem Mach.modInst_truss (i : Nat) (f : VInst → VInst) : (m.modInst i f).truss = m.truss := rfl
@[simp] theorem Mach.modInst_fab (i : Nat) (f : VInst → VInst) : (m.modInst i f).fab = m.fab := rfl
@[simp] theorem Mach.modInst_irq (i : Nat) (f : VInst → VInst) : (m.modInst i f).irq = m.irq := rfl
@[simp] theorem Mach.modInst_memc (i : Nat) (f : VInst → VInst) : (m.modInst i f).memc = m.memc := rfl
@[simp] theorem Mach.modInst_todo (i : Nat) (f : VInst → VInst) : (m.modInst i f).todo = m.todo := rfl
@[simp] theorem Mach.modInst_bent (i : Nat) (f : VInst → VInst) : (m.modInst i f).bent = m.bent := rfl
@[simp] theorem Mach.modInst_load (i : Nat) (f : VInst → VInst) : (m.modInst i f).load = m.load := rfl
@[simp] theorem Mach.modInst_meas (i : Nat) (f : VInst → VInst) : (m.modInst i f).meas = m.meas := rfl
@[simp] theorem Mach.modInst_clk (i : Nat) (f : VInst → VInst) : (m.modInst i f).clk = m.clk := rfl
@[simp] theorem Mach.modInst_swc (i : Nat) (f : VInst → VInst) : (m.modInst i f).swc = m.swc := rfl
@[simp] theorem Mach.modInst_eport (i : Nat) (f : VInst → VInst) : (m.modInst i f).eport = m.eport := rfl
@[simp] theorem Mach.modInst_mbus (i : Nat) (f : VInst → VInst) : (m.modInst i f).mbus = m.mbus := rfl
@[simp] theorem Mach.modInst_lin (i : Nat) (f : VInst → VInst) : (m.modInst i f).lin = m.lin := rfl
@[simp] theorem Mach.modInst_nm (i : Nat) (f : VInst → VInst) : (m.modInst i f).nm = m.nm := rfl
@[simp] theorem Mach.modInst_gwy (i : Nat) (f : VInst → VInst) : (m.modInst i f).gwy = m.gwy := rfl
@[simp] theorem Mach.modInst_lath (i : Nat) (f : VInst → VInst) : (m.modInst i f).lath = m.lath := rfl
@[simp] theorem Mach.modInst_chk (i : Nat) (f : VInst → VInst) : (m.modInst i f).chk = m.chk := rfl
@[simp] theorem Mach.modInst_world (i : Nat) (f : VInst → VInst) : (m.modInst i f).world = m.world := rfl
@[simp] theorem Mach.modInst_key (i : Nat) (f : VInst → VInst) : (m.modInst i f).key = m.key := rfl
@[simp] theorem Mach.modInst_upd (i : Nat) (f : VInst → VInst) : (m.modInst i f).upd = m.upd := rfl
@[simp] theorem Mach.modInst_rd (i : Nat) (f : VInst → VInst) (x₀ : Nat) : (m.modInst i f).rd x₀ = m.rd x₀ := rfl
@[simp] theorem Mach.modInst_fld (i : Nat) (f : VInst → VInst) (x₀ h₀ l₀ : Nat) : (m.modInst i f).fld x₀ h₀ l₀ = m.fld x₀ h₀ l₀ := rfl
@[simp] theorem Mach.modInst_bit (i : Nat) (f : VInst → VInst) (x₀ i₀ : Nat) : (m.modInst i f).bit x₀ i₀ = m.bit x₀ i₀ := rfl

/-! ### modVdev -/

@[simp] theorem Mach.modVdev_regs (f : VdevSt → VdevSt) : (m.modVdev f).regs = m.regs := rfl
@[simp] theorem Mach.modVdev_resp (f : VdevSt → VdevSt) : (m.modVdev f).resp = m.resp := rfl
@[simp] theorem Mach.modVdev_drawn (f : VdevSt → VdevSt) : (m.modVdev f).drawn = m.drawn := rfl
@[simp] theorem Mach.modVdev_jq (f : VdevSt → VdevSt) : (m.modVdev f).jq = m.jq := rfl
@[simp] theorem Mach.modVdev_rst (f : VdevSt → VdevSt) : (m.modVdev f).rst = m.rst := rfl
@[simp] theorem Mach.modVdev_sill (f : VdevSt → VdevSt) : (m.modVdev f).sill = m.sill := rfl
@[simp] theorem Mach.modVdev_stage (f : VdevSt → VdevSt) : (m.modVdev f).stage = m.stage := rfl
@[simp] theorem Mach.modVdev_tick (f : VdevSt → VdevSt) : (m.modVdev f).tick = m.tick := rfl
@[simp] theorem Mach.modVdev_truss (f : VdevSt → VdevSt) : (m.modVdev f).truss = m.truss := rfl
@[simp] theorem Mach.modVdev_fab (f : VdevSt → VdevSt) : (m.modVdev f).fab = m.fab := rfl
@[simp] theorem Mach.modVdev_irq (f : VdevSt → VdevSt) : (m.modVdev f).irq = m.irq := rfl
@[simp] theorem Mach.modVdev_memc (f : VdevSt → VdevSt) : (m.modVdev f).memc = m.memc := rfl
@[simp] theorem Mach.modVdev_todo (f : VdevSt → VdevSt) : (m.modVdev f).todo = m.todo := rfl
@[simp] theorem Mach.modVdev_bent (f : VdevSt → VdevSt) : (m.modVdev f).bent = m.bent := rfl
@[simp] theorem Mach.modVdev_load (f : VdevSt → VdevSt) : (m.modVdev f).load = m.load := rfl
@[simp] theorem Mach.modVdev_meas (f : VdevSt → VdevSt) : (m.modVdev f).meas = m.meas := rfl
@[simp] theorem Mach.modVdev_clk (f : VdevSt → VdevSt) : (m.modVdev f).clk = m.clk := rfl
@[simp] theorem Mach.modVdev_swc (f : VdevSt → VdevSt) : (m.modVdev f).swc = m.swc := rfl
@[simp] theorem Mach.modVdev_eport (f : VdevSt → VdevSt) : (m.modVdev f).eport = m.eport := rfl
@[simp] theorem Mach.modVdev_mbus (f : VdevSt → VdevSt) : (m.modVdev f).mbus = m.mbus := rfl
@[simp] theorem Mach.modVdev_lin (f : VdevSt → VdevSt) : (m.modVdev f).lin = m.lin := rfl
@[simp] theorem Mach.modVdev_nm (f : VdevSt → VdevSt) : (m.modVdev f).nm = m.nm := rfl
@[simp] theorem Mach.modVdev_gwy (f : VdevSt → VdevSt) : (m.modVdev f).gwy = m.gwy := rfl
@[simp] theorem Mach.modVdev_lath (f : VdevSt → VdevSt) : (m.modVdev f).lath = m.lath := rfl
@[simp] theorem Mach.modVdev_chk (f : VdevSt → VdevSt) : (m.modVdev f).chk = m.chk := rfl
@[simp] theorem Mach.modVdev_world (f : VdevSt → VdevSt) : (m.modVdev f).world = m.world := rfl
@[simp] theorem Mach.modVdev_key (f : VdevSt → VdevSt) : (m.modVdev f).key = m.key := rfl
@[simp] theorem Mach.modVdev_upd (f : VdevSt → VdevSt) : (m.modVdev f).upd = m.upd := rfl
@[simp] theorem Mach.modVdev_rd (f : VdevSt → VdevSt) (x₀ : Nat) : (m.modVdev f).rd x₀ = m.rd x₀ := rfl
@[simp] theorem Mach.modVdev_fld (f : VdevSt → VdevSt) (x₀ h₀ l₀ : Nat) : (m.modVdev f).fld x₀ h₀ l₀ = m.fld x₀ h₀ l₀ := rfl
@[simp] theorem Mach.modVdev_bit (f : VdevSt → VdevSt) (x₀ i₀ : Nat) : (m.modVdev f).bit x₀ i₀ = m.bit x₀ i₀ := rfl
@[simp] theorem Mach.modVdev_vdev (f : VdevSt → VdevSt) : (m.modVdev f).vdev = f m.vdev := rfl

/-! ### modSwc -/

@[simp] theorem Mach.modSwc_regs (f : SwcSt → SwcSt) : (m.modSwc f).regs = m.regs := rfl
@[simp] theorem Mach.modSwc_resp (f : SwcSt → SwcSt) : (m.modSwc f).resp = m.resp := rfl
@[simp] theorem Mach.modSwc_drawn (f : SwcSt → SwcSt) : (m.modSwc f).drawn = m.drawn := rfl
@[simp] theorem Mach.modSwc_jq (f : SwcSt → SwcSt) : (m.modSwc f).jq = m.jq := rfl
@[simp] theorem Mach.modSwc_rst (f : SwcSt → SwcSt) : (m.modSwc f).rst = m.rst := rfl
@[simp] theorem Mach.modSwc_sill (f : SwcSt → SwcSt) : (m.modSwc f).sill = m.sill := rfl
@[simp] theorem Mach.modSwc_stage (f : SwcSt → SwcSt) : (m.modSwc f).stage = m.stage := rfl
@[simp] theorem Mach.modSwc_tick (f : SwcSt → SwcSt) : (m.modSwc f).tick = m.tick := rfl
@[simp] theorem Mach.modSwc_truss (f : SwcSt → SwcSt) : (m.modSwc f).truss = m.truss := rfl
@[simp] theorem Mach.modSwc_fab (f : SwcSt → SwcSt) : (m.modSwc f).fab = m.fab := rfl
@[simp] theorem Mach.modSwc_irq (f : SwcSt → SwcSt) : (m.modSwc f).irq = m.irq := rfl
@[simp] theorem Mach.modSwc_memc (f : SwcSt → SwcSt) : (m.modSwc f).memc = m.memc := rfl
@[simp] theorem Mach.modSwc_todo (f : SwcSt → SwcSt) : (m.modSwc f).todo = m.todo := rfl
@[simp] theorem Mach.modSwc_bent (f : SwcSt → SwcSt) : (m.modSwc f).bent = m.bent := rfl
@[simp] theorem Mach.modSwc_load (f : SwcSt → SwcSt) : (m.modSwc f).load = m.load := rfl
@[simp] theorem Mach.modSwc_meas (f : SwcSt → SwcSt) : (m.modSwc f).meas = m.meas := rfl
@[simp] theorem Mach.modSwc_clk (f : SwcSt → SwcSt) : (m.modSwc f).clk = m.clk := rfl
@[simp] theorem Mach.modSwc_eport (f : SwcSt → SwcSt) : (m.modSwc f).eport = m.eport := rfl
@[simp] theorem Mach.modSwc_mbus (f : SwcSt → SwcSt) : (m.modSwc f).mbus = m.mbus := rfl
@[simp] theorem Mach.modSwc_vdev (f : SwcSt → SwcSt) : (m.modSwc f).vdev = m.vdev := rfl
@[simp] theorem Mach.modSwc_lin (f : SwcSt → SwcSt) : (m.modSwc f).lin = m.lin := rfl
@[simp] theorem Mach.modSwc_nm (f : SwcSt → SwcSt) : (m.modSwc f).nm = m.nm := rfl
@[simp] theorem Mach.modSwc_gwy (f : SwcSt → SwcSt) : (m.modSwc f).gwy = m.gwy := rfl
@[simp] theorem Mach.modSwc_lath (f : SwcSt → SwcSt) : (m.modSwc f).lath = m.lath := rfl
@[simp] theorem Mach.modSwc_chk (f : SwcSt → SwcSt) : (m.modSwc f).chk = m.chk := rfl
@[simp] theorem Mach.modSwc_world (f : SwcSt → SwcSt) : (m.modSwc f).world = m.world := rfl
@[simp] theorem Mach.modSwc_key (f : SwcSt → SwcSt) : (m.modSwc f).key = m.key := rfl
@[simp] theorem Mach.modSwc_upd (f : SwcSt → SwcSt) : (m.modSwc f).upd = m.upd := rfl
@[simp] theorem Mach.modSwc_rd (f : SwcSt → SwcSt) (x₀ : Nat) : (m.modSwc f).rd x₀ = m.rd x₀ := rfl
@[simp] theorem Mach.modSwc_fld (f : SwcSt → SwcSt) (x₀ h₀ l₀ : Nat) : (m.modSwc f).fld x₀ h₀ l₀ = m.fld x₀ h₀ l₀ := rfl
@[simp] theorem Mach.modSwc_bit (f : SwcSt → SwcSt) (x₀ i₀ : Nat) : (m.modSwc f).bit x₀ i₀ = m.bit x₀ i₀ := rfl
@[simp] theorem Mach.modSwc_swc (f : SwcSt → SwcSt) : (m.modSwc f).swc = f m.swc := rfl

/-! ### modUpd -/

@[simp] theorem Mach.modUpd_regs (f : UpdSt → UpdSt) : (m.modUpd f).regs = m.regs := rfl
@[simp] theorem Mach.modUpd_resp (f : UpdSt → UpdSt) : (m.modUpd f).resp = m.resp := rfl
@[simp] theorem Mach.modUpd_drawn (f : UpdSt → UpdSt) : (m.modUpd f).drawn = m.drawn := rfl
@[simp] theorem Mach.modUpd_jq (f : UpdSt → UpdSt) : (m.modUpd f).jq = m.jq := rfl
@[simp] theorem Mach.modUpd_rst (f : UpdSt → UpdSt) : (m.modUpd f).rst = m.rst := rfl
@[simp] theorem Mach.modUpd_sill (f : UpdSt → UpdSt) : (m.modUpd f).sill = m.sill := rfl
@[simp] theorem Mach.modUpd_stage (f : UpdSt → UpdSt) : (m.modUpd f).stage = m.stage := rfl
@[simp] theorem Mach.modUpd_tick (f : UpdSt → UpdSt) : (m.modUpd f).tick = m.tick := rfl
@[simp] theorem Mach.modUpd_truss (f : UpdSt → UpdSt) : (m.modUpd f).truss = m.truss := rfl
@[simp] theorem Mach.modUpd_fab (f : UpdSt → UpdSt) : (m.modUpd f).fab = m.fab := rfl
@[simp] theorem Mach.modUpd_irq (f : UpdSt → UpdSt) : (m.modUpd f).irq = m.irq := rfl
@[simp] theorem Mach.modUpd_memc (f : UpdSt → UpdSt) : (m.modUpd f).memc = m.memc := rfl
@[simp] theorem Mach.modUpd_todo (f : UpdSt → UpdSt) : (m.modUpd f).todo = m.todo := rfl
@[simp] theorem Mach.modUpd_bent (f : UpdSt → UpdSt) : (m.modUpd f).bent = m.bent := rfl
@[simp] theorem Mach.modUpd_load (f : UpdSt → UpdSt) : (m.modUpd f).load = m.load := rfl
@[simp] theorem Mach.modUpd_meas (f : UpdSt → UpdSt) : (m.modUpd f).meas = m.meas := rfl
@[simp] theorem Mach.modUpd_clk (f : UpdSt → UpdSt) : (m.modUpd f).clk = m.clk := rfl
@[simp] theorem Mach.modUpd_swc (f : UpdSt → UpdSt) : (m.modUpd f).swc = m.swc := rfl
@[simp] theorem Mach.modUpd_eport (f : UpdSt → UpdSt) : (m.modUpd f).eport = m.eport := rfl
@[simp] theorem Mach.modUpd_mbus (f : UpdSt → UpdSt) : (m.modUpd f).mbus = m.mbus := rfl
@[simp] theorem Mach.modUpd_vdev (f : UpdSt → UpdSt) : (m.modUpd f).vdev = m.vdev := rfl
@[simp] theorem Mach.modUpd_lin (f : UpdSt → UpdSt) : (m.modUpd f).lin = m.lin := rfl
@[simp] theorem Mach.modUpd_nm (f : UpdSt → UpdSt) : (m.modUpd f).nm = m.nm := rfl
@[simp] theorem Mach.modUpd_gwy (f : UpdSt → UpdSt) : (m.modUpd f).gwy = m.gwy := rfl
@[simp] theorem Mach.modUpd_lath (f : UpdSt → UpdSt) : (m.modUpd f).lath = m.lath := rfl
@[simp] theorem Mach.modUpd_chk (f : UpdSt → UpdSt) : (m.modUpd f).chk = m.chk := rfl
@[simp] theorem Mach.modUpd_world (f : UpdSt → UpdSt) : (m.modUpd f).world = m.world := rfl
@[simp] theorem Mach.modUpd_key (f : UpdSt → UpdSt) : (m.modUpd f).key = m.key := rfl
@[simp] theorem Mach.modUpd_rd (f : UpdSt → UpdSt) (x₀ : Nat) : (m.modUpd f).rd x₀ = m.rd x₀ := rfl
@[simp] theorem Mach.modUpd_fld (f : UpdSt → UpdSt) (x₀ h₀ l₀ : Nat) : (m.modUpd f).fld x₀ h₀ l₀ = m.fld x₀ h₀ l₀ := rfl
@[simp] theorem Mach.modUpd_bit (f : UpdSt → UpdSt) (x₀ i₀ : Nat) : (m.modUpd f).bit x₀ i₀ = m.bit x₀ i₀ := rfl
@[simp] theorem Mach.modUpd_upd (f : UpdSt → UpdSt) : (m.modUpd f).upd = f m.upd := rfl

/-! ### modWorld -/

@[simp] theorem Mach.modWorld_regs (f : WorldSt → WorldSt) : (m.modWorld f).regs = m.regs := rfl
@[simp] theorem Mach.modWorld_resp (f : WorldSt → WorldSt) : (m.modWorld f).resp = m.resp := rfl
@[simp] theorem Mach.modWorld_drawn (f : WorldSt → WorldSt) : (m.modWorld f).drawn = m.drawn := rfl
@[simp] theorem Mach.modWorld_jq (f : WorldSt → WorldSt) : (m.modWorld f).jq = m.jq := rfl
@[simp] theorem Mach.modWorld_rst (f : WorldSt → WorldSt) : (m.modWorld f).rst = m.rst := rfl
@[simp] theorem Mach.modWorld_sill (f : WorldSt → WorldSt) : (m.modWorld f).sill = m.sill := rfl
@[simp] theorem Mach.modWorld_stage (f : WorldSt → WorldSt) : (m.modWorld f).stage = m.stage := rfl
@[simp] theorem Mach.modWorld_tick (f : WorldSt → WorldSt) : (m.modWorld f).tick = m.tick := rfl
@[simp] theorem Mach.modWorld_truss (f : WorldSt → WorldSt) : (m.modWorld f).truss = m.truss := rfl
@[simp] theorem Mach.modWorld_fab (f : WorldSt → WorldSt) : (m.modWorld f).fab = m.fab := rfl
@[simp] theorem Mach.modWorld_irq (f : WorldSt → WorldSt) : (m.modWorld f).irq = m.irq := rfl
@[simp] theorem Mach.modWorld_memc (f : WorldSt → WorldSt) : (m.modWorld f).memc = m.memc := rfl
@[simp] theorem Mach.modWorld_todo (f : WorldSt → WorldSt) : (m.modWorld f).todo = m.todo := rfl
@[simp] theorem Mach.modWorld_bent (f : WorldSt → WorldSt) : (m.modWorld f).bent = m.bent := rfl
@[simp] theorem Mach.modWorld_load (f : WorldSt → WorldSt) : (m.modWorld f).load = m.load := rfl
@[simp] theorem Mach.modWorld_meas (f : WorldSt → WorldSt) : (m.modWorld f).meas = m.meas := rfl
@[simp] theorem Mach.modWorld_clk (f : WorldSt → WorldSt) : (m.modWorld f).clk = m.clk := rfl
@[simp] theorem Mach.modWorld_swc (f : WorldSt → WorldSt) : (m.modWorld f).swc = m.swc := rfl
@[simp] theorem Mach.modWorld_eport (f : WorldSt → WorldSt) : (m.modWorld f).eport = m.eport := rfl
@[simp] theorem Mach.modWorld_mbus (f : WorldSt → WorldSt) : (m.modWorld f).mbus = m.mbus := rfl
@[simp] theorem Mach.modWorld_vdev (f : WorldSt → WorldSt) : (m.modWorld f).vdev = m.vdev := rfl
@[simp] theorem Mach.modWorld_lin (f : WorldSt → WorldSt) : (m.modWorld f).lin = m.lin := rfl
@[simp] theorem Mach.modWorld_nm (f : WorldSt → WorldSt) : (m.modWorld f).nm = m.nm := rfl
@[simp] theorem Mach.modWorld_gwy (f : WorldSt → WorldSt) : (m.modWorld f).gwy = m.gwy := rfl
@[simp] theorem Mach.modWorld_lath (f : WorldSt → WorldSt) : (m.modWorld f).lath = m.lath := rfl
@[simp] theorem Mach.modWorld_chk (f : WorldSt → WorldSt) : (m.modWorld f).chk = m.chk := rfl
@[simp] theorem Mach.modWorld_key (f : WorldSt → WorldSt) : (m.modWorld f).key = m.key := rfl
@[simp] theorem Mach.modWorld_upd (f : WorldSt → WorldSt) : (m.modWorld f).upd = m.upd := rfl
@[simp] theorem Mach.modWorld_rd (f : WorldSt → WorldSt) (x₀ : Nat) : (m.modWorld f).rd x₀ = m.rd x₀ := rfl
@[simp] theorem Mach.modWorld_fld (f : WorldSt → WorldSt) (x₀ h₀ l₀ : Nat) : (m.modWorld f).fld x₀ h₀ l₀ = m.fld x₀ h₀ l₀ := rfl
@[simp] theorem Mach.modWorld_bit (f : WorldSt → WorldSt) (x₀ i₀ : Nat) : (m.modWorld f).bit x₀ i₀ = m.bit x₀ i₀ := rfl
@[simp] theorem Mach.modWorld_world (f : WorldSt → WorldSt) : (m.modWorld f).world = f m.world := rfl

end Sys2Proof.Machine
end

