-- ==== Sys2Proof/Laws/Regs.lean ====
section
/-! SUPPORT. Keyed lists and the register file: a read after a write gives the value written, a write leaves every
other register alone. -/

namespace Sys2Proof.Machine

/-- A key just put is found. -/
@[simp] theorem kget_kput_same {α : Type} (l : List (Nat × α)) (k : Nat) (x : α) : kget (kput l k x) k = some x := by
  induction l with
  | nil => simp [kput, kget]
  | cons e t ih =>
    obtain ⟨j, y⟩ := e
    simp only [kput]
    split
    · simp [kget]
    · split
      · simp [kget]
      · rename_i h2
        have : (j == k) = false := by
          have h3 : k ≠ j := by simpa using h2
          simpa using Ne.symm h3
        simp [kget, this, ih]

/-- Putting a key leaves the others. -/
theorem kget_kput_other {α : Type} (l : List (Nat × α)) {k j : Nat} (x : α) (h : j ≠ k) :
    kget (kput l k x) j = kget l j := by
  induction l with
  | nil => simp [kput, kget, Ne.symm h]
  | cons e t ih =>
    obtain ⟨i, y⟩ := e
    simp only [kput]
    split
    · simp [kget, Ne.symm h]
    · split
      · rename_i h2
        have e : k = i := by simpa using h2
        simp [kget, ← e, Ne.symm h]
      · simp only [kget, ih]

/-- A removed key is not found. -/
@[simp] theorem kget_kdel_same {α : Type} (l : List (Nat × α)) (k : Nat) : kget (kdel l k) k = none := by
  induction l with
  | nil => rfl
  | cons e t ih =>
    obtain ⟨j, y⟩ := e
    simp only [kdel, List.filter_cons] at *
    by_cases h : j = k
    · simpa [h] using ih
    · simp [h, kget]
      simpa using ih

/-- Removing a key leaves the others. -/
theorem kget_kdel_other {α : Type} (l : List (Nat × α)) {k j : Nat} (h : j ≠ k) : kget (kdel l k) j = kget l j := by
  induction l with
  | nil => rfl
  | cons e t ih =>
    obtain ⟨i, y⟩ := e
    simp only [kdel, List.filter_cons] at *
    by_cases hi : i = k
    · simp [hi, kget, Ne.symm h]
      simpa using ih
    · simp [hi, kget]
      rw [← ih]

/-- A register reads what was written, within 32 bits. -/
@[simp] theorem Mach.rd_wr_same (m : Mach) (a v : Nat) : (m.wr a v).rd a = v % 2 ^ 32 := by
  unfold Mach.wr
  split
  · rename_i h
    have e : v % 2 ^ 32 = coldAt a := by simpa using h
    simpa [Mach.rd] using e.symm
  · simp [Mach.rd]

/-- A write leaves every other register. -/
theorem Mach.rd_wr_other (m : Mach) {a b : Nat} (v : Nat) (h : b ≠ a) : (m.wr a v).rd b = m.rd b := by
  unfold Mach.wr
  split
  · simp [Mach.rd, kget_kdel_other _ h]
  · simp [Mach.rd, kget_kput_other _ _ h]

/-- The value of a register depends on the register file alone. -/
theorem Mach.rd_eq {m n : Mach} (h : m.regs = n.regs) (a : Nat) : m.rd a = n.rd a := by simp [Mach.rd, h]

end Sys2Proof.Machine
end

