-- ==== Sys2Proof/Laws/Exec.lean ====
section
/-! SUPPORT. What the runners of commands answer: always a next state, with the queue as it was, nothing outstanding,
and the effect they are given, where the block that has the event runs. -/

namespace Sys2Proof.Machine

/-- A command on memory and machine goes on with its effect. -/
theorem runMem_after {s : State} {f : Mem → Mach → Mem × Mach} {mem : Mem} {m : Mach} (h : f s.mem s.now = (mem, m)) :
    runMem s f = .next (s.after mem m) := by
  have h' : f s.mem { s.mach with resp := .none } = (mem, m) := h
  simp only [runMem, State.after, h']

/-- A command on the machine alone. -/
theorem run_after {s : State} {f : Mach → Mach} {m : Mach} (h : f s.now = m) : run s f = .next (s.after s.mem m) :=
  runMem_after (by rw [h])

/-- An event of the C-die or L-die that occurs. -/
theorem runUp_after {s : State} {f : Mach → Mach} {m : Mach} (hr : s.now.rst.cReset = false) (h : f s.now = m) :
    runUp s f = .next (s.after s.mem m) := run_after (by simp [hr, h])

/-- An event of the C-die or L-die on memory and machine. -/
theorem runUpMem_after {s : State} {f : Mem → Mach → Mem × Mach} {mem : Mem} {m : Mach} (hr : s.now.rst.cReset = false)
    (h : f s.mem s.now = (mem, m)) : runUpMem s f = .next (s.after mem m) := runMem_after (by simp [hr, h])

/-- An event of the P-die main domain that occurs. -/
theorem runP_after {s : State} {f : Mach → Mach} {m : Mach} (hp : s.now.mainOn = true) (h : f s.now = m) :
    runP s f = .next (s.after s.mem m) := run_after (by simp [hp, h])

/-- An event of the supervisor that occurs. -/
theorem runSup_after {s : State} {f : Mach → Mach} {m : Mach} (hp : s.now.supRuns = true) (h : f s.now = m) :
    runSup s f = .next (s.after s.mem m) := run_after (by simp [hp, h])

/-- Without the supervisor its events do nothing. -/
theorem runSup_off {s : State} {f : Mach → Mach} (hp : s.now.supRuns = false) : runSup s f = .next (s.after s.mem s.now) :=
  run_after (by simp [hp])

/-- An effect given, any state is gone on from. -/
theorem makes_does {c : Instr} {s : State} {P : Mem → Mach → Prop} {mem : Mem} {m : Mach} (h : Makes c s mem m)
    (hp : P mem m) : Does c s P := ⟨mem, m, h, hp⟩

/-- The end of a command leaves the queue. -/
@[simp] theorem State.after_pending (s : State) (mem : Mem) (m : Mach) : (s.after mem m).pending = s.pending := rfl

/-- The end of a command leaves no journal entry outstanding. -/
@[simp] theorem State.after_jq (s : State) (mem : Mem) (m : Mach) : (s.after mem m).mach.jq = [] := rfl

/-- The end of a command leaves no consequence outstanding. -/
@[simp] theorem State.after_todo (s : State) (mem : Mem) (m : Mach) : (s.after mem m).mach.todo = [] := rfl

/-- Two changes of one load channel. -/
theorem Mach.modCh_modCh (m : Mach) (n : Nat) (f g : Chan → Chan) : (m.modCh n f).modCh n g = m.modCh n fun c => g (f c) := by
  simp [Mach.modCh, List.modify_modify_eq, Function.comp_def]

/-- Two changes of a load channel are one if they agree on what it is. -/
theorem Mach.modCh_congr {m : Mach} {n : Nat} {f g : Chan → Chan} (h : f (m.ch n) = g (m.ch n)) : m.modCh n f = m.modCh n g := by
  have e : m.load.ch.modify n f = m.load.ch.modify n g := by
    refine List.ext_getElem? fun i => ?_
    rw [List.getElem?_modify, List.getElem?_modify]
    by_cases e : n = i
    · subst e
      cases hc : m.load.ch[n]? with
      | none => simp
      | some c => simpa [Mach.ch, List.getD, hc] using h
    · simp [e]
  simp [Mach.modCh, e]

/-- A channel of the 48 after a change of it. -/
theorem Mach.ch_modCh_same (m : Mach) {n : Nat} (f : Chan → Chan) (h : n < m.load.ch.length) :
    (m.modCh n f).ch n = f (m.ch n) := by
  simp [Mach.modCh, Mach.ch, List.getD, h]

/-- A channel after a change of it, whatever the number. -/
theorem Mach.ch_modCh (m : Mach) (n : Nat) (f : Chan → Chan) :
    (m.modCh n f).ch n = if n < m.load.ch.length then f (m.ch n) else m.ch n := by
  split
  · exact Mach.ch_modCh_same m f ‹_›
  · simp [Mach.modCh, Mach.ch, List.getD, ‹¬ _›]

/-- Another channel. -/
theorem Mach.ch_modCh_other (m : Mach) {n k : Nat} (f : Chan → Chan) (h : k ≠ n) : (m.modCh n f).ch k = m.ch k := by
  simp [Mach.modCh, Mach.ch, List.getD, Ne.symm h]

end Sys2Proof.Machine
end

