-- ==== Sys2Proof/Laws/Memory.lean ====
section
/-! SUPPORT. Memory: a read after a write, and the canonical form that every memory operation keeps. -/

namespace Sys2Proof.Machine

/-- The canonical form above a bound holds above a lower one. -/
theorem memWfFrom_mono {lo lo' : Nat} {mem : Mem} (h : memWfFrom lo' mem = true) (hl : lo ≤ lo') :
    memWfFrom lo mem = true := by
  cases mem with
  | nil => rfl
  | cons e t =>
    obtain ⟨k, b⟩ := e
    simp only [memWfFrom, Bool.and_eq_true, decide_eq_true_eq] at *
    exact ⟨⟨by omega, h.1.2⟩, h.2⟩

/-- Setting a byte keeps the canonical form above a bound. -/
theorem memSet_wfFrom (mem : Mem) (a : Nat) (b : Byte) (lo : Nat) (h : memWfFrom lo mem = true) (ha : lo ≤ a) :
    memWfFrom lo (memSet mem a b) = true := by
  induction mem generalizing lo with
  | nil =>
    simp only [memSet]
    split <;> rename_i hb
    · rfl
    · simp only [memWfFrom, Bool.and_eq_true, decide_eq_true_eq]
      exact ⟨⟨ha, by simpa using hb⟩, trivial⟩
  | cons e t ih =>
    obtain ⟨k, c⟩ := e
    simp only [memWfFrom, Bool.and_eq_true, decide_eq_true_eq] at h
    simp only [memSet]
    split
    · split <;> rename_i hb
      · simp only [memWfFrom, Bool.and_eq_true, decide_eq_true_eq]
        exact h
      · simp only [memWfFrom, Bool.and_eq_true, decide_eq_true_eq]
        exact ⟨⟨ha, by simpa using hb⟩, ⟨by omega, h.1.2⟩, h.2⟩
    · rename_i hak
      split <;> rename_i hk
      · have e : a = k := by simpa using hk
        split <;> rename_i hb
        · exact memWfFrom_mono h.2 (by omega)
        · simp only [memWfFrom, Bool.and_eq_true, decide_eq_true_eq]
          exact ⟨⟨ha, by simpa using hb⟩, by rw [e]; exact h.2⟩
      · have : a ≠ k := by simpa using hk
        simp only [memWfFrom, Bool.and_eq_true, decide_eq_true_eq]
        exact ⟨h.1, ih (k + 1) h.2 (by omega)⟩

/-- Setting a byte keeps the canonical form. -/
theorem memSet_wf {mem : Mem} (a : Nat) (b : Byte) (h : Memory.wf mem = true) : Memory.wf (memSet mem a b) = true :=
  memSet_wfFrom mem a b 0 h (Nat.zero_le a)

/-- Writing bytes keeps the canonical form. -/
theorem memWrite_wf {mem : Mem} (a : Nat) (bs : List Byte) (h : Memory.wf mem = true) :
    Memory.wf (memWrite mem a bs) = true := by
  induction bs generalizing mem a with
  | nil => exact h
  | cons b t ih => exact ih (a + 1) (memSet_wf a b h)

/-- Keeping some cells keeps the canonical form above a bound. -/
theorem filter_wfFrom (mem : Mem) (p : Host.Cell → Bool) (lo : Nat) (h : memWfFrom lo mem = true) :
    memWfFrom lo (mem.filter p) = true := by
  induction mem generalizing lo with
  | nil => rfl
  | cons e t ih =>
    obtain ⟨k, b⟩ := e
    simp only [memWfFrom, Bool.and_eq_true, decide_eq_true_eq] at h
    simp only [List.filter]
    split
    · simp only [memWfFrom, Bool.and_eq_true, decide_eq_true_eq]
      exact ⟨h.1, ih (k + 1) h.2⟩
    · exact memWfFrom_mono (ih (k + 1) h.2) (by omega)

/-- Keeping some cells, as a reset does, keeps the canonical form. -/
theorem filter_wf {mem : Mem} (p : Host.Cell → Bool) (h : Memory.wf mem = true) : Memory.wf (mem.filter p) = true :=
  filter_wfFrom mem p 0 h

/-- Clearing a range keeps the canonical form. -/
theorem memClear_wf {mem : Mem} (b n : Nat) (h : Memory.wf mem = true) : Memory.wf (memClear mem b n) = true :=
  filter_wf _ h

/-- A fold whose steps keep the canonical form keeps it. -/
theorem foldl_wf {α : Type} (f : Mem → α → Mem) (hf : ∀ mem x, Memory.wf mem = true → Memory.wf (f mem x) = true)
    (l : List α) {mem : Mem} (h : Memory.wf mem = true) : Memory.wf (l.foldl f mem) = true := by
  induction l generalizing mem with
  | nil => exact h
  | cons x t ih => exact ih (hf mem x h)

/-- The same for steps on memory and machine. -/
theorem foldl_wf_fst {α β : Type} (f : Mem × β → α → Mem × β)
    (hf : ∀ x a, Memory.wf x.1 = true → Memory.wf (f x a).1 = true) (l : List α) {x : Mem × β}
    (h : Memory.wf x.1 = true) : Memory.wf (l.foldl f x).1 = true := by
  induction l generalizing x with
  | nil => exact h
  | cons a t ih => exact ih (hf x a h)

/-- Below the first cell every byte reads as the default. -/
theorem memGet_below {mem : Mem} {a lo : Nat} (h : memWfFrom lo mem = true) (ha : a < lo) : memGet mem a = memDefault := by
  induction mem generalizing lo with
  | nil => rfl
  | cons e t ih =>
    obtain ⟨k, b⟩ := e
    simp only [memWfFrom, Bool.and_eq_true, decide_eq_true_eq] at h
    have : (k == a) = false := by simp; omega
    simp only [memGet, this]
    exact ih h.2 (by omega)

/-- A byte just set is read back. -/
theorem memGet_memSet_same {mem : Mem} (a : Nat) (b : Byte) {lo : Nat} (h : memWfFrom lo mem = true) :
    memGet (memSet mem a b) a = b := by
  induction mem generalizing lo with
  | nil =>
    simp only [memSet]
    split <;> rename_i hb
    · have : b = memDefault := by simpa using hb
      simp [memGet, this]
    · simp [memGet]
  | cons e t ih =>
    obtain ⟨k, c⟩ := e
    simp only [memWfFrom, Bool.and_eq_true, decide_eq_true_eq] at h
    simp only [memSet]
    split
    · rename_i hak
      split <;> rename_i hb
      · have e : b = memDefault := by simpa using hb
        have : (k == a) = false := by simp; omega
        simp only [memGet, this, e]
        exact memGet_below h.2 (by omega)
      · simp [memGet]
    · split <;> rename_i hk
      · split <;> rename_i hb
        · have e : b = memDefault := by simpa using hb
          have : a = k := by simpa using hk
          rw [e]
          exact memGet_below h.2 (by omega)
        · simp [memGet]
      · have : (k == a) = false := by simp at hk ⊢; omega
        simp only [memGet, this]
        exact ih h.2

/-- Setting a byte leaves every other byte. -/
theorem memGet_memSet_other {mem : Mem} {a x : Nat} (b : Byte) {lo : Nat} (h : memWfFrom lo mem = true) (hx : x ≠ a) :
    memGet (memSet mem a b) x = memGet mem x := by
  induction mem generalizing lo with
  | nil =>
    simp only [memSet]
    split
    · rfl
    · simp [memGet, Ne.symm hx]
  | cons e t ih =>
    obtain ⟨k, c⟩ := e
    simp only [memWfFrom, Bool.and_eq_true, decide_eq_true_eq] at h
    simp only [memSet]
    split
    · split
      · rfl
      · simp [memGet, Ne.symm hx]
    · split <;> rename_i hk
      · have e : a = k := by simpa using hk
        split
        · by_cases hxt : x < k + 1
          · simp only [memGet]
            have : (k == x) = false := by simp; omega
            simp [this]
          · have : (k == x) = false := by simp; omega
            simp [memGet, this]
        · have : (k == x) = false := by simp; omega
          simp [memGet, e, this]
      · simp only [memGet]
        split
        · rfl
        · exact ih h.2

/-- Memory right after reset is in canonical form. -/
theorem reset_memory_wf : Memory.wf State.reset.mem = true := rfl

end Sys2Proof.Machine
end

