-- ==== Sys2Proof/Laws/Write.lean ====
section
/-! SUPPORT. What a register access that the spec lets through does: a write under the conditions of `mayWrite` performs
the action of its register, a read gives its value. -/

namespace Sys2Proof.Machine

/-- A mask with no bit of another: within 32 bits, and none in common. -/
theorem bitsOutside_self {v mask : Nat} (h : bitsOutside v mask = v) : v &&& 0xFFFFFFFF = v ∧ v &&& mask = 0 := by
  have b (i : Nat) (hv : v.testBit i = true) : i < 32 ∧ mask.testBit i = false := by
    have e : (bitsOutside v mask).testBit i = true := by rw [h]; exact hv
    have f : (0xFFFFFFFF : Nat) = 2 ^ 32 - 1 := rfl
    rw [bitsOutside, f, Nat.testBit_and, Nat.testBit_xor, Nat.testBit_two_pow_sub_one, Nat.testBit_mod_two_pow] at e
    by_cases hi : i < 32 <;> simp_all
  refine ⟨Nat.eq_of_testBit_eq fun i => ?_, Nat.eq_of_testBit_eq fun i => ?_⟩
  · have f : (0xFFFFFFFF : Nat) = 2 ^ 32 - 1 := rfl
    rw [f, Nat.testBit_and, Nat.testBit_two_pow_sub_one]
    cases hv : v.testBit i with
    | false => rfl
    | true => simp [(b i hv).1]
  · rw [Nat.testBit_and]
    cases hv : v.testBit i with
    | false => simp
    | true => simp [(b i hv).2]

/-- Members admitted without a duty's tag put none on the write. -/
theorem tagsOf_plain {m : Mach} {ads : List (Nat × Admit)} (h : ∀ x ∈ ads, x.2 = .accept none) : m.tagsOf ads = [] := by
  rw [Mach.tagsOf, List.filterMap_eq_nil_iff.mpr]
  · rfl
  · intro x hx
    simp [h x hx]

/-- A write whose members are all accepted is not shadowed. -/
theorem shadowed_plain {m : Mach} {d : RegDesc} {e : Stg} {ads : List (Nat × Admit)} (h : ∀ x ∈ ads, x.2 = .accept none) :
    m.shadowed' d e ads = m := by
  have f : m.tagsOf (ads.filter fun x => match x.2 with | .shadow _ _ => true | _ => false) = [] :=
    tagsOf_plain fun x hx => h x (List.mem_filter.mp hx).1
  unfold Mach.shadowed'
  extract_lets sh tags
  have : tags = [] := f
  rw [this]

/-- A register without a signature of its own. -/
theorem boutLog_other {m : Mach} {h : Hit} {init a v : Nat} (hb : h.d.name ≠ .GWY_BOUT_A ∧ h.d.name ≠ .GWY_BOUT_B) :
    m.boutLog h init a v = m := by
  unfold Mach.boutLog
  split
  · rename_i e _; exact absurd e hb.1
  · rename_i e _; exact absurd e hb.2
  · rfl

/-- The members that a write under the conditions of `mayWrite` reaches, and how each admits it. -/
def Mach.admitList (m : Mach) (init a v : Nat) (h : Hit) (all : List Nat) : List (Nat × Admit) :=
  if all.isEmpty then [(0, m.regAdmit init a h v)]
  else (m.reachable all (a % 0x100) true).map fun n => match findReg (chanReg n (a % 0x100)) with
    | some x => (n, m.regAdmit init (chanReg n (a % 0x100)) x v)
    | none => (n, .refuse)

/-- Under the conditions of `mayWrite` every member is reached and admits the write. -/
theorem admits_may {m : Mach} {init a v : Nat} {h : Hit} {all : List Nat} (hm : m.mayWrite init a v h all = true) :
    (∀ x ∈ m.admitList init a v h all, x.2 = .accept none) ∧ (m.admitList init a v h all).map (·.1) = (if all.isEmpty then [0] else all) ∧
      (if all.isEmpty then m.goneAt h a true else (m.reachable all (a % 0x100) true).isEmpty) = false := by
  simp only [Mach.mayWrite, Bool.and_eq_true] at hm
  obtain ⟨⟨⟨⟨-, h5⟩, -⟩, -⟩, -⟩ := hm
  by_cases ha : all.isEmpty = true
  · simp only [ha, if_true, Mach.answers, Bool.and_eq_true, Bool.not_eq_true', beq_iff_eq] at h5
    simp [Mach.admitList, ha, h5.1, h5.2]
  · simp only [ha, Bool.false_eq_true, if_false, List.all_eq_true] at h5
    have hre : m.reachable all (a % 0x100) true = all := by
      refine List.filter_eq_self.mpr fun n hn => ?_
      have := h5 n hn
      split at this
      · simp_all [Mach.answers]
      · simp at this
    have hne : all ≠ [] := by simpa using ha
    refine ⟨?_, ?_, ?_⟩
    · simp only [Mach.admitList, ha, hre, Bool.false_eq_true, if_false, List.mem_map]
      rintro x ⟨n, hn, rfl⟩
      have := h5 n hn
      split at this
      · simp_all [Mach.answers]
      · simp at this
    · simp only [Mach.admitList, ha, hre, Bool.false_eq_true, if_false, List.map_map]
      conv => rhs; rw [← List.map_id all]
      refine List.map_congr_left fun n _ => ?_
      simp only [Function.comp, id]
      split <;> rfl
    · simp [ha, hre]

/-- The near side of a write under the conditions of `mayWrite` leaves the machine and hands on the whole write. -/
theorem nearWrite_may {m : Mach} {init a width v : Nat} {h : Hit} {all : List Nat} (hr : resolve a width = some (.reg h all))
    (hm : m.mayWrite init a v h all = true) (hb : h.d.name ≠ .GWY_BOUT_A ∧ h.d.name ≠ .GWY_BOUT_B) :
    m.nearWrite init a width v = (m, some ⟨h, { addr := a, mask := h.d.writeMask, val := v, init := init, part := m.partOf init, members := all }, h.far a⟩) := by
  obtain ⟨ha1, ha2, ha3⟩ := admits_may hm
  simp only [Mach.mayWrite, Bool.and_eq_true, Bool.not_eq_true', bne_iff_ne, beq_iff_eq] at hm
  obtain ⟨⟨⟨⟨⟨⟨⟨⟨h0, h1⟩, h2⟩, h3⟩, h4⟩, -⟩, h6⟩, h7⟩, h8⟩ := hm
  have hm32 := bitsOutside_self h7
  have hworld : (if (m.isHeart init || init == idLOADER) = true then m else m.worldWrite h init a v) = m := by
    split
    · rfl
    · rename_i hh
      simp only [Mach.worldMay, Bool.or_eq_true, beq_iff_eq, Bool.and_eq_true, Bool.not_eq_true'] at h4 hh
      unfold Mach.worldWrite
      rcases h4 with (h4 | h4) | h4
      · exact absurd h4 hh
      · simp [h4]
      · simp [h4.1.1, h4.1.2, h4.2]
  have hmask : h.d.writeMask &&& (if (m.isHeart init || init == idLOADER || h.d.name == .RSTC_MODE_CMD) = true then 0xFFFFFFFF
      else 0xFFFFFFFF ^^^ h.d.hwMask) = h.d.writeMask := by
    split
    · exact hm32.1
    · rename_i hh
      simp only [Mach.worldMay, Bool.or_eq_true, beq_iff_eq, Bool.and_eq_true, Bool.not_eq_true'] at h4 hh
      rcases h4 with h4 | h4
      · exact absurd h4 (by simpa using hh)
      · simp [h4.1.1, hm32.1]
  have hacc : (m.admitList init a v h all).filter (fun x => match x.2 with | .accept _ => true | _ => false)
      = m.admitList init a v h all := List.filter_eq_self.mpr fun x hx => by simp [ha1 x hx]
  have hany : (m.admitList init a v h all).any (fun x => x.2 == .refuse) = false := by
    rw [List.any_eq_false]
    intro x hx
    simp [ha1 x hx]
  have hne : m.admitList init a v h all ≠ [] := by
    intro hn
    rw [hn] at ha2
    by_cases hall : all.isEmpty = true
    · simp [hall] at ha2
    · simp only [hall, Bool.false_eq_true, if_false, List.map_nil] at ha2
      exact hall (by simp [← ha2])
  have hall : (m.admitList init a v h all).all (fun x => x.2 == .refuse) = false := by
    obtain ⟨x, hx⟩ := List.exists_mem_of_ne_nil _ hne
    rw [List.all_eq_false]
    exact ⟨x, hx, by simp [ha1 x hx]⟩
  have hmem : (if all.isEmpty then [] else (m.admitList init a v h all).map (·.1)) = all := by
    rw [ha2]
    by_cases he : all = [] <;> simp [he]
  unfold Mach.nearWrite
  rw [if_neg (by simp [h0]), hr]
  dsimp -zeta only
  extract_lets ms gone heart m1 mask ads acc m2 e m3 far bad m4 mask2 tags later now m5 m6
  have hgone : gone = false := ha3
  have hm1 : m1 = m := hworld
  have hmask' : mask = h.d.writeMask := hmask
  have hads : ads = m.admitList init a v h all := by simp only [ads, hm1]; rfl
  have hacc' : acc = m.admitList init a v h all := by simp only [acc, hads]; exact hacc
  have hm2 : m2 = m := by simp only [m2, hads, hany, hm1, Bool.false_eq_true, if_false]
  have hm3 : m3 = m := by simp only [m3, hm2, hads]; exact shadowed_plain ha1
  have hbad : bad = 0 := by simp only [bad, hmask', hm3, h8, Nat.zero_and]
  have hm4 : m4 = m := by simp only [m4, hbad, hm3, beq_self_eq_true, if_true]
  have hmask2 : mask2 = h.d.writeMask := by
    simp only [mask2, hbad, hmask', bitsOutside, Nat.zero_mod, Nat.xor_zero, hm32.1]
  have htags : tags = [] := by simp only [tags, hm4, hacc']; exact tagsOf_plain ha1
  have hlater : later = 0 := by simp only [later, hmask2, hm32.2]
  have hnow : now = h.d.writeMask := by
    simp only [now, hbad, hmask2, h7, Nat.zero_and, bne_self_eq_false, Bool.false_eq_true, if_false]
  have hm6 : m6 = m := by
    simp only [m6, m5, htags, hlater, hm4, beq_self_eq_true, if_true]
    exact boutLog_other hb
  simp [h1, hgone, h2, h3, hmask', h6, hads, hall, hacc', hne, hlater, hnow, hm6, e, htags, far, hm2]
  simpa using hmem

/-- A write that `takes` describes. -/
theorem takes_cases {m : Mach} {init a v : Nat} {n : RegName} {idx : List Nat} (h : m.takes init a v n idx = true) :
    ∃ hh : Hit, resolve a 4 = some (.reg hh []) ∧ hh.d.name = n ∧ hh.idx = idx ∧ hh.far a = none ∧ m.mayWrite init a v hh [] = true ∧
      m.nearWrite init a 4 v = (m, some ⟨hh, { addr := a, mask := hh.d.writeMask, val := v, init := init, part := m.partOf init, members := [] }, none⟩) := by
  unfold Mach.takes at h
  split at h
  · rename_i hh hr
    simp only [Bool.and_eq_true, beq_iff_eq, Option.isNone_iff_eq_none, bne_iff_ne] at h
    obtain ⟨⟨⟨⟨⟨h1, h2⟩, h3⟩, h4⟩, h5⟩, h6⟩ := h
    exact ⟨hh, hr, h1, h2, h3, h6, h3 ▸ nearWrite_may hr h6 ⟨h1 ▸ h4, h1 ▸ h5⟩⟩
  · simp at h

/-- A write that `takes` describes answers `done` and performs the action of its register. -/
theorem writeReg_takes {mem : Mem} {m : Mach} {init a v : Nat} {n : RegName} {idx : List Nat} (h : m.takes init a v n idx = true) :
    ∃ (hh : Hit) (e : Stg), hh.d.name = n ∧ hh.idx = idx ∧ e.addr = a ∧ e.val = v ∧ e.init = init ∧ e.mask = hh.d.writeMask ∧
      (∃ ms, resolve a 4 = some (.reg hh ms)) ∧ Mach.writeReg mem m init a 4 v = Mach.act mem (m.answer .done) hh e := by
  obtain ⟨hh, hr, h1, h2, -, -, h0⟩ := takes_cases h
  refine ⟨hh, { addr := a, mask := hh.d.writeMask, val := v, init := init, part := m.partOf init, members := [] }, h1, h2, rfl, rfl, rfl, rfl, ⟨[], hr⟩, ?_⟩
  simp only [Mach.writeReg, Mach.writeWith, h0]

/-- The same of a register whose write has an effect of its own. -/
theorem writeBy_takes {eff : Mach → Nat → Mach} {mem : Mem} {m : Mach} {init a v : Nat} {n : RegName} {idx : List Nat}
    (h : m.takes init a v n idx = true) : Mach.writeBy eff mem m init a v = (mem, eff (m.answer .done) v) := by
  obtain ⟨hh, -, -, -, -, -, h0⟩ := takes_cases h
  simp only [Mach.writeBy, Mach.writeWith, h0]

/-- A write that `takesFar` describes. -/
theorem takesFar_cases {m : Mach} {init a width v : Nat} {n : RegName} {e : Stg} (h : m.takesFar init a width v n = some e) :
    ∃ (hh : Hit) (ms : List Nat) (f : FarDie), resolve a width = some (.reg hh ms) ∧ hh.d.name = n ∧ hh.far a = some f ∧
      (linkOf a).isSome = true ∧ m.linkIdle a = true ∧
      e = { addr := a, mask := hh.d.writeMask, val := v, init := init, part := m.partOf init, members := ms } ∧
      m.nearWrite init a width v = (m, some ⟨hh, e, some f⟩) ∧ e.mask &&& m.badMask a hh v = 0 ∧ e.mask ≠ 0 := by
  unfold Mach.takesFar at h
  split at h
  · rename_i hh ms hr
    split at h
    · rename_i hc
      simp only [Bool.and_eq_true, beq_iff_eq, bne_iff_ne, Option.isSome_iff_exists] at hc
      obtain ⟨⟨⟨⟨⟨⟨h1, f, h2⟩, h3⟩, h4⟩, h5⟩, h6⟩, h7⟩ := hc
      have e' := Option.some.inj h
      refine ⟨hh, ms, f, hr, h1, h2, Option.isSome_iff_exists.mpr h3, h4, e'.symm, ?_, ?_, ?_⟩
      · rw [← e', ← h2]; exact nearWrite_may hr h7 ⟨h1 ▸ h5, h1 ▸ h6⟩
      · simp only [Mach.mayWrite, Bool.and_eq_true, beq_iff_eq] at h7
        rw [← e']; exact h7.2
      · simp only [Mach.mayWrite, Bool.and_eq_true, bne_iff_ne] at h7
        rw [← e']; exact h7.1.1.2
    · simp at h
  · simp at h

/-- A read that `reads` describes. -/
theorem reads_cases {m : Mach} {init a width : Nat} {n : RegName} (h : m.reads init a width n = true) :
    ∃ hh : Hit, resolve a width = some (.reg hh []) ∧ hh.d.name = n ∧ linkOfRead a = none ∧
      m.nearRead init a width = (m, some (some hh, a)) := by
  unfold Mach.reads at h
  split at h
  · rename_i hh hr
    simp only [Bool.and_eq_true, beq_iff_eq, Bool.not_eq_true', Option.isNone_iff_eq_none] at h
    obtain ⟨⟨⟨⟨⟨h1, h2⟩, h3⟩, h4⟩, h5⟩, h6⟩ := h
    refine ⟨hh, hr, h1, h6, ?_⟩
    have h7 : (!m.isHeart init && hh.d.allHw) = false := by cases e1 : m.isHeart init <;> simp_all
    simp [Mach.nearRead, h2, hr, h3, h4, h7]
  · simp at h

end Sys2Proof.Machine
end

