-- ==== Sys2Proof/Tests/Slice0.lean ====
section
/-! SUPPORT. Tests: ill-formed commands refused, a witness for the hypotheses of every statement, and small steps whose expected
values come from the spec's tables. -/

namespace Sys2Proof.Tests

open Sys2Proof Sys2Proof.Machine

set_option Elab.async false

/-! ### Small states -/

/-- A machine with its supplies in order and no die in reset. -/
def run : Mach := { ({} : Mach) with
  rst := { ({} : RstSt) with
    kl30 := .normal, pmode := .run, low := false, cReset := false, lReset := false, regEn := true, reach := .none, cause := none } }

/-- The state of a machine with an empty memory and an empty queue. -/
def st (m : Mach) : State := { State.reset with mach := m }

/-- The machine as a command finds it. -/
def at' (m : Mach) : Mach := (st m).now

/-- Load channel 47 in a given condition, on a running machine. -/
def chan (f : Chan → Chan) : Mach := run.modCh 47 f

/-- The loader's initiator ID, which every register admits. -/
def loader : InitId := 0x33

/-! ### Witnesses: load channels and measurement -/

theorem witness_LoadAttempts :
    (at' run).mainOn = true ∧ ((at' (chan fun c => { c with ps := .inrush })).ch 47).ps = .inrush ∧
    ((at' (chan fun c => { c with ps := .retryWait, out := .on })).ch 47).ps = .retryWait ∧
    ((at' (chan fun c => { c with ps := .retryWait, out := .on })).ch 47).wants = true ∧
    ((at' (chan fun c => { c with ps := .retryWait })).ch 47).wants = false ∧
    ((at' (chan fun c => { c with ps := .off })).ch 47).ps = .off ∧
    ((at' (chan fun c => { c with ps := .on })).ch 47).ps.conducts = true ∧
    ((at' (chan fun c => { c with frozen := true })).ch 47).frozen = true := by decide +kernel

theorem witness_LoadAttempts_limits :
    let i := at' (chan fun c => { c with ps := .inrush })
    let j := at' ((chan fun c => { c with ps := .on }).setBit (Rg.LOAD_PROT_CFG 47) 0 true)
    let d := at' (chan fun c => { c with ps := .demag, dest := .off })
    i.mainOn = true ∧ i.inductive? 47 = false ∧ (i.ch 47).retry ≠ i.fld (Rg.LOAD_PROT_CFG 47) 11 8 ∧
    j.inductive? 47 = true ∧ (j.ch 47).ps = .on ∧ (d.ch 47).ps = .demag ∧ (d.ch 47).dest ≠ .latched ∧
    (d.ch 47).dest ≠ .supplyOff := by decide +kernel

theorem witness_LoadLatches :
    let o := at' (chan fun c => { c with ps := .on })
    let w := at' (chan fun c => { c with ps := .retryWait, window := true })
    let i := at' ((chan fun c => { c with ps := .inrush, retry := 0 }).setFld (Rg.LOAD_PROT_CFG 47) 11 8 0)
    let h := at' ((chan fun c => { c with ps := .on, restart := 0 }).setFld (Rg.LOAD_DERATE_CFG 47) 15 8 1)
    let t := at' ((chan fun c => { c with ps := .on }).setBit (Rg.LOAD_PROT_CFG 47) 2 true)
    let k := at' (chan fun c => { c with ps := .cool })
    o.mainOn = true ∧ o.inductive? 47 = false ∧ (o.ch 47).ps = .on ∧ (w.ch 47).window = true ∧ w.inductive? 47 = false ∧
    (i.ch 47).retry = i.fld (Rg.LOAD_PROT_CFG 47) 11 8 ∧ i.inductive? 47 = false ∧ h.bit (Rg.LOAD_PROT_CFG 47) 2 = false ∧
    (h.ch 47).restart ≠ h.fld (Rg.LOAD_DERATE_CFG 47) 15 8 ∧ t.bit (Rg.LOAD_PROT_CFG 47) 2 = true ∧ t.inductive? 47 = false ∧
    (k.ch 47).ps = .cool ∧ (k.ch 47).wants = false ∧ k.inductive? 47 = false := by decide +kernel

theorem witness_LoadPatterns :
    let p := at' (chan fun c => { c with out := .pwm 999 1 1, ceilF := 1000, phF := 1 })
    let f := at' (chan fun c => { c with out := .free 1 500, nxt := none, ceiling := 1000 })
    let h := at' (chan fun c => { c with disp := true, hold := true })
    p.mainOn = true ∧ 0 < min (p.ch 47).out.duty (p.ch 47).ceilF ∧ min (p.ch 47).out.duty (p.ch 47).ceilF < 1000 ∧
    (p.ch 47).phF ≠ 0 ∧ (f.ch 47).nxt = none ∧ (f.ch 47).out = .free 1 500 ∧ 0 < min 1 (f.ch 47).ceiling ∧
    min 1 (f.ch 47).ceiling < 1000 ∧ (h.ch 47).disp = true ∧ (h.ch 47).hold = true ∧
    h.restOut 47 ≠ .on := by decide +kernel

theorem witness_LoadSheds :
    let x := at' (run.setScope (Mach.shedScope 2) { exhausted := true, far := true })
    let y := at' ((chan fun c => { c with ps := .on }).setScope (Mach.shedScope 1) { shedding := true })
    let z := at' (run.setBit Rg.LOAD_BUDGET_STATUS 0 true)
    x.supRuns = true ∧ (x.scope (Mach.shedScope 2)).exhausted = true ∧ (x.scope (Mach.shedScope 2)).far = true ∧
    y.supRuns = true ∧ (y.scope (Mach.shedScope 1)).shedding = true ∧
    (let cs := (Mach.shedScope 1).chans.filter fun n => (y.ch n).ps.conducts && !y.deratable? n
     (cs.filter fun n => y.derateRank n == Mach.leastOf (cs.map y.derateRank)).getLast? = some 47) ∧
    z.mainOn = true ∧ z.bit Rg.LOAD_BUDGET_STATUS 0 = true := by decide +kernel

theorem witness_LoadDiagnosis :
    let o := at' ((chan fun c => { c with ps := .off, openOff := false }).setBit (Rg.LOAD_PROT_CFG 47) 4 true)
    let d := at' { run with load := { run.load with droop := [5] } }
    o.mainOn = true ∧ o.bit (Rg.LOAD_PROT_CFG 47) 4 = true ∧ (o.ch 47).ps = .off ∧ (o.ch 47).openOff = false ∧
    (5 : Nat) ∉ o.load.droop ∧ (5 : Nat) ∈ d.load.droop ∧ o.load.ch.length = 48 ∧ o.supRuns = true ∧
    (at' (run.setBit Rg.LOAD_BUDGET_STATUS 0 true)).supRuns = false := by decide +kernel

theorem witness_LoadLatchClear :
    let a := at' (((chan fun c => { c with ps := .latched, cause := 1 }).setLink 0 3).setLink 1 3)
    let b := at' { run with bent := { run.bent with lane := [(63, 1, 7)] } }
    bitOf 0x8000 15 = true ∧ a.lath.bufs = [] ∧
    (a.takesFar loader.toNat (Rg.LOAD_FAULT 47) 2 0x8000 .LOAD_FAULT).map (·.members) = some [47] ∧
    a.cmdBlocked = false ∧ a.chanDuty 47 = none ∧ a.clearable 47 = true ∧ (at' run).cmdBlocked = false ∧
    (at' run).clearable 47 = false ∧ b.mainOn = true ∧ b.bent.lane = [(63, 1, 7)] := by decide +kernel

theorem witness_Measurement :
    let a := at' { run.setFld Rg.MEAS_CTRL 2 0 0 with meas := { run.meas with started := true } }
    let h := at' { run with meas := { run.meas with held := true } }
    a.rst.cReset = false ∧ a.meas.started = true ∧ a.hasSample 95 = true ∧
    (List.replicate 96 [(0xFFF : BitVec 12)]).getD 95 [] = [0xFFF] ∧ a.fld Rg.MEAS_CTRL 2 0 ≤ 4 ∧
    2 ^ a.fld Rg.MEAS_CTRL 2 0 ≤ [(0xFFF : BitVec 12)].length ∧ h.meas.held = true ∧ 1 ∉ h.tick.ovr ∧
    (7 : Nat) ∉ a.meas.timedOut ∧ a.meas.inp.length = 96 := by decide +kernel

theorem witness_Measurement_inputs :
    let m (f : Bool) : Mach := at' { run with meas := { run.meas with smp := [(95, 4095, f, true)] } }
    (at' run).meas.smp.find? (·.1 == 95) = none ∧ (m true).meas.smp.find? (·.1 == 95) = some (95, 4095, true, true) ∧
    (m false).meas.smp.find? (·.1 == 95) = some (95, 4095, false, true) ∧ (m false).bit (Rg.MEAS_IN_CFG 95) 7 = false ∧
    (m false).fld (Rg.MEAS_IN_CFG 95) 6 4 = 0 ∧ (m false).fld (Rg.MEAS_IN_CFG 95) 13 8 = 0 ∧
    (m false).fld (Rg.MEAS_IN_CFG 95) 15 14 = 0 ∧ (m false).meas.cal.getD (calIdx 95) (0, 16384) = (0, 16384) ∧
    (m false).meas.inp.length = 96 := by decide +kernel

theorem witness_Measurement_flags :
    let t := at' (chan fun c => { c with turned := true })
    let u := at' { (chan fun c => { c with ps := .latched, cause := 1 }) with meas := { run.meas with caused := List.replicate 48 true } }
    ((at' run).ch 47).turned = false ∧ (t.ch 47).turned = true ∧ 47 % 6 ≠ 0 ∧ (at' run).meas.caused.getD 47 false = false ∧
    u.meas.caused.getD 47 false = true ∧ u.shownCause 47 ≠ 0 := by decide +kernel

theorem witness_Measurement_limits :
    let x (y cand cnt : Nat) : MIn := { ({} : MIn) with y := y, cand := cand, cnt := cnt }
    (10 : Nat) ≠ 0 ∧ (20 : Nat) ≠ 0xFFFF ∧ (x 9 0 0).y < 10 ∧ (x 9 0 0).lim = 0 ∧ 20 < (x 21 0 0).y ∧
    10 ≤ (x 10 0 0).y ∧ (x 20 0 0).y ≤ 20 ∧ (x 9 1 3).cand = 1 ∧ (x 9 1 3).cnt + 1 < 5 := by decide +kernel

/-! ### Witnesses: supplies, resets, start and modes -/

/-- A change of the reset engine of a running machine. -/
def rstM (f : RstSt → RstSt) : Mach := { run with rst := f run.rst }

theorem witness_SupplyClasses :
    (40000 : Nat) ≤ 40000 ∧ (2999 : Nat) < 3000 ∧ (4499 : Nat) < 4500 ∧ (5499 : Nat) < 5500 ∧ (5999 : Nat) < 6000 ∧
    State.reset.mach.rst.kl30 ∈ [.off, .retain, .low] ∧ (st run).mach.rst.kl30 ∉ [.off, .retain, .low] ∧
    (17999 : Nat) < 18000 ∧ (28000 : Nat) ≤ 28000 ∧ (28000 : Nat) < 28001 := by decide +kernel

theorem witness_SupplyMonitors :
    let o := at' (rstM fun r => { r with ovp := true })
    o.rst.ovp = true ∧ o.rst.kl30 ≠ .overvolt ∧ (at' run).rst.lowB = false ∧ (at' run).rst.kl30 = .normal ∧
    (at' run).asleep = false ∧ (3 : Nat) ∉ (at' run).rst.railBad ∧ (at' run).monitored 3 = true ∧
    (at' run).rst.regEn = true ∧ (at' run).monitored 4 = false ∧
    (at' { run with memc := { run.memc with lpddrGib := 1 } }).monitored 4 = true := by decide +kernel

theorem witness_ResetDrivers :
    let l := at' (rstM fun r => { r with low := true, drivers := [.request 15 100] })
    let t := at' (run.setBit Rg.TICK_CTRL 0 true)
    (at' run).mainOn = true ∧ (at' run).rst.low = false ∧ .bist ∉ (at' run).rst.drivers ∧ l.rst.low = true ∧ l.mainOn = true ∧
    .bist ∉ l.rst.drivers ∧ (at' run).rst.cReset = false ∧ t.bit Rg.TICK_CTRL 0 = true ∧ t.isStranded = false ∧
    (at' run).bit Rg.TICK_CTRL 0 = false ∧ (at' run).rst.drivers = [] ∧ l.rst.drivers = [.request (15 : Fin 16) 100] := by
  decide +kernel

theorem witness_ResetsAssert :
    let w := at' { (rstM fun r => { r with low := true }) with sill := { run.sill with warmOk := true } }
    let c := at' (rstM fun r => { r with low := true, reach := .warm })
    let e := at' (rstM fun r => { r with low := true, drivers := [.ext] })
    let k := at' (rstM fun r => { r with low := true, reach := .cold })
    w.rst.low = true ∧ w.rst.reach = .none ∧ w.sill.warmOk = true ∧ c.rst.low = true ∧ c.rst.reach = .warm ∧
    e.rst.kl30 = .normal ∧ e.asleep = false ∧ e.rst.drivers = [.ext] ∧ e.rst.reach = .none ∧ (99 : Nat) < 100 ∧
    k.rst.drivers = [] ∧ k.rst.reach = .cold ∧ k.rst.kl30 = .normal ∧ k.asleep = false := by decide +kernel

theorem witness_StartSteps :
    let b := at' (rstM fun r => { r with step := 5 })
    let l := at' (run.setLink 1 2)
    let c := at' (rstM fun r => { r with low := true, reach := .powerOn, drivers := [.sill] })
    let p := at' (rstM fun r => { r with supRestart := true, cReset := true })
    let t := at' { (rstM fun r => { r with step := 12 }) with memc := { run.memc with lpddrGib := 1 } }
    b.rst.cReset = false ∧ b.rst.step = 5 ∧ b.rst.warmStart = false ∧ l.rst.lReset = false ∧ l.linkState 1 = 2 ∧
    c.rst.step = 0 ∧ c.rst.dead = false ∧ c.sill.fails < 3 ∧ bootCritical c.sill.map.failed = [] ∧ c.rst.railBad = [] ∧
    c.rst.refAbsent = false ∧ c.rst.overtemp = false ∧ c.rst.bist = none ∧ c.rst.shut = .none ∧ c.rst.kl30 = .normal ∧
    c.rst.drivers = [.sill] ∧ c.rst.reach = .powerOn ∧ c.asleep = false ∧ c.rst.low = true ∧
    p.mainOn = true ∧ p.rst.supRestart = true ∧ p.dieHeld .p = false ∧ p.rst.cReset = true ∧
    t.rst.step = 12 ∧ t.memc.lpddrGib ≠ 0 ∧ t.isStranded = false ∧ t.rst.warmStart = false ∧
    (t.initialEnds.modSill fun x => { x with warmOk := true }).cannotStart = false := by decide +kernel

/-- An image whose SAFETY section has one BISTPART record: the fatal partition 19. -/
def fatalImage : Image :=
  { hdr := [], sects := [{ typ := sSAFETY, live := false, digest := [],
                           recs := [{ sec := sSAFETY, idx := 0, kind := 2, bytes := [0, 0, 0, 0, 19, 1, 0, 0] }] }] }

theorem fatalPart_of_rst (m n : Mach) (i : Image) (h : n.rst = m.rst) : n.fatalPart i = m.fatalPart i := by
  have : n.fatalHeld i = m.fatalHeld i := by funext p; simp [Mach.fatalHeld, h]
  simp [Mach.fatalPart, h, this]

theorem raise_all_rst (l : List Nat) (m : Mach) : (m.forAll l fun m p => m.raise 0x104 p).rst = m.rst := by
  induction l generalizing m with
  | nil => rfl
  | cons a l ih => exact (ih _).trans rfl

/-- Showing a verdict and reporting the held partitions leaves which of them is fatal. -/
theorem fatalPart_reported (m : Mach) (v : Verdict) (l : Bool) (f : Nat → Bool) (i : Image) :
    ((m.showVerdict v l).raiseHeld f).fatalPart i = m.fatalPart i :=
  fatalPart_of_rst _ _ _ ((raise_all_rst _ _).trans (by simp [Mach.showVerdict]))

theorem witness_ImageChecks :
    let s := at' (rstM fun r => { r with step := 7 })
    let f := at' (rstM fun r => { r with step := 7, bistHeld := [19] })
    let bad : Verdict := { code := 1, detail := 0 }
    let good : Verdict := { code := 0, detail := 0, img := some fatalImage }
    let h (m : Mach) : Mach := (m.showVerdict good false).raiseHeld ((m.showVerdict good false).fatalHeld fatalImage)
    s.rst.cReset = false ∧ s.rst.lReset = false ∧ (if s.rst.warmStart then s.rst.step = 2 else s.rst.step = 7 ∨ s.rst.step = 8) ∧
    s.isStranded = false ∧ bad.img = none ∧ good.img = some fatalImage ∧ (h f).fatalPart fatalImage = some 19 ∧
    (h s).fatalPart fatalImage = none ∧ (readHdr []).stranded = false ∧ s.rst.bistHeld = [] ∧
    s.rst.warmStart = false := by
  simp only [fatalPart_reported]; decide +kernel

theorem witness_FatalPartitions :
    let f := at' (rstM fun r => { r with step := 2, warmStart := true, bistHeld := [19] })
    let good : Verdict := { code := 0, detail := 0, img := some fatalImage }
    f.rst.cReset = false ∧ f.rst.lReset = false ∧ (if f.rst.warmStart then f.rst.step = 2 else f.rst.step = 7 ∨ f.rst.step = 8) ∧
    f.isStranded = false ∧ good.img = some fatalImage ∧
    ((f.showVerdict good false).raiseHeld ((f.showVerdict good false).fatalHeld fatalImage)).fatalPart fatalImage = some 19 ∧ 19 ∈ f.rst.bistHeld ∧
    19 ∉ bootCritical f.rst.bistHeld ∧ f.fatalPart fatalImage = some 19 ∧
    (fatalImage.recBy sSAFETY 2 (·.u8 4) 19).map (·.u8 5) = some 1 := by
  simp only [fatalPart_reported]; decide +kernel

theorem witness_LogicBist :
    let s := at' (rstM fun r => { r with bist := some (.shutdown, List.range 38), shut := .noReturn 3 })
    (at' run).takes loader.toNat Rg.BIST_CMD 0x3C5A0001 .BIST_CMD [] = true ∧ (at' run).rst.bist = none ∧
    s.rst.bist = some (.shutdown, List.range 38) ∧ s.rst.shut = .noReturn 3 ∧
    (3 : Fin 5).val ≠ 0 ∧ (3 : Fin 5).val ≠ 4 := by decide +kernel

theorem witness_ModesAndWakes :
    let t (c : Nat) : Bool := (at' run).takes loader.toNat Rg.RSTC_MODE_CMD c .RSTC_MODE_CMD []
    let z (p : PMode) (en pol : Nat) : Mach :=
      at' { (rstM fun r => { r with pmode := p }) with sill := { run.sill with wakeEn := en, wakePol := pol } }
    (∀ f : Bool, ∀ c ∈ [1, 2, 3, 4], t (c + 256 * flagNat f) = true) ∧ (at' run).isHeart loader.toNat = true ∧
    (∀ c ∈ [1, 2], (at' run).takes 3 Rg.RSTC_MODE_CMD c .RSTC_MODE_CMD [] = true) ∧ (at' run).isHeart 3 = false ∧
    (z .sleep (2 ^ 15) 0).pinOff (8 + 15) 39 = false ∧
    (z .sleep (2 ^ 15) 0).rst.shut = .none ∧ (z .sleep (2 ^ 15) 0).rst.kl30 = .normal ∧ (z .dormant (2 ^ 15) 0).asleep = true ∧
    (z .sleep (2 ^ 15) 0).sill.wakeEn = 2 ^ (15 : Fin 16).val ∧ bitOf (z .sleep (2 ^ 15) 0).sill.wakePol 15 = false ∧
    bitOf (z .sleep (2 ^ 15) (2 ^ 15)).sill.wakePol 15 = true ∧ bitOf (0x8000 : BitVec 16).toNat 15 = true ∧
    bitOf (0x7FFF : BitVec 16).toNat 15 = false ∧ (z .sleep (2 ^ 27) 0).sill.wakeEn = 2 ^ (16 + (11 : Fin 12).val) ∧
    (z .sleep (2 ^ 28) 0).rst.pmode = .sleep ∧ (z .sleep (2 ^ 28) 0).sill.wakeEn = 2 ^ 28 ∧
    (z .dormant 0 0).rst.pmode = .dormant ∧
    (at' { (rstM fun r => { r with pmode := .dormant }) with sill := { run.sill with latched := true } }).sill.latched = true := by
  decide +kernel

theorem witness_ModesAndWakes_doze :
    let d := at' { ((run.setFld Rg.RSTC_MODE 1 0 1).wr (Rg.IRQ_SRC_CFG 640) (2 ^ 31 + 2 ^ 8 + 3)) with
      fab := { run.fab with cores := [(3, { sap := some 1, run := true })] }, irq := { run.irq with vec := [640] } }
    d.rst.cReset = false ∧ d.fld Rg.RSTC_MODE 1 0 = 1 ∧ d.irqTarget 640 < 4 ∧ d.irqTaken 640 = true := by decide +kernel

theorem witness_ResetWrites :
    let t (m : Mach) (a v : Nat) (n : RegName) (i : List Nat) : Bool := (at' m).takes loader.toNat a v n i
    let x (n : Nat) := at' { run.wr (Rg.RSTC_WDT_CFG n) (0x30000 + 1) with rst := { run.rst with wdt := [(n, 1)] } }
    t run Rg.RSTC_SW_RST 0xA5C30001 .RSTC_SW_RST [] = true ∧ t run Rg.RSTC_SW_RST 0xA5C30002 .RSTC_SW_RST [] = true ∧
    (at' run).rd Rg.RSTC_DIE_RST = 0 ∧ (at' run).dieHeld .l = false ∧ t run Rg.RSTC_DIE_RST 1 .RSTC_DIE_RST [] = true ∧
    (at' (run.wr Rg.RSTC_DIE_RST 2)).rd Rg.RSTC_DIE_RST = 2 ∧
    t (run.wr Rg.RSTC_DIE_RST 2) Rg.RSTC_DIE_RST 0 .RSTC_DIE_RST [] = true ∧
    (∀ u : Fin 24, unitResettable u = true → (at' run).unitHeld u = false ∧
      t run Rg.RSTC_UNIT_RST (2 ^ u.val) .RSTC_UNIT_RST [] = true ∧
      (at' (run.wr Rg.RSTC_UNIT_RST (2 ^ u.val))).rd Rg.RSTC_UNIT_RST = 2 ^ u.val ∧
      t (run.wr Rg.RSTC_UNIT_RST (2 ^ u.val)) Rg.RSTC_UNIT_RST 0 .RSTC_UNIT_RST [] = true) ∧
    (at' run).rd Rg.RSTC_GROUP_RST = 0 ∧ t run Rg.RSTC_GROUP_RST (2 ^ 27) .RSTC_GROUP_RST [] = true ∧
    t (run.wr Rg.RSTC_GROUP_RST (2 ^ 27)) Rg.RSTC_GROUP_RST 0 .RSTC_GROUP_RST [] = true ∧
    bitOf 1 0 = true ∧ t run (Rg.RSTC_WDT_KICK 15) 1 .RSTC_WDT_KICK [15] = true ∧
    (x 15).rst.cReset = false ∧ (x 15).fld (Rg.RSTC_WDT_CFG 15) 15 0 = 1 ∧ kgetD (x 15).rst.wdt 15 0 = 1 ∧
    (x 15).fld (Rg.RSTC_WDT_CFG 15) 17 16 = 3 := by decide +kernel

theorem witness_ResetWrites_elements :
    let on := 2 ^ 31 + uLOAD * 2 ^ 24 + 47
    let m := { run with rst := { run.rst with elems := [(uLOAD, 47)] } }
    47 < elemCount uLOAD ∧ (at' run).elemHeld uLOAD 47 = false ∧ (uLOAD, 47) ∉ (at' run).rst.elems ∧
    (at' run).takes loader.toNat Rg.RSTC_ELEM_RST on .RSTC_ELEM_RST [] = true ∧ (uLOAD, 47) ∈ (at' m).rst.elems ∧
    (at' m).takes loader.toNat Rg.RSTC_ELEM_RST (uLOAD * 2 ^ 24 + 47) .RSTC_ELEM_RST [] = true ∧
    (at' run).fab.coded = true ∧ uLOAD ≠ uBENT ∧ 11 < elemCount uBENT := by decide +kernel

theorem witness_WarmOkFlag :
    let t := at' { (rstM fun r => { r with step := 12 }) with memc := { run.memc with lpddrGib := 1 } }
    let l := at' (rstM fun r => { r with low := true })
    t.rst.cReset = false ∧ t.isStranded = false ∧ t.memc.lpddrGib ≠ 0 ∧ t.rst.warmStart = false ∧ t.rst.step = 12 ∧
    l.rst.low = true ∧ l.rst.reach = .none ∧ l.sill.warmOk = false ∧
    (at' { run with sill := { run.sill with warmOk := true } }).sill.warmOk = true ∧
    (at' (rstM fun r => { r with low := true, reach := .warm })).rst.reach = .warm ∧ (4499 : Nat) < 4500 ∧
    (at' run).rst.kl30 = .normal ∧ (at' run).asleep = false := by decide +kernel

/-! ### Witnesses: register access, the tick, the truss image -/

theorem witness_RegisterAccess :
    State.reset.now.rst.cReset = true ∧ (at' run).rst.cReset = false ∧ resolve 0x40000002 2 = none ∧
    (at' run).takes loader.toNat Rg.TICK_IRQ_EN 0xFFFFFFFF .TICK_IRQ_EN [] = true ∧
    (at' run).takes loader.toNat Rg.TICK_IRQ_STATUS 0xFFFFFFFF .TICK_IRQ_STATUS [] = true ∧
    (at' run).reads loader.toNat Rg.TICK_LATE_CNT 4 .TICK_LATE_CNT = true ∧ (at' run).readClears loader.toNat = true := by
  decide +kernel

/-- A staged write of one LOAD_CTRL. -/
def staged : Stg := { addr := Rg.LOAD_CTRL 47, mask := 0xFFFF, val := 1, init := 0, members := [47] }

theorem witness_FarCommits :
    let l := at' { run with stage := { run.stage with shadowL := some [] } }
    let p := at' { run with stage := { run.stage with shadowP := some [staged] } }
    let w (d : Nat) := at' { run with stage := { run.stage with ackWait := [d] } }
    l.rst.cReset = false ∧ l.stage.shadowL = some [] ∧ p.stage.shadowP = some [staged] ∧ (w 1).stage.ackWait = [1] ∧
    (w 1).stage.shadowL = none ∧ (w 2).stage.ackWait = [2] ∧ (w 2).stage.shadowP = none := by decide +kernel

theorem witness_TickEdges :
    let e := at' { run.setBit Rg.TICK_CTRL 0 true with tick := { run.tick with edgeLt := 10, edgeFr := 3, len := 800 } }
    (1009 : Nat) < (4 * e.tick.edgeLt + e.tick.edgeFr + 5 * e.tick.len) / 4 + 1 ∧ e.bit Rg.TICK_CTRL 0 = true ∧
    (4 * e.tick.edgeLt + e.tick.edgeFr + 5 * e.tick.len) / 4 ≤ 1010 ∧ e.rst.cReset = false ∧ (at' run).bit Rg.TICK_CTRL 0 = false ∧ (at' run).rst.cReset = false ∧
    (at' (run.setBit Rg.TICK_CTRL 0 true)).bit Rg.TICK_CTRL 0 = true := by decide +kernel

/-- A machine with one safe core that runs partition 15. -/
def onePart : Mach := { run with fab := { run.fab with cores := [(5, { ({} : Core) with sap := some 15, run := true })] } }

theorem witness_TickClients :
    let r := at' (rstM fun r => { r with step := 13 })
    let k := at' { run.setBit Rg.TICK_CTRL 0 true with tick := { run.tick with started := true } }
    let c := at' { (((run.setPartState 15 2).setFld (Rg.TICK_CLIENT_BUDGET 31) 23 0 1).setFld (Rg.TICK_CLIENT_CFG 31) 23 16 0).setBit (Rg.TICK_CLIENT_CFG 31) 0 true with
      tick := { run.tick with due := [31] } }
    let d := at' { onePart with tick := { run.tick with due := [31] } }
    r.rst.cReset = false ∧ r.isStranded = false ∧ r.bit Rg.TICK_CTRL 0 = false ∧ r.rst.warmStart = false ∧ r.rst.step = 13 ∧
    k.bit Rg.TICK_CTRL 0 = true ∧ k.inKerf = false ∧ k.tick.started = true ∧ c.bit (Rg.TICK_CLIENT_CFG 31) 0 = true ∧ c.clientHeld 31 = false ∧ 31 ∈ c.tick.due ∧ c.tick.done = [] ∧ c.tick.ovr = [] ∧
    c.fld (Rg.TICK_CLIENT_CFG 31) 23 16 = 0 ∧ c.fld (Rg.TICK_CLIENT_USED 31) 31 24 < 255 ∧
    c.fld (Rg.TICK_CLIENT_BUDGET 31) 23 0 ≠ 0 ∧
    (at' { run with tick := { run.tick with pulses := [4] } }).tick.pulses = [4] ∧
    (at' (rstM fun r => { r with pulsed := [(0, 1, 0)] })).rst.pulsed = [(0, 1, 0)] ∧
    (at' (rstM fun r => { r with pulsed := [(2, 23, 65535)] })).rst.pulsed = [(2, 23, 65535)] ∧
    d.takes 5 Rg.TICK_DONE 1 .TICK_DONE [] = true ∧ bitOf 1 0 = true ∧ d.partOf 5 = some 15 ∧ (16 + 15) ∈ d.tick.due ∧
    d.tick.done = [] ∧ (at' onePart).takes 5 Rg.TICK_DONE 1 .TICK_DONE [] = true ∧ (at' onePart).partOf 5 = some 15 ∧
    (16 + 15) ∉ (at' onePart).tick.due := by decide +kernel

/-- An image with one live LOAD section: the given digest and the given records. -/
def loadImage (digest : List Byte) (recs : List Rec) : Image :=
  { hdr := [], sects := [{ typ := sLOAD, live := true, digest := digest, recs := recs }] }

/-- The image of a run with one LOAD CHANNEL record of channel 0. -/
def oneChannel : Image := loadImage [] [{ sec := 0, idx := 0, kind := 1, bytes := List.replicate 24 0 }]

/-- A live application with TRUSS_STATUS.live in the given state, in the kerf. -/
def live (n : Nat) (j : LiveJob) (p : List Stg) : Mach :=
  { run with
    regs := [(Rg.TICK_STATUS, 4), (Rg.TRUSS_STATUS, BitVec.ofNat 32 n)]
    truss := { run.truss with live := some j, image := some oneChannel }
    stage := { run.stage with p := p } }

theorem witness_LiveApplications :
    let j : LiveJob := { slot := 1, delay := 0 }
    let i := loadImage [1] []
    let k : LiveJob := { slot := 1, delay := 0, img := some i }
    let full := at' (live 2 k ((List.range 256).map fun n => { staged with addr := 0x42000000 + 2 * n }))
    (at' run).takes loader.toNat Rg.TRUSS_LIVE_CMD 3 .TRUSS_LIVE_CMD [] = true ∧ bitOf 3 0 = true ∧ (at' run).truss.live = none ∧
    (at' (live 1 j [])).takes loader.toNat Rg.TRUSS_LIVE_CMD 3 .TRUSS_LIVE_CMD [] = true ∧ (at' (live 1 j [])).truss.live ≠ none ∧
    (at' (live 1 j [])).truss.live = some j ∧ j.img = none ∧ (at' (live 1 j [])).fld Rg.TRUSS_STATUS 2 0 = 1 ∧
    (at' (live 2 k [])).truss.image = some oneChannel ∧ k.img = some i ∧ k.staged = false ∧ k.tried = false ∧
    k.delay ≤ k.edges ∧ (at' (live 2 k [])).inKerf = true ∧ (at' (live 2 k [])).rst.cReset = false ∧
    ((at' (live 2 k [])).liveWriteAll i (liveSections oneChannel i)).isSome = true ∧
    full.liveWriteAll i (liveSections oneChannel i) = none ∧ k.deferrals < 16 ∧ 16 ≤ ({ k with deferrals := 16 } : LiveJob).deferrals := by
  decide +kernel

theorem witness_OwnersAndRest :
    let h := at' { run with truss := { run.truss with latch :=
      { run.truss.latch with handoff := some [], copy0 := { ({} : LatchCopy) with seq := 2 ^ 32 - 1, good := true } } } }
    (at' run).takes loader.toNat Rg.TRUSS_OWNER_QUERY 0x05FFFFFF .TRUSS_OWNER_QUERY [] = true ∧ h.mainOn = true ∧
    h.truss.latch.handoff = some [] ∧ h.truss.latch.copy0.good = true ∧ h.truss.latch.copy1.good = false ∧
    h.truss.latch.tries = 0 ∧
    ({ h.truss.latch with tries := 1 } : LatchSt).tries ≠ 0 := by decide +kernel

theorem witness_AccessWidths :
    (findReg 0x40000000).isSome = true ∧ (∀ h ∈ (findReg 0x40000000).toList, (2 : Nat) ≠ h.d.width) ∧
    findReg 0x41FFFFFF = none ∧ (0x41FFFFFF : Nat) < 0x42000000 ∧ (0x42000000 : Nat) ≤ 0x4200FFFF ∧
    (0x4200FFFF : Nat) < 0x42010000 ∧ 0x4200FFFF % 2 ≠ 0 ∧ (at' run).rst.cReset = false := by decide +kernel

/-! ### Witnesses: switch and ports -/

/-- Port `p` enabled, its link up, in VLAN `vid` where `member` says so. -/
def portUp (p : Nat) (m : Mach) : Mach := (m.setBit (Rg.SWC_PORT_STATUS p) 1 false).setBit (Rg.SWC_PORT_CFG p) 0 true

/-- A frame of 64 bytes with FCS from the given destination bytes. -/
def frame64 (dst : List Byte) : List Byte := dst ++ List.replicate (60 - dst.length) 0

theorem witness_FramesEnter :
    let q := (portUp 21 run).setFld (Rg.SWC_PORT_CFG 21) 31 20 4095
    let on := at' (q.setBit (Rg.SWC_VLAN_MEMBER 4095) 21 true)
    let off := at' (q.setFld (Rg.SWC_VLAN_MEMBER 4095) 21 0 0)
    let taken (m : Mach) : Mach := (((m.advance 0).count 21 0).count 21 1 64)
    let b := frame64 []
    let r := frame64 [0x01, 0x80, 0xC2, 0x00, 0x00, 0x0F]
    (at' (run.setBit (Rg.SWC_PORT_STATUS 21) 1 true)).isDown 21 = true ∧ on.rst.cReset = false ∧ (on.advance 0).isDown 21 = false ∧
    (on.advance 0).portEnabled 21 = true ∧ (on.advance 0).unitHeld uSWC = false ∧ portType 21 ≠ 3 ∧
    64 ≤ b.length + 4 ∧ b.length + 4 ≤ 2048 ∧ (on.advance 0).bit (Rg.SWC_PORT_STATUS 21) 2 = false ∧
    b.length + 4 = 64 ∧ (ethHdr b).tci = none ∧ (ethHdr b).etype ≠ 0x88B5 ∧ bitsOf (on.rd (Rg.SWC_PORT_CFG 21)) 8 7 = 0 ∧
    bitOf ((taken off).fld (Rg.SWC_VLAN_MEMBER 4095) 21 0) 21 = false ∧
    bitOf ((taken on).fld (Rg.SWC_VLAN_MEMBER 4095) 21 0) 21 = true ∧ isGptp r = false ∧ reservedDst (ethHdr r).dst = true ∧
    isGptp b = false ∧ reservedDst (ethHdr b).dst = false := by decide +kernel

theorem witness_FramesEnter_oversize :
    let o := at' (portUp 15 run)
    let b : List Byte := List.replicate 12 0 ++ [0x88, 0xB5] ++ List.replicate 2031 0
    2048 < b.length + 4 ∧ (ethHdr b).tci = none ∧ (ethHdr b).etype = 0x88B5 ∧ (o.advance 0).isDown 15 = false ∧
    (o.advance 0).portEnabled 15 = true ∧ (o.advance 0).unitHeld uSWC = false ∧ (o.advance 0).bit (Rg.SWC_PORT_STATUS 15) 2 = false ∧
    portType 15 = 3 ∧ (o.advance 0).txOf 15 = none := by decide +kernel

/-- A change of the switch of a running machine. -/
def swM (f : SwcSt → SwcSt) : Mach := run.modSwc f

theorem witness_MacTable :
    let rx := at' (swM fun x => { x with rx := [⟨21, [0], some (2, 4095)⟩] })
    let l (n : Nat) := at' (swM fun x => { x with learn := [(2, 4095, 21)], macs := List.replicate n ⟨4, 1, 1, false, 0⟩ })
    let k := at' (swM fun x => { x with learn := [(2, 4095, 21)], macs := [⟨2, 4095, 1, true, 0⟩] })
    let c (op : Nat) := at' (swM fun x => { x with cmd := some ⟨op, 2, 4095, 1⟩, macs := if op = 2 then [] else [⟨2, 4095, 1, true, 0⟩] })
    rx.rst.cReset = false ∧ rx.engineOff 0 = false ∧ ((rx.advance 0).lineErrors 21 0 0 0).swc.rx = [⟨21, [0], some (2, 4095)⟩] ∧
    ((rx.advance 0).lineErrors 21 0 0 0).swc.learn.length < 256 ∧
    ((rx.advance 0).lineErrors 21 0 0 0).engineOff 0 = false ∧
    (∀ f ∈ ((rx.advance 0).lineErrors 21 0 0 0).swc.frames, f.cutAt = none ∧ f.bad = false) ∧ (rx.advance 0).engineOff 0 = false ∧ ((rx.advance 0).lineErrors 21 0 0 0).swc.frames = [] ∧
    RxEnd.badFcs ≠ .good ∧ (l 0).swc.learn = [(2, 4095, 21)] ∧ (l 0).macFind 2 4095 = none ∧ (l 0).swc.macs.length < 8192 ∧
    k.macFind 2 4095 = some ⟨2, 4095, 1, true, 0⟩ ∧
    (∀ op ∈ [1, 2, 3], (at' (run.setBit Rg.SWC_MAC_RESULT 31 true)).takes loader.toNat Rg.SWC_MAC_CMD op .SWC_MAC_CMD [] = true ∧
      bitsOf op 1 0 = op) ∧
    (at' (run.setBit Rg.SWC_MAC_RESULT 31 true)).bit Rg.SWC_MAC_RESULT 31 = true ∧
    (c 2).swc.cmd = some ⟨2, 2, 4095, 1⟩ ∧ (c 2).macFind 2 4095 = none ∧ (c 2).swc.macs.length < 8192 ∧
    (c 1).swc.cmd = some ⟨1, 2, 4095, 1⟩ ∧ (c 1).macFind 2 4095 = some ⟨2, 4095, 1, true, 0⟩ ∧
    (c 3).swc.cmd = some ⟨3, 2, 4095, 1⟩ ∧ (c 3).macFind 2 4095 = some ⟨2, 4095, 1, true, 0⟩ ∧
    21 ∈ (at' (swM fun x => { x with purge := [21] })).swc.purge := by decide +kernel

theorem witness_MacTable_full (l : List MacEnt) (h : l.length = 8192) (n : ∀ e ∈ l, e.mac = 4) :
    let f := at' (swM fun x => { x with learn := [(2, 4095, 21)], macs := l })
    f.swc.learn = [(2, 4095, 21)] ∧ f.macFind 2 4095 = none ∧ 8192 ≤ f.swc.macs.length := by
  refine ⟨rfl, ?_, ?_⟩
  · simp only [at', st, State.now, swM, Mach.modSwc, Mach.macFind, List.find?_eq_none]
    intro e he; simp [n e he]
  · simp [at', st, State.now, swM, Mach.modSwc, h]

/-- A frame of 64 bytes stored for port 17, complete. -/
def stored : Frame := { id := 0, inp := 1, cls := 7, bytes := frame64 [], done := true, refs := [17] }

theorem witness_FramesLeave :
    let o := at' ((portUp 17 run).modSwc fun x => { x with frames := [stored] })
    let m := o.advance 0
    let q := (((m.dropCut 0).shapersRun 17 0).gateDrops 17 m.swc.frames.length).showBuffer
    let g := q.modSwc fun x => { x with rr := kput x.rr (Mach.pcKey 17 7) 1 }
    let x : TxCur := ⟨17, 0, frame64 [], 7, [], 0⟩
    let t := at' ((portUp 17 run).modSwc fun y => { y with frames := [stored], tx := [x] })
    m.isDown 17 = false ∧ m.portEnabled 17 = true ∧ m.txOf 17 = none ∧ o.mediumFree 17 = true ∧ (17 : Nat) < 18 ∧ m.unitHeld uSWC = false ∧
    q.selectFrame 17 0 = some stored ∧ stored.tsId = none ∧ (g.startCopy stored 17 (g.txStamp 17 0)).1 = g ∧
    (g.startCopy stored 17 (g.txStamp 17 0)).2.isSome = true ∧ t.rst.cReset = false ∧ t.plcaOk 17 = false ∧ portType 17 ≠ 3 ∧
    t.txOf 17 = some x ∧ (t.advance 0).txOf 17 = some x ∧ (t.advance 0).frameOf 0 = some stored ∧ stored.done = true ∧
    stored.ct = false ∧ stored.bad = false ∧ (t.advance 0).swc.tx = [x] ∧ (t.advance 0).plcaOn 17 = false := by decide +kernel

theorem witness_FramesLeave_ports :
    let f := at' ((run.setBit (Rg.SWC_PORT_STATUS 21) 2 true).setBit (Rg.SWC_PORT_STATUS 21) 0 false)
    let g := at' (run.modGate 21 fun g => { g with running := true, cur := 0, list := [(255, 1), (1, 100)] })
    let e := at' (run.setFld (Rg.SWC_FRER_RESET 255) 15 0 0)
    (at' (run.setBit (Rg.SWC_PORT_STATUS 21) 1 false)).isDown 21 = false ∧ (at' run).portEnabled 21 = false ∧
    f.bit (Rg.SWC_PORT_STATUS 21) 2 = true ∧ f.bit (Rg.SWC_PORT_STATUS 21) 0 = false ∧ ((g.advance 0).gateOf 21).running = true ∧
    ((g.advance 0).gateOf 21).cur + 1 < ((g.advance 0).gateOf 21).list.length ∧
    ((g.advance 0).gateOf 21).start + sumNat ((((g.advance 0).gateOf 21).list.take 1).map (·.2)) ≤ (g.advance 0).wtNs + 1 ∧
    e.fld (Rg.SWC_FRER_RESET 255) 15 0 ≤ (kgetD e.swc.frer 255 {}).idle := by decide +kernel

theorem witness_PortLinks :
    let s (p n : Nat) : Mach := at' (run.setFld (Rg.EPORT_STATUS p) 2 0 n)
    let u := at' ((run.setFld (Rg.EPORT_STATUS 11) 2 0 2).setLink 0 3)
    let d (v : Nat) := (u.takesFar loader.toNat (Rg.EPORT_DIAG_CMD 11) 4 v .EPORT_DIAG_CMD).map (·.mask)
    (s 11 2).rst.cReset = false ∧ (s 11 2).portState 11 = 2 ∧ ((s 11 2).port 11).usxLinkDown = false ∧ (s 11 3).portState 11 = 3 ∧
    d 1 = some 0x7F01 ∧ d 0x7F01 = some 0x7F01 ∧ u.lath.bufs = [] ∧ u.portState 11 = 2 ∧ bitOf 0x7F01 0 = true ∧ bitsOf 1 14 8 = 0 ∧ 90 < bitsOf 0x7F01 14 8 ∧
    (s 21 4).portState 21 = 4 ∧ (s 21 4).portEnabled 21 = false ∧ portType 17 = 4 ∧
    (at' (run.setFld (Rg.EPORT_CFG 17) 3 2 1)).portRole 17 = 1 := by decide +kernel

theorem witness_PortLinks_plca :
    let s (f : PortSt → PortSt) : Mach := at' ((run.setFld (Rg.EPORT_CFG 15) 3 2 1).modPort 15 f)
    let n := s fun x => { x with plca := 0x00200800, plcaFail := false }
    let f := s fun x => { x with plca := 0x002008FE, plcaFail := true }
    let g := s fun x => { x with plca := 0x002008FE, plcaFail := false }
    n.plcaOn 15 = true ∧ n.plcaNode 15 = 0 ∧ n.txOf 15 = none ∧ n.receiving 15 = false ∧ f.plcaOn 15 = true ∧ f.plcaNode 15 ≠ 0 ∧ (f.port 15).plcaFail = true ∧
    g.plcaOn 15 = true ∧ g.plcaNode 15 ≠ 0 ∧ (g.port 15).plcaFail = false ∧ g.txOf 15 = none ∧ g.receiving 15 = false := by decide +kernel

theorem witness_RingsAndCounters :
    let x : TxCur := ⟨18, 0, frame64 [], 0, [], 0⟩
    let r : Mach := at' (swM fun y => { y with tx := [{ x with rings := [7] }] })
    let e := at' ((((run.setBit (Rg.EPORT_RING_CTRL 18 7) 1 true).wr (Rg.EPORT_RX_TAIL 18 7) 1).setFld (Rg.EPORT_RING_CTRL 18 7) 0 0 0).modSwc
      fun y => { y with tx := [{ x with rings := [7] }] })
    let q := (at' ((run.setFld (Rg.EPORT_RX_SIZE 18 7) 12 0 4096).setFld (Rg.EPORT_TX_SIZE 18 7) 12 0 4096)).advance 0
    q.takes loader.toNat (Rg.EPORT_RX_TAIL 18 7) 4095 .EPORT_RX_TAIL [18, 7] = true ∧
    q.takes loader.toNat (Rg.EPORT_TX_TAIL 18 7) 4095 .EPORT_TX_TAIL [18, 7] = true ∧
    (at' (swM fun y => { y with tx := [x] })).txOf 18 = some x ∧ x.rings = [] ∧ r.rst.cReset = false ∧
    r.swc.tx = [{ x with rings := [7] }] ∧ r.ringServed 18 7 = true ∧ (rxRing [] r 18 7 x.out).2.2 = false ∧ x.port = 18 ∧
    e.swc.tx = [{ x with rings := [7] }] ∧ e.ringServed 18 7 = true ∧ (rxRing [] e 18 7 x.out).2.2 = true ∧
    (at' run).reads loader.toNat (Rg.SWC_CNT_LO 21 31) 4 .SWC_CNT_LO = true ∧ (at' run).isHeart loader.toNat = true := by
  decide +kernel

/-! ### Witnesses: network time -/

theorem witness_NetworkTime :
    let d := at' (((run.setFld (Rg.PTP_DOM_STATE 0) 1 0 2).setFld (Rg.PTP_DOM_STATE 1) 1 0 3).setFld Rg.PTP_WT_STATUS 1 0 1)
    let t (m : Mach) (a v : Nat) (n : RegName) (i : List Nat) : Bool := (m.advance 5).takes loader.toNat a v n i
    let r (n : Nat) := (at' ((((((run.setFld (Rg.PTP_DOM_STATE 0) 1 0 2).setFld (Rg.PTP_DOM_STATE 1) 1 0 2).setFld Rg.PTP_WT_STATUS 1 0 1
      ).setFld (Rg.PTP_DOM_CFG 0) 15 8 2).setFld (Rg.PTP_DOM_CFG 1) 15 8 1).setFld Rg.PTP_CTRL2 31 16 n)).advance 1000000000
    let z := at' (run.setFld Rg.PTP_WT_STATUS 1 0 2)
    (at' run).clk.lt ≤ 5 ∧ (at' run).wtSource = 0 ∧ t (at' run) Rg.PTP_SNAP_CMD 1 .PTP_SNAP_CMD [] = true ∧ bitOf 1 0 = true ∧
    t (at' run) (Rg.PTP_DOM_STEP_HI 0) 0xFFFFFFFF .PTP_DOM_STEP_HI [0] = true ∧
    t d (Rg.PTP_DOM_SERVO 0) 0 .PTP_DOM_SERVO [0] = true ∧ t d (Rg.PTP_DOM_SERVO 1) 1 .PTP_DOM_SERVO [1] = true ∧
    t d (Rg.PTP_DOM_SERVO 0) 2 .PTP_DOM_SERVO [0] = true ∧ (d.advance 5).slotState 0 = 2 ∧ (d.advance 5).slotState 1 = 3 ∧
    d.rst.cReset = false ∧
    (let u := at' (run.setFld (Rg.PTP_DOM_STATE 1) 1 0 1); t u (Rg.PTP_DOM_SERVO 1) 2 .PTP_DOM_SERVO [1] = true ∧ (u.advance 5).slotState 1 = 1) ∧
    (let w := at' ((run.setFld (Rg.PTP_DOM_STATE 1) 1 0 2).setFld Rg.PTP_CTRL 15 0 1);
      (∀ n ∈ [999999, 1000000], (w.advance n).slotState 1 = 2 ∧ (decide ((w.advance n).clk.sync1 + (w.advance n).fld Rg.PTP_CTRL 15 0 * 1000000 ≤ (w.advance n).clk.lt)) =
        decide (n = 1000000))) ∧
    (let h := at' ((run.setFld (Rg.PTP_DOM_STATE 0) 1 0 3).setFld Rg.PTP_CTRL2 15 0 1);
      (∀ n ∈ [999999999, 1000000000], (h.advance n).slotState 0 = 3 ∧ (decide ((h.advance n).clk.hold0 + (h.advance n).fld Rg.PTP_CTRL2 15 0 * 1000000000 ≤ (h.advance n).clk.lt)) =
        decide (n = 1000000000))) ∧
    (∀ n ∈ [0, 1], (r n).wtSource = 1 ∧ (r n).slotState 0 = 2 ∧ (r n).slotState 1 = 2 ∧
      (r n).fld (Rg.PTP_DOM_CFG 1) 15 8 < (r n).fld (Rg.PTP_DOM_CFG 0) 15 8 ∧ (r n).fld Rg.PTP_CTRL2 31 16 = n ∧
      (r n).clk.lock1 + n * 1000000000 ≤ 1000000000) ∧
    t d Rg.PTP_WT_CMD 1 .PTP_WT_CMD [] = true ∧ (d.advance 5).wtSource = 1 ∧ (d.advance 5).clk.pulse = [] ∧ (d.advance 5).clk.next = [] ∧ (z.advance 5).wtSource = 2 ∧
    ((z.advance 5).clk.wt - (z.advance 5).clk.dt1).natAbs < oneNs := by decide +kernel

theorem witness_TimedPins :
    let o (n t : Nat) : Mach := (at' ((run.setFld (Rg.PTP_TOUT_CFG 7) 1 0 n).modClk fun c => { c with next := [(7, t)] })).advance 1000
    let p (one : Bool) (stop : Nat) : Mach := (at' (run.modClk fun c => { c with pulse := [⟨7, one, true, stop⟩] })).advance 1000
    let i (n : Nat) : Mach := (at' ({ run.setFld (Rg.PTP_TIN_CFG 7) 1 0 3 with truss := { run.truss with
      pins := [(ballNo (26 + 7) 37, 0x61, 0, 0)] } }.modClk fun c => { c with fifo := List.replicate 8 (List.replicate n (0, true)) })).advance 1
    (∀ n ∈ [1, 2], (o n 1000).timeOutOn 7 = true ∧ (o n 1000).clk.next = [(7, 1000)] ∧ (o n 1000).clk.pulse = [] ∧ 1000 ≤ (o n 1000).wtNow ∧
      (o n 1000).fld (Rg.PTP_TOUT_CFG 7) 1 0 = n) ∧ (o 1 1002).clk.next = [(7, 1002)] ∧ (o 1 1002).wtNow + 1 < 1002 ∧
    (∀ b ∈ [false, true], (p b 1000).clk.pulse = [⟨7, b, true, 1000⟩] ∧ 1000 ≤ (p b 1000).wtNow) ∧
    (∀ n ∈ [7, 8], (i n).timeInOn 7 = true ∧ (i n).fld (Rg.PTP_TIN_CFG 7) 1 0 = 3 ∧ (i n).clk.tin = [] ∧ (i n).clk.fifo.length = 8 ∧
      ((i n).clk.fifo.getD 7 []).length = n) ∧ (at' run).rst.cReset = false ∧
    (at' run).takes loader.toNat (Rg.PTP_TIN_POP 7) 1 .PTP_TIN_POP [7] = true ∧
    (at' run).takes loader.toNat (Rg.PTP_TXQ_POP 5) 1 .PTP_TXQ_POP [5] = true ∧ bitOf 1 0 = true := by decide +kernel

/-! ### Witnesses: CAN channels -/

/-- A machine whose CAN channel 11 has its transceiver in NORMAL and is in the given state, with a shared region of SRAM. -/
def can (n : Nat) : Mach :=
  { (((run.setBit (Rg.MBUS_CTRL 11) 0 true).setFld (Rg.MBUS_XCVR_CTRL 11) 1 0 3).setBit (Rg.MBUS_XCVR_STATUS 11) 0 true).setCan 11 n with
    truss := { run.truss with regions := [⟨bSRAM, 0x20000, 0x1000 + uMBUS, true, true, false, false, true, false⟩] } }

/-- A classical frame of one byte with the lowest identifier. -/
def frame1 : CanFrame := { id := 0, dlc := 1, data := [0xA5] }

theorem witness_CanReceives :
    let r (v : Nat) := (at' ((can 2).wr (Rg.MBUS_RXQ_STATUS 11 7) (1 <<< 16))).takes loader.toNat (Rg.MBUS_RXQ_ACK 11 7) v .MBUS_RXQ_ACK [11, 7]
    (at' (can 1)).rst.cReset = false ∧ (at' (can 1)).canState 11 = 1 ∧ (at' (can 1)).canHears 11 = true ∧ (at' (can 1)).canTec 11 ≤ 255 ∧
    (∀ n ∈ [255, 256], (at' ((can 1).setErr 11 n 0)).canState 11 = 1 ∧ (at' ((can 1).setErr 11 n 0)).canTec 11 = n ∧ (at' ((can 1).setErr 11 n 0)).canHears 11 = true) ∧
    ((at' (can 2)).advance 1).canHears 11 = true ∧ ((at' (can 2)).advance 1).canState 11 = 2 ∧
    frame1.format ≤ ((at' (can 2)).advance 1).fld (Rg.MBUS_CFG 11) 1 0 ∧ r 1 = true ∧ r 2 = true ∧
    bitsOf 1 9 0 ≤ (at' ((can 2).wr (Rg.MBUS_RXQ_STATUS 11 7) (1 <<< 16))).rxqHeld 11 7 ∧
    (at' ((can 2).wr (Rg.MBUS_RXQ_STATUS 11 7) (1 <<< 16))).rxqHeld 11 7 < bitsOf 2 9 0 := by decide +kernel

theorem witness_CanReceives_filters :
    let f (n : Nat) : Mach := (can 2).wr (fltReg 0 0) (2 ^ 31 + 11 * 256 + n)
    let o := (can 2).setBit (Rg.MBUS_CTRL 11) 1 true
    ((can 2).setBit (Rg.MBUS_CTRL 11) 1 false).fltSearch 11 frame1 = none ∧
    ((can 2).setBit (Rg.MBUS_CTRL 11) 1 false).bit (Rg.MBUS_CTRL 11) 1 = false ∧ o.fltSearch 11 frame1 = none ∧
    o.bit (Rg.MBUS_CTRL 11) 1 = true ∧ (f 4).fltSearch 11 frame1 = some 0 ∧ (f 4).bit (fltReg 0 0) 3 = false ∧
    (f 4).bit (fltReg 0 0) 2 = true ∧ (f 8).fltSearch 11 frame1 = some 0 ∧ (f 8).bit (fltReg 0 0) 3 = true ∧
    (f 8).bit (fltReg 0 0) 2 = false := by decide +kernel

theorem witness_CanReceives_queue :
    let m := (((can 2).wr (Rg.MBUS_RXQ_SIZE 11 7) 1).wr (Rg.MBUS_RXQ_BASE_LO 11 7) bSRAM).setBit (Rg.MBUS_RXQ_CTRL 11 7) 0 true
    let base := m.qBase (Rg.MBUS_RXQ_BASE_LO 11 7) (Rg.MBUS_RXQ_BASE_HI 11 7)
    let pay := base + 32 * m.rxqSize 11 7 + m.bufSize 11 * m.rxqWr 11 7
    let k := m.charge kRXQ (8 * 11 + 7) (32 + frame1.payload.length)
    let d (x : Mach) := x.rxDescr frame1 0 (kgetD (m.mch 11).seq 7 0 % 65536) 0
    m.bit (Rg.MBUS_RXQ_CTRL 11 7) 0 = true ∧ m.rxqHeld 11 7 < m.rxqSize 11 7 ∧ m.rxqPending 11 7 = false ∧ frame1.payload ≠ [] ∧
    frame1.payload.length ≤ m.bufSize 11 ∧ m.served kRXQ (8 * 11 + 7) = true ∧
    k.queueMemOk kRXQ 11 7 pay frame1.payload.length = true ∧
    ((k.dmaWrite [] (0x40 + 11) pay frame1.payload (k.queueOwner kRXQ 11 7)).bind fun x =>
      if x.2.queueMemOk kRXQ 11 7 (base + 32 * m.rxqWr 11 7) 32 ∧ (d x.2).length = 32
      then x.2.dmaWrite x.1 (0x40 + 11) (base + 32 * m.rxqWr 11 7) (d x.2) (x.2.queueOwner kRXQ 11 7) else none).isSome = true ∧
    (run.bit (Rg.MBUS_RXQ_CTRL 11 7) 0 = false ∨ run.rxqSize 11 7 ≤ run.rxqHeld 11 7 ∨ run.bufSize 11 < frame1.payload.length) := by
  decide +kernel

/-- A transmission of queue 7, or of queue H. -/
def sends (x : MTx) : Mach := at' ((can 2).modMch 11 fun y => { y with tx := some x })

/-- A transmit queue with one descriptor at the start of SRAM: a frame of one byte at 0x20000100. -/
def oneDescr : Mach :=
  ((((can 2).wr (Rg.MBUS_TXQ_SIZE 11 7) 2).wr (Rg.MBUS_TXQ_BASE_LO 11 7) bSRAM).wr (Rg.MBUS_TXQ_TAIL 11 7) 1).setBit (Rg.MBUS_TXQ_CTRL 11 7) 0 true

/-- The memory of that queue: dlc 1 at byte 8, the payload address at bytes 24 to 31. -/
def descrMem : Mem := [(bSRAM + 8, 1), (bSRAM + 25, 1), (bSRAM + 27, 0x20), (bSRAM + 0x100, 0xA5)]

theorem witness_CanSends :
    let h := (at' ((can 2).modMch 11 fun y => { y with h := [{ f := frame1 }] })).advance 1
    let d := (at' oneDescr).advance 1
    let r := queueCands [] h 11
    let q := queueCands descrMem d 11
    let x : Cand := { f := frame1, src := none }
    h.rst.cReset = false ∧ h.mbus.ch.length = 12 ∧ h.canMayStart 11 = true ∧ r.2.1.mbus.ch.length = 12 ∧
    bestCand (r.2.1.hCand 11 ++ r.2.2) = some x ∧ x.src = none ∧ d.canMayStart 11 = true ∧ q.2.1.mbus.ch.length = 12 ∧
    (bestCand (q.2.1.hCand 11 ++ q.2.2)).map (fun y => (y.src, y.addr, y.len)) = some (some 7, bSRAM + 0x100, 1) ∧
    q.2.1.txqRead q.1 11 7 (bSRAM + 0x100) 1 = some [0xA5] := by decide +kernel

theorem witness_CanSends_ends :
    let t (src : Option Nat) (one : Bool) : MTx := { src := src, f := frame1, oneShot := one }
    let k := at' (oneDescr.setFld (Rg.MBUS_TXQ_CTRL 11 7) 3 0 1)
    ((sends (t none false)).mch 11).tx = some (t none false) ∧ ((sends (t (some 7) false)).mch 11).tx = some (t (some 7) false) ∧
    ((sends (t (some 7) true)).mch 11).tx = some (t (some 7) true) ∧ (t (some 7) true).owner = none ∧ (t (some 7) true).abortTo = none ∧
    (t (some 7) true).oneShot = true ∧ (t none false).oneShot = false ∧
    (sends (t none false)).canMute 11 = false ∧ (sends (t (some 7) false)).canMute 11 = false ∧ (t (some 7) false).owner = none ∧
    (let u := at' ((((can 2).setBit (Rg.MBUS_XCVR_STATUS 11) 1 true).modMch 11 fun y => { y with tx := some (t none false) }));
      u.canMute 11 = true ∧ (u.mch 11).tx = some (t none false)) ∧ (sends (t none false)).mbus.ch.length = 12 ∧
    k.takes loader.toNat (Rg.MBUS_TXQ_CTRL 11 7) 3 .MBUS_TXQ_CTRL [11, 7] = true ∧ bitOf 3 1 = true ∧ (k.mch 11).tx = none ∧
    k.enableBarred loader.toNat kTXQ (8 * 11 + 7) = false ∧ run.txqHead 11 7 = run.txqTail 11 7 ∧
    oneDescr.txqHead 11 7 ≠ oneDescr.txqTail 11 7 ∧ (completeHead descrMem oneDescr 11 7 2 none).2.2 = true := by decide +kernel

theorem witness_CanErrorsAndTransceivers :
    let e := at' (can 2)
    let m := (e.setFld (Rg.MBUS_STATUS 11) 6 4 6).bump (Rg.MBUS_ERR_FRAME_CNT 11)
    let p := (at' ((can 3).setErr 11 248 0))
    let mp := (p.setFld (Rg.MBUS_STATUS 11) 6 4 6).bump (Rg.MBUS_ERR_FRAME_CNT 11)
    e.rst.cReset = false ∧ e.canState 11 = 2 ∧ e.canHears 11 = true ∧ e.canListens 11 = false ∧ (e.mch 11).tx = none ∧
    (m.setErr 11 (m.canTec 11) (m.canRec 11 + 8)).canTec 11 ≤ 255 ∧ (m.setErr 11 (m.canTec 11 + 8) (m.canRec 11)).canTec 11 ≤ 255 ∧
    p.canState 11 = 3 ∧ p.canHears 11 = true ∧ 255 < (mp.setErr 11 (mp.canTec 11 + 8) (mp.canRec 11)).canTec 11 ∧
    (at' (can 4)).canState 11 = 4 ∧ (at' ((can 4).setFld (Rg.MBUS_CFG 11) 23 16 1)).fld (Rg.MBUS_CFG 11) 23 16 ≠ 0 ∧
    (at' ((can 4).setFld (Rg.MBUS_CFG 11) 23 16 0)).fld (Rg.MBUS_CFG 11) 23 16 = 0 ∧ (at' (can 4)).takes loader.toNat (Rg.MBUS_CMD 11) 1 .MBUS_CMD [11] = true ∧
    bitOf 1 0 = true ∧ e.takes loader.toNat (Rg.MBUS_CMD 11) 1 .MBUS_CMD [11] = true ∧ (at' (can 5)).canState 11 = 5 ∧ (at' (can 5)).canHears 11 = true := by decide +kernel

theorem witness_CanErrorsAndTransceivers_lDie :
    let u := at' ((can 2).setLink 0 3)
    let x (b : Bool) := at' (((can 2).setBit (Rg.MBUS_XCVR_STATUS 11) 1 b).setBit (Rg.MBUS_XCVR_STATUS 11) 2 b)
    let w (k e : Nat) := at' ((((can 2).setFld (Rg.MBUS_XCVR_CTRL 11) 1 0 1).setFld (Rg.MBUS_CFG 11) 9 8 k).setFld (Rg.MBUS_WUF_ERR 11) 5 0 e)
    (u.takesFar loader.toNat (Rg.MBUS_XCVR_CTRL 11) 4 0 .MBUS_XCVR_CTRL).isSome = true ∧ u.lath.bufs = [] ∧
    u.fld (Rg.MBUS_XCVR_CTRL 11) 1 0 ≠ bitsOf 0 1 0 ∧ (x false).dieHeld .l = false ∧ (x false).elemHeld uMBUS 11 = false ∧
    (x false).bit (Rg.MBUS_XCVR_STATUS 11) 1 = false ∧ (x false).bit (Rg.MBUS_XCVR_STATUS 11) 2 = false ∧
    (x true).bit (Rg.MBUS_XCVR_STATUS 11) 1 = true ∧ (x true).bit (Rg.MBUS_XCVR_STATUS 11) 2 = true ∧ (w 1 0).sleepKind = none ∧
    (w 1 0).standsBy 11 1 = true ∧ (x false).sleepKind = none ∧ (x false).standsBy 11 1 = false ∧ (w 2 30).sillWakes = false ∧ (w 2 30).sleepKind = none ∧
    (w 2 31).sillWakes = false ∧ (w 2 30).standsBy 11 1 = false ∧ (w 2 30).standsBy 11 2 = true ∧
    wufMatch ((w 2 30).wufInUse 11) { id := 1, ide := true } = false ∧
    (w 2 30).fld (Rg.MBUS_WUF_ERR 11) 5 0 < 31 ∧ (w 2 31).fld (Rg.MBUS_WUF_ERR 11) 5 0 = 31 ∧ (w 2 31).standsBy 11 2 = true ∧
    wufMatch ((at' (((w 2 0).setFld (Rg.MBUS_WUF_DLC 11) 3 0 0).wr (Rg.MBUS_WUF_ID_MASK 11) 0)).wufInUse 11) { id := 5 } = true := by
  decide +kernel

/-! ### Witnesses: LIN, SENT, network management, gateway -/

/-- LIN channel 11 in the given state: a commander, or a responder. -/
def lin (n : Nat) (resp : Bool) (f : LinCh → LinCh) : Mach :=
  at' (((run.setLin 11 n).setBit (Rg.LIN_CFG 11) 0 resp).modLch 11 f)

theorem witness_LinFrames :
    let cfg (m : Mach) (dir : Nat) : Mach := at' ((m.setFld (Rg.LIN_FRAME_CFG 11 61) 1 0 dir).setFld (Rg.LIN_FRAME_CFG 11 61) 7 4 2)
    let cur (b : Bool) : LinCur := { id := 61, sleep := b, resp := [1, 2] }
    let k (b : Bool) : LinCh → LinCh := fun x => { x with cur := some (cur b) }
    let ask := lin 1 false fun x => { x with sleepReq := true }
    let slot := lin 1 false fun x => { x with pend := [15] }
    (lin 1 false id).rst.cReset = false ∧ (lin 1 false id).elemHeld uLIN 11 = false ∧ (lin 1 false id).dieHeld .l = false ∧
    (lin 1 false id).linOff 11 = false ∧ (ask.advance 5).linOff 11 = false ∧ (ask.advance 5).linMaySend 11 = true ∧
    (ask.advance 5).linResponder 11 = false ∧ ((ask.advance 5).lch 11).sleepReq = true ∧ (slot.advance 5).linMaySend 11 = true ∧
    (slot.advance 5).linResponder 11 = false ∧ (slot.advance 5).linOff 11 = false ∧ ((slot.advance 5).lch 11).sleepReq = false ∧
    ((slot.advance 5).lch 11).pend = [15] ∧ (slot.advance 5).linAsleep 11 = false ∧
    (∀ b ∈ [false, true], (lin 1 false (k b)).linState 11 = 1 ∧ ((lin 1 false (k b)).lch 11).cur = some (cur b) ∧
      (lin 1 false (k b)).linOff 11 = false ∧ (lin 1 false (k b)).elemHeld uLIN 11 = false) ∧
    (∀ d ∈ [1, 2], (cfg (lin 1 false (k false)) d).linDir 11 61 = d ∧ (cfg (lin 1 false (k false)) d).linResponder 11 = false ∧
      (cfg (lin 1 false (k false)) d).linState 11 = 1 ∧ ((cfg (lin 1 false (k false)) d).lch 11).cur = some (cur false) ∧
      (cfg (lin 1 false (k false)) d).linLen 11 61 = 2) ∧ (cur true).sleep = true ∧ (5 : Fin 6).val ≠ 0 ∧
    (0xFC : Byte) = (cfg (lin 1 false (k false)) 2).linCheck 11 61 [1, 2] ∧ (0 : Byte) ≠ (cfg (lin 1 false (k false)) 2).linCheck 11 61 [1, 2] := by
  decide +kernel

theorem witness_LinFrames_wakes :
    let b := at' (((lin 1 true id).setFld (Rg.LIN_CFG 11) 31 16 100).setFld (Rg.LIN_FRAME_CFG 11 61) 1 0 1)
    b.linState 11 = 1 ∧ b.linResponder 11 = true ∧ b.linOff 11 = false ∧ (109 : Nat) < 110 ∧ b.fld (Rg.LIN_CFG 11) 31 16 = 100 ∧
    100 * 85 ≤ 85 * 100 ∧ 115 * 100 ≤ 100 * 115 ∧ b.linDir 11 61 ≠ 0 ∧
    (lin 1 false id).takes loader.toNat (Rg.LIN_CMD 11) 1 .LIN_CMD [11] = true ∧ (lin 1 false id).linState 11 = 1 ∧ (lin 1 false id).linResponder 11 = false ∧
    (lin 2 false id).takes loader.toNat (Rg.LIN_CMD 11) 2 .LIN_CMD [11] = true ∧ (lin 2 false id).linState 11 = 2 ∧
    ((lin 2 false fun x => { x with pulse := true }).lch 11).pulse = true ∧ (lin 2 false fun x => { x with pulse := true }).linState 11 = 2 ∧
    (150 : Nat) ≤ 5000 ∧ ((lin 2 false id).lch 11).woke = false ∧ (lin 2 false id).linOff 11 = false ∧ (lin 2 false id).linState 11 ≠ 3 := by
  decide +kernel

theorem witness_SentMessages :
    let img : Image := { hdr := [], sects := [{ typ := sSENT, live := false, digest := [],
                                                recs := [{ sec := sSENT, idx := 0, kind := 1, bytes := [1, 0, 16, 0, 7, 0, 0, 0, 0, 0, 0, 0, 0, 0, 0, 0] }] }] }
    let s := at' { ((run.setFld (Rg.SENT_CFG 7) 16 0 2400).setFld (Rg.SENT_CFG 7) 31 24 6) with truss := { run.truss with image := some img } }
    let good := [12, 12, 12, 12, 12, 12, 12, 12 + crc4 false [0, 0, 0, 0, 0, 0]]
    s.rst.cReset = false ∧ s.elemHeld uSENT 7 = false ∧ s.dieHeld .l = false ∧ s.sentOff 7 = false ∧ (at' run).sentOff 3 = false ∧ s.sentCheck 7 192 good false = 0 ∧ bitsOf (s.fld (Rg.SENT_CFG 7) 31 24) 6 5 = 0 ∧
    s.sentCheck 7 0 good false = 1 ∧ s.sentCheck 7 192 (28 :: good.drop 1) false = 2 ∧ s.sentCheck 7 192 (good.drop 1) false = 3 ∧
    s.sentCheck 7 192 (good.take 7 ++ [12 + (crc4 false [0, 0, 0, 0, 0, 0] + 1) % 16]) false = 4 := by decide +kernel

/-- Segment 23 in the given state and phase, with the given kind and presence bit. -/
def segm (state phase kind : Nat) (pres : Bool) (f : NmSeg → NmSeg) : Mach :=
  at' (((((run.setFld (Rg.NM_SEG_STATUS 23) 2 0 state).setFld (Rg.NM_SEG_STATUS 23) 5 4 phase).setFld (Rg.NM_SEG_CFG 23) 15 8 kind).setBit
    (Rg.NM_SEG_CFG 23) 30 pres).modSeg 23 f)

theorem witness_NetworkManagement :
    let t (v : Nat) := (at' run).takes loader.toNat (Rg.NM_SEG_CTRL 23) v .NM_SEG_CTRL [23]
    let r := segm 2 2 1 false fun x => { x with tokenHeld := true }
    t 1 = true ∧ t 2 = true ∧ (at' run).takes loader.toNat Rg.NM_LOG_CLEAR 1 .NM_LOG_CLEAR [] = true ∧ bitOf 1 0 = true ∧
    (segm 3 0 1 false id).segState 23 = 3 ∧ (segm 3 0 1 false id).segLatch 23 = false ∧ (segm 3 0 1 false id).rst.cReset = false ∧
    r.ringPhase 23 2 = true ∧ (r.seg 23).tokenHeld = true ∧ (segm 2 1 1 false id).ringPhase 23 1 = true ∧
    (segm 2 0 1 true id).segState 23 = 2 ∧ (segm 2 0 1 true id).segPresence 23 = true ∧ (segm 2 0 1 true id).segLin 23 = false := by
  decide +kernel

theorem witness_NetworkManagement_timers : ∀ n ∈ [0, 2 ^ 40],
    let f (m : Mach) : Mach := (m.setFld (Rg.NM_SEG_TIMING 23) 31 16 4).setFld (Rg.NM_SEG_MSG 23) 9 0 1
    let run (m : Mach) (t c : Nat) : Bool := if n = 0 then decide (c < m.msTicks t) else decide (m.msTicks t ≤ c)
    let a := f (segm 3 0 1 false fun x => { x with silence := n })
    let b := f (segm 2 1 1 false fun x => { x with alive := n })
    let c := f (segm 2 2 1 false fun x => { x with ring := n })
    let d := f (segm 2 2 1 false fun x => { x with ring := 0, tokenHeld := true, token := n })
    let e := f (segm 2 0 1 true fun x => { x with hold := n, pres := n })
    let h := f (segm 2 0 1 true fun x => { x with hold := 2 ^ 40, pres := n })
    let g := f (segm 2 0 1 true fun x => { x with hold := 0, keep := n })
    a.segState 23 = 3 ∧ a.segLatch 23 = false ∧ a.segLin 23 = false ∧ run a (a.segSilenceMs 23) (a.seg 23).silence = true ∧
    b.ringPhase 23 1 = true ∧ run b (4 * b.segHoldMs 23) (b.seg 23).alive = true ∧ c.ringPhase 23 2 = true ∧
    run c (c.segKeepMs 23) (c.seg 23).ring = true ∧ d.ringPhase 23 2 = true ∧ (d.seg 23).ring < d.msTicks (d.segKeepMs 23) ∧
    (d.seg 23).tokenHeld = true ∧ run d (d.segHoldMs 23) (d.seg 23).token = true ∧ e.segState 23 = 2 ∧ e.segLin 23 = false ∧
    e.segPresence 23 = true ∧ run e (e.segKeepMs 23) (e.seg 23).hold = true ∧ run e (e.segKeepMs 23) (e.seg 23).pres = true ∧
    h.segState 23 = 2 ∧ h.segLin 23 = false ∧ h.segPresence 23 = true ∧ h.ownReady 23 = true ∧ run h (h.segKeepMs 23) (h.seg 23).pres = true ∧
    g.segState 23 = 2 ∧ g.segPresence 23 = true ∧ g.segLin 23 = false ∧ g.ownReady 23 = false ∧
    run g (g.segKeepMs 23 / 4) (g.seg 23).keep = true := by decide +kernel

theorem witness_Gateway :
    let rc (k id timer : Nat) : Rec := ⟨0, 0, 1, [1, 0, 24, 0, 0xFF, 0x0F, BitVec.ofNat 8 k, 0, 1, 0, 0, 0, BitVec.ofNat 8 id, 0, 0, 0, 0, 0, 0, 0, BitVec.ofNat 8 timer, 0, 0, 0]⟩
    let p : GPdu := { rc := rc 5 7 1, age := 1 }
    let g (f : GwySt → GwySt) : Mach := at' (run.modGwy f)
    let a := g fun x => { x with pdus := [(4095, p)] }
    let d := at' { run with tick := { run.tick with due := [0] } }
    a.rst.cReset = false ∧ a.pduOf 4095 = some p ∧ pduTx p.rc = false ∧ p.timedOut = false ∧ pduTimer p.rc ≠ 0 ∧ pduTimer p.rc ≤ p.age ∧
    d.unitHeld uGWY = false ∧ d.gwy.done = false ∧ 0 ∈ d.tick.due ∧ 0 ∉ d.tick.ovr := by decide +kernel

theorem witness_Gateway_routes :
    let p (t f : Bool) : GPdu := { rc := ⟨0, 0, 1, []⟩, fresh := f, timedOut := t }
    let m (t f : Bool) : Mach := run.modGwy fun x => { x with pdus := [(4095, p t f)] }
    let r (subst : Byte) : Rec := ⟨0, 0, 2, [2, 0, 32, 0, 0, 0, 0xFF, 0x0F, 0, 0, 0, 0, 0, 0, 1, 1, subst, 0, 0, 0, 1, 0, 0, 0]⟩
    rtSrc (r 0) = 4095 ∧ (∀ t f, (m t f).pduOf 4095 = some (p t f)) ∧ rtUpd (r 0) = 0 ∧ rtSubst (r 0) = 0 ∧ rtSubst (r 32) = 1 := by
  decide +kernel

theorem witness_Gateway_ethernet :
    let bytes : List Byte := List.replicate 12 0 ++ [0x88, 0xB6, 0, 0, 0, 7, 0, 1, 0, 0, 0xA5]
    let t : TxCur := ⟨21, 0, bytes, 0, [], 0⟩
    let p : GPdu := { rc := ⟨0, 0, 1, [1, 0, 24, 0, 0xFF, 0x0F, 5, 0, 1, 0, 0, 0, 7, 0, 0, 0, 0, 0, 0, 0, 0, 0, 0, 0]⟩ }
    let m (l : List (Nat × GPdu)) : Mach := at' ({ (run.setFld Rg.GWY_ETH_TYPE 15 0 0x88B6) with gwy := { run.gwy with pdus := l } }.modSwc
      fun x => { x with tx := [t] })
    let hit (m : Mach) := m.gwy.pdus.find? fun x => pduKind x.2.rc == 5 && !pduTx x.2.rc && pduId x.2.rc == beNat (sliceBytes t.out 14 4)
      && pduLen x.2.rc == beNat (sliceBytes t.out 18 2)
    (m []).txOf 21 = some t ∧ (m []).unitHeld uGWY = false ∧ beNat (sliceBytes t.out 12 2) ≠ 0x8100 ∧ hit (m []) = none ∧
    hit (m [(4095, p)]) = some (4095, p) ∧ beNat (sliceBytes t.out 12 2) = (m [(4095, p)]).fld Rg.GWY_ETH_TYPE 15 0 := by decide +kernel

theorem witness_Gateway_commands :
    let m := at' (((run.wr (Rg.GWY_TBL_DATA 0) 0x00050FFF).wr (Rg.GWY_TBL_DATA 1) 1).wr (Rg.GWY_TBL_DATA 2) 7)
    let w := m.answer .done
    let x := Mach.tblRecord 0 ((List.range 7).map fun k => m.rd (Rg.GWY_TBL_DATA k))
    let c (op table code : Nat) (i : Option Nat) : GCmd := ⟨op, table, 8191, code, 0xFF, i⟩
    let n (k : GCmd) := at' (run.modGwy fun g => { g with cmd := some k, routes := [(8191, ⟨0, 0, 2, []⟩)] })
    (∀ v ∈ [0x40000FFF, 0x80000FFF, 0x80000FFE, 0xC0000FFF], m.takes loader.toNat Rg.GWY_TBL_CMD v .GWY_TBL_CMD [] = true) ∧
    m.gwy.cmd = none ∧ bitsOf 0x40000FFF 31 30 = 1 ∧ bitsOf 0x40000FFF 29 29 = 0 ∧ bitsOf 0x40000FFF 12 0 < 4096 ∧ x.isSome = true ∧
    w.tblCheck 0 4095 x = (0, 0xFF) ∧ w.tblCheck 0 4094 x = (0x17, 4) ∧ w.tblCheck 0 4095 none = (0, 0xFF) ∧
    (n (c 2 0 0 none)).gwy.cmd = some (c 2 0 0 none) ∧ (c 2 0 0 none).op ≠ 1 ∧ (c 2 0 0 none).code = 0 ∧ (c 2 0 0x17 none).code ≠ 0 ∧
    (c 1 1 0 none).op = 1 ∧ (c 1 1 0 none).table = 1 ∧ (kget (n (c 1 1 0 none)).gwy.routes 8191).isSome = true ∧
    (c 2 0 0 (some 63)).inst = some 63 := by decide +kernel

/-! ### Witnesses: lath links -/

/-- A machine with both links UP and the given requests waiting. -/
def linked (q : List LReq) : Mach := at' (((run.setLink 0 3).setLink 1 3).modLath fun x => { x with q := q })

/-- The register at an address read or written in the given width, where it answers to that width. -/
def hitAt (a w : Nat) : Option Hit := match resolve a w with | some (.reg h _) => some h | _ => none

theorem witness_FarRequests :
    let a := Rg.LOAD_STATE 47
    let r (late gone : Bool) : LReq := { ch := 23, init := loader.toNat, write := false, beats := [(a, 0)], late := late, gone := gone }
    let held (m : Mach) : Mach := at' { m with rst := { m.rst with elems := [(uLOAD, 47), (uMBUS, 11)] } }
    let g0 := Rg.MBUS_XCVR_STATUS 11
    let g : LReq := { ch := 7, init := loader.toNat, write := false, beats := [(g0, 0)] }
    (linked []).rst.cReset = false ∧ (linked []).lath.bufs = [] ∧ (linked []).lath.q = [] ∧ linkOfRead a = some 1 ∧
    (linked []).dbgBars loader.toNat a false = false ∧ (linked []).isHeart loader.toNat = true ∧
    (match hitAt a 2, findReg a with
      | some h, some f => h == f && !(linked []).readGone (some h) a && h.d.accMask .rc == 0 && !(held (linked [])).readGone (some h) a
      | _, _ => false) = true ∧
    chanReg 47 (a % 0x100) = a ∧ (resolve 0x42008040 2).isSome = true ∧ hitAt 0x42008040 2 = none ∧ linkOfRead 0x42008040 = some 1 ∧
    (linked []).readGone none 0x42008040 = false ∧ (linked []).dbgBars loader.toNat 0x42008040 false = false ∧
    (hitAt Rg.TICK_STATUS 4).isSome = true ∧ (linked []).reads loader.toNat Rg.TICK_STATUS 4 .TICK_STATUS = true ∧
    (linked [r false false]).lath.q = [r false false] ∧ (held (linked [g])).lath.q = [g] ∧ ((hitAt g0 4).any fun h => findReg g0 == some h && (held (linked [g])).readGone (some h) g0) = true ∧
    (linked [r false false]).linkState (linkOfChan 23) = 3 ∧ (held (linked [g])).linkState (linkOfChan 7) = 3 ∧
    (let b := at' ((linked [r false false]).setBit (Rg.LATH_CTRL 1) 0 false);
      b.bit (Rg.LATH_CTRL (linkOfChan 23)) 0 = false ∧ b.lath.q = [r false false] ∧ b.linkState (linkOfChan 23) = 3) ∧
    (linked [r true true]).lath.q = [r true true] ∧ (r true true).late = true ∧ (r true true).gone = true ∧
    (r false false).waiting = false ∧ (r false false).burst = none := by decide +kernel

theorem witness_FarRequests_writes :
    let a := Rg.LOAD_FAULT 47
    let e : Stg := { addr := a, mask := 0x8000, val := 0x8000, init := loader.toNat }
    let w (waiting : Bool) : LReq := { ch := 23, init := 2, write := true, beats := [(a, 0x8000)], wr := [e], waiting := waiting }
    let held := at' { linked [] with rst := { (linked []).rst with elems := [(uLOAD, 47)] } }
    ((linked []).takesFar loader.toNat a 2 0x8000 .LOAD_FAULT).isSome = true ∧ linkOf a = some 1 ∧ (linked []).lath.q = [] ∧
    (linked [w false]).lathHead 23 = some (w false) ∧ (w false).write = true ∧ (linked [w false]).linkState (linkOfChan 23) = 3 ∧
    (match hitAt e.addr 2 with
      | some h => !(linked []).goneAt h e.addr true && e.mask &&& (linked []).badMask e.addr h e.val == 0 && held.goneAt h e.addr true
      | none => false) = true ∧ e.members = [] ∧ e.mask ≠ 0 ∧ e.mask < 2 ^ 32 ∧
    (linked [w true]).lath.q.find? (fun r => r.ch == 23 && r.write && r.waiting) = some (w true) ∧ (w true).burst = none := by
  decide +kernel

theorem witness_FarRequests_bursts :
    let a := Rg.LOAD_STATE 47
    Mach.bursts? loader.toNat = true ∧ linkOf a = some 1 ∧ linkOf (a + 2 * 0) = some 1 ∧ (resolve (a + 2 * 0) 2).isSome = true ∧
    linkOf 0x4200FFFE = some 1 ∧ resolve 0x4200FFFE 2 = none ∧ 2 ≤ (linked []).linkState 1 ∧ (linked []).dieHeld .p = false ∧
    (linked []).lath.q = [] := by
  decide +kernel

theorem witness_LinkEvents :
    let b : LBuf := ⟨0, [], 0⟩
    let x (f : LathSt → LathSt) : Mach := at' (((run.setLink 1 3)).modLath f)
    let y (n : Nat) : Mach := at' ((run.setLink 1 4).modLath fun x => { x with retrains := [0, n] })
    (at' run).rst.cReset = false ∧ (at' run).linkState 1 ≠ 3 ∧ (linked []).linkState 1 = 3 ∧ Mach.farMayAddress 1 0x40060000 = false ∧
    Mach.farMayAddress 1 Rg.RSTC_IRQ_EN = true ∧ (linked []).reads (0x60 + 1) Rg.RSTC_IRQ_EN 4 .RSTC_IRQ_EN = true ∧
    ((hitAt Rg.RSTC_IRQ_EN 4).any fun h => (linked []).takes (0x60 + 1) Rg.RSTC_IRQ_EN 1 .RSTC_IRQ_EN h.idx) = true ∧
    linkOf 0x42000000 = some 1 ∧ (x fun q => { q with replays := [0, 2] }).lath.replays.getD 1 0 < 3 ∧
    3 ≤ (x fun q => { q with replays := [0, 3] }).lath.replays.getD 1 0 ∧ (y 1).linkState 1 = 4 ∧ (y 1).lath.retrains.getD 1 0 < 2 ∧
    (y 2).lath.retrains.getD 1 0 = 2 ∧ (x fun q => { q with bufs := [(23, b)] }).lath.bufs = [(23, b)] ∧
    (∀ e ∈ b.held, readEffects e.1 = false) := by decide +kernel

/-! ### Witnesses: fabric, interrupts, checker, bents -/

theorem witness_FabricAndMemory :
    let m := at' run
    let n := m.addressed loader.toNat bSRAM
    let o := m.addressed 2 bSRAM
    let z := (at' { run with memc := { run.memc with poison := [bSRAM] } }).addressed loader.toNat bSRAM
    let x := at' { run with memc := { run.memc with xspi := some (2 ^ 20), lpddrGib := 8 } }
    m.rst.cReset = false ∧ m.takes loader.toNat Rg.FAB_PART_CTRL 0x1F .FAB_PART_CTRL [] = true ∧ bitOf 0x1F 4 = true ∧
    (run.setPartState 15 2).partState 15 = 2 ∧ run.partState 15 ≠ 2 ∧ (at' (run.setPartState 15 3)).partState 15 = 3 ∧
    n.dbgBlocked loader.toNat false = false ∧ n.memFits bSRAM 8 = true ∧ n.fabAllowed loader.toNat bSRAM 8 .read = true ∧
    n.poisoned bSRAM 8 = false ∧ inRange bSRAM bKEYBLOB 0x10000 = false ∧ z.dbgBlocked loader.toNat false = false ∧
    z.memFits bSRAM 8 = true ∧ z.fabAllowed loader.toNat bSRAM 8 .read = true ∧ z.poisoned bSRAM 8 = true ∧
    o.fabAllowed 2 bSRAM 8 .read = false ∧ o.dbgBlocked 2 false = false ∧ o.memFits bSRAM 8 = true ∧
    n.dbgBlocked loader.toNat true = false ∧ inSnap bSRAM 8 = false ∧
    n.memIndex bSRAM ≠ some 3 ∧ n.memIndex bSRAM ≠ some 5 ∧ n.memIndex bSRAM ≠ some 6 ∧
    n.fabAllowed loader.toNat bSRAM 8 .write = true ∧ m.memIndex (0x30000007 : BitVec 40).toNat = some 5 ∧
    (0x30000007 : BitVec 40).toNat / 8 * 8 ∉ m.memc.poison ∧ m.bit Rg.MEM_IRQ_STATUS 2 = false ∧ x.memc.lpddrGib ≠ 0 ∧
    m.memc.lpddrGib = 0 ∧ m.takes loader.toNat Rg.MEM_XSPI_CMD (256 * 512) .MEM_XSPI_CMD [] = true ∧ bitsOf (256 * 512) 19 9 ≤ 256 ∧
    m.bit Rg.MEM_STATUS 2 = false ∧ m.takes loader.toNat Rg.MEM_XSPI_CMD (257 * 512) .MEM_XSPI_CMD [] = true ∧
    256 < bitsOf (257 * 512) 19 9 ∧ x.memc.xspi = some (2 ^ 20) ∧ bitOf (2 ^ 20) 20 = true ∧ bitOf 512 20 = false := by decide +kernel

/-- A machine with one core, the target of source 1023, which is enabled and pending. -/
def irqM (c : Core) (claims : List Claim) : Mach :=
  at' { (run.setBit (Rg.IRQ_SRC_CFG 1023) 31 true).setFld (Rg.IRQ_SRC_CFG 1023) 3 0 15 with
    fab := { run.fab with cores := [(coreOfTarget 15, c)] }, irq := { run.irq with vec := [1023] }
    truss := { run.truss with claims := claims } }

theorem witness_Interrupts :
    let own : List Claim := [{ cls := 4, idx := 1023, owner := 0x200F }]
    let plain : Core := { ({} : Core) with sap := some 15, run := true }
    let both (h : Bool) : Core := { ({} : Core) with sap := some 15, heart := some 14, run := true, inHeart := h }
    let busy := irqM { plain with active := [1022] } []
    (irqM plain []).rst.cReset = false ∧ coreOfTarget ((irqM plain []).irqTarget 1023) = coreOfTarget 15 ∧
    (irqM plain []).core (coreOfTarget 15) = some plain ∧ (irqM plain []).irqEnabled 1023 = true ∧
    (irqM plain []).irqPending 1023 = true ∧ Mach.isShared plain = false ∧ Mach.isShared (both false) = true ∧ plain.active = [] ∧
    (irqM plain []).irqTarget 1023 = 15 ∧ (irqM (both false) []).core (coreOfTarget 15) = some (both false) ∧
    (irqM (both true) own).core (coreOfTarget 15) = some (both true) ∧
    (irqM (both false) []).heartSource 1023 = true ∧ (both false).heartNow = false ∧ (irqM (both false) []).hwState 14 ≠ 3 ∧
    (irqM (both true) own).heartSource 1023 = false ∧ (both true).heartNow = true ∧ busy.irqPrio 1023 ≤ busy.irqPrio 1022 ∧
    (irqM plain []).reads (coreOfTarget 15) (Rg.IRQ_CLAIM 15) 4 .IRQ_CLAIM = true ∧ (irqM plain []).irqBest 15 = some 1023 ∧
    (at' { run with fab := { run.fab with cores := [(coreOfTarget 15, plain)] } }).irqBest 15 = none ∧
    (irqM plain []).takes (coreOfTarget 15) (Rg.IRQ_EOI 15) 1023 .IRQ_EOI [15] = true ∧
    (1023, 15) ∉ (irqM plain []).irq.active ∧
    (1023, 15) ∈ (at' { run with irq := { run.irq with active := [(1023, 15)] } }).irq.active := by decide +kernel

theorem witness_MramWrites :
    let m := (at' run).addressed loader.toNat 0x02010000
    let u := (at' run).addressed loader.toNat 0x02010001
    let z := (at' run).addressed 2 0x02010000
    (at' run).rst.cReset = false ∧ m.dbgBlocked loader.toNat true = false ∧ m.memIndex 0x02010000 = some 3 ∧ m.memFits 0x02010000 32 = true ∧
    0x02010000 % 32 = 0 ∧ m.mramMay loader.toNat 0x02010000 = true ∧ m.accessAllowed loader.toNat 0x02010000 32 .write = true ∧
    u.memFits 0x02010001 31 = true ∧ 0x02010001 % 32 ≠ 0 ∧ u.memIndex 0x02010001 = some 3 ∧ u.dbgBlocked loader.toNat true = false ∧
    z.mramMay 2 0x02010000 = false ∧ z.memIndex 0x02010000 = some 3 ∧ z.dbgBlocked 2 true = false ∧ z.memFits 0x02010000 32 = true ∧ m.memFits 0x02010000 31 = true ∧ (31 : Nat) ≠ 32 ∧ 0x02010000 % 32 = 0 ∧
    (List.replicate 32 (0 : Byte)).length = 32 := by decide +kernel

/-- Safe core 5 in the given state, run by context 0x1A. -/
def chkM (n : Nat) (f : ChkCore → ChkCore) : Mach :=
  at' { (run.setChk 5 n).modChk 5 f with fab := { run.fab with cores := [(0x1A, { ({} : Core) with heart := some 15, inHeart := true, run := true })] } }

theorem witness_CheckedCores :
    let m := chkM 1 id
    let limit (n : Nat) := at' (m.setFld (Rg.CHK_CTRL 5) 1 0 n)
    m.rst.cReset = false ∧ m.chkState 5 = 1 ∧ (m.chkOf 5).inj = false ∧ (limit 1).fld (Rg.CHK_CTRL 5) 1 0 ≠ 0 ∧
    (limit 0).fld (Rg.CHK_CTRL 5) 1 0 = 0 ∧ (chkM 2 id).chkState 5 = 2 ∧ ((chkM 2 id).chkOf 5).owed = false ∧
    ((chkM 2 id).chkOf 5).csync = false ∧ ((chkM 2 fun x => { x with csync := true }).chkOf 5).csync = true ∧
    ((chkM 2 fun x => { x with owed := true }).chkOf 5).owed = true ∧ (chkM 4 id).chkState 5 = 4 ∧ (chkM 0 id).chkState 5 = 0 ∧
    (chkM 3 id).chkState 5 = 3 ∧ m.tick.started = false ∧ (at' { run with tick := { run.tick with started := true } }).tick.started = true ∧ (chkM 5 id).chkState 5 = 5 ∧
    (chkM 3 id).takes loader.toNat (Rg.CHK_CMD 5) 1 .CHK_CMD [5] = true ∧ bitOf 1 0 = true ∧
    m.takes loader.toNat (Rg.CHK_CMD 5) 1 .CHK_CMD [5] = true ∧ m.coder 0x1A = some 5 ∧ m.fab.coded = true ∧
    (chkM 2 id).coder 0x1A = some 5 ∧ { m.fab with coded := false }.coded = false ∧ m.isHeart 0x1A = true ∧
    (at' (m.setBit (Rg.CHK_CTRL 5) 2 true)).bit (Rg.CHK_CTRL 5) 2 = true := by decide +kernel

theorem witness_Bents :
    let m (a b : Nat) : Mach := at' ((run.setBent 1 a).setBent 0 b)
    let t (m : Mach) (v : Nat) := m.takes loader.toNat Rg.BENT_CMD v .BENT_CMD []
    let r := at' ((m 2 1).setBit Rg.RSTC_GROUP_RST 26 false)
    let k := at' (((List.range 3).foldl (fun m k => m.setChk (3 + k) 0) (m 2 1)))
    let pass := at' ((run.setBent 1 3).forAll (Mach.bentParts 1) fun m p =>
      m.setFld (Rg.BIST_RESULT_0 + 4 * (p / 16)) (2 * (p % 16) + 1) (2 * (p % 16)) 1)
    (5 : Fin 6) ≠ 0 ∧ (5 : Fin 6) ≠ 4 ∧ (m 1 1).rst.cReset = false ∧ (m 1 1).bentState 1 = 1 ∧ (m 1 1).bentState (1 - 1) = 1 ∧
    (m 1 2).bentState (1 - 1) = 2 ∧ (m 2 1).bentState 1 = 2 ∧
    (at' { run with bent := { run.bent with overlap := 1 } }).bent.overlap ≠ 0 ∧ t (m 1 1) 0xB3E70101 = true ∧ (m 1 1).bentState (1 - 1) = 1 ∧
    (∀ n ∈ [0, 2], t (m n 1) 0xB3E70101 = true ∧ (m n 1).bentState 1 = n ∧ (m n 1).bentState (1 - 1) = 1) ∧
    bitsOf 0xB3E70101 8 8 = 1 ∧ bitsOf 0xB3E70101 31 16 = 0xB3E7 ∧ bitsOf 0xB3E70101 1 0 = 1 ∧ t r 0xB3E70102 = true ∧
    bitsOf 0xB3E70102 1 0 = 2 ∧ r.bit Rg.RSTC_GROUP_RST (25 + 1) = false ∧ (∀ j, j < 3 → k.chkState (3 * 1 + j) ≠ 3) ∧
    t k 0xB3E70102 = true ∧ k.bentState 1 = 2 ∧ k.bentState (1 - 1) = 1 ∧ k.bit Rg.RSTC_GROUP_RST (25 + 1) = false ∧
    t (m 1 1) 0xB3E80101 = true ∧ bitsOf 0xB3E80101 31 16 ≠ 0xB3E7 ∧ pass.bentIn 3 = some 1 ∧
    (∀ p ∈ Mach.bentParts 1, pass.bistShown p = 1) ∧ (at' (run.setBent 1 4)).bentIn 4 = some 1 := by decide +kernel

/-! ### Witnesses: worlds and debug -/

/-- An image whose PARTITIONS section makes partition 15 a heartwood partition. -/
def heartImage : Image :=
  { hdr := [], sects := [{ typ := sPARTS, live := false, digest := [],
                           recs := [{ sec := sPARTS, idx := 0, kind := 2, bytes := [2, 0, 16, 0, 15, 1, 0, 0, 0, 0, 0, 0, 0, 0, 0, 0] }] }] }

/-- A machine with partition 15 as heartwood and one core. -/
def heartM (c : Core) : Mach :=
  { run with truss := { run.truss with image := some heartImage }, fab := { run.fab with cores := [(3, c)] } }

theorem witness_Worlds :
    let plain : Core := { ({} : Core) with sap := some 0, run := true }
    let sh : Core := { plain with heart := some 15, gSap := noRegs.set 31 (BitVec.ofNat 32 bSRAM) }
    let r (m : Mach) : Mach := at' ((m.setHw 15 1).setPartState 15 2)
    let p := r ((((heartM sh).wr (Rg.WORLD_PEG_LO 31) (bSRAM + 1)).wr (Rg.WORLD_PEG_SIZE 31) (15 * 65536 + 1)))
    let v : Core := { sh with inHeart := true, visit := some { gd := 31 } }
    let t := at' ((heartM v).setHw 15 1)
    (at' (heartM plain)).rst.cReset = false ∧ (at' (heartM plain)).core 3 = some plain ∧ plain.run = true ∧ plain.halted = false ∧
    Mach.isShared plain = false ∧ Mach.isShared sh = true ∧ sh.heartNow = false ∧ (at' (heartM sh)).hwState 15 ≠ 1 ∧
    (at' (heartM sh)).core 3 = some sh ∧ p.hwState 15 = 1 ∧ p.partState 15 = 2 ∧ p.core 3 = some sh ∧
    p.bit (Rg.WORLD_PEG_LO 31) 0 = true ∧ p.fld (Rg.WORLD_PEG_SIZE 31) 19 16 = 15 ∧ (sh.gSap.getD 31 0).toNat = bSRAM ∧
    inRange bSRAM (p.pegSpan 31 (p.rd (Rg.WORLD_PEG_LO 31))).1 (p.pegSpan 31 (p.rd (Rg.WORLD_PEG_LO 31))).2 = true ∧
    leNat (memRead [(bSRAM + 2, 0x40), (bSRAM + 3, 0xD0)] bSRAM 4) = pegWord ∧ leNat (memRead [] bSRAM 4) ≠ pegWord ∧
    Mach.isShared v = true ∧ v.inHeart = true ∧ v.visit = some { gd := 31 } ∧ (at' (heartM v)).core 3 = some v ∧ v.run = true ∧ v.halted = false ∧ (at' (heartM v)).fab.cores = [(3, v)] ∧
    v.haltReq = false ∧ v.restartSap = false ∧ (v.gHeart.getD 31 0).toNat < hwUnavailable ∧ t.core 3 = some v ∧ t.hwState 15 = 1 ∧
    15 ∉ t.world.hung ∧ t.todo = [] ∧ v.heart = some 15 := by decide +kernel

theorem witness_Worlds_registers :
    let c : Core := { ({} : Core) with sap := some 0, heart := some 15, run := true, inHeart := true }
    let m := at' (heartM c)
    let k := at' { run with fab := { run.fab with cores := [(3, { c with heart := none, inHeart := false, sap := some 7 })] } }
    m.takes 3 (Rg.WORLD_HW_READY 15) 1 .WORLD_HW_READY [15] = true ∧ bitOf 1 0 = true ∧ m.hwState 15 = 0 ∧
    m.takes loader.toNat (Rg.WORLD_CLAIM 3) 0xFFFF0001 .WORLD_CLAIM [3] = true ∧ bitOf 0xFFFF0001 0 = true ∧
    m.takes loader.toNat (Rg.WORLD_CLAIM 3) 0x10000 .WORLD_CLAIM [3] = true ∧ bitOf 0x10000 0 = false ∧ k.partOf 3 = some 7 ∧
    (kget (at' { run with world := { run.world with lease := [(3, 0)] } }).world.lease 3).isSome = true := by decide +kernel

theorem witness_DebugRights :
    let c (h : Bool) : Core := { ({} : Core) with sap := some 0, run := true, halted := h }
    let m (h : Bool) (en : Nat) : Mach := at' { run.setFld Rg.WORLD_DBG_STATUS 3 0 en with fab := { run.fab with cores := [(3, c h)] } }
    let x (en : Nat) : Mach := at' { run.setFld Rg.WORLD_DBG_STATUS 3 0 en with truss := { run.truss with
      pins := (List.range 5).map fun i => (ballNo 6 (22 + i), 0x70, 0, 0) } }
    let g := ((heartM ({} : Core)).wr (Rg.WORLD_PEG_SIZE 31) (15 * 65536 + 1))
    let k (l : List Region) : Mach := at' { g with truss := { g.truss with regions := l } }
    (m false 3).rst.cReset = false ∧ (m false 3).fab.cores = [(3, c false)] ∧ Mach.safeOf 3 = none ∧ (c false).run = true ∧
    (m false 3).mayHalt (c false) = true ∧ (m false 1).mayHalt (c false) = false ∧ (m true 3).mayHalt (c true) = true ∧
    (m true 3).fab.cores = [(3, c true)] ∧ (at' run).takes loader.toNat Rg.WORLD_DBG_REQ 15 .WORLD_DBG_REQ [] = true ∧
    (at' run).takes loader.toNat (Rg.WORLD_DBG_RESP 7) 0xFFFFFFFF .WORLD_DBG_RESP [7] = true ∧
    (at' run).takes loader.toNat Rg.WORLD_DBG_LOCK 1 .WORLD_DBG_LOCK [] = true ∧ bitOf 1 0 = true ∧
    (∀ i, i < 5 → (x 15).pinFn (ballNo 6 (22 + i)) = some 0x70) ∧ bitOf (x 15).dbgEnables 1 = true ∧ bitOf (x 15).dbgEnables 3 = true ∧
    bitOf (x 3).dbgEnables 3 = false ∧
    (k []).takes loader.toNat (Rg.WORLD_PEG_LO 31) (bSRAM + 1) .WORLD_PEG_LO [31] = true ∧ (k []).bit (Rg.WORLD_PEG_LO 31) 0 = false ∧
    bitOf (bSRAM + 1) 0 = true ∧ ((k []).answer .done).pegOk 31 (bSRAM + 1) = false ∧
    ((k [⟨bSRAM, 4096, 0x200F, true, false, true, false, false, true⟩]).answer .done).pegOk 31 (bSRAM + 1) = true := by decide +kernel

theorem witness_DebugRights_safeCores :
    let c (h : Bool) : Core := { ({} : Core) with heart := some 15, inHeart := true, run := true, halted := h }
    let m (h : Bool) (n : Nat) (k : Bool) : Mach := at' { (run.setFld Rg.WORLD_DBG_STATUS 3 0 15).setChk 5 n with
      fab := { run.fab with cores := [(0x1A, c h)], coded := k } }
    Mach.safeOf 0x1A = some 5 ∧ (∀ n ∈ [1, 2], (m false n true).core 0x1A = some (c false) ∧ (m false n true).mayHalt (c false) = true ∧
      (m false n true).fab.coded = true ∧ (m false n true).chkState 5 = n) ∧ (c false).run = true ∧
    (∀ k ∈ [true, false], (m true 4 k).core 0x1A = some (c true) ∧ (m true 4 k).mayHalt (c true) = true ∧ (m true 4 k).fab.coded = k) ∧
    (c true).halted = true ∧ (1 : Word) ≠ 0 := by decide +kernel

/-- Four bytes of a number, and of its lowest 32 bits. -/
theorem leBytes_four (y : Nat) : leBytes 4 (y % 2 ^ 32) = leBytes 4 y := by
  simp only [leBytes, List.cons.injEq, and_true]
  refine ⟨?_, ?_, ?_, ?_⟩ <;> apply BitVec.eq_of_toNat_eq <;> simp <;> omega

/-- Bytes taken in two parts. -/
theorem leBytes_add (n k x : Nat) : leBytes (n + k) x = leBytes n x ++ leBytes k (x / 256 ^ n) := by
  induction n generalizing x with
  | zero => simp [leBytes]
  | succ n ih => rw [Nat.add_right_comm]; simp [leBytes, ih, Nat.div_div_eq_div_mul, Nat.pow_succ, Nat.mul_comm]

/-- Thirty-two bytes as eight words. -/
theorem leBytes_words (x : Nat) :
    ((List.range 8).map fun i => leBytes 4 (x / 2 ^ (32 * i) % 2 ^ 32)).flatten = leBytes 32 x := by
  simp only [leBytes_four]
  rw [show (32 : Nat) = 4 + (4 + (4 + (4 + (4 + (4 + (4 + 4)))))) from rfl]
  simp only [leBytes_add 4]
  simp [List.range, List.range.loop, Nat.div_div_eq_div_mul]

/-- A machine in the middle of a challenge check: key slot 0 holds a debug key, and the response words spell `x`. -/
def challenge (x : Nat) : Mach :=
  { run with
    world := { run.world with checking := true, nonce := true, req := 15 }
    key := { run.key with slots := [(0, { alg := 0, usage := 2 ^ 5, value := [1], counter := 0, lc := 0 })] }
    regs := (List.range 8).map fun i => (Rg.WORLD_DBG_RESP i, BitVec.ofNat 32 (x / 2 ^ (32 * i))) }

/-- The response words of `challenge x` spell the 32 bytes of `x`. -/
theorem challenge_response (x : Nat) :
    ((List.range 8).map fun i => leBytes 4 ((at' (challenge x)).rd (Rg.WORLD_DBG_RESP i))).flatten = leBytes 32 x := by
  rw [← leBytes_words]
  simp [challenge, at', st, State.now, Mach.rd, kget, List.range, List.range.loop, Rg.WORLD_DBG_RESP]

/-- The good response of the statement. -/
def goodResponse (x : Nat) : List Byte :=
  Mach.kmac [1] "MZ4820-DEBUG" (((List.range 4).map fun i => leBytes 4 ((at' (challenge x)).rd (Rg.WORLD_DBG_NONCE i))).flatten
    ++ Mach.uidBytes ++ leBytes 4 (at' (challenge x)).world.req) 32

/-- The nonce registers do not depend on the response. -/
theorem goodResponse_eq (x y : Nat) : goodResponse x = goodResponse y := by
  have h : ∀ x i, i < 4 → (at' (challenge x)).rd (Rg.WORLD_DBG_NONCE i) = coldAt (Rg.WORLD_DBG_NONCE i) := by
    intro x i hi
    have : i = 0 ∨ i = 1 ∨ i = 2 ∨ i = 3 := by omega
    rcases this with rfl | rfl | rfl | rfl <;>
      simp [challenge, at', st, State.now, Mach.rd, kget, List.range, List.range.loop, Rg.WORLD_DBG_RESP, Rg.WORLD_DBG_NONCE]
  simp [goodResponse, List.range, List.range.loop, h]; rfl

theorem witness_DebugRights_challenge :
    (∃ x, (at' (challenge x)).world.checking = true ∧ (at' (challenge x)).keyWith 5 = some [1] ∧ (at' (challenge x)).world.nonce = true ∧
      (at' (challenge x)).bit Rg.WORLD_DBG_STATUS 12 = false ∧
      ((List.range 8).map fun i => leBytes 4 ((at' (challenge x)).rd (Rg.WORLD_DBG_RESP i))).flatten = goodResponse x) ∧
    (∃ x, (at' (challenge x)).keyWith 5 = some [1] ∧
      ((List.range 8).map fun i => leBytes 4 ((at' (challenge x)).rd (Rg.WORLD_DBG_RESP i))).flatten ≠ goodResponse x) ∧
    (at' run).keyWith 5 = none := by
  refine ⟨⟨Config.kmac256 [1] (Mach.ascii "MZ4820-DEBUG") (((List.range 4).map fun i => leBytes 4 ((at' (challenge 0)).rd
      (Rg.WORLD_DBG_NONCE i))).flatten ++ Mach.uidBytes ++ leBytes 4 (at' (challenge 0)).world.req) 32, rfl, by rfl, rfl, ?_, ?_⟩, ?_, by decide +kernel⟩
  · simp [challenge, at', st, State.now, Mach.bit, Mach.rd, kget, List.range, List.range.loop, Rg.WORLD_DBG_RESP, Rg.WORLD_DBG_STATUS]
    decide +kernel
  · rw [challenge_response, goodResponse_eq _ 0]; rfl
  · by_cases h : leBytes 32 0 = goodResponse 0
    · refine ⟨1, rfl, ?_⟩
      rw [challenge_response, goodResponse_eq 1 0, ← h]; decide
    · exact ⟨0, rfl, by rw [challenge_response]; exact h⟩

/-! ### Witnesses: instances -/

/-- A machine whose instance 127, of partition 15, is in a state; key slot 63 may seal its records. -/
def inst127 (state busy : Nat) (x : VInst) (slots : List VSlot) : Mach :=
  let m := ((run.wr (Rg.VDEV_INST_CFG 127) 0xDF0103FF).wr (Rg.VDEV_INST_STATE 127) (0xFFFF0000 + 256 * busy + state))
  { m with
    vdev := { m.vdev with insts := [(127, x)], slots := slots }
    key := { m.key with slots := [(63, { alg := 0, usage := 2 ^ 6, value := [1], counter := 0, lc := 0 })] }
    truss := { m.truss with regions := [⟨bSRAM, 4096, 0x200F, true, true, false, false, false, false⟩] } }

/-- The same as a command finds it. -/
def vd (state busy : Nat) : Mach := at' (inst127 state busy {} [])

theorem witness_Instances :
    let save (k : Bool) : Mach := at' (((inst127 3 0 {} []).wr (Rg.VDEV_INST_ADDR_LO 127) bSRAM).wr Rg.VDEV_SCARF_KEY (if k then 0x8000003F else 0))
    (vd 1 0).rst.cReset = false ∧ (vd 1 0).instDefined 127 = true ∧
    (∀ v ∈ [1, 2, 3, 4, 5, 6], (vd 1 0).takes loader.toNat (Rg.VDEV_INST_CMD 127) v .VDEV_INST_CMD [127] = true) ∧
    (∀ v ∈ [1, 2, 3, 4, 5, 6], bitsOf v 3 0 = v) ∧ (∀ n, n < 5 → (vd n 0).instState 127 = n ∧ (vd n 0).instBusy 127 = false) ∧
    ((vd 1 0).inst 127).resetNow = false ∧ ((vd 1 0).inst 127).ready = none ∧
    ((vd 4 0).inst 127).job = none ∧ ((vd 4 0).inst 127).ready = none ∧ ((vd 4 0).inst 127).resetNow = false ∧
    (∀ v ∈ [3, 4, 6], (vd 4 0).takes loader.toNat (Rg.VDEV_INST_CMD 127) v .VDEV_INST_CMD [127] = true) ∧
    (vd 2 0).takes loader.toNat (Rg.VDEV_INST_CMD 127) 1 .VDEV_INST_CMD [127] = true ∧ ((save true).inst 127).job = none ∧ (save true).instBusy 127 = false ∧ (vd 1 1).instState 127 = 1 ∧ (vd 1 1).instBusy 127 = true ∧
    ((save true).answer .done).saveCode 127 = 0 ∧ ((save false).answer .done).saveCode 127 = 4 ∧ (save true).instState 127 = 3 ∧ (save false).instState 127 = 3 ∧
    (save true).takes loader.toNat (Rg.VDEV_INST_CMD 127) 5 .VDEV_INST_CMD [127] = true ∧
    (save false).takes loader.toNat (Rg.VDEV_INST_CMD 127) 5 .VDEV_INST_CMD [127] = true := by decide +kernel

theorem witness_Instances_gateway :
    let g (st : Nat) : Mach := at' ((inst127 st 0 {} [⟨127, 0, kROUTES, 8191, 1⟩, ⟨127, 1, kPDUS, 4095, 1⟩]).wr (Rg.VDEV_GWY_DATA 127 1) 4095)
    let words (m : Mach) := (List.range 7).map fun x => m.rd (Rg.VDEV_GWY_DATA 127 x)
    (∀ st ∈ [1, 4], ∀ op ∈ [7, 8], let v := 0x3FFF0000 + op
      (g st).takes loader.toNat (Rg.VDEV_INST_CMD 127) v .VDEV_INST_CMD [127] = true ∧ (g st).instState 127 = st ∧ bitsOf v 3 0 = op ∧
      ((g st).answer .done).gwyInRange 127 op (bitsOf v 29 29) (bitsOf v 28 16) (words (g st)) = true) ∧
    (g 1).gwy.cmd = none ∧ ((g 1).answer .done).gwyInRange 127 7 1 8190 (words (g 1)) = false ∧
    (g 1).takes loader.toNat (Rg.VDEV_INST_CMD 127) 0x3FFE0007 .VDEV_INST_CMD [127] = true ∧ bitsOf 0x3FFE0007 28 16 = 8190 := by
  decide +kernel

theorem witness_Instances_records :
    let j (op : Nat) (k : Bool) : Mach := at' ((inst127 3 1 { job := some (op, bSRAM) } []).wr Rg.VDEV_SCARF_KEY (if k then 0x8000003F else 0))
    (((j 5 true).inst 127).job = some (5, bSRAM)) ∧ (j 5 true).scarfKey = some [1] ∧ ((j 5 false).inst 127).job = some (5, bSRAM) ∧
    (j 5 false).scarfKey = none ∧ ((j 6 true).inst 127).job = some (6, bSRAM) ∧ (vd 2 0).instState 127 = 2 ∧ (vd 3 1).instRegions 127 = [] ∧
    (5 : Nat) ≠ 0 := by decide +kernel

theorem witness_Redivision :
    let two (st : Nat) (slots : List VSlot) : Mach := at' (((inst127 st 0 {} slots).wr (Rg.VDEV_INST_CFG 0) 0xDF000000).wr (Rg.VDEV_INST_STATE 0) 0x10003)
    let s : VSlot := ⟨127, 15, kLOAD, 47, 0⟩
    let m := two 4 [s]
    let go (v : Nat) : Rediv := ⟨bitsOf v 31 30, bitsOf v 29 23, bitsOf v 22 16, bitsOf v 15 12, m.fld Rg.VDEV_REDIV_AMOUNT 23 0⟩
    let v1 := 0x7F80F000
    let v2 := 0xBF80F000
    let v3 := 0xFF80F000
    m.rst.cReset = false ∧ (∀ v ∈ [v1, v2, v3, 0x40000000, 0x80000000, 0xC0000000, 0xBF800000],
      m.takes loader.toNat Rg.VDEV_REDIV v .VDEV_REDIV [] = true) ∧
    (go v1).op = 1 ∧ (go v2).op = 2 ∧ (go v3).op = 3 ∧ (m.answer .done).redivCode m.vdev.slots (go v1) = (0, 0xFF) ∧
    (m.answer .done).redivCode m.vdev.slots (go v2) = (0, 0xFF) ∧ (m.answer .done).redivCode m.vdev.slots (go v3) = (0, 0xFF) ∧
    m.vdev.rediv = [] ∧ (m.answer .done).redivCode m.vdev.slots (go 0x40000000) = (0xB, 0) ∧
    (m.answer .done).redivCode m.vdev.slots (go 0xBF800000) = (0xB, 0) ∧ ((two 1 [s]).answer .done).redivCode [s] (go v3) = (2, 0xFF) ∧
    (two 1 [s]).takes loader.toNat Rg.VDEV_REDIV v3 .VDEV_REDIV [] = true := by decide +kernel

theorem witness_Redivision_events :
    let m (k idx : Nat) : Mach := at' (inst127 1 0 {} [⟨127, 15, k, idx, 1⟩])
    (vd 1 0).instDefined 127 = true ∧ (vd 1 0).instGen 127 = 0xFFFF ∧ (vd 1 0).instGen 127 ≠ 1 ∧
    (∀ k ∈ [kRXQ, kTXQ, kRING, kLOAD, kROUTES, kPDUS, kBW], (m k 3).instSlot 127 15 = some ⟨127, 15, k, 3, 1⟩) := by decide +kernel

/-! ### Witnesses: keys and Buile -/

/-- A descriptor at the start of SRAM: its op, key slot 63, no input, room for 32 bytes of output. -/
def descMem (op : Nat) : Mem := [(bSRAM, BitVec.ofNat 8 op), (bSRAM + 1, 63), (bSRAM + 20, 32)]

/-- A machine whose key slot 63 holds an application key, with an engine as given. -/
def keyM (f : KeySt → KeySt) : Mach :=
  at' (run.modKey fun k => f { k with slots := [(63, { alg := 1, usage := 2 ^ 7, value := [1], counter := 5, lc := 0 })] })

theorem witness_KeyOperations :
    let d (op : Nat) := memRead (descMem op) bSRAM 32
    let q (n : Nat) : Mach := keyM fun k => { k with cur := some (bSRAM, loader.toNat), queue := List.replicate n (bSRAM, 0), start := k.slots }
    (keyM id).rst.cReset = false ∧ (keyM id).takes loader.toNat Rg.KEY_SUBMIT (bSRAM + 31) .KEY_SUBMIT [] = true ∧ (keyM id).key.cur = none ∧
    (∀ op ∈ [1, 2, 3, 4], (keyM id).dmaRead (descMem op) loader.toNat ((bSRAM + 31) &&& 0xFFFFFFE0) 32 = some (d op) ∧
      leAt (d op) 0 1 = op ∧ (q 7).dmaRead (descMem op) loader.toNat bSRAM 32 = some (d op)) ∧
    (q 7).takes loader.toNat Rg.KEY_SUBMIT bSRAM .KEY_SUBMIT [] = true ∧ (q 7).key.cur = some (bSRAM, loader.toNat) ∧
    (q 7).key.queue.length < 8 ∧ (q 8).takes loader.toNat Rg.KEY_SUBMIT bSRAM .KEY_SUBMIT [] = true ∧
    (q 8).key.cur = some (bSRAM, loader.toNat) ∧ 8 ≤ (q 8).key.queue.length ∧ Mach.buileHeld (descMem 4) (q 7) = false ∧ (q 7).keyRuns = true ∧ (q 0).key.fuseBad = false ∧ leAt (d 2) 1 1 = 63 ∧
    ((q 7).startSlot 63).map (·.usage) = some 128 ∧ bitOf 128 7 = true ∧ (q 7).admits loader.toNat ((q 7).keyOwner 63) = true ∧
    Mach.keyInput (descMem 2) (q 7) loader.toNat (d 2) = some [] ∧ (let n := at' ((run.wr Rg.KEY_STATUS 0x10000).modKey fun k => { k with cur := some (bSRAM, loader.toNat) });
      n.bit Rg.KEY_STATUS 16 = true ∧ n.keyRuns = true ∧ n.dmaRead (descMem 3) loader.toNat bSRAM 32 = some (d 3)) ∧
    leAt (d 2) 20 4 < (List.replicate 33 (0 : Byte)).length ∧
    (kget (keyM fun k => { k with sess := [(7, { keyRef := 0, rights := 0, sk := [] })] }).key.sess 7).isSome = true ∧
    kget (keyM id).key.sess 7 = none := by decide +kernel

theorem witness_KeyOperations_identity :
    let c := at' { run with rst := { run.rst with step := 7 } }
    let w := keyM fun k => { k with waits := [(none, [])] }
    c.keyRuns = true ∧ c.key.fuseBad = false ∧ c.rst.warmStart = false ∧ c.rst.step = 7 ∧ c.isStranded = false ∧ c.key.waits = [] ∧
    (keyM id).keyRuns = true ∧ (keyM id).key.fuseBad = false ∧ (keyM id).rst.step ≠ 7 ∧ (keyM id).key.waits = [] ∧
    w.keyRuns = true ∧ w.key.fuseBad = false ∧ w.rst.step ≠ 7 ∧ w.key.waits = [(none, [])] := by decide +kernel

/-- A frame of a session, with its tag under the key [1]. -/
def frameOf (typ seq : Nat) (body : List Byte) : List Byte :=
  let h := [BitVec.ofNat 8 typ, 7, 0, 0] ++ leBytes 4 seq ++ leBytes 4 body.length
  h ++ body ++ buileTag [1] h body 0

/-- That frame taken apart. -/
def partsOf (typ seq : Nat) (body : List Byte) : BFrame :=
  let h := [BitVec.ofNat 8 typ, 7, 0, 0] ++ leBytes 4 seq ++ leBytes 4 body.length
  ⟨typ, 7, seq, h, body, buileTag [1] h body 0⟩

/-- Session 7 with the given rights, after request 4. -/
def sess7 (r : Nat) : Sess := { keyRef := 0, rights := r, sk := [1], seq := 4 }

/-- A machine with session 7 open. -/
def sessM (r : Nat) : Mach := keyM fun k => { k with sess := [(7, sess7 r)] }

/-- Cells that hold the given bytes from an address on. -/
def cells (a : Nat) : List Byte → Mem
  | [] => []
  | b :: t => (a, b) :: cells (a + 1) t

/-- A cell below the bytes read. -/
theorem memRead_skip (b : Nat) (x : Byte) (t : Mem) (a n : Nat) (h : b < a) : memRead ((b, x) :: t) a n = memRead t a n := by
  induction n generalizing a with
  | zero => rfl
  | succ n ih => rw [memRead, memRead, ih (a + 1) (by omega), memGet, if_neg (by simp; omega)]

/-- Cells read back. -/
theorem memRead_cells (a : Nat) (l : List Byte) : memRead (cells a l) a l.length = l := by
  induction l generalizing a with
  | nil => rfl
  | cons b t ih => rw [cells, List.length_cons, memRead, memRead_skip _ _ _ _ _ (by omega), ih, memGet]; simp

/-- A signed attestation request of session 7 as the input of a descriptor, before the identity is ready. -/
theorem witness_KeyOperations_held :
    let fr := frameOf 17 5 []
    let mem : Mem := [(bSRAM, 4), (bSRAM + 1, 63), (bSRAM + 9, 1), (bSRAM + 11, 0x20), (bSRAM + 16, 44), (bSRAM + 20, 32)]
      ++ cells (bSRAM + 0x100) fr
    let m : Mach := (sessM 15).modKey fun k => { k with cur := some (bSRAM, loader.toNat) }
    m.keyRuns = true ∧ m.key.cur = some (bSRAM, loader.toNat) ∧ m.dmaRead mem loader.toNat bSRAM 32 = some (memRead mem bSRAM 32) ∧
    Mach.buileHeld mem m = true := by
  intro fr mem m
  have may (a n : Nat) (h : (m.memFits a n && m.accessAllowed loader.toNat a n .read && !m.poisoned a n) = true) :
      m.dmaRead mem loader.toNat a n = some (memRead mem a n) := by
    rw [Mach.dmaRead, if_pos h]
  have d : m.dmaRead mem loader.toNat bSRAM 32 = some (memRead mem bSRAM 32) := may _ _ (by decide +kernel)
  have i : memRead mem (bSRAM + 0x100) 44 = fr := by
    simp only [mem, List.cons_append, List.nil_append]
    iterate 6 rw [memRead_skip _ _ _ _ _ (by decide)]
    exact memRead_cells _ fr
  have e : m.dmaRead mem loader.toNat (bSRAM + 0x100) 44 = some fr := by rw [may _ _ (by decide +kernel), i]
  have p : buileParse fr = some (partsOf 17 5 []) := by rfl
  have t : (partsOf 17 5 []).tag = buileTag [1] (partsOf 17 5 []).hdr (partsOf 17 5 []).body 0 := by rfl
  have b : m.bit Rg.KEY_STATUS 16 = false := by decide +kernel
  have f : leAt (memRead mem bSRAM 32) 16 4 = 44 ∧ leAt (memRead mem bSRAM 32) 8 8 = bSRAM + 0x100 := by decide +kernel
  refine ⟨by decide +kernel, rfl, d, ?_⟩
  have w : m.idWaits fr = true := by
    simp only [Mach.idWaits, p, b, show kget m.key.sess (partsOf 17 5 []).ses = some (sess7 15) from rfl,
      show (sess7 15).sk = [1] from rfl, ← t]
    simp [partsOf, sess7]
  simp [Mach.buileHeld, show m.key.cur = some (bSRAM, loader.toNat) from rfl, d, Mach.keyInput, f, e, w]

theorem witness_BuileRequests :
    (sessM 15).rst.cReset = false ∧ (sessM 15).keyRuns = true ∧ (sessM 15).isStranded = false ∧ kget (sessM 15).key.sess 7 = some (sess7 15) ∧
    kget (sessM 0).key.sess 7 = some (sess7 0) ∧ kget (keyM id).key.sess 7 = none ∧
    (∀ r, r < 4 → bitOf (sess7 15).rights r = true ∧ bitOf (sess7 0).rights r = false) ∧ (5 : Nat) = (sess7 15).seq + 1 ∧
    (6 : Nat) ≠ (sess7 15).seq + 1 ∧ (5 : Nat) ≠ 0xFFFFFFFF ∧ (sessM 15).bit Rg.KEY_STATUS 16 = false ∧
    (let m := at' ((run.wr Rg.KEY_STATUS 0x10000).modKey fun k => { k with sess := [(7, sess7 15)] });
      m.bit Rg.KEY_STATUS 16 = true ∧ m.keyRuns = true ∧ m.isStranded = false ∧ kget m.key.sess 7 = some (sess7 15)) ∧
    (let b : List Byte := [2, 0, 0, 0, 0, 0, 0, 0, 0, 0, 0, 0];
      buileParse b = some ⟨2, 0, 0, b, [], []⟩ ∧ ([] : List Byte).length ≠ 100) := by decide +kernel

/-- Frames of every type that a session serves parse, and carry the tag of their session. -/
theorem witness_BuileRequests_frames :
    (∀ typ ∈ [3, 4, 16, 17, 18, 32, 34, 35, 53], buileParse (frameOf typ 5 []) = some (partsOf typ 5 []) ∧
      (partsOf typ 5 []).tag = buileTag (sess7 15).sk (partsOf typ 5 []).hdr (partsOf typ 5 []).body 0) ∧
    buileParse (frameOf 33 5 (4 :: 0xFF :: List.replicate 34 0)) = some (partsOf 33 5 (4 :: 0xFF :: List.replicate 34 0)) := by
  refine ⟨fun typ h => ?_, by rfl⟩
  simp only [List.mem_cons, List.not_mem_nil, or_false] at h
  rcases h with rfl | rfl | rfl | rfl | rfl | rfl | rfl | rfl | rfl <;> exact ⟨by rfl, by rfl⟩

/-- A PING frame of session 7 with any tag, taken apart. -/
def pingOf (tag : List Byte) : BFrame := ⟨4, 7, 5, [4, 7, 0, 0, 5, 0, 0, 0, 0, 0, 0, 0], [], tag⟩

theorem witness_BuileRequests_tag (good : List Byte) :
    (∃ b : Byte, buileParse ((pingOf []).hdr ++ List.replicate 32 b) = some (pingOf (List.replicate 32 b)) ∧ List.replicate 32 b ≠ good) ∧
    (pingOf []).typ = 4 ∧ (pingOf []).ses = 7 ∧ (pingOf []).seq = 5 := by
  refine ⟨?_, rfl, rfl, rfl⟩
  by_cases e : List.replicate 32 0 = good
  · exact ⟨1, by decide +kernel, by rw [← e]; decide⟩
  · exact ⟨0, by decide +kernel, e⟩

/-- The start of the body of an OPEN under key slot 63, with all rights, and nonces of zeros. -/
def openBody : List Byte := [63, 1, 15, 0] ++ List.replicate 64 0

/-- The session key of that OPEN. -/
def openSk : List Byte := Mach.kmac [1] "MZ4820-BUILE-KEY" (Mach.uidBytes ++ List.replicate 32 0 ++ List.replicate 32 0 ++ [15, 0] ++ [63, 1]) 32

/-- Its tag. -/
def openTag : List Byte := Mach.kmac openSk "MZ4820-BUILE-OPEN" openBody 32

/-- A machine that holds the nonce of zeros, whose key slot 63 opens sessions. -/
def openM : Mach :=
  at' (run.modKey fun k => { k with nonces := [List.replicate 32 0], slots := [(63, { alg := 1, usage := 0xF08, value := [1], counter := 5, lc := 0 })] })

/-- A field before a tag. -/
theorem slice_append (l t : List Byte) (o n : Nat) (h : o + n ≤ l.length) : sliceBytes (l ++ t) o n = sliceBytes l o n := by
  simp only [sliceBytes, List.drop_append, List.take_append, List.length_drop]
  rw [show n - (l.length - o) = 0 by omega]; simp

theorem witness_BuileRequests_open :
    let body := openBody ++ openTag
    let n := sliceBytes body 4 32
    let w := openM.modKey fun k => { k with nonces := k.nonces.erase n }
    buileParse ([2, 0, 0, 0, 0, 0, 0, 0, 100, 0, 0, 0] ++ body) = some ⟨2, 0, 0, [2, 0, 0, 0, 0, 0, 0, 0, 100, 0, 0, 0], body, []⟩ ∧
    body.length = 100 ∧ openM.key.nonces.contains n = true ∧
    w.openCheck body true = .ok (0, { keyRef := 0x13F, rights := 15, sk := openSk }) ∧
    (keyM id).key.nonces.contains n = false ∧ (∀ m : Mach, m.openCheck body false = .error 0x20) := by
  have d : openBody.length = 68 := rfl
  have s (o n : Nat) (t x : List Byte) (h : sliceBytes openBody o n = x) (l : o + n ≤ 68) : sliceBytes (openBody ++ t) o n = x := by
    rw [slice_append _ _ _ _ (by omega), h]
  have z (t : List Byte) : sliceBytes (openBody ++ t) 4 32 = List.replicate 32 0 := s 4 32 t _ (by rfl) (by decide)
  refine ⟨by rfl, by rfl, by rw [z]; decide +kernel, ?_, by rw [z]; decide +kernel, fun _ => rfl⟩
  have e : sliceBytes (openBody ++ openTag) 68 32 = openTag := by
    rw [sliceBytes, List.drop_left' d]; rfl
  have t : (openBody ++ openTag).take 68 = openBody := List.take_left' d
  have k (ns : List (List Byte)) : Mach.openKey { openM with key := { openM.key with nonces := ns } } 0x13F = .ok ([1], 15) := by rfl
  have f (ns : List (List Byte)) : Mach.freeSession { openM with key := { openM.key with nonces := ns } } = some 0 := by rfl
  simp only [Mach.openCheck, leAt, Mach.modKey, s 0 2 _ [63, 1] (by rfl) (by decide), z,
    s 2 2 _ [15, 0] (by rfl) (by decide), s 36 32 _ (List.replicate 32 0) (by rfl) (by decide), e, t]
  simp only [show leNat [63, 1] = 0x13F from rfl, show leNat [15, 0] = 15 from rfl, k, f]
  rw [show Mach.kmac [1] "MZ4820-BUILE-KEY" (Mach.uidBytes ++ List.replicate 32 0 ++ List.replicate 32 0 ++ [15, 0] ++ [63, 1]) 32 = openSk from by
    rw [openSk]]
  simp [openTag, show openM.key.lockout = false from rfl]

theorem witness_BuileRequests_lifecycle :
    let body : List Byte := 4 :: 0xFF :: List.replicate 34 0
    let w := (sessM 15).modKey fun k => { k with sess := kput k.sess 7 { sess7 15 with seq := 5, fails := 0 } }
    body.length = 36 ∧ leAt body 0 1 = 4 ∧ w.lcCode 4 ((sess7 15).keyRef / 256) = 0 ∧ w.lcSuccessor { sess7 15 with seq := 5 } body = some none := by
  decide +kernel

theorem witness_BuileRequests_segments :
    let m := at' ((run.setBit Rg.RSTC_MODE 7 true).setFld Rg.UPD_SVC_CFG 31 16 0x88B7)
    let fr (n : Byte) : List Byte := List.replicate 12 0 ++ [0x88, 0xB7, 0, 0, 0, n]
    m.rst.cReset = false ∧ m.keyRuns = true ∧ m.isStranded = true ∧ m.upd.rx = none ∧
    (let whole := ((fr 1).drop 18).take 1456; m.idWaits (whole.take (buileLen whole)) = false) ∧
    (∀ n ∈ [1, 2], beNat (sliceBytes (fr n) 12 2) = m.fld Rg.UPD_SVC_CFG 31 16 ∧ 18 ≤ (fr n).length ∧ beNat (sliceBytes (fr n) 14 2) = 0 ∧
      beNat (sliceBytes (fr n) 16 2) = n.toNat) := by decide +kernel

/-! ### Witnesses: key-update messages and field update -/

/-- The first part of a key-update message that deletes a slot, under the authority of key slot 63. -/
def kuHead (uid : List Byte) (slot cnt : Byte) : List Byte :=
  [0x44, 0x50, 0x55, 0x4B, 1, 0, 2, slot] ++ uid ++ [cnt, 0, 0, 0, 63, 1, 0, 0, 0, 0, 0, 0, 0, 0, 0, 0]

/-- The tag of that message. -/
def kuTag (slot cnt : Byte) : List Byte := Mach.kmac [1] "MZ4820-KEYUPD-MAC" (kuHead Mach.uidBytes slot cnt) 32

/-- A machine of lifecycle `lc` whose key slot 63 authorises key updates when `u` has bit 2, with counter 5. -/
def kuM (lc : Nat) (u : Nat) : Mach :=
  at' (run.modKey fun k => { k with lcN := lc, hdr := some (5, 0), slots := [(63, { alg := 1, usage := u, value := [1], counter := 5, lc := 0 })] })

/-- What the checks before the tag read of such a message. -/
theorem witness_KeyUpdateChecks_form :
    (∀ slot cnt : Byte, ∀ uid tag : List Byte, uid.length = 16 → tag.length = 32 →
      let b := kuHead uid slot cnt ++ tag
      leAt b 0 4 = 0x4B555044 ∧ leAt b 4 2 = 1 ∧ leAt b 34 2 = 0 ∧ leAt b 31 1 < 2 ∧ leAt b 6 1 = 2 ∧ leAt b 30 1 = 0 ∧ leAt b 36 4 = 0 ∧
      b.length = 72 + 8 * ((leAt b 36 4 + 7) / 8) ∧ sliceBytes b 8 16 = uid ∧ leAt b 28 2 = 0x13F ∧ leAt b 29 1 = 1 ∧ leAt b 32 2 = 0 ∧
      b.take (b.length - 32) = kuHead uid slot cnt ∧ b.drop (b.length - 32) = tag) := by
  intro slot cnt uid tag hu ht
  match uid, hu with
  | [a0, a1, a2, a3, a4, a5, a6, a7, a8, a9, aa, ab, ac, ad, ae, af], _ =>
    have hl : (kuHead [a0, a1, a2, a3, a4, a5, a6, a7, a8, a9, aa, ab, ac, ad, ae, af] slot cnt).length = 40 := rfl
    have s (o n : Nat) (h : o + n ≤ 40) := slice_append (kuHead [a0, a1, a2, a3, a4, a5, a6, a7, a8, a9, aa, ab, ac, ad, ae, af] slot cnt) tag o n h
    simp only [leAt, s 0 4 (by decide), s 4 2 (by decide), s 34 2 (by decide), s 31 1 (by decide), s 6 1 (by decide), s 30 1 (by decide),
      s 36 4 (by decide), s 8 16 (by decide), s 28 2 (by decide), s 29 1 (by decide), s 32 2 (by decide), List.length_append, hl, ht]
    rw [List.take_left' hl, List.drop_left' hl]
    simp [kuHead, sliceBytes, leNat]

theorem witness_KeyUpdateChecks :
    let b (cnt slot : Byte) := kuHead Mach.uidBytes slot cnt ++ kuTag slot cnt
    let d : Mach := at' ((kuM 1 4).modKey fun k => { k with lcD := true })
    (kuM 1 4).kuCode [] ≠ 0 ∧ leAt [] 0 4 ≠ 0x4B555044 ∧ leAt [0x44, 0x50, 0x55, 0x4B] 0 4 = 0x4B555044 ∧
    leAt [0x44, 0x50, 0x55, 0x4B] 4 2 ≠ 1 ∧ Mach.uidBytes.length = 16 ∧ (kuTag 63 6).length = 32 ∧
    (∃ x : Byte, List.replicate 16 x ≠ Mach.uidBytes) ∧ (∃ x : Byte, List.replicate 32 x ≠ kuTag 63 6) ∧ d.lifecycle = 4 ∧
    (kuM 1 4).lifecycle = 1 ∧ (kuM 0 4).lifecycle = 0 ∧ 0x13F / 256 = 1 ∧ 1 ∈ [1, 2, 3] ∧ 0 ∉ [1, 2, 3] ∧
    ((kuM 1 4).keySlot (0x13F % 256)).map (·.usage) = some 4 ∧ bitOf 4 2 = true ∧
    ((kuM 1 0).keySlot (0x13F % 256)).map (·.usage) = some 0 ∧ bitOf 0 2 = false ∧ (kuM 1 4).authKey 0x13F = some [1] ∧
    (kuM 1 4).keyCounter = 5 ∧ leAt (b 5 63) 24 4 = 5 ∧ leAt (b 6 63) 24 4 = 6 ∧ leAt (b 6 63) 7 1 = 63 ∧ leAt (b 6 64) 7 1 = 64 ∧
    (b 6 63).drop ((b 6 63).length - 32) = Mach.kmac [1] "MZ4820-KEYUPD-MAC" ((b 6 63).take ((b 6 63).length - 32)) 32 := by
  have one (n : Nat) (l : List Byte) (h : 0 < n) : ∃ x : Byte, List.replicate n x ≠ l := by
    by_cases e : List.replicate n 0 = l
    · refine ⟨1, ?_⟩
      rw [← e]; intro c
      have := congrArg List.head? c
      obtain ⟨k, rfl⟩ := Nat.exists_eq_succ_of_ne_zero (by omega : n ≠ 0)
      simp [List.replicate_succ] at this
    · exact ⟨0, e⟩
  have f := witness_KeyUpdateChecks_form 63 6 Mach.uidBytes (kuTag 63 6) rfl rfl
  have s (slot cnt : Byte) (o n : Nat) (h : o + n ≤ 40) :=
    slice_append (kuHead Mach.uidBytes slot cnt) (kuTag slot cnt) o n (Nat.le_trans h (Nat.le_of_eq rfl))
  refine ⟨by decide, by decide, by decide, by decide, rfl, rfl, one 16 _ (by decide), one 32 _ (by decide), rfl, rfl, rfl, rfl, by decide, by decide,
    rfl, rfl, rfl, rfl, rfl, rfl, ?_, ?_, ?_, ?_, ?_⟩
  · rw [leAt, s _ _ _ _ (by decide)]; rfl
  · rw [leAt, s _ _ _ _ (by decide)]; rfl
  · rw [leAt, s _ _ _ _ (by decide)]; rfl
  · rw [leAt, s _ _ _ _ (by decide)]; rfl
  · simp only [f.2.2.2.2.2.2.2.2.2.2.2.2.1, f.2.2.2.2.2.2.2.2.2.2.2.2.2]; rfl

/-- A machine whose field update stands at a state with a holder, the active bank being 0. -/
def updM (status : Nat) : Mach := { run with regs := [(Rg.TRUSS_STATUS, 0)] }.wr Rg.UPD_STATUS status

/-- A commit under way. -/
def commitOf (restart passed : Bool) (phase : Nat) : UpdCommit := { restart := restart, first := 0, e1 := 0, passed := passed, phase := phase, checked := some 0 }

theorem witness_UpdateCommands :
    let m (st : Nat) : Mach := at' (updM (0x400 + st))
    let w := at' (((updM 0x411).wr Rg.UPD_LEN 32).wr Rg.UPD_SRC_LO bSRAM)
    let far := at' (((updM 0x401).wr Rg.UPD_LEN 32).wr Rg.UPD_OFFSET 0xFFFFFFE8)
    let img : Image := { hdr := [], sects := [] }
    let c (b : Nat) : Mach := at' (((updM 0x403).wr Rg.BENT_STATUS (b * 17)).modUpd fun u => { u with stagedImage := some img })
    let h (b : Nat) : Mach := at' { c b with truss := { (c b).truss with image := some img } }
    (at' (updM 0)).rst.cReset = false ∧ (at' (updM 0)).updState = 0 ∧ (at' (updM 0)).updHolder = 0 ∧ (m 1).updHolder = 1 ∧
    (∀ st, st < 8 → (m st).updState = st) ∧
    (∀ op ∈ [1, 2, 3, 4, 5, 6], (at' (updM 0)).takes loader.toNat Rg.UPD_CMD (op * 2 ^ 28) .UPD_CMD [] = true ∧ bitsOf (op * 2 ^ 28) 31 28 = op) ∧
    w.updState = 1 ∧ w.updHolder = 1 ∧ inSpan (w.fld Rg.UPD_LEN 16 0) 32 65536 = true ∧ w.fld Rg.UPD_LEN 16 0 % 32 = 0 ∧
    w.rd Rg.UPD_OFFSET % 32 = 0 ∧ w.rd Rg.UPD_OFFSET + w.fld Rg.UPD_LEN 16 0 ≤ 0x1000000 ∧
    (w.dmaRead [] idLOADER (w.rd Rg.UPD_SRC_LO + 2 ^ 32 * w.fld Rg.UPD_SRC_HI 7 0) 32).isSome = true ∧
    0x1000000 < far.rd Rg.UPD_OFFSET + far.fld Rg.UPD_LEN 16 0 ∧ (c 0).upd.stagedImage = some img ∧ (c 0).updState = 3 ∧
    ((c 0).answer .done).mayHandOver img = false ∧ ((h 0).answer .done).mayHandOver img = true ∧ (h 0).bentState 0 ≠ 1 ∧
    ((h 1).answer .done).mayHandOver img = true ∧ (h 1).bentState 0 = 1 ∧ (h 1).bentState 1 = 1 ∧ (h 1).updState = 3 ∧ (h 1).updHolder = 1 ∧
    (m 3).upd.commit = none := by decide +kernel

theorem witness_UpdateCommits :
    let img : Image := { hdr := [], sects := [] }
    let m (c : UpdCommit) : Mach := at' { ((updM 0x405).wr Rg.TICK_COUNT_LO 7).modUpd fun u =>
        { u with commit := some c, stagedImage := some img, confirm := [(15, 7), (14, 8)] } with truss := { run.truss with image := some img } }
    let c (r p : Bool) (k : Nat) := commitOf r p k
    (∀ x, (m x).upd.commit = some x ∧ (m x).upd.stagedImage = some img ∧ (m x).truss.image = some img) ∧ (m (c true false 0)).rst.cReset = false ∧
    (m (c true false 0)).tickCount = 7 ∧ (m { c true false 0 with e1 := 8 }).isStranded = false ∧
    (let z := at' { m { c true false 0 with e1 := 8 } with regs := kput (m { c true false 0 with e1 := 8 }).regs Rg.RSTC_MODE 0x80 };
      z.isStranded = true ∧ z.tick.started = false ∧ z.upd.commit = some { c true false 0 with e1 := 8 } ∧ z.upd.stagedImage = some img) ∧ (c true false 0).passed = false ∧ (c true false 0).e1 ≤ 7 ∧ 7 < { c true false 0 with e1 := 8 }.e1 ∧
    (c true false 0).restart = true ∧ (c false false 0).restart = false ∧ (c false false 0).checked = some 0 ∧ (c false true 1).passed = true ∧
    (c false true 1).phase = 1 ∧ (c false true 1).e2 ≤ 7 ∧ 7 < { c false true 1 with e2 := 8 }.e2 ∧ (c false true 2).phase = 2 ∧
    (c false true 2).e3 ≤ 7 ∧ { c false true 2 with checked := none }.checked ≠ some 0 ∧
    (m (c true false 0)).takes loader.toNat (Rg.UPD_CONFIRM 15) 1 .UPD_CONFIRM [15] = true ∧ bitOf 1 0 = true ∧
    kget (m (c true false 0)).upd.confirm 15 = some 7 ∧ kget (m (c true false 0)).upd.confirm 14 = some 8 := by
  refine ⟨fun _ => ⟨rfl, rfl, rfl⟩, ?_⟩
  decide +kernel

/-! ### Witnesses: the whole machine -/

theorem witness_StepRunsFront :
    let s : State := { State.reset with pending := [.segmentTimeout, .nonceExpiry] }
    s.pending = .segmentTimeout :: [.nonceExpiry] ∧ State.reset.pending = [] := by decide +kernel

theorem witness_CommandsComplete : 40000 < 40001 := by decide

theorem witness_QuietEnd : Quiet State.reset.mach State.reset.mach :=
  ⟨rfl, rfl, rfl, rfl, rfl, rfl, by decide +kernel⟩

theorem witness_MemoryStaysCanonical : State.reset.Settled ∧ step State.reset = .next State.reset := ⟨⟨rfl, rfl, rfl⟩, rfl⟩

/-! ### Ill-formed commands are refused -/

theorem test_wf_access_width : (Instr.registerWrite 0x33 Rg.TICK_PERIOD 3 0).wf = false := by decide +kernel
theorem test_wf_access_value : (Instr.registerWrite 0x33 Rg.TICK_PERIOD 1 0x100).wf = false := by decide +kernel
theorem test_wf_access_address : (Instr.rcRead 0x33 (2 ^ 40) 4).wf = false := by decide +kernel
theorem test_wf_kerf_plumbs : (Instr.kerfStart [(5, 0), (5, 1)]).wf = false := by decide +kernel
theorem test_wf_timer_plumbs : (Instr.plumbTimer [(0, 0), (0, 1)]).wf = false := by decide +kernel
theorem test_wf_bist_reason : (Instr.bistConditionFail 0 0 0 0).wf = false := by decide +kernel
theorem test_wf_sense_samples : (Instr.senseSample []).wf = false := by decide +kernel
theorem test_wf_temperatures : (Instr.budgetEvaluation []).wf = false := by decide +kernel
theorem test_wf_adc_samples : (Instr.adcSamplesHeld ⟨[], 0⟩).wf = false := by decide +kernel
theorem test_wf_frame_short : (Instr.frameIngress 0 (List.replicate 11 0) 0).wf = false := by decide +kernel
theorem test_wf_can_identifier : (Instr.canFrameReceived 0 { frame1 with id := 2 ^ 11, ide := false, data := [], dlc := 0 } false 0 0).wf = false := by
  decide +kernel
theorem test_wf_can_time : (Instr.canFrameReceived 0 { frame1 with id := 0, ide := false, data := [], dlc := 0 } false 1 0).wf = false := by decide +kernel
theorem test_wf_can_wake : (Instr.canSelectiveWake 0 (some { frame1 with dlc := 16 })).wf = false := by decide +kernel
theorem test_wf_lin_data : (Instr.linFrameComplete 0 0 ⟨List.replicate 9 0, 0⟩).wf = false := by decide +kernel
theorem test_wf_lin_error : (Instr.linFrameComplete 0 1 ⟨[], 0⟩).wf = false := by decide +kernel
theorem test_wf_sent_nibbles : (Instr.sentMessage 0 3000 [0, 0] false).wf = false := by decide +kernel
theorem test_wf_lanes : (Instr.gatewayLanesDone 0 [1, 2, 3]).wf = false := by decide +kernel
theorem test_wf_far_read : (Instr.farRead 0x33 Rg.TICK_PERIOD 4).wf = false := by decide +kernel
theorem test_wf_far_write : (Instr.farWrite 0x33 0x43000000 2 0).wf = false := by decide +kernel
theorem test_wf_burst_empty : (Instr.farBurst 0x33 0x42000000 false []).wf = false := by decide +kernel
theorem test_wf_far_initiated : (Instr.farInitiatedRequest 0 0 4 true 0).wf = true ∧ (Instr.farInitiatedRequest 0 0 5 true 0).wf = false := by
  decide +kernel
theorem test_wf_locked : (Instr.lockedSequence 0x33 0 0 true).wf = false := by decide +kernel
theorem test_wf_fabric_data : (Instr.fabricRequest 0x33 0x20000000 4 1 []).wf = false := by decide +kernel
theorem test_wf_mram_empty : (Instr.mramWrite 0x33 0 []).wf = false := by decide +kernel
theorem test_wf_segment_short : (Instr.servicePortSegment (List.replicate 13 0)).wf = false := by decide +kernel

/-! ### Values from the manual's tables and worked examples -/

/-- 13_message_bus.md, worked example after R256: 500,000 b/s at sample point 800 gives brp 1 and N = 160. -/
theorem test_nominal_timing : bitTiming 1 160 800 = 0x017F2020 := by decide +kernel

/-- The same example: 2,000,000 b/s gives brp 1 and N = 40. -/
theorem test_data_timing : bitTiming 1 40 800 = 0x011F0808 := by decide +kernel

/-- 12_network_time.md, example at R244: a residence of 3,217 ns. -/
theorem test_residence : Mach.residence 3217 4398047 5472256 = 0x0CE4834B := by decide +kernel

/-- 09_measurement.md, worked example: raw code 2,732 of AIN5 with offset 3 and gain 16,400 is 2,001 mV. -/
theorem test_measured_voltage : convert 53 2732 3 16400 = 2001 := by decide +kernel

/-- 08_load_protection.md, example at R167: a class L lamp drawing 2 A gives code 0x190. -/
theorem test_sense_code : (chan fun c => { c with ps := .on }).senseCode 47 2000 = 0x190 := by decide +kernel

/-- The same example: SENSE_OUT reads 0.2605 V. -/
theorem test_sense_out : ((chan fun c => { c with code := 0x190 }).wr Rg.LOAD_SENSE_SEL 0xAF).senseLevel = some 2605 := by decide +kernel

/-- The same example: a latch of OVERTEMP, cause 0x04, gives code 0xF04. -/
theorem test_sense_latched : (chan fun c => { c with ps := .latched, cause := 4 }).senseCode 47 2000 = 0xF04 := by decide +kernel

/-- KL30 above 40 V lies outside the ratings of R483. -/
theorem test_kl30_outside : step { State.reset with pending := [.kl30LevelChange 40001] } = .fault .outsideRatings := rfl

/-- A write of a register that the loader may write reads back (R2, R5). -/
theorem test_write_reads_back :
    (match exec (.registerWrite 0x33 Rg.RSTC_IRQ_EN 4 0x1) (st run) with | .next t => t.mach.rd Rg.RSTC_IRQ_EN | _ => 0) = 1 := by decide +kernel

/-- No word spells a command: the table gives its rows no bits. -/
theorem test_no_words : decodeTableWord 32 0 = none := by decide +kernel

end Sys2Proof.Tests
end

section
/-! SUPPORT. Accesses that address no register (R3, R16): which addresses and widths `resolve` turns away, and that the
near side answers such an access with a bus error and does nothing else. -/

namespace Sys2Proof.Machine

/-! ### Where a register is found -/

/-- A register found in a list is one of the list's blocks, at an offset that spells its indices. -/
theorem findIn_eq_some {ds : List RegDesc} {a : Nat} {h : Hit} (hf : findIn ds a = some h) :
    h.d ∈ ds ∧ h.d.base ≤ a ∧ idxOf h.d.dims (a - h.d.base) = some h.idx := by
  induction ds with
  | nil => cases hf
  | cons d t ih =>
    have rest (ht : findIn t a = some h) : h.d ∈ d :: t ∧ h.d.base ≤ a ∧ idxOf h.d.dims (a - h.d.base) = some h.idx :=
      (ih ht).imp_left (List.mem_cons_of_mem d)
    unfold findIn at hf
    split at hf
    case isTrue hb =>
      split at hf
      case h_1 idx hi =>
        cases hf
        exact ⟨List.mem_cons_self, hb, hi⟩
      case h_2 => exact rest hf
    case isFalse => exact rest hf

/-- An offset that spells indices is a multiple of what divides every stride. -/
theorem dvd_of_idxOf {k : Nat} {dims : List (Nat × Nat)} {off : Nat} {idx : List Nat} (hd : ∀ x ∈ dims, k ∣ x.1)
    (hi : idxOf dims off = some idx) : k ∣ off := by
  fun_induction idxOf dims off generalizing idx with
  | case1 off h0 => rw [eq_of_beq h0]; exact Nat.dvd_zero k
  | case3 s c off hs =>
    have hmod : off % s = 0 := eq_of_beq (Bool.and_eq_true_iff.mp hs).1
    exact Nat.dvd_trans (hd _ List.mem_cons_self) (Nat.dvd_of_mod_eq_zero hmod)
  | case5 s c t off _ _ ih =>
    obtain ⟨hs, ht⟩ := List.forall_mem_cons.mp hd
    obtain ⟨rest, hr, -⟩ := Option.map_eq_some_iff.mp hi
    exact (Nat.dvd_mod_iff hs).mp (ih ht hr)
  | case2 | case4 | case6 => cases hi

/-- A search of the unit table passes over the windows that end at or below an address. -/
theorem unitAt_go_append {a n : Nat} {l t : List (Nat × Nat × List RegDesc)} (hl : ∀ e ∈ l, e.1 + e.2.1 ≤ a) :
    unitAt.go a n (l ++ t) = unitAt.go a (n + l.length) t := by
  induction l generalizing n with
  | nil => rfl
  | cons e l ih =>
    obtain ⟨he, hl⟩ := List.forall_mem_cons.mp hl
    have out : (decide (e.1 ≤ a) && decide (a < e.1 + e.2.1)) = false := by simpa using fun _ => he
    rw [List.cons_append, unitAt.go, out, if_neg Bool.false_ne_true, ih hl, List.length_cons, Nat.add_assoc, Nat.add_comm 1]

/-- An address of the LOAD window lies in unit LOAD (table R17). -/
theorem unitAt_load {a : Nat} (h1 : 0x42000000 ≤ a) (h2 : a < 0x42010000) :
    unitAt a = some (uLOAD, 0x42000000, 0x10000, regsLoad) := by
  have below : ∀ e ∈ unitTable.take uLOAD, e.1 + e.2.1 ≤ 0x42000000 := by decide
  have split : unitTable = unitTable.take uLOAD ++ [(0x42000000, 0x10000, regsLoad)] := rfl
  rw [unitAt, split, unitAt_go_append fun e he => Nat.le_trans (below e he) h1]
  simp [unitAt.go, h1, h2, unitTable, uLOAD]

/-- Every register of unit LOAD is 16 bits wide, and its base and strides are even (R2). -/
theorem regsLoad_halfwords : ∀ d ∈ regsLoad, d.width = 2 ∧ 2 ∣ d.base ∧ ∀ x ∈ d.dims, 2 ∣ x.1 := by
  decide

/-- A register found in the LOAD window is 16 bits wide, at an even address (R3). -/
theorem findReg_load {a : Nat} {h : Hit} (h1 : 0x42000000 ≤ a) (h2 : a < 0x42010000) (hf : findReg a = some h) :
    h.d.width = 2 ∧ a % 2 = 0 := by
  rw [findReg, unitAt_load h1 h2] at hf
  obtain ⟨hd, hb, hi⟩ := findIn_eq_some hf
  obtain ⟨hw, hbase, hdims⟩ := regsLoad_halfwords h.d hd
  have hoff : 2 ∣ a - h.d.base := dvd_of_idxOf hdims hi
  exact ⟨hw, by omega⟩

/-! ### Accesses that address no register -/

/-- Outside the windows of the load channels, an access addresses nothing unless a register of its width starts there. -/
theorem resolve_eq_none_of_width_ne {a w : Nat} (ha : a < 0x42000000 ∨ Mach.loadWindow a = none)
    (hw : ∀ h, findReg a = some h → w ≠ h.d.width) : resolve a w = none := by
  have outside : (if 0x42000000 ≤ a then Mach.loadWindow a else none) = none := by
    split
    · exact ha.resolve_left (by omega)
    · rfl
  rw [resolve, outside]
  cases hf : findReg a with
  | none => rfl
  | some h => simp [Ne.symm (hw h hf)]

/-- In the LOAD window, an access that is not 16 bits wide at an even address addresses nothing. -/
theorem resolve_load_eq_none {a w : Nat} (h1 : 0x42000000 ≤ a) (h2 : a < 0x42010000) (hw : w ≠ 2 ∨ a % 2 ≠ 0) :
    resolve a w = none := by
  cases hl : Mach.loadWindow a with
  | some x =>
    have odd : (w != 2 || a % 2 != 0) = true := by simpa using hw
    rw [resolve, if_pos h1, hl]
    exact if_pos odd
  | none =>
    refine resolve_eq_none_of_width_ne (.inr hl) fun h hf => ?_
    obtain ⟨hwidth, heven⟩ := findReg_load h1 h2 hf
    rw [hwidth]
    exact hw.resolve_right fun hodd => hodd heven

/-- The near side answers a write that addresses nothing with a bus error, and nothing is left to perform. -/
theorem Mach.nearWrite_unresolved {m : Mach} {a w : Nat} (hc : m.rst.cReset = false) (hr : resolve a w = none)
    (init v : Nat) : m.nearWrite init a w v = (m.answer .busError, none) := by
  simp [Mach.nearWrite, hc, hr]

/-- The near side answers a read that addresses nothing with a bus error. -/
theorem Mach.nearRead_unresolved {m : Mach} {a w : Nat} (hc : m.rst.cReset = false) (hr : resolve a w = none)
    (init : Nat) : m.nearRead init a w = (m.answer .busError, none) := by
  simp [Mach.nearRead, hc, hr]

/-- REGISTER_WRITE means the write of a register. -/
theorem exec_registerWrite (init : InitId) (a w : Nat) (v : Word) (s : State) :
    exec (.registerWrite init a w v) s = execRegisterWrite init a w v s := by
  rfl

/-- RC_READ means the read of a register. -/
theorem exec_rcRead (init : InitId) (a w : Nat) (s : State) : exec (.rcRead init a w) s = execRcRead init a w s := by
  rfl

/-- A write that addresses nothing completes with a bus error and has no other effect (R3, R16). -/
theorem registerWrite_unresolved {s : State} {a w : Nat} (hc : s.now.rst.cReset = false) (hr : resolve a w = none)
    (init : InitId) (v : Word) : Makes (.registerWrite init a w v) s s.mem (s.now.answer .busError) := by
  rw [Makes, exec_registerWrite]
  exact runMem_after (by simp [Mach.writeReg, Mach.writeWith, Mach.nearWrite_unresolved hc hr])

/-- A read that addresses nothing completes with a bus error and has no other effect (R3, R16). -/
theorem rcRead_unresolved {s : State} {a w : Nat} (hc : s.now.rst.cReset = false) (hr : resolve a w = none)
    (init : InitId) : Makes (.rcRead init a w) s s.mem (s.now.answer .busError) := by
  rw [Makes, exec_rcRead]
  exact run_after (by simp [Mach.readNow, Mach.nearRead_unresolved hc hr])

/-- Settles O25: each of the three kinds of access addresses nothing, and such an access fails. -/
theorem accessWidths : Obligations.AccessWidths := by
  unfold Obligations.AccessWidths
  intro s init a w v hc
  have fails (hr : resolve a w = none) := And.intro (registerWrite_unresolved hc hr init v) (rcRead_unresolved hc hr init)
  refine ⟨fun h ha hf hw => fails ?_, fun ha hf => fails ?_, fun h1 h2 hw => fails (resolve_load_eq_none h1 h2 hw)⟩
  · exact resolve_eq_none_of_width_ne (.inl ha) fun h' hf' => by rwa [Option.some.inj (hf'.symm.trans hf)]
  · exact resolve_eq_none_of_width_ne (.inl ha) (by simp [hf])

end Sys2Proof.Machine
end

section
/-! SUPPORT. The sill domain and the reset engine under operations of the other units: none of them changes either. Each
lemma follows from those of the operations that its operation is made of. -/

namespace Sys2Proof.Machine

/-- What every step of a loop keeps, the loop keeps. -/
theorem Mach.forAll_keeps {α β : Type} (g : Mach → β) {f : Mach → α → Mach} (h : ∀ m x, g (f m x) = g m) (m : Mach)
    (l : List α) : g (m.forAll l f) = g m := by
  induction l generalizing m with
  | nil => rfl
  | cons x l ih => exact (ih (f m x)).trans (h m x)

@[simp] theorem Mach.forAll_sill {α : Type} {f : Mach → α → Mach} (h : ∀ m x, (f m x).sill = m.sill) (m : Mach)
    (l : List α) : (m.forAll l f).sill = m.sill := Mach.forAll_keeps Mach.sill h m l

@[simp] theorem Mach.forAll_rst {α : Type} {f : Mach → α → Mach} (h : ∀ m x, (f m x).rst = m.rst) (m : Mach)
    (l : List α) : (m.forAll l f).rst = m.rst := Mach.forAll_keeps Mach.rst h m l

@[simp] theorem Mach.ite_sill (c : Prop) [Decidable c] (m n : Mach) :
    (if c then m else n).sill = if c then m.sill else n.sill := apply_ite Mach.sill c m n

@[simp] theorem Mach.ite_rst (c : Prop) [Decidable c] (m n : Mach) :
    (if c then m else n).rst = if c then m.rst else n.rst := apply_ite Mach.rst c m n

variable (m : Mach)

/-! ### Units and dropped requests -/

@[simp] theorem Mach.coldRange_sill_rst (b n : Nat) : (m.coldRange b n).sill = m.sill ∧ (m.coldRange b n).rst = m.rst :=
  ⟨rfl, rfl⟩

@[simp] theorem Mach.coldUnit_sill_rst (u : Nat) : (m.coldUnit u).sill = m.sill ∧ (m.coldUnit u).rst = m.rst := by
  unfold Mach.coldUnit
  split <;> simp

@[simp] theorem Mach.goneDrop_sill_rst (n : Nat) : (m.goneDrop n).sill = m.sill ∧ (m.goneDrop n).rst = m.rst := by
  simp [Mach.goneDrop]

/-! ### Cores -/

@[simp] theorem Mach.showLath_sill_rst : m.showLath.sill = m.sill ∧ m.showLath.rst = m.rst := by
  simp [Mach.showLath]

@[simp] theorem Mach.dropReads_sill_rst (ids : List Nat) : (m.dropReads ids).sill = m.sill ∧ (m.dropReads ids).rst = m.rst := by
  simp [Mach.dropReads]

@[simp] theorem Mach.dropIssued_sill_rst (id : Nat) : (m.dropIssued id).sill = m.sill ∧ (m.dropIssued id).rst = m.rst := by
  simp [Mach.dropIssued]

@[simp] theorem Mach.stopCore_sill_rst (id : Nat) : (m.stopCore id).sill = m.sill ∧ (m.stopCore id).rst = m.rst := by
  unfold Mach.stopCore
  cases safeOf id <;> simp

@[simp] theorem Mach.honourHalt_sill_rst (id : Nat) : (m.honourHalt id).sill = m.sill ∧ (m.honourHalt id).rst = m.rst := by
  unfold Mach.honourHalt
  cases m.core id with
  | none => simp
  | some c => cases safeOf id <;> simp

@[simp] theorem Mach.startVisit_sill_rst (id : Nat) (v : Visit) :
    (m.startVisit id v).sill = m.sill ∧ (m.startVisit id v).rst = m.rst := by
  simp [Mach.startVisit]

@[simp] theorem Mach.startCore_sill_rst (id : Nat) : (m.startCore id).sill = m.sill ∧ (m.startCore id).rst = m.rst := by
  unfold Mach.startCore
  cases m.core id <;> simp

@[simp] theorem Mach.showChk_sill_rst : m.showChk.sill = m.sill ∧ m.showChk.rst = m.rst := by
  simp [Mach.showChk]

@[simp] theorem Mach.setPartState_sill_rst (p st : Nat) :
    (m.setPartState p st).sill = m.sill ∧ (m.setPartState p st).rst = m.rst := by
  simp [Mach.setPartState]

@[simp] theorem Mach.dropStaged_sill_rst (p : Nat) : (m.dropStaged p).sill = m.sill ∧ (m.dropStaged p).rst = m.rst :=
  ⟨rfl, rfl⟩

@[simp] theorem Mach.holdParts_sill_rst : m.holdParts.sill = m.sill ∧ m.holdParts.rst = m.rst := by
  simp [Mach.holdParts]

/-! ### CAN and LIN channels -/

@[simp] theorem Mach.stopCan_sill_rst : m.stopCan.sill = m.sill ∧ m.stopCan.rst = m.rst :=
  ⟨Mach.forAll_sill (fun m c => m.modMch_sill c _) .., Mach.forAll_rst (fun m c => m.modMch_rst c _) ..⟩

@[simp] theorem Mach.setLin_sill_rst (c st : Nat) : (m.setLin c st).sill = m.sill ∧ (m.setLin c st).rst = m.rst := by
  simp [Mach.setLin]

@[simp] theorem Mach.showPend_sill_rst (c : Nat) : (m.showPend c).sill = m.sill ∧ (m.showPend c).rst = m.rst := by
  simp [Mach.showPend]

@[simp] theorem Mach.linRefresh_sill_rst (c : Nat) : (m.linRefresh c).sill = m.sill ∧ (m.linRefresh c).rst = m.rst := by
  unfold Mach.linRefresh
  split <;> simp

@[simp] theorem Mach.linCommit_sill_rst (old : Mach) (wrote : List Nat) :
    (m.linCommit old wrote).sill = m.sill ∧ (m.linCommit old wrote).rst = m.rst := by
  simp [Mach.linCommit]

/-! ### Switch and Ethernet ports -/

@[simp] theorem Mach.showTxq_sill_rst (q : Nat) : (m.showTxq q).sill = m.sill ∧ (m.showTxq q).rst = m.rst := by
  unfold Mach.showTxq
  cases m.clk.txq.getD q [] <;> simp

@[simp] theorem Mach.stampEntry_sill_rst (inp i p : Nat) (ts : Int) (d : Bool) :
    (m.stampEntry inp i p ts d).sill = m.sill ∧ (m.stampEntry inp i p ts d).rst = m.rst := by
  simp [Mach.stampEntry]

@[simp] theorem Mach.stampDropped_sill_rst (f : Frame) (p : Nat) :
    (m.stampDropped f p).sill = m.sill ∧ (m.stampDropped f p).rst = m.rst := by
  unfold Mach.stampDropped
  split <;> simp

@[simp] theorem Mach.release_sill_rst (i p : Nat) : (m.release i p).sill = m.sill ∧ (m.release i p).rst = m.rst := ⟨rfl, rfl⟩

@[simp] theorem Mach.discardCopy_sill_rst (f : Frame) (p : Nat) :
    (m.discardCopy f p).sill = m.sill ∧ (m.discardCopy f p).rst = m.rst := by
  simp [Mach.discardCopy]

@[simp] theorem Mach.dropUnsent_sill_rst (sel : Frame → Bool) :
    (m.dropUnsent sel).sill = m.sill ∧ (m.dropUnsent sel).rst = m.rst := by
  simp [Mach.dropUnsent]

@[simp] theorem Mach.dropTx_sill_rst (p : Nat) : (m.dropTx p).sill = m.sill ∧ (m.dropTx p).rst = m.rst := ⟨rfl, rfl⟩

@[simp] theorem Mach.count_sill_rst (p k n : Nat) : (m.count p k n).sill = m.sill ∧ (m.count p k n).rst = m.rst := by
  simp [Mach.count]

@[simp] theorem Mach.showBuffer_sill_rst : m.showBuffer.sill = m.sill ∧ m.showBuffer.rst = m.rst := by
  simp [Mach.showBuffer]

@[simp] theorem Mach.requestLearn_sill_rst (mac vid p : Nat) :
    (m.requestLearn mac vid p).sill = m.sill ∧ (m.requestLearn mac vid p).rst = m.rst := by
  simp [Mach.requestLearn, Mach.learnDrop]

@[simp] theorem Mach.receiveEnd_sill_rst (p : Nat) (how : RxEnd) :
    (m.receiveEnd p how).sill = m.sill ∧ (m.receiveEnd p how).rst = m.rst := by
  unfold Mach.receiveEnd
  cases m.swc.rx.find? (·.port == p) with
  | none => simp
  | some r =>
    dsimp only
    split
    · split <;> simp
    · simp

@[simp] theorem Mach.goDown_sill_rst (p : Nat) : (m.goDown p).sill = m.sill ∧ (m.goDown p).rst = m.rst := by
  unfold Mach.goDown
  dsimp only
  split <;> simp

@[simp] theorem Mach.linkReport_sill_rst (p : Nat) (up : Bool) :
    (m.linkReport p up).sill = m.sill ∧ (m.linkReport p up).rst = m.rst := by
  simp [Mach.linkReport]

@[simp] theorem Mach.showPort_sill_rst (p : Nat) : (m.showPort p).sill = m.sill ∧ (m.showPort p).rst = m.rst := by
  simp [Mach.showPort]

@[simp] theorem Mach.enterPort_sill_rst (p st : Nat) :
    (m.enterPort p st).sill = m.sill ∧ (m.enterPort p st).rst = m.rst := by
  simp [Mach.enterPort]

@[simp] theorem Mach.toTraining_sill_rst (p : Nat) : (m.toTraining p).sill = m.sill ∧ (m.toTraining p).rst = m.rst := by
  simp [Mach.toTraining]

@[simp] theorem Mach.abortDiag_sill_rst (p : Nat) : (m.abortDiag p).sill = m.sill ∧ (m.abortDiag p).rst = m.rst := by
  simp [Mach.abortDiag]

@[simp] theorem Mach.enableCommit_sill_rst (old : Mach) :
    (m.enableCommit old).sill = m.sill ∧ (m.enableCommit old).rst = m.rst := by
  simp [Mach.enableCommit]

@[simp] theorem Mach.quietNetworks_sill_rst : m.quietNetworks.sill = m.sill ∧ m.quietNetworks.rst = m.rst := by
  simp [Mach.quietNetworks]

/-! ### Load channels -/

/-- A change of every load channel of a list. -/
@[simp] theorem Mach.forAll_modCh_sill_rst (l : List Nat) (g : Nat → Chan → Chan) :
    (m.forAll l fun m n => m.modCh n (g n)).sill = m.sill ∧ (m.forAll l fun m n => m.modCh n (g n)).rst = m.rst :=
  ⟨Mach.forAll_sill (fun m n => m.modCh_sill n _) .., Mach.forAll_rst (fun m n => m.modCh_rst n _) ..⟩

@[simp] theorem Mach.takeOut_sill_rst (n : Nat) (o : Out) : (m.takeOut n o).sill = m.sill ∧ (m.takeOut n o).rst = m.rst :=
  ⟨rfl, rfl⟩

@[simp] theorem Mach.loadIrq_sill_rst (n i : Nat) : (m.loadIrq n i).sill = m.sill ∧ (m.loadIrq n i).rst = m.rst := by
  simp [Mach.loadIrq]

@[simp] theorem Mach.refresh_sill_rst (n : Nat) : (m.refresh n).sill = m.sill ∧ (m.refresh n).rst = m.rst := by
  simp [Mach.refresh]

@[simp] theorem Mach.refreshAll_sill_rst : m.refreshAll.sill = m.sill ∧ m.refreshAll.rst = m.rst := by
  simp [Mach.refreshAll]

@[simp] theorem Mach.turnOff_sill_rst (n : Nat) (dest : Prot) (cause : Nat) :
    (m.turnOff n dest cause).sill = m.sill ∧ (m.turnOff n dest cause).rst = m.rst := by
  simp [Mach.turnOff, Mach.enter]

@[simp] theorem Mach.switchOn_sill_rst (n : Nat) : (m.switchOn n).sill = m.sill ∧ (m.switchOn n).rst = m.rst := ⟨rfl, rfl⟩

@[simp] theorem Mach.supplyOff_sill_rst (n : Nat) : (m.supplyOff n).sill = m.sill ∧ (m.supplyOff n).rst = m.rst := by
  simp [Mach.supplyOff]

@[simp] theorem Mach.follow_sill_rst (n : Nat) : (m.follow n).sill = m.sill ∧ (m.follow n).rst = m.rst := by
  unfold Mach.follow
  dsimp only
  split
  · simp
  · split <;> simp

@[simp] theorem Mach.restAll_sill_rst : m.restAll.sill = m.sill ∧ m.restAll.rst = m.rst := by
  simp [Mach.restAll]

@[simp] theorem Mach.enterDisp_sill_rst (n : Nat) : (m.enterDisp n).sill = m.sill ∧ (m.enterDisp n).rst = m.rst := by
  simp [Mach.enterDisp]

@[simp] theorem Mach.showLatch_sill_rst : m.showLatch.sill = m.sill ∧ m.showLatch.rst = m.rst := by
  simp [Mach.showLatch]

@[simp] theorem Mach.coldLoad_sill_rst : m.coldLoad.sill = m.sill ∧ m.coldLoad.rst = m.rst := by
  simp [Mach.coldLoad]

@[simp] theorem Mach.loadModuleReset_sill_rst : m.loadModuleReset.sill = m.sill ∧ m.loadModuleReset.rst = m.rst := by
  simp [Mach.loadModuleReset, Mach.showSense]

/-! ### Security engine and field update -/

@[simp] theorem Mach.showSessions_sill_rst : m.showSessions.sill = m.sill ∧ m.showSessions.rst = m.rst := by
  simp [Mach.showSessions, Mach.showKeyStatus]

@[simp] theorem Mach.showKeys_sill_rst : m.showKeys.sill = m.sill ∧ m.showKeys.rst = m.rst := by
  simp [Mach.showKeys]

@[simp] theorem Mach.resetKeyModule_sill_rst : m.resetKeyModule.sill = m.sill ∧ m.resetKeyModule.rst = m.rst := by
  simp [Mach.resetKeyModule, Mach.resetKey]

@[simp] theorem Mach.updReset_sill_rst : m.updReset.sill = m.sill ∧ m.updReset.rst = m.rst := by
  simp [Mach.updReset]

/-! ### Stranded -/

@[simp] theorem Mach.setUpd_sill_rst (st : Nat) : (m.setUpd st).sill = m.sill ∧ (m.setUpd st).rst = m.rst := by
  simp [Mach.setUpd]

@[simp] theorem Mach.strand_sill_rst (why : Nat) : (m.strand why).sill = m.sill ∧ (m.strand why).rst = m.rst := by
  simp [Mach.strand]

@[simp] theorem Mach.strandStart_sill_rst (why stage : Nat) :
    (m.strandStart why stage).sill = m.sill ∧ (m.strandStart why stage).rst = m.rst := by
  simp [Mach.strandStart]

/-! ### Release of partitions, supplies shown -/

@[simp] theorem Mach.releaseSap_sill_rst (safe : Bool) :
    (m.releaseSap safe).sill = m.sill ∧ (m.releaseSap safe).rst = m.rst := by
  unfold Mach.releaseSap
  constructor
  · refine (Mach.forAll_sill (fun m e => ?_) _ _).trans (by simp)
    cases e.2.sap <;> simp
  · refine (Mach.forAll_rst (fun m e => ?_) _ _).trans (by simp)
    cases e.2.sap <;> simp

@[simp] theorem Mach.showSupply_sill_rst : m.showSupply.sill = m.sill ∧ m.showSupply.rst = m.rst := by
  simp [Mach.showSupply]

@[simp] theorem Mach.drive_sill (d : Driver) (cause : Nat) : (m.drive d cause).sill = m.sill := by
  simp [Mach.drive]

@[simp] theorem Mach.railsWatched_sill : m.railsWatched.sill = m.sill := by
  simp [Mach.railsWatched]

@[simp] theorem Mach.releaseApps_sill : m.releaseApps.sill = m.sill := by
  simp [Mach.releaseApps, Mach.strandStep13, Mach.showWarm, Mach.showStage]

end Sys2Proof.Machine
end

section
/-! SUPPORT. The monitors of supplies, reference clock and die temperature (R82 to R87). -/

namespace Sys2Proof.Machine

/-! ### From a command's meaning to what it does -/

/-- A command on the machine alone makes what its effect gives. -/
theorem makes_run {c : Instr} {s : State} {f : Mach → Mach} {m : Mach} (hc : exec c s = run s f) (h : f s.now = m) :
    Makes c s s.mem m := by
  rw [Makes, hc]
  exact run_after h

/-- A command on memory and machine does what its effect has. -/
theorem does_runMem {c : Instr} {s : State} {f : Mem → Mach → Mem × Mach} {P : Mem → Mach → Prop}
    (hc : exec c s = runMem s f) (h : P (f s.mem s.now).1 (f s.mem s.now).2) : Does c s P :=
  makes_does (hc.trans (runMem_after rfl)) h

/-! ### The monitors -/

/-- VDDQ alone is monitored under a condition (R84). -/
theorem Mach.monitored_iff (m : Mach) (k : Nat) :
    m.monitored k = true ↔ k ≠ 4 ∨ m.sill.warmOk = true ∨ m.memc.lpddrGib ≠ 0 := by
  simp [Mach.monitored, or_assoc]

/-- Which rails are monitored does not depend on the reset engine. -/
@[simp] theorem Mach.monitored_modRst (m : Mach) (f : RstSt → RstSt) (k : Nat) :
    (m.modRst f).monitored k = m.monitored k := rfl

/-- Two changes of the reset engine are one if they agree on what it is. -/
theorem Mach.modRst_congr {m : Mach} {f g : RstSt → RstSt} (h : f m.rst = g m.rst) : m.modRst f = m.modRst g := by
  simp [Mach.modRst, h]

/-- Below 27 V for 1 ms, the channels' return is due at the next edge (R82). -/
theorem Mach.ovpEnds_of_ovp {m : Mach} (ho : m.rst.ovp = true) (hk : m.rst.kl30 ≠ .overvolt) :
    m.ovpEnds = m.modRst fun r => { r with ovpEdge := true } := by
  simp [Mach.ovpEnds, ho, hk]

/-- Post A falls while post B is good, or waits only for its edge (R83). -/
theorem Mach.postLow_zero {m : Mach} (hb : m.rst.lowB = false ∨ m.rst.lowBEdge = true) (hk : m.rst.kl30 = .normal)
    (ha : m.asleep = false) : m.postLow 0 =
      (((m.modRst fun r => { r with lowA := true, lowAEdge := false }).followAll (List.range 48)).rstIrq 5).showSupply := by
  have other : (m.rst.lowB && !m.rst.lowBEdge) = false := by obtain h | h := hb <;> simp [h]
  simp [Mach.postLow, other, hk, ha]

/-- A monitored rail that leaves its window while the regulators are on holds NRESET low (R84). -/
theorem Mach.railOut_monitored {m : Mach} {k : Nat} (ha : m.asleep = false) (hb : k ∉ m.rst.railBad)
    (hm : m.monitored k = true) (hr : m.rst.regEn = true) : m.railOut k =
      ((m.modRst fun r => { r with railBad := k :: r.railBad }).drive (.hold 2) 2).showSupply := by
  have bad : (m.modRst fun r => { r with railBad := if r.railBad.contains k then r.railBad else k :: r.railBad })
      = m.modRst fun r => { r with railBad := k :: r.railBad } := Mach.modRst_congr (by simp [hb])
  simp only [Mach.railOut, ha, bad, Mach.monitored_modRst, Mach.modRst_rst, hm, hr, Bool.and_self, Bool.false_eq_true,
    if_false, if_true]

/-! ### Meanings of the commands -/

theorem exec_overvoltageRecovery (s : State) : exec .overvoltageRecovery s = run s Mach.ovpEnds := by rfl

theorem exec_postLow (p : Fin 2) (s : State) : exec (.postLow p) s = run s (fun m => m.postLow p) := by rfl

theorem exec_postRecovery (p : Fin 2) (s : State) : exec (.postRecovery p) s = run s (fun m => m.postEnds p) := by rfl

theorem exec_railOutOfWindow (k : Fin 5) (s : State) : exec (.railOutOfWindow k) s = run s (fun m => m.railOut k) := by rfl

theorem exec_railRecovery (s : State) : exec .railRecovery s = run s Mach.railsBack := by rfl

theorem exec_refClkAbsent (s : State) : exec .refClkAbsent s = run s (fun m => m.refChange true) := by rfl

theorem exec_refClkRestored (s : State) : exec .refClkRestored s = run s (fun m => m.refChange false) := by rfl

theorem exec_dieOvertemp (s : State) : exec .dieOvertemp s = run s (fun m => m.dieHot true) := by rfl

theorem exec_dieOvertempClear (s : State) : exec .dieOvertempClear s = run s (fun m => m.dieHot false) := by rfl

/-- Settles O9: each command means the change of one monitor, and under the clause's conditions no branch of it turns away. -/
theorem supplyMonitors : Obligations.SupplyMonitors := by
  unfold Obligations.SupplyMonitors
  intro s
  refine ⟨fun ho hk => makes_run (exec_overvoltageRecovery s) (Mach.ovpEnds_of_ovp ho hk),
    fun hb hk ha => makes_run (exec_postLow 0 s) (Mach.postLow_zero hb hk ha), makes_run (exec_postRecovery 1 s) rfl,
    fun k ha hb hm hr => makes_run (exec_railOutOfWindow k s) (Mach.railOut_monitored ha hb hm hr), fun k => ?_,
    makes_run (exec_railRecovery s) rfl, makes_run (exec_refClkAbsent s) rfl, makes_run (exec_refClkRestored s) rfl,
    makes_run (exec_dieOvertemp s) rfl, makes_run (exec_dieOvertempClear s) rfl⟩
  have rail : (k : Nat) ≠ 4 ↔ k ≠ 4 := not_congr (Fin.ext_iff (b := 4)).symm
  exact (s.now.monitored_iff k).trans (or_congr_left rail)

end Sys2Proof.Machine
end

section
/-! SUPPORT. The flag warm_ok (R96): what sets and clears it, and which reset a pulse is by it. -/

namespace Sys2Proof.Machine

section
variable {m : Mach}

/-! ### LPDDR5 trained -/

/-- Step 12 of a cold start with LPDDR5 trained: the flag, then the application cluster (R96, R367). -/
theorem Mach.lpddrTrained_ok (hc : m.rst.cReset = false) (hs : m.isStranded = false) (hg : m.memc.lpddrGib ≠ 0)
    (hw : m.rst.warmStart = false) (h12 : m.rst.step = 12) : m.lpddrTrained true =
      (m.initialEnds.modSill fun x => { x with warmOk := true }).releaseApps.railsWatched := by
  simp [Mach.lpddrTrained, hc, hs, hg, hw, h12]

/-! ### A start-time BIST under a low pin -/

/-- On a pin that is low another driver joins, and the reach stays (R95, R108). -/
theorem Mach.drive_of_low (d : Driver) (cause : Nat) (hl : m.rst.low = true) :
    (m.drive d cause).rst.low = true ∧ (m.drive d cause).rst.reach = m.rst.reach := by
  unfold Mach.drive
  split <;> simp [hl]

@[simp] theorem Mach.startBist_warmOk (why : BistWhy) (parts : List Nat) :
    (m.startBist why parts).sill.warmOk = m.sill.warmOk := rfl

@[simp] theorem Mach.startBist_reach (why : BistWhy) (parts : List Nat) :
    (m.startBist why parts).rst.reach = m.rst.reach := rfl

@[simp] theorem Mach.owedBist_warmOk (on : Bool) : (m.owedBist on).sill.warmOk = m.sill.warmOk := by
  simp [Mach.owedBist, apply_ite SillSt.warmOk]

theorem Mach.owedBist_reach (on : Bool) (hl : m.rst.low = true) : (m.owedBist on).rst.reach = m.rst.reach := by
  have drive := (m.drive_of_low .bist 7 hl).2
  simp [Mach.owedBist, apply_ite RstSt.reach, drive]

@[simp] theorem Mach.coldBist_warmOk : m.coldBist.sill.warmOk = m.sill.warmOk := by
  simp [Mach.coldBist, apply_ite SillSt.warmOk]

theorem Mach.coldBist_reach (hl : m.rst.low = true) : m.coldBist.rst.reach = m.rst.reach := by
  obtain ⟨low, reach⟩ := m.drive_of_low .bist 7 hl
  simp [Mach.coldBist, apply_ite RstSt.reach, Mach.owedBist_reach _ low, reach]

/-! ### The assertion of a module reset -/

/-- A module reset takes the reach with which it asserts, and does not let go of the pin. -/
theorem Mach.assertReset_rst (mem : Mem) (m : Mach) (reach : Reach) :
    (Mach.assertReset mem m reach).2.rst.reach = reach ∧ (Mach.assertReset mem m reach).2.rst.low = m.rst.low := by
  simp [Mach.assertReset, Mach.rstAsserted, Mach.coldCore]

theorem Mach.assertReset_warm_warmOk (mem : Mem) (m : Mach) :
    (Mach.assertReset mem m .warm).2.sill.warmOk = m.sill.warmOk := by
  simp [Mach.assertReset, Mach.coldCore, apply_ite SillSt.warmOk]

theorem Mach.assertReset_cold_warmOk (mem : Mem) (m : Mach) :
    (Mach.assertReset mem m .cold).2.sill.warmOk = false := by
  simp [Mach.assertReset, Mach.coldCore]

/-- A cold reset, with the BIST that it may owe, ends at cold reach with warm_ok 0. -/
theorem Mach.coldReset_warmOk (mem : Mem) (hl : m.rst.low = true) :
    let n := (Mach.assertReset mem m .cold).2.coldBist
    n.rst.reach = .cold ∧ n.sill.warmOk = false := by
  obtain ⟨reach, low⟩ := Mach.assertReset_rst mem m .cold
  exact ⟨(Mach.coldBist_reach (low.trans hl)).trans reach, Mach.coldBist_warmOk.trans (Mach.assertReset_cold_warmOk mem m)⟩

/-- A pulse of 100 cycles is a cold reset while warm_ok is 0 (R96). -/
theorem Mach.nresetWarm_cold (mem : Mem) (hl : m.rst.low = true) (hr : m.rst.reach = .none) (hw : m.sill.warmOk = false) :
    Mach.nresetWarm mem m =
      ((Mach.assertReset mem m .cold).1, (Mach.assertReset mem m .cold).2.coldBist) := by
  simp [Mach.nresetWarm, hl, hr, hw]

/-- A pulse of 100 cycles is a warm reset while warm_ok is 1 (R96). -/
theorem Mach.nresetWarm_warm (mem : Mem) (hl : m.rst.low = true) (hr : m.rst.reach = .none) (hw : m.sill.warmOk = true) :
    Mach.nresetWarm mem m = Mach.assertReset mem m .warm := by
  simp [Mach.nresetWarm, hl, hr, hw]

/-- A pulse of 3,000 cycles is a cold reset, unless one has asserted. -/
theorem Mach.nresetCold_cold (mem : Mem) (hl : m.rst.low = true) (hr : m.rst.reach = .none ∨ m.rst.reach = .warm) :
    Mach.nresetCold mem m =
      ((Mach.assertReset mem m .cold).1, (Mach.assertReset mem m .cold).2.coldBist) := by
  obtain hr | hr := hr <;> simp [Mach.nresetCold, hl, hr]

/-! ### The loss of power -/

theorem Mach.powerOff_warmOk (mem : Mem) (m : Mach) (sill : Bool) :
    (Mach.powerOff mem m sill).2.sill.warmOk = false := by
  cases sill <;> rfl

/-- KL30 below 4.5 V takes the main power away (R82). -/
theorem Mach.kl30Change_warmOk (mem : Mem) {mv : Nat} (hv : mv < 4500) (hk : m.rst.kl30 = .normal)
    (ha : m.asleep = false) : (Mach.kl30Change mem m mv).2.sill.warmOk = false := by
  obtain off | retain : kl30Class .normal mv = .off ∨ kl30Class .normal mv = .retain := by
    by_cases h3 : mv < 3000
    · exact .inl (if_pos h3)
    · exact .inr ((if_neg h3).trans (if_pos hv))
  · simp [Mach.kl30Change, hk, off, Mach.powerOff_warmOk]
  · have awake : (m.modRst fun r => { r with kl30 := .retain }).asleep = false := ha
    simp [Mach.kl30Change, hk, retain, awake, Mach.powerOff_warmOk]

end

/-! ### Meanings of the commands -/

theorem exec_lpddrTrainingDone (ok : Bool) (s : State) :
    exec (.lpddrTrainingDone ok) s = run s fun m => m.lpddrTrained ok := by rfl

theorem exec_warmResetAssert (s : State) : exec .warmResetAssert s = runMem s Mach.nresetWarm := by rfl

theorem exec_coldResetAssert (s : State) : exec .coldResetAssert s = runMem s Mach.nresetCold := by rfl

theorem exec_kl30LevelChange {mv : Nat} (hv : mv ≤ 40000) (s : State) :
    exec (.kl30LevelChange mv) s = runMem s fun mem m => Mach.kl30Change mem m mv :=
  if_neg (Nat.not_lt.mpr hv)

/-- Settles O17: a cold reset and a loss of power clear the flag, which decides the reach of a pulse of 100 cycles; once the
loader has set it, the rest of its command leaves the sill domain. -/
theorem warmOkFlag : Obligations.WarmOkFlag := by
  unfold Obligations.WarmOkFlag
  intro s
  refine ⟨fun hc hs hg hw h12 => ?_, fun hl hr hw => ?_, fun hl hr hw => ?_, fun hl hr => ?_, Mach.powerOff_warmOk,
    fun mv hv hk ha => ?_⟩
  · refine does_runMem (exec_lpddrTrainingDone true s) ?_
    simp only [Mach.lpddrTrained_ok hc hs hg hw h12, Mach.railsWatched_sill, Mach.releaseApps_sill, Mach.modSill_sill]
  · refine does_runMem (exec_warmResetAssert s) ?_
    rw [Mach.nresetWarm_cold s.mem hl hr hw]
    exact Mach.coldReset_warmOk s.mem hl
  · refine does_runMem (exec_warmResetAssert s) ?_
    rw [Mach.nresetWarm_warm s.mem hl hr hw]
    exact ⟨(Mach.assertReset_rst s.mem s.now .warm).1, (Mach.assertReset_warm_warmOk s.mem s.now).trans hw⟩
  · refine does_runMem (exec_coldResetAssert s) ?_
    rw [Mach.nresetCold_cold s.mem hl hr]
    exact Mach.coldReset_warmOk s.mem hl
  · exact does_runMem (exec_kl30LevelChange (by omega) s) (Mach.kl30Change_warmOk s.mem hv hk ha)

end Sys2Proof.Machine
end

section
/-! SUPPORT. The start that BIST forbids: the flag of a Stranded module (R478), and which held partition is fatal (R124). -/

namespace Sys2Proof.Machine

/-! ### A bit that is set reads 1 -/

theorem bitOf_eq_testBit (v i : Nat) : bitOf v i = v.testBit i := by
  rw [Bool.eq_iff_iff, bitOf, bitsOf, Nat.add_sub_cancel_left, Nat.pow_one, beq_iff_eq, Nat.testBit_eq_decide_div_mod_eq,
    Nat.shiftRight_eq_div_pow, decide_eq_true_eq]

/-- The bits that a field write keeps of the old value add nothing at the bit it sets. -/
theorem testBit_withBits_one (v i : Nat) : (withBits v i i 1).testBit i = true := by
  simp [withBits, mergeBits, maskOf]

/-- Registers are 32 bits wide, so a bit set at or above 32 would be lost. -/
theorem Mach.bit_setBit_true (m : Mach) (a : Nat) {i : Nat} (hi : i < 32) : (m.setBit a i true).bit a i = true := by
  rw [Mach.bit, Mach.setBit, Mach.setFld, Mach.rd_wr_same, bitOf_eq_testBit, Nat.testBit_mod_two_pow, decide_eq_true hi,
    Bool.true_and]
  exact testBit_withBits_one _ i

/-! ### Stranded at a start -/

/-- The flag of a Stranded module stands after the last of the effects of R478. -/
theorem Mach.strand_isStranded (m : Mach) (why : Nat) : (m.strand why).isStranded = true :=
  Mach.bit_setBit_true _ Rg.RSTC_MODE (by decide)

/-- The stage is shown in another register than the flag. -/
theorem Mach.strandStart_isStranded (m : Mach) (why stage : Nat) : (m.strandStart why stage).isStranded = true := by
  have other : Rg.RSTC_MODE ≠ Rg.BIST_START_STATUS := by decide
  rw [Mach.isStranded, Mach.bit, Mach.strandStart, Mach.rd_wr_other _ _ other]
  exact m.strand_isStranded why

/-! ### The fatal partition -/

/-- A held partition is fatal by its record alone, and only if its failure is not boot-critical (R124, R125). -/
theorem Mach.fatalHeld_iff (m : Mach) (i : Image) (p : Nat) : m.fatalHeld i p = true ↔
    p ∉ bootCritical m.rst.bistHeld ∧ ∃ r, i.recBy sSAFETY 2 (·.u8 4) p = some r ∧ r.u8 5 = 1 := by
  unfold Mach.fatalHeld
  cases i.recBy sSAFETY 2 (·.u8 4) p <;> simp

/-- The partition that strands the module is held and fatal. -/
theorem Mach.fatalHeld_of_fatalPart {m : Mach} {i : Image} {p : Nat} (h : m.fatalPart i = some p) :
    p ∈ m.rst.bistHeld ∧ m.fatalHeld i p = true :=
  ⟨List.mem_of_find?_eq_some h, List.find?_some h⟩

/-- One fatal partition among those held is enough. -/
theorem Mach.fatalPart_ne_none {m : Mach} {i : Image} {p : Nat} (hp : p ∈ m.rst.bistHeld) (hf : m.fatalHeld i p = true) :
    m.fatalPart i ≠ none := fun h =>
  List.find?_eq_none.mp h p hp hf

/-! ### The end of the checks of the active bank -/

/-- An image that passes its checks strands the module if a held partition is fatal by it (R124). -/
theorem Mach.verified_fatal (mem : Mem) (m : Mach) {v : Verdict} (bank : Nat) {i : Image} {p : Nat} (hv : v.img = some i) :
    let h := (m.showVerdict v false).raiseHeld ((m.showVerdict v false).fatalHeld i)
    h.fatalPart i = some p →
    Mach.verified mem m v bank = (mem, ((Mach.checkCal mem (h.journal 0x11 p)).raiseFuse).strandStart 2 0xF1) := by
  intro h hp
  simp only [Mach.verified, hv]
  rw [hp]

/-- The checks end at step 7 or 8 of a cold start, or at step 2 of a warm one, of a module that is not Stranded (R112, R117). -/
theorem Mach.verifyDone_of_started (mem : Mem) {m : Mach} (hc : m.rst.cReset = false) (hl : m.rst.lReset = false)
    (hstep : if m.rst.warmStart then m.rst.step = 2 else m.rst.step = 7 ∨ m.rst.step = 8) (hs : m.isStranded = false) :
    let bank := (readHdr mem).bank % 2
    let n := (m.setFld Rg.TRUSS_STATUS 4 4 bank).wr Rg.UPD_SVC_CFG ((readHdr mem).etype <<< 16 ||| (readHdr mem).port)
    Mach.verifyDone mem m = Mach.verified mem n (n.verify (slotBytes mem bank) none) bank := by
  have due : (if m.rst.warmStart then m.rst.step != 2 else m.rst.step != 7 && m.rst.step != 8) = false := by
    cases hw : m.rst.warmStart with
    | true =>
      have h2 : m.rst.step = 2 := by simpa only [hw, if_true] using hstep
      simp only [h2, if_true, bne_self_eq_false]
    | false =>
      have h78 : m.rst.step = 7 ∨ m.rst.step = 8 := by simpa only [hw, Bool.false_eq_true, if_false] using hstep
      obtain h7 | h8 := h78
      · simp only [h7, Bool.false_eq_true, if_false, bne_self_eq_false, Bool.false_and]
      · simp only [h8, Bool.false_eq_true, if_false, bne_self_eq_false, Bool.and_false]
  simp only [Mach.verifyDone, hc, hl, due, hs, Bool.or_self, Bool.false_eq_true, if_false]

/-! ### Meaning of the command -/

/-- A command on memory and machine makes the pair that its effect gives. -/
theorem makes_runMem {c : Instr} {s : State} {f : Mem → Mach → Mem × Mach} {r : Mem × Mach} (hc : exec c s = runMem s f)
    (h : f s.mem s.now = r) : Makes c s r.1 r.2 :=
  hc.trans (runMem_after h)

theorem exec_trussVerifyDone (s : State) : exec .trussVerifyDone s = runMem s Mach.verifyDone := by rfl

/-- Settles O18: the command reaches the checks of R124, whose search finds a held partition with a fatal record if there is
one, and nothing after the flag of the Stranded module is set takes it back. -/
theorem fatalPartitions : Obligations.FatalPartitions := by
  unfold Obligations.FatalPartitions
  refine ⟨fun s hc hl hstep hs => ?_, fun mem m v bank i p hv => ?_, fun m i p hp => ?_,
    fun m i p r hmem hcrit hr hfatal => ?_⟩
  · exact makes_runMem (exec_trussVerifyDone s) (Mach.verifyDone_of_started s.mem hc hl hstep hs)
  · intro h hp t
    exact ⟨Mach.verified_fatal mem m bank hv hp, t.strandStart_isStranded 2 0xF1, h.journal_jq 0x11 p 0 0⟩
  · obtain ⟨held, fatal⟩ := Mach.fatalHeld_of_fatalPart hp
    exact ⟨held, ((m.fatalHeld_iff i p).mp fatal).2⟩
  · exact Mach.fatalPart_ne_none hmem ((m.fatalHeld_iff i p).mpr ⟨hcrit, r, hr, hfatal⟩)

end Sys2Proof.Machine
end

section
/-! SUPPORT. The messages of a SENT input (R289 to R291). -/

namespace Sys2Proof.Machine

/-! ### The checks of a message -/

/-- The calibration pulse fails its check: its tick lies outside the window of 25 % about the configured one, or is
more than 1/64 off the tick of the message before (R290). -/
def Mach.sentSyncFails (m : Mach) (i tick : Nat) : Bool :=
  let c := m.fld (Rg.SENT_CFG i) 16 0
  decide (c / 2 < (25 * tick - 2 * c) + (2 * c - 25 * tick)) ||
    (match (m.sin i).prev with | some p => decide (p < 64 * ((tick - p) + (p - tick))) | none => false)

/-- The check in the terms of the rule: its two cut-off differences spell a distance, and half a window is compared whole. -/
theorem Mach.sentSyncFails_iff (m : Mach) (i tick : Nat) :
    m.sentSyncFails i tick = true ↔
      m.fld (Rg.SENT_CFG i) 16 0 < 2 * (25 * (tick : Int) - 2 * m.fld (Rg.SENT_CFG i) 16 0).natAbs ∨
        ∃ p, (m.sin i).prev = some p ∧ p < 64 * ((tick : Int) - p).natAbs := by
  have window (c : Nat) : c / 2 < (25 * tick - 2 * c) + (2 * c - 25 * tick) ↔
      c < 2 * (25 * (tick : Int) - 2 * c).natAbs := by omega
  have step (p : Nat) : p < 64 * ((tick - p) + (p - tick)) ↔ p < 64 * ((tick : Int) - p).natAbs := by omega
  cases hp : (m.sin i).prev with
  | none => simp [Mach.sentSyncFails, hp, window]
  | some p => simp [Mach.sentSyncFails, hp, window, step]

/-- The code of the first of five checks that fails, 0 when none does. -/
def firstFailing (sync nibble count crc pause : Bool) : Nat :=
  if sync then 1 else if nibble then 2 else if count then 3 else if crc then 4 else if pause then 5 else 0

/-- A check decides its own code as soon as no earlier one has failed. -/
theorem firstFailing_order (sync nibble count crc pause : Bool) :
    let code := firstFailing sync nibble count crc pause
    (code = 1 ↔ sync = true) ∧ (code ≠ 1 → (code = 2 ↔ nibble = true)) ∧ (code ∉ [1, 2] → (code = 3 ↔ count = true)) ∧
    (code ∉ [1, 2, 3] → (code = 4 ↔ crc = true)) ∧ (code ∉ [1, 2, 3, 4] → (code = 5 ↔ pause = true)) ∧ code ≤ 5 := by
  match sync, nibble, count, crc, pause with
  | true, _, _, _, _ => simp [firstFailing]
  | false, true, _, _, _ => simp [firstFailing]
  | false, false, true, _, _ => simp [firstFailing]
  | false, false, false, true, _ => simp [firstFailing]
  | false, false, false, false, true => simp [firstFailing]
  | false, false, false, false, false => simp [firstFailing]

/-- The code of a message is that of the first check of R290 that fails. -/
theorem Mach.sentCheck_eq_firstFailing (m : Mach) (i tick : Nat) (nibs : List Nat) (pause : Bool) :
    let fl := m.fld (Rg.SENT_CFG i) 31 24
    let values := nibs.map (· - 12)
    m.sentCheck i tick nibs pause = firstFailing (m.sentSyncFails i tick) (nibs.any fun n => n < 12 || 27 < n)
      (nibs.length != bitsOf fl 2 0 + 2) (crc4 (bitOf fl 4) ((values.drop 1).take (bitsOf fl 2 0)) != values.getLastD 0)
      (bitOf fl 3 && !pause) := by rfl

/-! ### What a message does -/

section
variable {m : Mach} {i tick : Nat} {nibs : List Nat} {pause : Bool}

/-- A refused message is counted, reported with its code and ends the serial message. -/
theorem Mach.sentMsg_refused (he : m.elemHeld uSENT i = false) (hl : m.dieHeld .l = false) (ho : m.sentOff i = false)
    (hcode : m.sentCheck i tick nibs pause ≠ 0) :
    m.sentMsg i tick nibs pause =
      (((((m.modSin i fun x => { x with prev := some tick }).setFld (Rg.SENT_STATUS i) 31 16 tick).bump
        (Rg.SENT_ERR_CNT i)).setFld (Rg.SENT_STATUS i) 2 0 (m.sentCheck i tick nibs pause)).sentIrq i 1).modSin i
          fun x => { x with serial := [] } := by
  simp [Mach.sentMsg, he, hl, ho, hcode]

/-- Without a slow channel no serial message is under way. -/
theorem serialStep_none (l : List (Bool × Bool)) (x : Bool × Bool) : serialStep 0 l x = [] := rfl

/-- A good message of an input without slow channel replaces the fast object and adds to the tick's count. -/
theorem Mach.sentMsg_good (he : m.elemHeld uSENT i = false) (hl : m.dieHeld .l = false) (ho : m.sentOff i = false)
    (hcode : m.sentCheck i tick nibs pause = 0) (hslow : bitsOf (m.fld (Rg.SENT_CFG i) 31 24) 6 5 = 0) :
    m.sentMsg i tick nibs pause =
      (((m.modSin i fun x => { x with prev := some tick }).setFld (Rg.SENT_STATUS i) 31 16 tick).wr (Rg.SENT_FAST i)
        (2 ^ 31 ||| ((nibs.headD 12 - 12) % 4) <<< 28 |||
          ((nibs.drop 1).take (bitsOf (m.fld (Rg.SENT_CFG i) 31 24) 2 0)).foldl (fun v n => 16 * v + (n - 12)) 0)).modSin i
            fun x => { x with cnt := min (x.cnt + 1) 255, serial := [] } := by
  simp [Mach.sentMsg, he, hl, ho, hcode, hslow, serialStep_none]

end

/-- An event of the C-die or L-die makes what its effect gives while no module reset holds them. -/
theorem makes_runUp {c : Instr} {s : State} {f : Mach → Mach} {m : Mach} (hc : exec c s = runUp s f)
    (hr : s.now.rst.cReset = false) (h : f s.now = m) : Makes c s s.mem m := hc.trans (runUp_after hr h)

theorem exec_sentMessage (i : Fin 8) (tick : BitVec 16) (nibs : List Nat) (pause : Bool) (s : State) :
    exec (.sentMessage i tick nibs pause) s = runUp s fun m => m.sentMsg i tick.toNat nibs pause := by rfl

/-- Settles O37: the code is that of the first check that fails, whose five conditions are those of R290, and the effect
of the command splits on whether there is one. -/
theorem sentMessages : Obligations.SentMessages := by
  unfold Obligations.SentMessages
  intro s i tick nibs pause hr he hl ho fl code m
  have occurs {n : Mach} (h : s.now.sentMsg i tick.toNat nibs pause = n) :
      Makes (.sentMessage i tick nibs pause) s s.mem n := makes_runUp (exec_sentMessage i tick nibs pause s) hr h
  refine ⟨fun hcode => occurs (Mach.sentMsg_refused he hl ho hcode),
    fun hcode hslow => occurs (Mach.sentMsg_good he hl ho hcode hslow), ?_⟩
  intro c data
  have first := s.now.sentCheck_eq_firstFailing i tick.toNat nibs pause
  obtain ⟨sync, nibble, count, crc, pauseMissing, le⟩ := first ▸ firstFailing_order ..
  refine ⟨sync.trans (s.now.sentSyncFails_iff i tick.toNat), fun h => (nibble h).trans ?_, fun h => (count h).trans ?_,
    fun h => (crc h).trans ?_, fun h => (pauseMissing h).trans ?_, le⟩
  · simp
  · exact bne_iff_ne
  · exact bne_iff_ne
  · simp [fl]

end Sys2Proof.Machine
end

section
/-! SUPPORT. Stores to MRAM (R366, R465). -/

namespace Sys2Proof.Machine

/-! ### The bytes of a request -/

/-- A request's bytes are as many as it names: missing ones read 0. -/
theorem length_sliceBytes (bs : List Byte) (o n : Nat) : (sliceBytes bs o n).length = n := by
  simp only [sliceBytes, List.length_append, List.length_replicate, List.length_take]
  omega

theorem sliceBytes_length_self (bs : List Byte) : sliceBytes bs 0 bs.length = bs := by
  simp [sliceBytes]

/-! ### A store to MRAM -/

/-- The address that a core leaves does not touch the reset engine. -/
@[simp] theorem Mach.addressed_rst (m : Mach) (id a : Nat) : (m.addressed id a).rst = m.rst := rfl

section
variable (mem : Mem) {m : Mach} {init a n : Nat} {bs : List Byte}

/-- A store that lies in MRAM is judged by the rule for MRAM alone. -/
theorem Mach.fabricAccess_write_mram (hr : m.rst.cReset = false) (hd : m.dbgBlocked init true = false)
    (hi : m.memIndex a = some 3) (hn : n ≠ 0) (hf : m.memFits a n = true) :
    Mach.fabricAccess mem m init a n .write bs = Mach.mramWrite mem m init a (sliceBytes bs 0 n) := by
  simp [Mach.fabricAccess, hr, hd, hi, hn, hf]

/-- 32 aligned bytes in an area that the initiator may write are stored. -/
theorem Mach.mramWrite_accepted (hr : m.rst.cReset = false) (hi : m.memIndex a = some 3) (hf : m.memFits a 32 = true)
    (hl : bs.length = 32) (ha : a % 32 = 0) (hm : m.mramMay init a = true)
    (hw : m.accessAllowed init a 32 .write = true) :
    Mach.mramWrite mem m init a bs = (memWrite mem a bs, ((m.unpoison a 32).chargeFab init 32).respond init .done) := by
  simp [Mach.mramWrite, hr, hi, hl, hf, ha, hm, hw]

/-- One of the three conditions missing is enough for a bus error. -/
theorem Mach.mramWrite_refused (hr : m.rst.cReset = false)
    (h : bs.length ≠ 32 ∨ a % 32 ≠ 0 ∨ m.mramMay init a = false) :
    Mach.mramWrite mem m init a bs = (mem, m.respond init .busError) := by
  have turnedAway : (m.memIndex a != some 3 || !m.memFits a bs.length || a % 32 != 0 || bs.length != 32
      || !m.mramMay init a) = true := by
    obtain hl | ha | hm := h
    · simp [hl]
    · simp [ha]
    · simp [hm]
  simp only [Mach.mramWrite, hr, turnedAway, Bool.false_eq_true, if_false, if_true]

end

/-! ### Meanings of the commands -/

theorem exec_fabricRequest_write (init : InitId) (a n : Nat) (data : List Byte) (s : State) :
    exec (.fabricRequest init a n 1 data) s =
      runMem s fun mem m => Mach.fabricAccess mem (m.addressed init.toNat a) init.toNat a n .write data := by rfl

/-- MRAM_WRITE is a write request of all its bytes. -/
theorem exec_mramWrite (init : InitId) (a : Nat) (data : List Byte) (s : State) :
    exec (.mramWrite init a data) s = exec (.fabricRequest init a data.length 1 data) s := by rfl

/-- A write request to MRAM makes what the rule for MRAM gives for its bytes. -/
theorem makes_fabricRequest_mram {s : State} {init : InitId} {a n : Nat} {data : List Byte} {r : Mem × Mach}
    (hr : s.now.rst.cReset = false) (hd : (s.now.addressed init.toNat a).dbgBlocked init.toNat true = false)
    (hi : (s.now.addressed init.toNat a).memIndex a = some 3) (hn : n ≠ 0)
    (hf : (s.now.addressed init.toNat a).memFits a n = true)
    (h : Mach.mramWrite s.mem (s.now.addressed init.toNat a) init.toNat a (sliceBytes data 0 n) = r) :
    Makes (.fabricRequest init a n 1 data) s r.1 r.2 := by
  have hra : (s.now.addressed init.toNat a).rst.cReset = false := by rw [Mach.addressed_rst, hr]
  exact makes_runMem (exec_fabricRequest_write init a n data s)
    ((Mach.fabricAccess_write_mram s.mem hra hd hi hn hf).trans h)

/-- Settles O44: a write request to MRAM is judged by the rule for MRAM, which stores under its three conditions and turns
away when one is missing; MRAM_WRITE is such a request of all its bytes. -/
theorem mramWrites : Obligations.MramWrites := by
  unfold Obligations.MramWrites
  intro s init a data hr m hd hi
  have hra : m.rst.cReset = false := (Mach.addressed_rst s.now init.toNat a).symm ▸ hr
  have stored (hf : m.memFits a 32 = true) (ha : a % 32 = 0) (hm : m.mramMay init.toNat a = true)
      (hw : m.accessAllowed init.toNat a 32 .write = true) :=
    makes_fabricRequest_mram hr hd hi (by decide) hf
      (Mach.mramWrite_accepted s.mem hra hi hf (length_sliceBytes data 0 32) ha hm hw)
  have turnedAway (n : Nat) (hn : n ≠ 0) (hf : m.memFits a n = true)
      (missing : n ≠ 32 ∨ a % 32 ≠ 0 ∨ m.mramMay init.toNat a = false) :=
    makes_fabricRequest_mram hr hd hi hn hf
      (Mach.mramWrite_refused (bs := sliceBytes data 0 n) s.mem hra (by rwa [length_sliceBytes]))
  have asRequest := exec_mramWrite init a data s
  refine ⟨fun n hn hf => ⟨?_, turnedAway n hn hf⟩, fun hne hf => ⟨fun hl ha hm hw => ?_, fun missing => ?_⟩⟩
  · rintro rfl
    exact stored hf
  · have whole : sliceBytes data 0 32 = data := hl ▸ sliceBytes_length_self data
    rw [hl] at hf asRequest
    have h := stored hf ha hm hw
    rw [whole] at h
    exact asRequest.trans h
  · exact asRequest.trans (turnedAway data.length (mt List.eq_nil_of_length_eq_zero hne) hf missing)

end Sys2Proof.Machine
end

section
/-! SUPPORT. The outcome of every command (R483). -/

namespace Sys2Proof.Machine

/-- A command whose own effect is known answers a next state, with the queue it found and nothing outstanding. -/
theorem Makes.completes {c : Instr} {s : State} {mem : Mem} {m : Mach} (h : Makes c s mem m) :
    ∃ t, exec c s = .next t ∧ t.pending = s.pending ∧ t.mach.jq = [] ∧ t.mach.todo = [] :=
  ⟨_, h, s.after_pending mem m, s.after_jq mem m, s.after_todo mem m⟩

/-- Every command has an effect of its own on memory and machine, but for KL30 outside the ratings: an event of a die or a
domain that does not run is a command whose effect is none. The proof states the end of a command on the pair that the
effect leaves, so that unfolding the command's meaning gives the pair. -/
theorem exists_makes (c : Instr) (s : State) (h : ∀ mv, c = .kl30LevelChange mv → mv ≤ 40000) :
    ∃ mem m, Makes c s mem m := by
  suffices effect : ∃ r, exec c s = .next { s with mem := (finish s.mach r).1, mach := (finish s.mach r).2 } by
    obtain ⟨r, hr⟩ := effect
    exact ⟨r.1, r.2, hr⟩
  cases c with
  | kl30LevelChange mv => exact ⟨_, exec_kl30LevelChange (h mv rfl) s⟩
  | _ => exact ⟨_, rfl⟩

/-- KL30 above 40 V stops the machine. -/
theorem exec_kl30LevelChange_outside {mv : Nat} (hv : 40000 < mv) (s : State) :
    exec (.kl30LevelChange mv) s = .fault .outsideRatings := if_pos hv

/-- Settles O57: a command is KL30 outside the ratings, which stops the machine, or has an effect of its own, whose end
leaves nothing outstanding. -/
theorem commandsComplete : Obligations.CommandsComplete := by
  unfold Obligations.CommandsComplete
  intro c s
  by_cases outside : ∃ mv, c = .kl30LevelChange mv ∧ 40000 < mv
  · obtain ⟨mv, rfl, hv⟩ := outside
    exact .inr ⟨mv, rfl, hv, exec_kl30LevelChange_outside hv s⟩
  · simp only [not_exists, not_and, Nat.not_lt] at outside
    obtain ⟨mem, m, effect⟩ := exists_makes c s outside
    exact .inl effect.completes

end Sys2Proof.Machine
end

section
/-! SUPPORT. The canonical form of memory under every operation that touches it (18_compute_fabric.md). -/

namespace Sys2Proof.Machine

open Mach

variable {mem : Mem}

/-! ### Stores of a block -/

theorem Mach.memStore_wf (h : Memory.wf mem = true) (m : Mach) (a : Nat) (bs : List Byte) :
    Memory.wf (m.memStore mem a bs) = true := by
  unfold Mach.memStore
  split
  · exact memWrite_wf _ _ (memWrite_wf _ _ h)
  · exact memWrite_wf _ _ h

theorem Mach.dmaWrite_wf (h : Memory.wf mem = true) {m : Mach} {init a : Nat} {bs : List Byte} {act : Option Nat}
    {r : Mem × Mach} (e : Mach.dmaWrite mem m init a bs act = some r) : Memory.wf r.1 = true := by
  unfold Mach.dmaWrite at e
  grind [Mach.memStore_wf]

/-- A store that a block makes if it may, and otherwise leaves. -/
theorem Mach.dmaWrite_getD_wf (h : Memory.wf mem = true) (m : Mach) (init a : Nat) (bs : List Byte) (act : Option Nat) :
    Memory.wf ((Mach.dmaWrite mem m init a bs act).getD (mem, m)).1 = true := by
  cases e : Mach.dmaWrite mem m init a bs act with
  | none => exact h
  | some r => exact Mach.dmaWrite_wf h e

/-! ### CAN queues -/

theorem rxqFill_wf (h : Memory.wf mem = true) (m : Mach) (c q : Nat) (f : CanFrame) (filt ts : Nat) :
    Memory.wf (rxqFill mem m c q f filt ts).1 = true := by
  unfold rxqFill
  grind [→ Mach.dmaWrite_wf]

theorem routeFrame_wf (h : Memory.wf mem = true) (m : Mach) (c : Nat) (f : CanFrame) (ts : Nat) :
    Memory.wf (routeFrame mem m c f ts).1 = true := by
  unfold routeFrame
  grind [rxqFill_wf]

theorem writeBack_wf (h : Memory.wf mem = true) {m : Mach} {c q a status ts : Nat} {r : Mem × Mach}
    (e : writeBack mem m c q a status ts = some r) : Memory.wf r.1 = true := by
  unfold writeBack at e
  grind [→ Mach.dmaWrite_wf]

theorem completeHead_wf (h : Memory.wf mem = true) (m : Mach) (c q status : Nat) (ts : Option Nat) :
    Memory.wf (completeHead mem m c q status ts).1 = true := by
  unfold completeHead
  grind [→ writeBack_wf]

theorem abortRest_wf (h : Memory.wf mem = true) (m : Mach) (c q n : Nat) :
    Memory.wf (abortRest mem m c q n).1 = true := by
  induction n generalizing mem m with
  | zero => exact h
  | succ n ih =>
    have done := completeHead_wf h m c q 2 none
    unfold abortRest
    grind

theorem txqAbort_wf (h : Memory.wf mem = true) (m : Mach) (c q : Nat) :
    Memory.wf (txqAbort mem m c q).1 = true := by
  unfold txqAbort
  grind [abortRest_wf]

theorem validHead_wf (h : Memory.wf mem = true) (m : Mach) (c q n : Nat) :
    Memory.wf (validHead mem m c q n).1 = true := by
  induction n generalizing mem m with
  | zero => exact h
  | succ n ih =>
    unfold validHead
    grind [completeHead_wf]

theorem queueCands_wf (h : Memory.wf mem = true) (m : Mach) (c : Nat) :
    Memory.wf (queueCands mem m c).1 = true := by
  refine foldl_wf_fst _ (fun x q hx => ?_) _ h
  have head := validHead_wf hx x.2.1 c q 257
  grind

theorem startBest_wf (h : Memory.wf mem = true) (m : Mach) (c : Nat) (l : List Cand) (n : Nat) :
    Memory.wf (startBest mem m c l n).1 = true := by
  induction n generalizing m l with
  | zero => exact h
  | succ n ih =>
    unfold startBest
    grind

theorem frameStart_wf (h : Memory.wf mem = true) (m : Mach) (c : Nat) :
    Memory.wf (frameStart mem m c).1 = true := by
  have cands := queueCands_wf h m c
  unfold frameStart
  grind [startBest_wf]

theorem finishTx_wf (h : Memory.wf mem = true) (m : Mach) (c : Nat) (t : MTx) (q status : Nat) (sent : Bool) :
    Memory.wf (finishTx mem m c t q status sent).1 = true := by
  unfold finishTx
  grind [completeHead_wf]

theorem attemptFailed_wf (h : Memory.wf mem = true) (m : Mach) (c : Nat) (t : MTx) :
    Memory.wf (attemptFailed mem m c t).1 = true := by
  unfold attemptFailed
  grind [finishTx_wf]

theorem txComplete_wf (h : Memory.wf mem = true) (m : Mach) (c : Nat) (sent : Bool) :
    Memory.wf (txComplete mem m c sent).1 = true := by
  unfold txComplete
  grind [finishTx_wf, attemptFailed_wf]

theorem canErrorOn_wf (h : Memory.wf mem = true) (m : Mach) (c : Nat) (tx : Bool) (lec incr : Nat) :
    Memory.wf (canErrorOn mem m c tx lec incr).1 = true := by
  unfold canErrorOn
  grind [attemptFailed_wf]

theorem frameReceived_wf (h : Memory.wf mem = true) (m : Mach) (c : Nat) (f : CanFrame) (begun : Bool) (ts : Nat) :
    Memory.wf (frameReceived mem m c f begun ts).1 = true := by
  unfold frameReceived
  grind [canErrorOn_wf, routeFrame_wf]

theorem canStart_wf (h : Memory.wf mem = true) (m : Mach) (c lt : Nat) : Memory.wf (canStart mem m c lt).1 = true :=
  frameStart_wf h _ c

theorem canReceive_wf (h : Memory.wf mem = true) (m : Mach) (c : Nat) (f : CanFrame) (begun : Bool) (sof lt : Nat) :
    Memory.wf (canReceive mem m c f begun sof lt).1 = true :=
  frameReceived_wf h _ c f begun _

theorem canSent_wf (h : Memory.wf mem = true) (m : Mach) (c : Nat) (sent : Bool) :
    Memory.wf (canSent mem m c sent).1 = true :=
  txComplete_wf h m c sent

/-- Whichever way a choice goes. -/
theorem ite_wf {α : Type} {c : Prop} [Decidable c] {x y : Mem × α} (hx : Memory.wf x.1 = true)
    (hy : Memory.wf y.1 = true) : Memory.wf (if c then x else y).1 = true := by
  split
  · exact hx
  · exact hy

/-! ### Memory requests and the copy of a TCM -/

theorem Mach.mramWrite_wf (h : Memory.wf mem = true) (m : Mach) (init a : Nat) (bs : List Byte) :
    Memory.wf (Mach.mramWrite mem m init a bs).1 = true := by
  unfold Mach.mramWrite
  grind [memWrite_wf]

theorem Mach.fabricAccess_wf (h : Memory.wf mem = true) (m : Mach) (init a n : Nat) (k : MemKind) (bs : List Byte) :
    Memory.wf (Mach.fabricAccess mem m init a n k bs).1 = true := by
  unfold Mach.fabricAccess
  grind [Mach.mramWrite_wf, Mach.memStore_wf]

theorem Mach.copyTcm_wf (h : Memory.wf mem = true) (x : Nat) : Memory.wf (Mach.copyTcm mem x) = true :=
  foldl_wf _ (fun _ c h => memSet_wf _ c.2 h) _ (memClear_wf _ _ h)

theorem Mach.copyDone_wf (h : Memory.wf mem = true) (m : Mach) : Memory.wf (Mach.copyDone mem m).1 = true := by
  unfold Mach.copyDone
  grind [Mach.copyTcm_wf]

theorem Mach.resyncEdge_wf (h : Memory.wf mem = true) (m : Mach) : Memory.wf (Mach.resyncEdge mem m).1 = true := by
  unfold Mach.resyncEdge
  grind [Mach.copyTcm_wf]

/-! ### Descriptor rings -/

theorem txRing_wf (h : Memory.wf mem = true) (m : Mach) (p r lt n : Nat) : Memory.wf (txRing mem m p r lt n).1 = true := by
  induction n generalizing mem m with
  | zero => exact h
  | succ n ih =>
    have given {mem : Mem} (h : Memory.wf mem = true) (m : Mach) (a : Nat) (bs : List Byte) (g : Mach → Mach) (e : Mach) :
        Memory.wf (match Mach.dmaWrite mem m (Mach.ringInit p) a bs (m.ringOwner p r) with
          | none => (mem, e)
          | some (mem, m) => txRing mem (g m) p r lt n).1 = true := by
      cases hw : Mach.dmaWrite mem m (Mach.ringInit p) a bs (m.ringOwner p r) with
      | none => exact h
      | some x => exact ih (Mach.dmaWrite_wf h hw) _
    unfold txRing
    split
    · exact h
    · dsimp only
      split
      · exact h
      · split
        · exact h
        · split
          · exact given h _ _ _ _ _
          · split
            · exact h
            · split
              · exact h
              · exact given h _ _ _ _ _

theorem txRings_wf (h : Memory.wf mem = true) (m : Mach) (p lt : Nat) : Memory.wf (txRings mem m p lt).1 = true :=
  foldl_wf_fst _ (fun x r h => txRing_wf h x.2 p r lt 4096) _ h

theorem txKick_wf (h : Memory.wf mem = true) (m : Mach) (p r : Nat) (f : Mach → Mach) :
    Memory.wf (txKick mem m p r f).1 = true :=
  txRing_wf (txRings_wf h m p m.clk.lt) _ p r _ 4096

theorem rxRing_wf (h : Memory.wf mem = true) (m : Mach) (p r : Nat) (bytes : List Byte) :
    Memory.wf (rxRing mem m p r bytes).1 = true := by
  unfold rxRing
  grind [→ Mach.dmaWrite_wf]

theorem rxDeliver_wf (h : Memory.wf mem = true) (m : Mach) (p : Nat) : Memory.wf (rxDeliver mem m p).1 = true := by
  unfold rxDeliver
  split
  · exact h
  · refine foldl_wf_fst _ (fun x r hx => ?_) _ h
    have ring := rxRing_wf hx x.2 p r
    grind

/-! ### Gateway -/

theorem deliverPdu_wf (h : Memory.wf mem = true) (m : Mach) (p : GPdu) (lt : Nat) :
    Memory.wf (deliverPdu mem m p lt).1 = true := by
  unfold deliverPdu
  grind [memWrite_wf]

theorem gwyRelease_wf (h : Memory.wf mem = true) (m : Mach) (c lt : Nat) : Memory.wf (gwyRelease mem m c lt).1 = true := by
  unfold gwyRelease
  split
  · exact h
  · refine foldl_wf_fst _ (fun x e hx => ?_) _ h
    have delivered := deliverPdu_wf hx x.2 e.2 lt
    grind

theorem gwyHeader_wf (h : Memory.wf mem = true) (m : Mach) (c : Nat) : Memory.wf (gwyHeader mem m c) = true :=
  memWrite_wf _ _ (memWrite_wf _ _ h)

/-! ### Instances -/

theorem Mach.instCmdMem_wf (h : Memory.wf mem = true) (m : Mach) (i v : Nat) :
    Memory.wf (Mach.instCmdMem mem m i v).1 = true := by
  unfold Mach.instCmdMem
  grind [Mach.memStore_wf]

theorem Mach.saveDone_wf (h : Memory.wf mem = true) (m : Mach) (i : Nat) : Memory.wf (Mach.saveDone mem m i).1 = true := by
  unfold Mach.saveDone
  grind [Mach.memStore_wf]

theorem Mach.restoreEnds_wf (h : Memory.wf mem = true) (m : Mach) (i a code detail : Nat) :
    Memory.wf (Mach.restoreEnds mem m i a code detail).1 = true := by
  unfold Mach.restoreEnds
  split
  · exact h
  · exact foldl_wf _ (fun _ x h => Mach.memStore_wf h _ x.1.base _) _ h

theorem Mach.restoreDone_wf (h : Memory.wf mem = true) (m : Mach) (i : Nat) :
    Memory.wf (Mach.restoreDone mem m i).1 = true := by
  unfold Mach.restoreDone
  grind [Mach.restoreEnds_wf]

theorem Mach.redivCommit_wf (h : Memory.wf mem = true) (m : Mach) : Memory.wf (Mach.redivCommit mem m).1 = true :=
  foldl_wf_fst _ (fun x s h => txqAbort_wf h x.2 (s.idx / 8) (s.idx % 8)) _ h

theorem Mach.vdevCommit_wf (h : Memory.wf mem = true) (m : Mach) : Memory.wf (Mach.vdevCommit mem m).1 = true := by
  unfold Mach.vdevCommit
  grind [Mach.redivCommit_wf]

/-! ### Journal, calibration set and settings store -/

theorem writeHdr_wf (h : Memory.wf mem = true) (x : JHdr) : Memory.wf (writeHdr mem x) = true := memWrite_wf _ _ h

theorem jAppend_wf (h : Memory.wf mem = true) (count : Nat) (e : JEntry) : Memory.wf (jAppend mem count e) = true :=
  writeHdr_wf (memWrite_wf _ _ h) _

theorem settingsDefault_wf (h : Memory.wf mem = true) (i : Image) : Memory.wf (settingsDefault mem i) = true :=
  memWrite_wf _ _ (memClear_wf _ _ h)

theorem Mach.flushJournal_wf (h : Memory.wf mem = true) (m : Mach) : Memory.wf (Mach.flushJournal mem m).1 = true :=
  foldl_wf _ (fun _ e h => jAppend_wf h _ e) _ h

theorem Mach.calWrite_wf (h : Memory.wf mem = true) (m : Mach) (b : List Byte) (session : Nat) :
    Memory.wf (Mach.calWrite mem m b session).1 = true := memWrite_wf _ _ h

theorem Mach.checkSettings_wf (h : Memory.wf mem = true) (m : Mach) (i : Image) :
    Memory.wf (Mach.checkSettings mem m i).1 = true := by
  unfold Mach.checkSettings
  grind [settingsDefault_wf]

/-! ### Security engine -/

theorem Mach.keyRelease_wf (h : Memory.wf mem = true) (m : Mach) : Memory.wf (Mach.keyRelease mem m).1 = true := by
  refine foldl_wf _ (fun mem a h => ?_) _ h
  split
  · exact memWrite_wf _ _ h
  · exact h

theorem Mach.descEnd_wf (h : Memory.wf mem = true) (m : Mach) (a init code out : Nat) :
    Memory.wf (Mach.descEnd mem m a init code out).1 = true := 
  Mach.dmaWrite_getD_wf (Mach.dmaWrite_getD_wf h m init (a + 20) _ none) _ init (a + 4) _ none

theorem Mach.keyTake_wf (h : Memory.wf mem = true) (m : Mach) (n : Nat) : Memory.wf (Mach.keyTake mem m n).1 = true := by
  induction n generalizing mem m with
  | zero => exact h
  | succ n ih =>
    unfold Mach.keyTake
    grind [Mach.descEnd_wf]

theorem Mach.keyAnswer_wf (h : Memory.wf mem = true) (m : Mach) (a init : Nat) (d : List Byte)
    {r : Mem × Mach × Nat × List Byte} (hr : Memory.wf r.1 = true) :
    Memory.wf (Mach.keyAnswer mem m a init d r).1 = true := by
  unfold Mach.keyAnswer
  grind [Mach.descEnd_wf, → Mach.dmaWrite_wf]

/-- An operation of the engine keeps the canonical form if what it computes does. -/
theorem Mach.keyOp_wf (h : Memory.wf mem = true) (m : Mach) (op : Nat) {f : Nat → List Byte → Mem × Mach × Nat × List Byte}
    (hf : ∀ i d, Memory.wf (f i d).1 = true) : Memory.wf (Mach.keyOp mem m op f).1 = true := by
  unfold Mach.keyOp
  grind [Mach.keyTake_wf, Mach.keyAnswer_wf]

theorem Mach.exportOp_wf (h : Memory.wf mem = true) (m : Mach) : Memory.wf (Mach.exportOp mem m).1 = true := by
  unfold Mach.exportOp
  split
  · exact Mach.keyOp_wf h m 3 fun _ _ => h
  · exact h

theorem Mach.abortQueue_wf (h : Memory.wf mem = true) (m : Mach) : Memory.wf (Mach.abortQueue mem m).1 = true :=
  foldl_wf_fst _ (fun x e h => Mach.descEnd_wf h x.2 e.1 e.2 7 0) _ h

theorem Mach.lcChange_wf (h : Memory.wf mem = true) (m : Mach) (dst : Nat) (succ : Option (Nat × KSlot)) :
    Memory.wf (Mach.lcChange mem m dst succ).1 = true := Mach.abortQueue_wf h m

/-! ### Live application and update -/

theorem Mach.setActive_wf (h : Memory.wf mem = true) (m : Mach) (bank : Nat) :
    Memory.wf (Mach.setActive mem m bank).1 = true := by
  simp only [Mach.setActive, writeHdr_wf h]

theorem Mach.liveCommit_wf (h : Memory.wf mem = true) (m : Mach) : Memory.wf (Mach.liveCommit mem m).1 = true := by
  unfold Mach.liveCommit
  grind [Mach.setActive_wf]

theorem Mach.strandUpdate_wf (h : Memory.wf mem = true) (m : Mach) (code part : Nat) :
    Memory.wf (Mach.strandUpdate mem m code part).1 = true := by
  simp only [Mach.strandUpdate, writeHdr_wf h]

theorem Mach.updBegin_wf (h : Memory.wf mem = true) (m : Mach) (who : Option Nat) :
    Memory.wf (Mach.updBegin mem m who).1 = true := by
  unfold Mach.updBegin
  grind [memWrite_wf]

theorem Mach.updWrite_wf (h : Memory.wf mem = true) (m : Mach) (who : Option Nat) (off len : Nat)
    (data : Option (List Byte)) : Memory.wf (Mach.updWrite mem m who off len data).1 = true := by
  unfold Mach.updWrite
  grind [memWrite_wf]

theorem Mach.updCmd_wf (h : Memory.wf mem = true) (m : Mach) (v : Nat) : Memory.wf (Mach.updCmd mem m v).1 = true := by
  unfold Mach.updCmd
  grind [Mach.updBegin_wf, Mach.updWrite_wf]

theorem Mach.updRequest_wf (h : Memory.wf mem = true) (m : Mach) (s typ : Nat) (body : List Byte) :
    Memory.wf (Mach.updRequest mem m s typ body).1 = true := by
  unfold Mach.updRequest
  grind [Mach.updBegin_wf, Mach.updWrite_wf]

theorem Mach.updKerf_wf (h : Memory.wf mem = true) (m : Mach) : Memory.wf (Mach.updKerf mem m).1 = true := by
  unfold Mach.updKerf
  grind [Mach.strandUpdate_wf]

theorem Mach.pointTaken_wf (h : Memory.wf mem = true) (m : Mach) (i : Image) (kind : Nat) :
    Memory.wf (Mach.pointTaken mem m i kind).1 = true := by
  simp only [Mach.pointTaken, writeHdr_wf (Mach.setActive_wf h _ _)]

theorem Mach.commitPoint_wf (h : Memory.wf mem = true) (m : Mach) : Memory.wf (Mach.commitPoint mem m).1 = true := by
  unfold Mach.commitPoint
  grind [Mach.pointTaken_wf]

theorem Mach.confirmLate_wf (h : Memory.wf mem = true) (m : Mach) (p : Nat) :
    Memory.wf (Mach.confirmLate mem m p).1 = true := by
  unfold Mach.confirmLate
  grind [Mach.strandUpdate_wf]

theorem Mach.updBents_wf (h : Memory.wf mem = true) (m old : Mach) : Memory.wf (Mach.updBents mem m old).1 = true := by
  unfold Mach.updBents
  grind [Mach.strandUpdate_wf]

theorem Mach.updOverdue_wf (h : Memory.wf mem = true) (m : Mach) : Memory.wf (Mach.updOverdue mem m).1 = true := by
  refine foldl_wf_fst _ (fun x e h => ?_) _ (Mach.commitPoint_wf h m)
  split
  · exact Mach.confirmLate_wf h x.2 e.1
  · exact h

/-! ### Buile -/

theorem Mach.buileCal_wf (h : Memory.wf mem = true) (m : Mach) (b : List Byte) (ses : Nat) :
    Memory.wf (Mach.buileCal mem m b ses).mem = true := by
  unfold Mach.buileCal
  grind [Mach.calWrite_wf]

theorem Mach.sessRequest_wf (h : Memory.wf mem = true) (m : Mach) (f : BFrame) :
    Memory.wf (Mach.sessRequest mem m f).mem = true := by
  unfold Mach.sessRequest
  grind [Mach.buileCal_wf, Mach.updRequest_wf]

theorem Mach.sessTyped_wf (h : Memory.wf mem = true) (m : Mach) (x : Sess) (f : BFrame) :
    Memory.wf (Mach.sessTyped mem m x f).1 = true := by
  unfold Mach.sessTyped
  extract_lets refuse known allowed dst code r sk
  refine ite_wf h (ite_wf h (ite_wf (ite_wf h (ite_wf h ?_)) (Mach.sessRequest_wf h m f)))
  split
  · exact h
  next s _ =>
    have changed := Mach.lcChange_wf h m dst s
    split
    next e => rwa [e] at changed

theorem Mach.buile_wf (h : Memory.wf mem = true) (m : Mach) (fr : List Byte) : Memory.wf (Mach.buile mem m fr).1 = true := by
  unfold Mach.buile
  grind [Mach.sessTyped_wf]

theorem Mach.buileRow_wf (h : Memory.wf mem = true) (types : Nat → Bool) (m : Mach) (fr : List Byte) :
    Memory.wf (Mach.buileRow types mem m fr).1 = true := by
  have answered := Mach.buile_wf h m fr
  unfold Mach.buileRow
  grind

theorem Mach.buileOp_wf (h : Memory.wf mem = true) (m : Mach) (init : Nat) (d : List Byte) :
    Memory.wf (Mach.buileOp mem m init d).1 = true := by
  unfold Mach.buileOp
  grind [Mach.buile_wf]

theorem Mach.serviceSegment_wf (h : Memory.wf mem = true) (m : Mach) (fr : List Byte) :
    Memory.wf (Mach.serviceSegment mem m fr).1 = true := by
  unfold Mach.serviceSegment
  grind [Mach.buile_wf]

theorem Mach.identityWaiters_wf (h : Memory.wf mem = true) (m : Mach) : Memory.wf (Mach.identityWaiters mem m).1 = true := by
  refine foldl_wf_fst _ (fun x e h => ?_) _ h
  have answered := Mach.buile_wf h x.2 e.2
  grind

theorem Mach.identityStart_wf (h : Memory.wf mem = true) (m : Mach) : Memory.wf (Mach.identityStart mem m).1 = true := by
  unfold Mach.identityStart
  grind [Mach.identityWaiters_wf]

theorem Mach.opUpdate_wf (h : Memory.wf mem = true) (m : Mach) : Memory.wf (Mach.opUpdate mem m).1 = true :=
  Mach.keyOp_wf h m 1 fun _ _ => h

theorem Mach.opMac_wf (h : Memory.wf mem = true) (m : Mach) : Memory.wf (Mach.opMac mem m).1 = true :=
  Mach.keyOp_wf h m 2 fun _ _ => h

theorem Mach.opBuile_wf (h : Memory.wf mem = true) (m : Mach) : Memory.wf (Mach.opBuile mem m).1 = true := by
  unfold Mach.opBuile
  split
  · exact h
  · exact Mach.keyOp_wf h m 4 fun i d => Mach.buileOp_wf h m i d

/-! ### Resets, power and start -/

theorem Mach.assertReset_wf (h : Memory.wf mem = true) (m : Mach) (reach : Reach) :
    Memory.wf (Mach.assertReset mem m reach).1 = true := filter_wf _ h

theorem Mach.powerOff_wf (h : Memory.wf mem = true) (m : Mach) (sill : Bool) :
    Memory.wf (Mach.powerOff mem m sill).1 = true := filter_wf _ h

theorem Mach.releaseReset_wf (h : Memory.wf mem = true) (m : Mach) (cycles us : Nat) :
    Memory.wf (Mach.releaseReset mem m cycles us).1 = true := Mach.keyRelease_wf h _

theorem Mach.unitRelease_wf (h : Memory.wf mem = true) (m : Mach) (u : Nat) :
    Memory.wf (Mach.unitRelease mem m u).1 = true := by
  unfold Mach.unitRelease
  exact ite_wf h (ite_wf (Mach.keyRelease_wf h m) h)

theorem Mach.unitBit_wf (h : Memory.wf mem = true) (m : Mach) (u : Nat) (on : Bool) :
    Memory.wf (Mach.unitBit mem m u on).1 = true := by
  unfold Mach.unitBit
  grind [Mach.unitRelease_wf]

theorem Mach.unitWrite_wf (h : Memory.wf mem = true) (m : Mach) (v : Nat) : Memory.wf (Mach.unitWrite mem m v).1 = true :=
  foldl_wf_fst _ (fun x u h => Mach.unitBit_wf h x.2 u (bitOf v u)) _ h

theorem Mach.clientResetEnd_wf (h : Memory.wf mem = true) (m : Mach) (c : Nat) :
    Memory.wf (Mach.clientResetEnd mem m c).1 = true := by
  unfold Mach.clientResetEnd
  grind [Mach.unitRelease_wf]

theorem Mach.kl30Change_wf (h : Memory.wf mem = true) (m : Mach) (mv : Nat) :
    Memory.wf (Mach.kl30Change mem m mv).1 = true := by
  unfold Mach.kl30Change
  grind [Mach.powerOff_wf]

theorem Mach.enterSleep_wf (h : Memory.wf mem = true) (m : Mach) (cmd : Nat) :
    Memory.wf (Mach.enterSleep mem m cmd).1 = true := Mach.powerOff_wf h m true

theorem Mach.nresetWarm_wf (h : Memory.wf mem = true) (m : Mach) : Memory.wf (Mach.nresetWarm mem m).1 = true := by
  unfold Mach.nresetWarm
  grind [Mach.assertReset_wf]

theorem Mach.nresetCold_wf (h : Memory.wf mem = true) (m : Mach) : Memory.wf (Mach.nresetCold mem m).1 = true := by
  unfold Mach.nresetCold
  grind [Mach.assertReset_wf]

theorem Mach.nresetRise_wf (h : Memory.wf mem = true) (m : Mach) (cycles us : Nat) :
    Memory.wf (Mach.nresetRise mem m cycles us).1 = true := by
  unfold Mach.nresetRise
  grind [Mach.nresetWarm_wf, Mach.nresetCold_wf, Mach.releaseReset_wf]

theorem Mach.bistEnds_wf (h : Memory.wf mem = true) (m : Mach) (why : BistWhy) :
    Memory.wf (Mach.bistEnds mem m why).1 = true := by
  unfold Mach.bistEnds
  grind [Mach.enterSleep_wf]

theorem Mach.bistComplete_wf (h : Memory.wf mem = true) (m : Mach) (fail ms : Nat) :
    Memory.wf (Mach.bistComplete mem m fail ms).1 = true := by
  unfold Mach.bistComplete
  grind [Mach.bistEnds_wf]

theorem Mach.bistStops_wf (h : Memory.wf mem = true) (m : Mach) (reason at' fail ms : Nat) :
    Memory.wf (Mach.bistStops mem m reason at' fail ms).1 = true := by
  unfold Mach.bistStops
  grind [Mach.powerOff_wf, Mach.bistEnds_wf]

theorem Mach.startImage_wf (h : Memory.wf mem = true) (m : Mach) (i : Image) (bank : Nat) (bv : BankVerdict) :
    Memory.wf (Mach.startImage mem m i bank bv).1 = true := by
  unfold Mach.startImage
  grind [Mach.checkSettings_wf]

theorem Mach.verified_wf (h : Memory.wf mem = true) (m : Mach) (v : Verdict) (bank : Nat) :
    Memory.wf (Mach.verified mem m v bank).1 = true := by
  unfold Mach.verified
  grind [Mach.startImage_wf]

theorem Mach.verifyDone_wf (h : Memory.wf mem = true) (m : Mach) : Memory.wf (Mach.verifyDone mem m).1 = true := by
  unfold Mach.verifyDone
  grind [Mach.verified_wf]

/-! ### The tick -/

theorem Mach.commitC_wf (h : Memory.wf mem = true) (m : Mach) : Memory.wf (Mach.commitC mem m).1 = true :=
  Mach.vdevCommit_wf h _

theorem Mach.kerfStart_wf (h : Memory.wf mem = true) (m : Mach) (plumbs : List (Fin 6 × Word)) :
    Memory.wf (Mach.kerfStart mem m plumbs).1 = true := by
  unfold Mach.kerfStart
  grind [Mach.updKerf_wf]

theorem Mach.overdue_wf (h : Memory.wf mem = true) (m : Mach) : Memory.wf (Mach.overdue mem m).1 = true := by
  have rings {x r : Mem × Mach} (h : Memory.wf x.1 = true)
      (e : [18, 19, 20].foldl (fun (x : Mem × Mach) p => txRings x.1 x.2 p x.2.clk.lt) x = r) : Memory.wf r.1 = true :=
    e ▸ foldl_wf_fst _ (fun x p h => txRings_wf h x.2 p x.2.clk.lt) _ h
  have pulses := foldl_wf_fst (fun x c => Mach.clientResetEnd x.1 x.2 c) (fun x c h => Mach.clientResetEnd_wf h x.2 c)
    m.tick.pulses (x := (mem, m)) h
  unfold Mach.overdue
  split
  next hp =>
    rw [hp] at pulses
    extract_lets m2 m3 m4 m5 m6
    have late := Mach.updOverdue_wf pulses m6
    split
    next hu =>
      rw [hu] at late
      split
      next hq =>
        have queued := rings late hq
        exact queued

theorem Mach.endTick_wf (h : Memory.wf mem = true) (m : Mach) (lt : Nat) : Memory.wf (Mach.endTick mem m lt).1 = true := by
  unfold Mach.endTick
  grind [gwyRelease_wf, gwyHeader_wf]

theorem Mach.tickEdge_wf (h : Memory.wf mem = true) (m : Mach) (lt : Nat) :
    Memory.wf (Mach.tickEdge mem m lt).1 = true := by
  unfold Mach.tickEdge
  grind [Mach.overdue_wf, Mach.endTick_wf, Mach.commitC_wf, Mach.resyncEdge_wf, Mach.liveCommit_wf]

/-! ### Register writes -/

theorem Mach.svcCfg_wf (h : Memory.wf mem = true) (m : Mach) (x : Hit) (e : Stg) :
    Memory.wf (Mach.svcCfg mem m x e).1 = true := by
  simp only [Mach.svcCfg, writeHdr_wf h]

theorem Mach.actModule_wf (h : Memory.wf mem = true) {m : Mach} {x : Hit} {e : Stg} {r : Mem × Mach}
    (he : Mach.actModule mem m x e = some r) : Memory.wf r.1 = true := by
  unfold Mach.actModule at he
  grind [Mach.unitWrite_wf]

theorem Mach.actCompute_wf (h : Memory.wf mem = true) {m : Mach} {x : Hit} {e : Stg} {r : Mem × Mach}
    (he : Mach.actCompute mem m x e = some r) : Memory.wf r.1 = true := by
  unfold Mach.actCompute at he
  grind [Mach.instCmdMem_wf, Mach.keyTake_wf, Mach.updCmd_wf, Mach.svcCfg_wf]

theorem Mach.actComm_wf (h : Memory.wf mem = true) {m : Mach} {x : Hit} {e : Stg} {r : Mem × Mach}
    (he : Mach.actComm mem m x e = some r) : Memory.wf r.1 = true := by
  unfold Mach.actComm at he
  grind [txKick_wf, txqAbort_wf]

theorem Mach.act_wf (h : Memory.wf mem = true) (m : Mach) (x : Hit) (e : Stg) :
    Memory.wf (Mach.act mem m x e).1 = true := by
  unfold Mach.act
  grind [→ Mach.actModule_wf, → Mach.actCompute_wf, → Mach.actComm_wf]

theorem Mach.farPerform_wf (h : Memory.wf mem = true) (m : Mach) (w : NearWrite) :
    Memory.wf (Mach.farPerform mem m w).1 = true := by
  unfold Mach.farPerform
  grind [Mach.act_wf]

/-- A write keeps the canonical form if what it does at the near side does. -/
theorem Mach.writeWith_wf (h : Memory.wf mem = true) {eff : Mem → Mach → NearWrite → Mem × Mach}
    (heff : ∀ m w, Memory.wf (eff mem m w).1 = true) (m : Mach) (init a width v : Nat) :
    Memory.wf (Mach.writeWith eff mem m init a width v).1 = true := by
  unfold Mach.writeWith
  grind [Mach.farPerform_wf]

theorem Mach.writeReg_wf (h : Memory.wf mem = true) (m : Mach) (init a width v : Nat) :
    Memory.wf (Mach.writeReg mem m init a width v).1 = true :=
  Mach.writeWith_wf h (fun m w => Mach.act_wf h m w.h w.e) m init a width v

theorem Mach.writeBy_wf (h : Memory.wf mem = true) (eff : Mach → Nat → Mach) (m : Mach) (init a v : Nat) :
    Memory.wf (Mach.writeBy eff mem m init a v).1 = true :=
  Mach.writeWith_wf h (fun _ _ => h) m init a 4 v

theorem farWrite_wf (h : Memory.wf mem = true) (m : Mach) (init a width v : Nat) :
    Memory.wf (farWrite mem m init a width v).1 = true := by
  unfold farWrite
  grind [Mach.act_wf]

theorem applyBeat_wf (h : Memory.wf mem = true) (m : Mach) (l : Nat) (e : Stg) :
    Memory.wf (applyBeat mem m l e).1 = true := by
  unfold applyBeat
  grind [Mach.farPerform_wf]

theorem writeApply_wf (h : Memory.wf mem = true) (m : Mach) (ch : Nat) : Memory.wf (writeApply mem m ch).1 = true := by
  have beats (r : LReq) := foldl_wf_fst (fun x e => applyBeat x.1 x.2 (linkOfChan ch) e)
    (fun x e h => applyBeat_wf h x.2 (linkOfChan ch) e) r.wr (x := (mem, m)) h
  unfold writeApply
  grind

theorem farInitiated_wf (h : Memory.wf mem = true) (m : Mach) (l a width : Nat) (write : Bool) (v : Nat) :
    Memory.wf (farInitiated mem m l a width write v).1 = true := by
  unfold farInitiated
  grind [Mach.act_wf]

/-! ### The end of a command, and a step -/

theorem finish_wf (old : Mach) {r : Mem × Mach} (h : Memory.wf r.1 = true) : Memory.wf (finish old r).1 = true := by
  unfold finish
  grind [Mach.updBents_wf, Mach.flushJournal_wf]

theorem State.after_wf (s : State) {mem : Mem} (m : Mach) (h : Memory.wf mem = true) :
    Memory.wf (s.after mem m).mem = true := finish_wf s.mach h

end Sys2Proof.Machine
end

section
/-! SUPPORT. Every command keeps the canonical form of memory. -/

namespace Sys2Proof.Machine

/-- The effect of every command leaves memory in its canonical form: that of a register write, that of an operation with a
rule of its own, and that of the other commands, which leave memory as it is. The pair that the effect leaves is found by
unfolding the command's meaning. -/
theorem exists_effect_wf (c : Instr) {s : State} (h : Memory.wf s.mem = true)
    (hc : ∀ mv, c = .kl30LevelChange mv → mv ≤ 40000) :
    ∃ r, exec c s = .next { s with mem := (finish s.mach r).1, mach := (finish s.mach r).2 } ∧ Memory.wf r.1 = true := by
  cases c with
  | registerWrite | trussLiveStart | trussOwnerQuery | modeCmdRun | modeCmdDoze | modeCmdSleep | modeCmdDormant |
      swResetWarm | swResetCold | dieResetAssert | dieResetRelease | unitResetAssert | unitResetRelease |
      groupResetAssert | groupResetRelease | elementResetAssert | elementResetRelease | watchdogKick | bistCmdRun |
      loadFaultClear | macLookup | macAdd | macDelete | ringTailWrite | diagStart | ptpSnapshot | domainStep | txqPop
    | servoUnlock | servoLock | servoHold | wtJoin | tinPop | mbusRxqAck | mbusTxqAbort | mbusRecover |
      xcvrModeWrite | linGotoSleep | linWakePulse | nmAwakeReq | nmWakeRequest | nmLogClear | gwyTblRead | gwyTblWrite
    | gwyTblClear | partitionRestart | irqEoi | xspiCmd | chkRelease | bentSwitch | bentRepair | worldHwReady |
      worldClaim | worldClaimRelease | dbgRequest | dbgResponse | dbgLock | pegWindowEnable | vdevFreeze | vdevThaw |
      vdevReset | vdevRelease | vdevSave | vdevRestore | vdevGwyWrite | vdevGwyClear | redivSet | redivMove |
      redivMoveAll | keySubmit | updBegin | updWrite | updVerify | updCommit | updAbort | updEnd | updConfirm =>
    exact ⟨_, rfl, Mach.writeReg_wf h _ _ _ _ _⟩
  | tickDone => exact ⟨_, rfl, Mach.writeBy_wf h _ _ _ _ _⟩
  | tickEdge => exact ⟨_, rfl, Mach.tickEdge_wf h _ _⟩
  | kerfStart => exact ⟨_, rfl, Mach.kerfStart_wf h _ _⟩
  | blockResetPulseEnd p =>
    cases p with
    | client => exact ⟨_, rfl, ite_wf h (Mach.clientResetEnd_wf h _ _)⟩
    | die | element => exact ⟨_, rfl, ite_wf h h⟩
  | kl30LevelChange mv => exact ⟨_, exec_kl30LevelChange (hc mv rfl) s, Mach.kl30Change_wf h _ _⟩
  | logicBistComplete => exact ⟨_, rfl, Mach.bistComplete_wf h _ _ _⟩
  | bistConditionFail => exact ⟨_, rfl, Mach.bistStops_wf h _ _ _ _ _⟩
  | nresetRise => exact ⟨_, rfl, Mach.nresetRise_wf h _ _ _⟩
  | warmResetAssert => exact ⟨_, rfl, Mach.nresetWarm_wf h _⟩
  | coldResetAssert => exact ⟨_, rfl, Mach.nresetCold_wf h _⟩
  | trussVerifyDone => exact ⟨_, rfl, Mach.verifyDone_wf h _⟩
  | portLinkUp => exact ⟨_, rfl, ite_wf h (ite_wf (txRings_wf h _ _ _) h)⟩
  | rxRingDeliver => exact ⟨_, rfl, ite_wf h (rxDeliver_wf h _ _)⟩
  | canFrameReceived => exact ⟨_, rfl, ite_wf h (canReceive_wf h _ _ _ _ _ _)⟩
  | canFrameStart => exact ⟨_, rfl, ite_wf h (canStart_wf h _ _ _)⟩
  | canTxComplete => exact ⟨_, rfl, ite_wf h (canSent_wf h _ _ _)⟩
  | canError => exact ⟨_, rfl, ite_wf h (canErrorOn_wf h _ _ _ _ _)⟩
  | farWrite => exact ⟨_, rfl, farWrite_wf h _ _ _ _ _⟩
  | farWriteApply => exact ⟨_, rfl, ite_wf h (writeApply_wf h _ _)⟩
  | farInitiatedRequest => exact ⟨_, rfl, farInitiated_wf h _ _ _ _ _ _⟩
  | fabricRequest | mramWrite => exact ⟨_, rfl, Mach.fabricAccess_wf h _ _ _ _ _ _⟩
  | vdevSaveDone => exact ⟨_, rfl, ite_wf h (Mach.saveDone_wf h _ _)⟩
  | vdevRestoreDone => exact ⟨_, rfl, ite_wf h (Mach.restoreDone_wf h _ _)⟩
  | buileHello | buileOpen | buileClose | builePing | buileAttest | buileAttestSigned | buileReadIdentity | buileKeyUpdate
    | buileLifecycle | buileCalWrite | buileReadJournal | buileUpdateStatus =>
    exact ⟨_, rfl, ite_wf h (Mach.buileRow_wf h _ _ _)⟩
  | servicePortSegment => exact ⟨_, rfl, ite_wf h (Mach.serviceSegment_wf h _ _)⟩
  | confirmTimeout => exact ⟨_, rfl, ite_wf h (Mach.confirmLate_wf h _ _)⟩
  | tcmCopyDone => exact ⟨_, rfl, ite_wf h (Mach.copyDone_wf h _)⟩
  | identityReady => exact ⟨_, rfl, ite_wf h (Mach.identityStart_wf h _)⟩
  | keyOpUpdate => exact ⟨_, rfl, ite_wf h (Mach.opUpdate_wf h _)⟩
  | keyOpMac => exact ⟨_, rfl, ite_wf h (Mach.opMac_wf h _)⟩
  | keyOpExportId => exact ⟨_, rfl, ite_wf h (Mach.exportOp_wf h _)⟩
  | keyOpBuile => exact ⟨_, rfl, ite_wf h (Mach.opBuile_wf h _)⟩
  | wcall | updVerifyDone => exact ⟨_, rfl, ite_wf h h⟩
  | commitPoint => exact ⟨_, rfl, ite_wf h (Mach.commitPoint_wf h _)⟩
  | _ => exact ⟨_, rfl, h⟩

/-- A command that answers a next state keeps the settled state. -/
theorem exec_settled {c : Instr} {s t : State} (h : Memory.wf s.mem = true) (e : exec c s = .next t) : t.Settled := by
  obtain ⟨t', ht, -, hj, hd⟩ | ⟨mv, -, -, hf⟩ := commandsComplete c s
  · obtain rfl : t' = t := by simpa [ht] using e
    refine ⟨?_, hj, hd⟩
    obtain ⟨r, hr, hwf⟩ := exists_effect_wf c h fun mv hc => by
      refine Nat.le_of_not_lt fun hv => ?_
      rw [hc, exec_kl30LevelChange_outside hv] at e
      cases e
    cases hr.symm.trans e
    exact finish_wf s.mach hwf
  · cases e.symm.trans hf

/-- Settles O59: a step is a command, which keeps the canonical form of memory and leaves nothing outstanding, or idles. -/
theorem memoryStaysCanonical : Obligations.MemoryStaysCanonical := by
  unfold Obligations.MemoryStaysCanonical
  intro s t hs e
  unfold step at e
  split at e
  · cases e
    exact hs
  next c rest _ =>
    obtain ⟨hmem, -, -⟩ := hs
    exact exec_settled (s := { s with pending := rest }) hmem e

end Sys2Proof.Machine
end

section
/-! SUPPORT. The whole machine: a step, the end of a command that has left nothing to do, the state after power-on. -/

namespace Sys2Proof.Machine

/-- Settles O56: both clauses are the two arms of `step`. -/
theorem stepRunsFront : Obligations.StepRunsFront := by
  unfold Obligations.StepRunsFront
  intro s
  constructor
  · intro c rest h
    rw [step, h]
  · intro h
    rw [step, h]

/-! ### A quiet end -/

section
variable {m old : Mach}

/-- With no consequence outstanding there is nothing to settle. -/
theorem Mach.settle_of_todo_nil (h : m.todo = []) (n : Nat) : m.settle n = m := by
  cases n with
  | zero => rw [Mach.settle, ← h]
  | succ n => rw [Mach.settle, h]

/-- Whether a partition has a running core depends on the cores and the image. -/
theorem Mach.partRuns_congr (hf : m.fab = old.fab) (hi : m.truss.image = old.truss.image) (p : Nat) :
    m.partRuns p = old.partRuns p := by
  simp only [Mach.partRuns, Mach.partCores, Mach.partRec, Mach.core, hf, hi]

/-- A loop whose steps leave the machine leaves it. -/
theorem Mach.forAll_id {α : Type} (m : Mach) {l : List α} {f : Mach → α → Mach} (h : ∀ x ∈ l, f m x = m) :
    m.forAll l f = m := by
  induction l with
  | nil => rfl
  | cons x l ih =>
    obtain ⟨hx, hl⟩ := List.forall_mem_cons.mp h
    exact (congrArg (fun n : Mach => n.forAll l f) hx).trans (ih hl)

/-- While cores and image are as they were, no partition has lost its last running core. -/
theorem Mach.coreless_of_same (hf : m.fab = old.fab) (hi : m.truss.image = old.truss.image) : m.coreless old = m := by
  unfold Mach.coreless
  split
  · rfl
  · refine m.forAll_id fun p _ => if_neg ?_
    rw [← Mach.partRuns_congr hf hi p]
    simp

/-- Without an update under way a failed bent ends none. -/
theorem Mach.updBents_of_no_commit (mem : Mem) (h : m.upd.commit = none) : Mach.updBents mem m old = (mem, m) := by
  rw [Mach.updBents, h]

/-- Without a session that holds the update none has gone. -/
theorem Mach.updSessionGone_of_no_session (h : m.upd.session = none) : m.updSessionGone = m := by
  rw [Mach.updSessionGone, h]

/-- Without a slot of a load channel there are no events of one. -/
theorem Mach.loadEvents_of_no_slot (h : ∀ x ∈ m.vdev.slots, x.kind ≠ kLOAD) : m.loadEvents old = m := by
  have none : m.vdev.slots.filter (·.kind == kLOAD) = [] := List.filter_eq_nil_iff.mpr fun x hx => by simpa using h x hx
  rw [Mach.loadEvents, none]
  rfl

/-- An empty journal queue is written at once. -/
theorem Mach.flushJournal_of_jq_nil (mem : Mem) (h : m.jq = []) : Mach.flushJournal mem m = (mem, m) := by
  rw [Mach.flushJournal, h, List.foldl_nil, ← h]

/-- A quiet effect is left as it is by every part of a command's end. -/
theorem finish_of_quiet (mem : Mem) (h : Quiet old m) : finish old (mem, m) = (mem, m) := by
  obtain ⟨todo, jq, fab, image, commit, session, slots⟩ := h
  have noTodo : { m with todo := [] } = m := todo ▸ rfl
  simp only [finish, Mach.settle_of_todo_nil todo, Mach.coreless_of_same fab image, Mach.updBents_of_no_commit mem commit,
    Mach.updSessionGone_of_no_session session, Mach.loadEvents_of_no_slot slots, noTodo, Mach.flushJournal_of_jq_nil mem jq]

end

/-- Settles O58: nothing is outstanding, and what the end of a command watches is as it was. -/
theorem quietEnd : Obligations.QuietEnd := by
  unfold Obligations.QuietEnd
  intro s mem m h
  rw [State.after, finish_of_quiet mem h]

/-- Settles O60: every engine starts empty, and an empty register file reads the cold values. -/
theorem resetState : Obligations.ResetState := by
  unfold Obligations.ResetState
  exact ⟨⟨reset_memory_wf, rfl, rfl⟩, rfl, rfl, rfl, fun _ => rfl⟩

end Sys2Proof.Machine
end

section
/-! SUPPORT. The class of KL30 (R82). -/

namespace Sys2Proof.Machine

/-- Of the reset engine, the BIST stop at a loss of supply changes the run alone. -/
@[simp] theorem Mach.bistSupply_kl30 (m : Mach) : m.bistSupply.rst.kl30 = m.rst.kl30 := by
  unfold Mach.bistSupply
  split <;> simp [Mach.recordBist, Mach.draw]

@[simp] theorem Mach.tearLatch_kl30 (m : Mach) : m.tearLatch.rst.kl30 = m.rst.kl30 := by
  simp [Mach.tearLatch, apply_ite Mach.rst]

@[simp] theorem Mach.powerOff_kl30 (mem : Mem) (m : Mach) (sill : Bool) :
    (Mach.powerOff mem m sill).2.rst.kl30 = m.rst.kl30 := rfl

@[simp] theorem Mach.mainPower_kl30 (m : Mach) : m.mainPower.rst.kl30 = m.rst.kl30 := rfl

@[simp] theorem Mach.drive_kl30 (m : Mach) (d : Driver) (cause : Nat) : (m.drive d cause).rst.kl30 = m.rst.kl30 := by
  simp only [Mach.drive]
  split
  · rfl
  · simp [apply_ite RstSt.kl30]

@[simp] theorem Mach.letGo_kl30 (m : Mach) (d : Driver) : (m.letGo d).rst.kl30 = m.rst.kl30 := rfl

@[simp] theorem Mach.rstIrq_kl30 (m : Mach) (i : Nat) : (m.rstIrq i).rst.kl30 = m.rst.kl30 := by
  simp [Mach.rstIrq]

@[simp] theorem Mach.supplyReturn_rst (m : Mach) : m.supplyReturn.rst = m.rst :=
  Mach.forAll_rst (fun m n => by simp [apply_ite Mach.rst]) m _

@[simp] theorem Mach.startBist_kl30 (m : Mach) (why : BistWhy) (parts : List Nat) :
    (m.startBist why parts).rst.kl30 = m.rst.kl30 := rfl

@[simp] theorem Mach.owedBist_kl30 (m : Mach) (on : Bool) : (m.owedBist on).rst.kl30 = m.rst.kl30 := by
  simp [Mach.owedBist, apply_ite RstSt.kl30]

@[simp] theorem Mach.tryStep5_kl30 (m : Mach) : m.tryStep5.rst.kl30 = m.rst.kl30 := by
  simp [Mach.tryStep5, apply_ite RstSt.kl30]

/-- KL30 takes the class of its level, whatever the change does to the rest of the machine. -/
theorem Mach.kl30Change_kl30 (mem : Mem) (m : Mach) (mv : Nat) :
    (Mach.kl30Change mem m mv).2.rst.kl30 = kl30Class m.rst.kl30 mv := by
  unfold Mach.kl30Change
  extract_lets old new wasOff m1 m2 m3 m4 m5 m6
  have on : m2.rst.kl30 = new := by simp [m2, m1, apply_ite Mach.rst, apply_ite RstSt.kl30]
  have low : m3.rst.kl30 = m2.rst.kl30 := by simp [m3, apply_ite RstSt.kl30]
  have overvolt : m4.rst.kl30 = m3.rst.kl30 := by simp [m4, apply_ite RstSt.kl30]
  have high : m5.rst.kl30 = m4.rst.kl30 := by simp [m5, apply_ite RstSt.kl30]
  have back : m6.rst.kl30 = m5.rst.kl30 := by simp [m6]
  split
  next same => exact (beq_iff_eq.mp same).symm
  · split
    next off => simp [m1, new, old]
    · split
      next retain => split <;> simp [m1, new, old]
      · simp [on, low, overvolt, high, back, new, old]

/-- Settles O8: the class is the entry of table R82 for the level and the class before. -/
theorem supplyClasses : Obligations.SupplyClasses := by
  unfold Obligations.SupplyClasses
  intro s mv hv
  refine does_runMem (f := fun mem m => Mach.kl30Change mem m mv) (exec_kl30LevelChange hv s) ?_
  simp only [Mach.kl30Change_kl30, show s.now.rst.kl30 = s.mach.rst.kl30 from rfl]
  generalize s.mach.rst.kl30 = old
  refine ⟨fun h => ?_, fun h1 h2 => ?_, fun h1 h2 => ?_, fun h1 h2 hold => ?_, fun h1 h2 hold => ?_, fun h1 h2 => ?_,
    fun h1 h2 => ?_, fun h => ?_⟩
  all_goals
    unfold kl30Class
    grind

end Sys2Proof.Machine
end

section
/-! SUPPORT. The rules of the protection state machine of a load channel (R154 to R163). -/

namespace Sys2Proof.Machine

/-- An event of the P-die makes what its effect gives while the main domain has power. -/
theorem makes_runP {c : Instr} {s : State} {f : Mach → Mach} {m : Mach} (hc : exec c s = runP s f)
    (hp : s.now.mainOn = true) (h : f s.now = m) : Makes c s s.mem m := hc.trans (runP_after hp h)

/-- An event of the supervisor makes what its effect gives while the supervisor runs. -/
theorem makes_runSup {c : Instr} {s : State} {f : Mach → Mach} {m : Mach} (hc : exec c s = runSup s f)
    (hp : s.now.supRuns = true) (h : f s.now = m) : Makes c s s.mem m := hc.trans (runSup_after hp h)

variable {m : Mach} {n : Nat}

/-! ### Entries of a state -/

/-- A channel that is not in its first state is one of those that the machine has. -/
theorem Mach.lt_length_of_ps (h : (m.ch n).ps ≠ .off) : n < m.load.ch.length := by
  refine Nat.lt_of_not_le fun hn => ?_
  exact h (by rw [Mach.ch, List.getD_eq_getElem?_getD, List.getElem?_eq_none hn]; rfl)

@[simp] theorem Mach.modCh_droop (k : Nat) (f : Chan → Chan) : (m.modCh k f).load.droop = m.load.droop := rfl

/-- An entry that neither latches nor waits for a retry. -/
theorem Mach.enter_plain {dest : Prot} (hl : dest ≠ .latched) (hr : dest ≠ .retryWait) (cause : Nat) :
    m.enter n dest cause = m.modCh n fun c => { c with
      ps := dest, frozen := false, openOff := false, turned := c.turned || c.ps.conducts } := by
  have noRetry : (dest == .retryWait) = false := by simpa using hr
  simp [Mach.enter, hl, noRetry]

/-- An entry that does not latch stays frozen only in a retry wait (R168). -/
theorem Mach.enter_unlatched {dest : Prot} (hl : dest ≠ .latched) (cause : Nat) :
    m.enter n dest cause = m.modCh n fun c => { c with
      ps := dest, frozen := dest == .retryWait && m.freezes n, openOff := false, turned := c.turned || c.ps.conducts } := by
  simp [Mach.enter, hl]

/-- A latch sets the cause, reports it and raises LOAD_LATCH (R163). -/
theorem Mach.enter_latched (cause : Nat) :
    m.enter n .latched cause = ((m.modCh n fun c => { c with
      ps := .latched, frozen := false, openOff := false, turned := c.turned || c.ps.conducts, cause := cause }).loadIrq n 0).raise
        0x110 (n * 256 + cause) := by
  have noRetry : (Prot.latched == .retryWait) = false := rfl
  simp [Mach.enter, Mach.modCh_modCh, noRetry]

/-- A channel that is not inductive enters its destination at once. -/
theorem Mach.turnOff_resistive (hi : m.inductive? n = false) (dest : Prot) (cause : Nat) :
    m.turnOff n dest cause = m.enter n dest cause := by
  simp [Mach.turnOff, hi]

/-- An inductive channel that conducts goes through DEMAG (R159). -/
theorem Mach.turnOff_inductive (hi : m.inductive? n = true) (hc : (m.ch n).ps.conducts = true) (dest : Prot) (cause : Nat) :
    m.turnOff n dest cause = m.modCh n fun c => { c with
      ps := .demag, dest := dest, destCause := cause, frozen := false, turned := true } := by
  simp [Mach.turnOff, hi, hc]

/-- A change of the channel leaves its configuration. -/
@[simp] theorem Mach.inductive?_modCh (k : Nat) (f : Chan → Chan) : (m.modCh k f).inductive? n = m.inductive? n := rfl

/-- A switch-on renews the freeze allowance (R155, R168). -/
theorem Mach.switchOn_eq (hn : n < m.load.ch.length) :
    m.switchOn n = m.modCh n fun c => { c with
      ps := .inrush, window := c.window || c.retry == 0, spent := false, openOff := false, turned := true
      frozen := m.load.droop.contains (n / 8) && !(m.ch n).drooped } := by
  simp [Mach.switchOn, Mach.freezes, Mach.modCh_modCh, Mach.ch_modCh_same _ _ hn]

/-! ### Attempts -/

theorem Mach.inrushSettle_inrush (h : (m.ch n).ps = .inrush) :
    m.inrushSettle n =
      (m.modCh n fun c => { c with ps := .on, retry := 0, window := false, frozen := false }).refresh n := by
  simp [Mach.inrushSettle, h]

theorem Mach.tRetry_wanted (h : (m.ch n).ps = .retryWait) (hw : (m.ch n).wants = true) :
    m.tRetry n = (m.switchOn n).refresh n := by
  simp [Mach.tRetry, h, hw]

theorem Mach.tRetry_unwanted (h : (m.ch n).ps = .retryWait) (hw : (m.ch n).wants = false) :
    m.tRetry n = (m.enter n .off 0).refresh n := by
  simp [Mach.tRetry, h, hw]

/-- A failed attempt that counts and is not the last one waits for its retry. -/
theorem Mach.attemptFails_retry (hi : m.inductive? n = false) (hn : n < m.load.ch.length)
    (hr : (m.ch n).retry ≠ m.fld (Rg.LOAD_PROT_CFG n) 11 8) :
    m.attemptFails n true = (m.modCh n fun c => { c with
      retry := c.retry + 1, ps := .retryWait, frozen := m.freezes n, openOff := false, turned := c.turned || c.ps.conducts }
      ).loadIrq n 1 := by
  simp [Mach.attemptFails, hr, Mach.turnOff_resistive, hi, Mach.enter_unlatched, Mach.modCh_modCh, Mach.freezes,
    Mach.ch_modCh_same _ _ hn]

/-- The last failed attempt latches, and still counts. -/
theorem Mach.attemptFails_last (hi : m.inductive? n = false) (hr : (m.ch n).retry = m.fld (Rg.LOAD_PROT_CFG n) 11 8) :
    m.attemptFails n true =
      ((m.modCh n fun c => { c with retry := c.retry + 1 }).enter n .latched 0x02).loadIrq n 1 := by
  simp [Mach.attemptFails, hr, Mach.turnOff_resistive, hi, cINRUSH]

theorem Mach.tLim_inrush (h : (m.ch n).ps = .inrush) : m.tLim n = (m.attemptFails n true).refresh n := by
  simp [Mach.tLim, h]

theorem Mach.tLim_on (h : (m.ch n).ps = .on) : m.tLim n = (m.turnOff n .latched 0x03).refresh n := by
  simp [Mach.tLim, h, cOVERLOAD]

theorem Mach.demagEnd_demag (h : (m.ch n).ps = .demag) :
    m.demagEnd n = (m.enter n (m.ch n).dest (m.ch n).destCause).follow n := by
  simp [Mach.demagEnd, h]

theorem Mach.noFreewheel_demag (h : (m.ch n).ps = .demag) {same : Bool} (hs : same = true → (m.ch n).dest ≠ .supplyOff) :
    m.noFreewheel n same =
      (m.enter n .latched (if (m.ch n).dest = .latched then (m.ch n).destCause else 0x05)).refresh n := by
  have acts : (same && (m.ch n).dest == .supplyOff) = false := by simpa using hs
  simp [Mach.noFreewheel, h, acts, cNO_FREEWHEEL]

/-! ### Commands of load channels -/

section
variable (s : State) (n : Fin 48)

theorem exec_inrushSettle : exec (.inrushSettle n) s = runP s (fun m => m.inrushSettle n) := rfl
theorem exec_tLimExpiry : exec (.tLimExpiry n) s = runP s (fun m => m.tLim n) := rfl
theorem exec_tRetryExpiry : exec (.tRetryExpiry n) s = runP s (fun m => m.tRetry n) := rfl
theorem exec_fastTrip : exec (.fastTrip n) s = runP s (fun m => m.fastTrip n) := rfl
theorem exec_inrushWindowExpiry (same : Bool) :
    exec (.inrushWindowExpiry ⟨n, same⟩) s = runP s (fun m => m.windowExpiry n same) := rfl
theorem exec_demagEnd : exec (.demagEnd n) s = runP s (fun m => m.demagEnd n) := rfl
theorem exec_noFreewheel (same : Bool) : exec (.noFreewheel ⟨n, same⟩) s = runP s (fun m => m.noFreewheel n same) := rfl
theorem exec_channelOvertemp : exec (.channelOvertemp n) s = runP s (fun m => m.overtemp n) := rfl
theorem exec_coolEnd : exec (.coolEnd n) s = runP s (fun m => m.coolEnd n) := rfl
theorem exec_offIdleReset : exec (.offIdleReset n) s = runP s (fun m => m.offIdle n) := rfl
theorem exec_restartCountReset : exec (.restartCountReset n) s = runP s (fun m => m.restartReset n) := rfl
theorem exec_freezeAllowanceSpent : exec (.freezeAllowanceSpent n) s = runP s (fun m => m.freezeSpent n) := rfl
theorem exec_openLoadOff : exec (.openLoadOff n) s = runP s (fun m => m.openOffStart n) := rfl
theorem exec_openLoadOffEnd : exec (.openLoadOffEnd n) s = runP s (fun m => m.openOffEnd n) := rfl
theorem exec_pwmOnEdge : exec (.pwmOnEdge n) s = runP s (fun m => m.onEdge n) := rfl
theorem exec_pwmOffEdge : exec (.pwmOffEdge n) s = runP s (fun m => m.offEdge n) := rfl
theorem exec_pwmPeriodStart : exec (.pwmPeriodStart n) s = runP s (fun m => m.periodStart n) := rfl
theorem exec_holdLimitExpiry : exec (.holdLimitExpiry n) s = runP s (fun m => m.holdExpiry n) := rfl

end

/-- Settles O1: each clause is the rule of its event, whose entry is that of a channel as the clause's hypotheses have it. -/
theorem loadAttempts : Obligations.LoadAttempts := by
  unfold Obligations.LoadAttempts
  intro s n hp
  refine ⟨fun h => makes_runP (exec_inrushSettle s n) hp (Mach.inrushSettle_inrush h), fun h hw => ?_, fun h hw => ?_,
    fun h => ?_, fun h => ?_, fun h => ?_, fun h hi hr => ?_, fun h hi => ?_, fun h hd => ?_, fun same h hs => ?_⟩
  · have hn := Mach.lt_length_of_ps (m := s.now) (n := n) (by simp [h])
    exact makes_runP (exec_tRetryExpiry s n) hp (by rw [Mach.tRetry_wanted h hw, Mach.switchOn_eq hn])
  · refine makes_runP (exec_tRetryExpiry s n) hp ?_
    rw [Mach.tRetry_unwanted h hw, Mach.enter_plain (by decide) (by decide)]
  · exact makes_runP (exec_offIdleReset s n) hp (by simp [Mach.offIdle, h])
  · exact makes_runP (exec_restartCountReset s n) hp (by simp [Mach.restartReset, h])
  · exact makes_runP (exec_freezeAllowanceSpent s n) hp (by simp [Mach.freezeSpent, h])
  · have hn := Mach.lt_length_of_ps (m := s.now) (n := n) (by simp [h])
    exact makes_runP (exec_tLimExpiry s n) hp (by rw [Mach.tLim_inrush h, Mach.attemptFails_retry hi hn hr])
  · refine makes_runP (exec_tLimExpiry s n) hp ?_
    rw [Mach.tLim_on h, Mach.turnOff_inductive hi (by rw [h]; rfl)]
  · exact makes_runP (exec_demagEnd s n) hp (by rw [Mach.demagEnd_demag h, Mach.enter_unlatched hd])
  · exact makes_runP (exec_noFreewheel s n same) hp (by rw [Mach.noFreewheel_demag h hs, Mach.enter_latched])

/-! ### Latches -/

/-- A register that none of a loop's steps writes keeps its value. -/
theorem Mach.forAll_rd {α : Type} {f : Mach → α → Mach} {a : Nat} (h : ∀ m x, (f m x).rd a = m.rd a) (m : Mach)
    (l : List α) : (m.forAll l f).rd a = m.rd a := Mach.forAll_keeps (·.rd a) h m l

/-- The start of droop leaves the channel's protection configuration. -/
theorem Mach.inductive?_droopStart (_hn : n < 48) (b : Option Nat) :
    (m.droopStart (n / 8) b).inductive? n = m.inductive? n := by
  have cfg : (m.droopStart (n / 8) b).rd (Rg.LOAD_PROT_CFG n) = m.rd (Rg.LOAD_PROT_CFG n) := by
    unfold Mach.droopStart
    split
    · rfl
    · refine (Mach.forAll_rd (fun m k => ?_) _ _).trans ?_
      · dsimp only
        split <;> rfl
      · simp only [Mach.setBit, Mach.setFld, Mach.fire, Mach.bump16, Rg.LOAD_PROT_CFG,
          Rg.LOAD_BANK_STATUS, Rg.LOAD_BANK_IRQ_STATUS, Rg.LOAD_BANK_DROOP_CNT]
        rw [Mach.rd_wr_other _ _ (by omega), Mach.rd_wr_other _ _ (by omega), Mach.rd_wr_other _ _ (by omega)]
        rfl
  rw [Mach.inductive?, Mach.inductive?, Mach.bit, Mach.bit, cfg]

theorem Mach.fastTrip_on (h : (m.ch n).ps = .on) :
    m.fastTrip n = ((m.droopStart (n / 8) (some n)).turnOff n .latched 0x01).refresh n := by
  simp [Mach.fastTrip, h, Prot.conducts, cSHORT]

theorem Mach.windowExpiry_latches (hw : (m.ch n).window = true) {same : Bool}
    (h : (m.ch n).ps = .inrush ∨ (m.ch n).ps = .retryWait ∧ same = false) :
    m.windowExpiry n same =
      ((m.modCh n fun c => { c with window := false }).turnOff n .latched 0x02).refresh n := by
  obtain h | ⟨h, hs⟩ := h
  · simp [Mach.windowExpiry, hw, h, cINRUSH]
  · simp [Mach.windowExpiry, hw, h, hs, cINRUSH]

/-- Behind a failed attempt of its supervisor cycle the expiry is discarded (R158). -/
theorem Mach.windowExpiry_discarded (h : (m.ch n).ps = .retryWait) : m.windowExpiry n true = m := by
  simp [Mach.windowExpiry, h]

theorem Mach.overtemp_cools (h : (m.ch n).ps.conducts = true) (hl : m.bit (Rg.LOAD_PROT_CFG n) 2 = false)
    (hr : (m.ch n).restart ≠ m.fld (Rg.LOAD_DERATE_CFG n) 15 8) :
    m.overtemp n =
      ((m.modCh n fun c => { c with hot := true, restart := c.restart + 1 }).turnOff n .cool).refresh n := by
  simp [Mach.overtemp, h, hl, hr, Mach.modCh_modCh]

theorem Mach.overtemp_latches (h : (m.ch n).ps.conducts = true) (hl : m.bit (Rg.LOAD_PROT_CFG n) 2 = true) :
    m.overtemp n = ((m.modCh n fun c => { c with hot := true }).turnOff n .latched 0x04).refresh n := by
  simp [Mach.overtemp, h, hl, cOVERTEMP]

theorem Mach.coolEnd_unwanted (h : (m.ch n).ps = .cool) (hw : (m.ch n).wants = false) :
    m.coolEnd n = ((m.modCh n fun c => { c with hot := false, window := true }).enter n .off 0).refresh n := by
  have hn := Mach.lt_length_of_ps (m := m) (n := n) (by simp [h])
  have cool : ((m.modCh n fun c => { c with hot := false }).ch n).ps = .cool := by
    rw [Mach.ch_modCh_same m _ hn]
    exact h
  have unwanted : ((m.modCh n fun c => { c with hot := false }).ch n).wants = false := by
    rw [Mach.ch_modCh_same m _ hn]
    exact hw
  simp [Mach.coolEnd, cool, unwanted, Mach.modCh_modCh]

/-- Settles O2: in each state the event takes a resistive channel straight to its destination. -/
theorem loadLatches : Obligations.LoadLatches := by
  unfold Obligations.LoadLatches
  intro s n hp hi latch
  have latched (m : Mach) (cause : Nat) (h : m.inductive? n = false) : m.turnOff n .latched cause = latch m cause := by
    rw [Mach.turnOff_resistive h, Mach.enter_latched]
  refine ⟨fun h => ?_, fun h => ?_, fun same hw h => ?_, fun h => ?_, fun h hr => ?_, fun h hl hr => ?_, fun h hl => ?_,
    fun h hw => ?_⟩
  · refine makes_runP (exec_fastTrip s n) hp ?_
    rw [Mach.fastTrip_on h, latched _ _ ((Mach.inductive?_droopStart n.isLt _).trans hi)]
  · exact makes_runP (exec_tLimExpiry s n) hp (by rw [Mach.tLim_on h, latched _ _ hi])
  · refine makes_runP (exec_inrushWindowExpiry s n same) hp ?_
    rw [Mach.windowExpiry_latches hw h, latched]
    exact hi
  · exact makes_runP (exec_inrushWindowExpiry s n true) hp (Mach.windowExpiry_discarded h)
  · refine makes_runP (exec_tLimExpiry s n) hp ?_
    rw [Mach.tLim_inrush h, Mach.attemptFails_last hi hr, Mach.enter_latched]
  · refine makes_runP (exec_channelOvertemp s n) hp ?_
    rw [Mach.overtemp_cools (by rw [h]; rfl) hl hr]
    simp [Mach.turnOff_resistive, hi, Mach.enter_plain, Mach.modCh_modCh]
  · refine makes_runP (exec_channelOvertemp s n) hp ?_
    rw [Mach.overtemp_latches (by rw [h]; rfl) hl, latched]
    exact hi
  · refine makes_runP (exec_coolEnd s n) hp ?_
    rw [Mach.coolEnd_unwanted h hw, Mach.enter_plain (by decide) (by decide), Mach.modCh_modCh]

/-! ### Patterns -/

theorem Mach.onEdge_starts (h0 : 0 < min (m.ch n).out.duty (m.ch n).ceilF) (h1 : min (m.ch n).out.duty (m.ch n).ceilF < 1000)
    (hp : (m.ch n).phF ≠ 0) :
    m.onEdge n = ((m.modCh n fun c => { c with onCnt := c.onCnt + 1 }).syncEdge n true).follow n := by
  have starts : (decide (0 < min (m.ch n).out.duty (m.ch n).ceilF) && decide (min (m.ch n).out.duty (m.ch n).ceilF < 1000)
      && (m.ch n).phF != 0) = true := by
    simp only [h0, h1, decide_true, Bool.true_and, bne_iff_ne]
    exact hp
  exact if_pos starts

/-- A free pattern starts its next period at once, with its on interval (R138, R143). -/
theorem Mach.periodStart_free {d p : Nat} (hx : (m.ch n).nxt = none) (ho : (m.ch n).out = .free d p)
    (h0 : 0 < min d (m.ch n).ceiling) (h1 : min d (m.ch n).ceiling < 1000) :
    m.periodStart n = ((((m.modCh n fun c => { c with
      out := .free d p, nxt := none, onCnt := c.onCnt + 1, tail := false, lead := false, phF := 0
      fresh := if c.ceilF == c.ceiling then c.fresh else 0, ceilF := c.ceiling }).syncEdge n false).syncEdge n true).follow n) := by
  have pattern : m.startingPattern n = some (.free d p) := by
    simp [Mach.startingPattern, hx, Mach.periodDue, ho]
  simp only [Mach.periodStart, pattern, ho, hx, Mach.phaseOf, Out.duty, beq_self_eq_true, h0, h1, decide_true, Bool.and_self,
    if_true]
  congr 3
  apply Mach.modCh_congr
  simp [hx, flagNat]

/-- A hold limit takes the rest value (R142). -/
theorem Mach.holdExpiry_takes (hd : (m.ch n).disp = true) (hh : (m.ch n).hold = true)
    (hc : m.restOut n = .on → (m.ch n).ceilF = 1000) :
    m.holdExpiry n = ((m.modCh n fun c => { c with
      hold := false, out := m.restOut n, free := false, tail := false, lead := false
      phF := m.phaseOf n (m.restOut n), onCnt := 0 }).loadIrq n 4).follow n := by
  have taken : m.takeOut n (m.restOut n) = m.modCh n fun c => { c with
      hold := false, out := m.restOut n, free := false, tail := false, lead := false
      phF := m.phaseOf n (m.restOut n), onCnt := 0 } := by
    apply Mach.modCh_congr
    by_cases ho : m.restOut n = .on
    · simp [hc ho, flagNat]
    · simp [beq_eq_false_iff_ne.mpr ho, flagNat]
  simp [Mach.holdExpiry, hd, hh, taken]

theorem exec_syncPulseEnd (s : State) (k : Fin 8) : exec (.syncPulseEnd k) s = runP s (fun m => m.syncPulseEnd k) := rfl

/-- Settles O3: each clause is the rule of its edge or expiry under the clause's hypotheses. -/
theorem loadPatterns : Obligations.LoadPatterns := by
  unfold Obligations.LoadPatterns
  intro s hp
  refine ⟨fun n h0 h1 hph => ?_, fun n => ?_, fun n d p hx ho h0 h1 => ?_, fun n hd hh hc => ?_, fun k => ?_⟩
  · exact makes_runP (exec_pwmOnEdge s n) hp (Mach.onEdge_starts h0 h1 hph)
  · exact makes_runP (exec_pwmOffEdge s n) hp rfl
  · exact makes_runP (exec_pwmPeriodStart s n) hp (Mach.periodStart_free hx ho h0 h1)
  · exact makes_runP (exec_holdLimitExpiry s n) hp (Mach.holdExpiry_takes hd hh hc)
  · exact makes_runP (exec_syncPulseEnd s k) hp rfl

/-! ### Shedding -/

theorem Mach.shedStart_far {i : Nat} (he : (m.scope (Mach.shedScope i)).exhausted = true)
    (hf : (m.scope (Mach.shedScope i)).far = true) :
    m.shedStart i =
      (m.setScope (Mach.shedScope i) { m.scope (Mach.shedScope i) with shedding := true }).showBudget := by
  simp [Mach.shedStart, he, hf]

theorem Mach.shedStep_sheds {i k : Nat} (hs : (m.scope (Mach.shedScope i)).shedding = true)
    (hk : (let cs := (Mach.shedScope i).chans.filter fun n => (m.ch n).ps.conducts && !m.deratable? n
      (cs.filter fun n => m.derateRank n == Mach.leastOf (cs.map m.derateRank)).getLast?) = some k) :
    m.shedStep i =
      ((((m.turnOff k .latched 0x06).refresh k).fire Rg.LOAD_BUDGET_IRQ_STATUS 2).bump16 Rg.LOAD_SHED_CNT).raise 0x112
        (Mach.shedScope i).code := by
  rw [Mach.shedStep]
  dsimp only at hk ⊢
  rw [if_pos hs, hk]
  rfl

theorem Mach.fallbackTrip_shown {p : Nat} (h : m.bit Rg.LOAD_BUDGET_STATUS 0 = true) :
    m.fallbackTrip p = m.forAll ((List.range 24).map (24 * p + ·)) fun m n =>
      if (m.ch n).derKept = true then (m.modCh n fun c => { c with fellBack := true }).follow n else m := by
  simp [Mach.fallbackTrip, h]

theorem exec_shedStart (s : State) (i : Fin 3) : exec (.shedStart i) s = runSup s (fun m => m.shedStart i) := rfl
theorem exec_shedStep (s : State) (i : Fin 3) : exec (.shedStep i) s = runSup s (fun m => m.shedStep i) := rfl
theorem exec_fallbackTrip (s : State) (p : Fin 2) : exec (.fallbackTrip p) s = runP s (fun m => m.fallbackTrip p) := rfl

/-- Settles O4: each clause is the rule of its event under the clause's hypotheses. -/
theorem loadSheds : Obligations.LoadSheds := by
  unfold Obligations.LoadSheds
  intro s
  refine ⟨fun i hs he hf => ?_, fun i n hs hsh hn => ?_, fun p hp h => ?_⟩
  · exact makes_runSup (exec_shedStart s i) hs (Mach.shedStart_far he hf)
  · exact makes_runSup (exec_shedStep s i) hs (Mach.shedStep_sheds hsh hn)
  · exact makes_runP (exec_fallbackTrip s p) hp (Mach.fallbackTrip_shown h)

/-! ### Loops over the channels -/

/-- A loop that visits each channel once, and at each visit changes what it looks at in that channel alone. -/
theorem Mach.forAll_ch_once {β : Type} (g : Chan → β) (F : Nat → β → β) {f : Mach → Nat → Mach}
    (len : ∀ m k, (f m k).load.ch.length = m.load.ch.length)
    (other : ∀ m k j, j ≠ k → g ((f m k).ch j) = g (m.ch j))
    (self : ∀ m k, k < m.load.ch.length → g ((f m k).ch k) = F k (g (m.ch k)))
    {l : List Nat} (hl : l.Nodup) (hn : n < m.load.ch.length) :
    g ((m.forAll l f).ch n) = if n ∈ l then F n (g (m.ch n)) else g (m.ch n) := by
  induction l generalizing m with
  | nil => rfl
  | cons k l ih =>
    obtain ⟨hk, hl⟩ := List.nodup_cons.mp hl
    have rest := ih hl (m := f m k) (by rwa [len])
    refine rest.trans ?_
    by_cases hnk : n = k
    · subst hnk
      simp [hk, self m n hn]
    · simp [hnk, other m k n hnk]

@[simp] theorem Mach.modCh_length (k : Nat) (f : Chan → Chan) : (m.modCh k f).load.ch.length = m.load.ch.length := by
  simp [Mach.modCh]

/-- A change of one channel that leaves some of its data leaves it in every channel. -/
theorem Mach.ch_modCh_keeps {β : Type} (g : Chan → β) {f : Chan → Chan} (h : ∀ c, g (f c) = g c) (k : Nat) :
    g ((m.modCh k f).ch n) = g (m.ch n) := by
  by_cases hk : n = k
  · subst hk
    rw [Mach.ch_modCh]
    split
    · exact h _
    · rfl
  · rw [Mach.ch_modCh_other m f hk]

/-! ### What operations of a channel leave of its samples and its mean -/

@[simp] theorem Mach.loadIrq_load (k i : Nat) : (m.loadIrq k i).load = m.load := by
  simp [Mach.loadIrq, apply_ite Mach.load]

@[simp] theorem Mach.refresh_load (k : Nat) : (m.refresh k).load = m.load := by
  simp [Mach.refresh, apply_ite Mach.load]

/-- Channels are part of the load engine. -/
theorem Mach.ch_congr {m m' : Mach} (h : m'.load = m.load) (k : Nat) : m'.ch k = m.ch k := by
  rw [Mach.ch, Mach.ch, h]

theorem Mach.showSense_ch (k : Nat) : m.showSense.ch k = m.ch k := rfl

/-- A sample of the on-state open-load test changes runs and flag alone. -/
theorem Mach.openOnSample_keeps {β : Type} (g : Chan → β) (hl : ∀ c x y, g { c with lowRun := x, highRun := y } = g c)
    (ho : ∀ c x, g { c with openOn := x } = g c) (k mA j : Nat) : g ((m.openOnSample k mA).ch j) = g (m.ch j) := by
  have runs (x y : Chan → Nat) : g ((m.modCh k fun c => { c with lowRun := x c, highRun := y c }).ch j) = g (m.ch j) :=
    Mach.ch_modCh_keeps g (fun c => hl c _ _) k
  have opened (m : Mach) (x : Bool) : g ((m.modCh k fun c => { c with openOn := x }).ch j) = g (m.ch j) :=
    Mach.ch_modCh_keeps g (fun c => ho c _) k
  unfold Mach.openOnSample
  dsimp only
  split
  · split
    · split
      · rw [Mach.ch_congr (Mach.refresh_load k), Mach.ch_congr (Mach.loadIrq_load k 2), opened]
        exact runs (fun c => min 40 (c.lowRun + 1)) fun _ => 0
      · exact runs (fun c => min 40 (c.lowRun + 1)) fun _ => 0
    · split
      · rw [Mach.ch_congr (Mach.refresh_load k), opened]
        exact runs (fun _ => 0) fun c => min 40 (c.highRun + 1)
      · exact runs (fun _ => 0) fun c => min 40 (c.highRun + 1)
  · rfl

@[simp] theorem Mach.openOnSample_length (k mA : Nat) : (m.openOnSample k mA).load.ch.length = m.load.ch.length := by
  unfold Mach.openOnSample
  grind [Mach.refresh_load, Mach.loadIrq_load, Mach.modCh_length]

/-- The supervisor's sample puts the current of each channel that conducts, and 0 of the others, before its last 19. -/
theorem Mach.sample_samples (hl : m.load.ch.length = 48) (mA : List Nat) (hn : n < 48) :
    ((m.sample mA).ch n).samples =
      ((if (m.ch n).ps.conducts then mA.getD n 0 else 0) :: (m.ch n).samples).take 20 := by
  have each := Mach.forAll_ch_once (m := m) (n := n) (fun c => (c.ps, c.samples))
    (fun k x => (x.1, ((if x.1.conducts then mA.getD k 0 else 0) :: x.2).take 20))
    (f := fun m n =>
      let i := if (m.ch n).ps.conducts then mA.getD n 0 else 0
      let code := m.senseCode n i
      (m.modCh n fun c => { c with samples := (i :: c.samples).take 20, code := code, fresh := min 20 (c.fresh + 1) }
        ).openOnSample n i)
    (fun m k => by simp)
    (fun m k j hj => by
      dsimp only
      rw [Mach.openOnSample_keeps (fun c => (c.ps, c.samples)) (fun _ _ _ => rfl) fun _ _ => rfl, Mach.ch_modCh_other m _ hj])
    (fun m k hk => by
      dsimp only
      rw [Mach.openOnSample_keeps (fun c => (c.ps, c.samples)) (fun _ _ _ => rfl) fun _ _ => rfl, Mach.ch_modCh_same m _ hk])
    (List.nodup_range (n := 48)) (hl.symm ▸ hn)
  rw [if_pos (List.mem_range.mpr hn)] at each
  exact congrArg Prod.snd each

/-- The mean current of every channel is as it was. -/
def Mach.SameMeans (m m' : Mach) : Prop := ∀ k, (m'.ch k).mean = (m.ch k).mean

theorem Mach.SameMeans.refl (m : Mach) : m.SameMeans m := fun _ => rfl

theorem Mach.SameMeans.trans {m m' m'' : Mach} (h : m.SameMeans m') (h' : m'.SameMeans m'') : m.SameMeans m'' :=
  fun k => (h' k).trans (h k)

theorem Mach.SameMeans.of_load {m' : Mach} (h : m'.load = m.load) : m.SameMeans m' := fun k => by rw [Mach.ch_congr h]

theorem Mach.SameMeans.modCh (k : Nat) {f : Chan → Chan} (h : ∀ c, (f c).mean = c.mean := by intro c; rfl) :
    m.SameMeans (m.modCh k f) := fun _ => Mach.ch_modCh_keeps Chan.mean h k

theorem Mach.SameMeans.ite {c : Prop} [Decidable c] {x y : Mach} (hx : m.SameMeans x) (hy : m.SameMeans y) :
    m.SameMeans (if c then x else y) := by
  split
  · exact hx
  · exact hy

theorem Mach.SameMeans.forAll {α : Type} {f : Mach → α → Mach} (h : ∀ (m : Mach) x, m.SameMeans (f m x)) (m : Mach) (l : List α) :
    m.SameMeans (m.forAll l f) := fun k => Mach.forAll_keeps (fun m => (m.ch k).mean) (fun m x => h m x k) m l

theorem Mach.sameMeans_enter (k : Nat) (dest : Prot) (cause : Nat) : m.SameMeans (m.enter k dest cause) := by
  unfold Mach.enter
  extract_lets m1 m2
  have entered : m.SameMeans m1 := .modCh k
  have latched : m1.SameMeans m2 := .modCh k
  exact .ite ((entered.trans latched).trans (.of_load (Mach.loadIrq_load k 0))) entered

theorem Mach.sameMeans_turnOff (k : Nat) (dest : Prot) (cause : Nat) : m.SameMeans (m.turnOff k dest cause) :=
  .ite (.modCh k) (Mach.sameMeans_enter k dest cause)

theorem Mach.sameMeans_switchOn (k : Nat) : m.SameMeans (m.switchOn k) :=
  (Mach.SameMeans.modCh k).trans (.modCh k)

theorem Mach.sameMeans_supplyOff (k : Nat) : m.SameMeans (m.supplyOff k) := by
  have counts : m.SameMeans (m.modCh k fun c => { c with retry := 0, window := false }) := .modCh k
  exact .ite (.refl m) (.ite (counts.trans (.modCh k)) (counts.trans (Mach.sameMeans_turnOff k .supplyOff 0)))

theorem Mach.sameMeans_refresh (k : Nat) : m.SameMeans (m.refresh k) := .of_load (Mach.refresh_load k)

theorem Mach.sameMeans_follow (k : Nat) : m.SameMeans (m.follow k) := by
  unfold Mach.follow
  extract_lets m1 c m2
  have first : m.SameMeans m1 := .modCh k
  refine Mach.SameMeans.trans (first.trans ?_) (Mach.sameMeans_refresh k)
  refine .ite (Mach.sameMeans_supplyOff k) ?_
  split
  · exact .ite (Mach.sameMeans_switchOn k) (.refl m1)
  · exact .ite (.refl m1) (Mach.sameMeans_turnOff k .off 0)
  · exact .ite (.refl m1) (Mach.sameMeans_turnOff k .off 0)
  · exact .refl m1

theorem Mach.sameMeans_setCeiling (k v : Nat) : m.SameMeans (m.setCeiling k v) := by
  unfold Mach.setCeiling
  extract_lets c crosses m1 ph m2 m3
  have set : m.SameMeans m1 := .modCh k
  have begun : m1.SameMeans m2 := .ite (.modCh k) (.refl m1)
  have off : m2.SameMeans m3 := .ite (.modCh k) (.refl m2)
  have shown : ∀ m : Mach, m.SameMeans (m.showDerating (k / 8)) := fun m => .of_load (m.setBit_load _ _ _)
  refine (((set.trans begun).trans off).trans ?_).trans ((Mach.sameMeans_follow k).trans (shown _))
  exact .ite (.of_load (Mach.loadIrq_load k 3)) (.refl m3)

theorem Mach.setScope_ch (x : Scope) (v : ScopeSt) (k : Nat) : (m.setScope x v).ch k = m.ch k := rfl

@[simp] theorem Mach.showScope_load (x : Scope) (old new : ScopeSt) : (m.showScope x old new).load = m.load := by
  cases x <;> delta Mach.showScope <;> simp [apply_ite Mach.load]

theorem Mach.sameMeans_judgeScope (x : Scope) : m.SameMeans (m.judgeScope x) := by
  unfold Mach.judgeScope
  extract_lets old v lim isOver exhausted new m1
  have judged : m.SameMeans m1 := fun k => by rw [Mach.ch_congr (Mach.showScope_load x old new), Mach.setScope_ch]
  exact .ite judged judged

theorem Mach.sameMeans_showBudget : m.SameMeans m.showBudget := by
  unfold Mach.showBudget
  extract_lets any m1 m2
  have summary : m.SameMeans m2 := .of_load (by simp [m2, m1])
  exact summary.trans (.forAll (fun m k => .of_load (m.setBit_load _ _ _)) m2 _)

theorem Mach.sameMeans_raiseCeilings : m.SameMeans m.raiseCeilings :=
  .forAll (fun _ k => Mach.sameMeans_setCeiling k _) m _

theorem Mach.sameMeans_countCalm : m.SameMeans m.countCalm := .forAll (fun _ k => .modCh k) m _

theorem Mach.ch_heat (m : Mach) (y n : Nat) : ({ m with load := { m.load with heat := y } } : Mach).ch n = m.ch n := rfl

/-- An evaluation forms each mean from the last 20 samples (R169), and nothing behind that changes it. -/
theorem Mach.formMeans_mean (hl : m.load.ch.length = 48) (tj : List Int) (hn : n < 48) :
    ((m.formMeans tj).ch n).mean = sumNat ((m.ch n).samples.take 20) / 20 := by
  have each := Mach.forAll_ch_once (m := m) (n := n) (fun c => (c.mean, c.samples))
    (fun _ x => (sumNat (x.2.take 20) / 20, x.2))
    (f := fun m n => m.modCh n fun c => { c with mean := sumNat (c.samples.take 20) / 20 })
    (fun m k => Mach.modCh_length k _)
    (fun m k j hj => by rw [Mach.ch_modCh_other m _ hj])
    (fun m k hk => by rw [Mach.ch_modCh_same m _ hk])
    (List.nodup_range (n := 48)) (hl.symm ▸ hn)
  rw [if_pos (List.mem_range.mpr hn)] at each
  unfold Mach.formMeans
  extract_lets m1
  rw [Mach.ch_heat]
  have mean := congrArg Prod.fst each
  dsimp only at mean
  exact mean

theorem Mach.evaluate_mean (hl : m.load.ch.length = 48) (tj : List Int) (hn : n < 48) :
    ((m.evaluate tj).ch n).mean = sumNat ((m.ch n).samples.take 20) / 20 := by
  rw [← Mach.formMeans_mean hl tj hn]
  unfold Mach.evaluate
  extract_lets m1 m2 step ready m3 m4 m5
  have judged : m1.SameMeans m2 := .forAll (fun _ x => Mach.sameMeans_judgeScope x) m1 _
  have stepped : m2.SameMeans m3 :=
    .forAll (fun _ k => (Mach.sameMeans_setCeiling k _).trans (.modCh k)) m2 _
  exact ((((judged.trans stepped).trans Mach.sameMeans_countCalm).trans Mach.sameMeans_raiseCeilings).trans
    Mach.sameMeans_showBudget) n

/-! ### Open load and droop -/

theorem Mach.openOffStart_opens (hb : m.bit (Rg.LOAD_PROT_CFG n) 4 = true) (h : (m.ch n).ps = .off)
    (ho : (m.ch n).openOff = false) :
    m.openOffStart n = ((m.modCh n fun c => { c with openOff := true }).loadIrq n 2).refresh n := by
  simp [Mach.openOffStart, hb, h, ho]

/-- The droop of a bank that no channel has caused. -/
theorem Mach.droopStart_none {b : Nat} (hb : b ∉ m.load.droop) :
    m.droopStart b none =
      ((((({ m with load := { m.load with droop := b :: m.load.droop } } : Mach).bump16
        (Rg.LOAD_BANK_DROOP_CNT b)).fire (Rg.LOAD_BANK_IRQ_STATUS b) 1).setBit (Rg.LOAD_BANK_STATUS b) 1 true).forAll
          ((List.range 8).map (8 * b + ·)) fun m n =>
            let m := m.modCh n fun c => { c with drooped := false }
            if ((m.ch n).ps = .inrush ∨ (m.ch n).ps = .retryWait) ∧ m.freezes n = true
            then m.modCh n fun c => { c with frozen := true } else m) := by
  simp [Mach.droopStart, hb]

theorem Mach.droopEnd_ends {b : Nat} (hb : b ∈ m.load.droop) :
    m.droopEnd b =
      ((({ m with load := { m.load with droop := m.load.droop.filter (· != b) } } : Mach).setBit
        (Rg.LOAD_BANK_STATUS b) 1 false).forAll ((List.range 8).map (8 * b + ·)) fun m n =>
          m.modCh n fun c => { c with frozen := false, drooped := false }) := by
  simp [Mach.droopEnd, hb]

theorem exec_bankDroopStart (s : State) (b : Fin 6) : exec (.bankDroopStart b) s = runP s (fun m => m.droopStart b none) := rfl
theorem exec_bankDroopEnd (s : State) (b : Fin 6) : exec (.bankDroopEnd b) s = runP s (fun m => m.droopEnd b) := rfl
theorem exec_senseSample (s : State) (mA : List Nat) : exec (.senseSample mA) s = runSup s (fun m => m.sample mA) := rfl
theorem exec_budgetEvaluation (s : State) (tj : List Int) :
    exec (.budgetEvaluation tj) s = runSup s (fun m => m.evaluate tj) := rfl

/-- Settles O5: the rules of open load and droop; sample and evaluation visit each channel once, and what follows them in
the cycle leaves samples and means. -/
theorem loadDiagnosis : Obligations.LoadDiagnosis := by
  unfold Obligations.LoadDiagnosis
  refine ⟨fun s hp => ⟨fun n hb h ho => ?_, fun n => ?_, fun b hb => ?_, fun b hb => ?_⟩,
    fun s hl => ⟨fun mA hs => ?_, fun tj hs => ?_, fun mA hs => ?_, fun tj hs => ?_⟩⟩
  · exact makes_runP (exec_openLoadOff s n) hp (Mach.openOffStart_opens hb h ho)
  · exact makes_runP (exec_openLoadOffEnd s n) hp rfl
  · exact makes_runP (exec_bankDroopStart s b) hp (Mach.droopStart_none hb)
  · exact makes_runP (exec_bankDroopEnd s b) hp (Mach.droopEnd_ends hb)
  · exact makes_does (makes_runSup (exec_senseSample s mA) hs rfl) ⟨rfl, fun n => Mach.sample_samples hl mA n.isLt⟩
  · exact makes_does (makes_runSup (exec_budgetEvaluation s tj) hs rfl) ⟨rfl, fun n => Mach.evaluate_mean hl tj n.isLt⟩
  · exact (exec_senseSample s mA).trans (runSup_off hs)
  · exact (exec_budgetEvaluation s tj).trans (runSup_off hs)

end Sys2Proof.Machine
end


section
/-! SUPPORT. Register values: which bit a field update changes, and the registers whose write or read has no other effect
than that of its field types (table R4). -/

namespace Sys2Proof.Machine

variable {m : Mach}

/-! ### Bits of a value -/

theorem testBit_bitsOutside (v mask i : Nat) : (bitsOutside v mask).testBit i = (v.testBit i && decide (i < 32) && !mask.testBit i) := by
  have ones : (0xFFFFFFFF : Nat) = 2 ^ 32 - 1 := rfl
  rw [bitsOutside, ones, Nat.testBit_and, Nat.testBit_xor, Nat.testBit_two_pow_sub_one, Nat.testBit_mod_two_pow]
  by_cases h : i < 32 <;> simp [h]

theorem testBit_mergeBits (old new mask i : Nat) : (mergeBits old new mask).testBit i =
    (if mask.testBit i then new.testBit i else old.testBit i && decide (i < 32)) := by
  rw [mergeBits, Nat.testBit_or, Nat.testBit_and, testBit_bitsOutside]
  cases mask.testBit i <;> simp

theorem testBit_maskOf (hi lo i : Nat) : (maskOf hi lo).testBit i = (decide (lo ≤ i) && decide (i < hi + 1 - lo + lo)) := by
  rw [maskOf, Nat.testBit_shiftLeft, Nat.testBit_two_pow_sub_one]
  by_cases h : lo ≤ i
  · simp [h]; omega
  · simp [h]

theorem testBit_withBits (v hi lo x i : Nat) : (withBits v hi lo x).testBit i =
    (if lo ≤ i ∧ i < hi + 1 - lo + lo then x.testBit (i - lo) else v.testBit i && decide (i < 32)) := by
  rw [withBits, testBit_mergeBits, testBit_maskOf, Nat.testBit_shiftLeft, Nat.testBit_mod_two_pow]
  by_cases h : lo ≤ i <;> by_cases h' : i < hi + 1 - lo + lo
  · have : i - lo < hi + 1 - lo := by omega
    simp [h, h', this]
  · simp [h, h']
  · simp [h]
  · simp [h]

theorem testBit_bitsOf (v hi lo i : Nat) : (bitsOf v hi lo).testBit i = (decide (i < hi + 1 - lo) && v.testBit (lo + i)) := by
  rw [bitsOf, Nat.testBit_mod_two_pow, Nat.testBit_shiftRight]

/-- A register holds 32 bits. -/
theorem Mach.rd_lt {a : Nat} (hc : coldAt a < 2 ^ 32) : m.rd a < 2 ^ 32 := by
  unfold Mach.rd
  split
  · exact BitVec.isLt _
  · exact hc

/-! ### Fields of a register after a write of one -/

theorem Mach.bit_setBit_same (a : Nat) {i : Nat} (b : Bool) (hi : i < 32) : (m.setBit a i b).bit a i = b := by
  rw [Mach.bit, Mach.setBit, Mach.setFld, Mach.rd_wr_same, bitOf_eq_testBit, Nat.testBit_mod_two_pow, testBit_withBits]
  cases b <;> simp [hi, flagNat]

theorem Mach.bit_setFld_other (a : Nat) {hi lo i : Nat} (x : Nat) (hn : i < lo ∨ hi < i) (h32 : i < 32) :
    (m.setFld a hi lo x).bit a i = m.bit a i := by
  rw [Mach.bit, Mach.bit, Mach.setFld, Mach.rd_wr_same, bitOf_eq_testBit, bitOf_eq_testBit, Nat.testBit_mod_two_pow,
    testBit_withBits, if_neg (by omega)]
  simp [h32]

theorem Mach.bit_setBit_other (a : Nat) {i j : Nat} (b : Bool) (hn : i ≠ j) (h32 : i < 32) :
    (m.setBit a j b).bit a i = m.bit a i := Mach.bit_setFld_other a _ (by omega) h32

theorem Mach.rd_setFld_other {a b : Nat} (hi lo x : Nat) (h : b ≠ a) : (m.setFld a hi lo x).rd b = m.rd b :=
  Mach.rd_wr_other m _ h

theorem Mach.rd_setBit_other {a b : Nat} (i : Nat) (x : Bool) (h : b ≠ a) : (m.setBit a i x).rd b = m.rd b :=
  Mach.rd_wr_other m _ h

theorem Mach.rd_fire_other {a b : Nat} (i : Nat) (h : b ≠ a) : (m.fire a i).rd b = m.rd b := Mach.rd_wr_other m _ h

theorem Mach.bit_of_rd {n : Mach} {a : Nat} (h : n.rd a = m.rd a) (i : Nat) : n.bit a i = m.bit a i := by
  rw [Mach.bit, Mach.bit, h]

theorem Mach.fld_of_rd {n : Mach} {a : Nat} (h : n.rd a = m.rd a) (hi lo : Nat) : n.fld a hi lo = m.fld a hi lo := by
  rw [Mach.fld, Mach.fld, h]

theorem Mach.fld_setFld_same (a : Nat) {hi lo : Nat} (x : Nat) (h32 : hi < 32) (hl : lo ≤ hi) :
    (m.setFld a hi lo x).fld a hi lo = x % 2 ^ (hi + 1 - lo) := by
  refine Nat.eq_of_testBit_eq fun i => ?_
  rw [Mach.fld, Mach.setFld, Mach.rd_wr_same, testBit_bitsOf, Nat.testBit_mod_two_pow, Nat.testBit_mod_two_pow, testBit_withBits]
  by_cases h : i < hi + 1 - lo
  · have e1 : lo + i < 32 := by omega
    have e2 : lo + i < hi + 1 - lo + lo := by omega
    simp [h, e1, e2]
  · simp [h]

theorem Mach.fld_setFld_other (a : Nat) {hi lo hi' lo' : Nat} (x : Nat) (h32 : hi < 32) (hn : hi < lo' ∨ hi' < lo) (hl : lo' ≤ hi') :
    (m.setFld a hi' lo' x).fld a hi lo = m.fld a hi lo := by
  refine Nat.eq_of_testBit_eq fun i => ?_
  rw [Mach.fld, Mach.fld, Mach.setFld, Mach.rd_wr_same, testBit_bitsOf, testBit_bitsOf, Nat.testBit_mod_two_pow, testBit_withBits]
  by_cases h : i < hi + 1 - lo
  · have e1 : lo + i < 32 := by omega
    rw [if_neg (by omega)]
    simp [h, e1]
  · simp [h]

theorem Mach.fire_eq (a i : Nat) : m.fire a i = m.setBit a i true := rfl

/-! ### Registers by their field types -/

/-- The masks of the register that an access of TICK_IRQ_EN reaches. -/
theorem hit_TICK_IRQ_EN {h : Hit} {ms : List Nat} (hr : resolve Rg.TICK_IRQ_EN 4 = some (.reg h ms)) :
    h.d.writeMask = 0xFF ∧ h.d.maskIf (·.acc == .rw) = 0xFF ∧ h.d.maskIf (·.acc == .w1c) = 0 ∧ h.d.maskIf (·.acc == .w1s) = 0 := by
  have found : resolve Rg.TICK_IRQ_EN 4 = some (.reg ⟨(findReg Rg.TICK_IRQ_EN).get rfl |>.d, []⟩ []) := rfl
  cases found.symm.trans hr
  decide

/-- The masks of the register that an access of TICK_IRQ_STATUS reaches. -/
theorem hit_TICK_IRQ_STATUS {h : Hit} {ms : List Nat} (hr : resolve Rg.TICK_IRQ_STATUS 4 = some (.reg h ms)) :
    h.d.writeMask = 0xFF ∧ h.d.maskIf (·.acc == .rw) = 0 ∧ h.d.maskIf (·.acc == .w1c) = 0xFF ∧ h.d.maskIf (·.acc == .w1s) = 0 := by
  have found : resolve Rg.TICK_IRQ_STATUS 4 = some (.reg ⟨(findReg Rg.TICK_IRQ_STATUS).get rfl |>.d, []⟩ []) := rfl
  cases found.symm.trans hr
  decide

/-- The masks of the register that an access of TICK_LATE_CNT reaches. -/
theorem hit_TICK_LATE_CNT {h : Hit} {ms : List Nat} (hr : resolve Rg.TICK_LATE_CNT 4 = some (.reg h ms)) :
    (∀ heart, Mach.readMask heart h.d = 0xFFFFFFFF) ∧ h.d.accMask .rc = 0xFFFFFFFF := by
  have found : resolve Rg.TICK_LATE_CNT 4 = some (.reg ⟨(findReg Rg.TICK_LATE_CNT).get rfl |>.d, []⟩ []) := rfl
  cases found.symm.trans hr
  decide

/-- A write of TICK_IRQ_EN or TICK_IRQ_STATUS stores its fields and does nothing else. -/
theorem Mach.act_tickIrq (mem : Mem) {h : Hit} {e : Stg} (ha : e.addr < 0x42000000)
    (hn : h.d.name = .TICK_IRQ_EN ∨ h.d.name = .TICK_IRQ_STATUS) :
    Mach.act mem m h e = (mem, m.storeReg h e.addr e.val e.mask) := by
  rcases hn with hn | hn <;>
    simp [Mach.act, Nat.not_le.mpr ha, Mach.actModule, Mach.actCompute, Mach.actComm, hn]

/-- RW fields take the value (R4). -/
theorem fieldsOf_storeBits_rw (old v : Nat) {d : RegDesc} (hm : d.maskIf (·.acc == .rw) = 0xFF) (hc : d.maskIf (·.acc == .w1c) = 0)
    (hs : d.maskIf (·.acc == .w1s) = 0) : bitsOf (storeBits old v 0xFF d % 2 ^ 32) 7 0 = v % 256 := by
  have low : (0xFF : Nat) = 2 ^ 8 - 1 := rfl
  refine Nat.eq_of_testBit_eq fun i => ?_
  rw [show (256 : Nat) = 2 ^ 8 from rfl, Nat.testBit_mod_two_pow, testBit_bitsOf, Nat.testBit_mod_two_pow]
  by_cases h : i < 8
  · have h32 : i < 32 := by omega
    have one : (0xFF : Nat).testBit i = true := by rw [low, Nat.testBit_two_pow_sub_one]; simp [h]
    simp [storeBits, hm, hc, hs, testBit_bitsOutside, testBit_mergeBits, h, h32, one]
  · simp [h]

/-- W1C bits clear where the value is 1 (R4). -/
theorem bitOf_storeBits_w1c (old v : Nat) {d : RegDesc} (hm : d.maskIf (·.acc == .rw) = 0) (hc : d.maskIf (·.acc == .w1c) = 0xFF)
    (hs : d.maskIf (·.acc == .w1s) = 0) {i : Nat} (h : i < 8) :
    bitOf (storeBits old v 0xFF d % 2 ^ 32) i = (bitOf old i && !bitOf v i) := by
  have low : (0xFF : Nat) = 2 ^ 8 - 1 := rfl
  have h32 : i < 32 := by omega
  have one : (0xFF : Nat).testBit i = true := by rw [low, Nat.testBit_two_pow_sub_one]; simp [h]
  simp only [bitOf_eq_testBit, Nat.testBit_mod_two_pow, h32]
  simp [storeBits, hm, hc, hs, testBit_bitsOutside, testBit_mergeBits, h32, one]

/-- A read of TICK_LATE_CNT gives its value and clears it (R4). -/
theorem Mach.readReg_TICK_LATE_CNT {h : Hit} {ms : List Nat} (init : Nat) (hr : resolve Rg.TICK_LATE_CNT 4 = some (.reg h ms))
    (hn : h.d.name = .TICK_LATE_CNT) (hc : m.readClears init = true) :
    m.readReg init Rg.TICK_LATE_CNT h =
      (m.wr Rg.TICK_LATE_CNT (bitsOutside (m.rd Rg.TICK_LATE_CNT) 0xFFFFFFFF), m.rd Rg.TICK_LATE_CNT) := by
  obtain ⟨hmask, hacc⟩ := hit_TICK_LATE_CNT hr
  have whole : m.rd Rg.TICK_LATE_CNT &&& 0xFFFFFFFF = m.rd Rg.TICK_LATE_CNT := by
    rw [show (0xFFFFFFFF : Nat) = 2 ^ 32 - 1 from rfl, Nat.and_two_pow_sub_one_eq_mod, Nat.mod_eq_of_lt (Mach.rd_lt (by decide))]
  have out : m.inert h Rg.TICK_LATE_CNT = false := by simp [Mach.inert, hn, Rg.TICK_LATE_CNT]
  simp [Mach.readReg, out, hn, hmask, hacc, hc, Mach.shown, whole]

/-- Settles O19: an access answers by what it addresses; a write that nothing bars stores its fields, a read clears. -/
theorem registerAccess : Obligations.RegisterAccess := by
  unfold Obligations.RegisterAccess
  refine fun s init => ⟨fun a w v hc => ⟨?_, ?_⟩, fun a w v hc hr => ⟨registerWrite_unresolved hc hr init v, rcRead_unresolved hc hr init⟩,
    fun v ht => ?_, fun v ht => ?_, fun ht hrc => ?_⟩
  · rw [Makes, exec_registerWrite]
    exact runMem_after (by simp [Mach.writeReg, Mach.writeWith, Mach.nearWrite, hc])
  · rw [Makes, exec_rcRead]
    exact run_after (by simp [Mach.readNow, Mach.nearRead, hc])
  · obtain ⟨h, e, hn, -, ha, hv, -, hm, ⟨ms, hr⟩, hw⟩ := writeReg_takes (mem := s.mem) ht
    obtain ⟨hmask, hrw, hc, hs⟩ := hit_TICK_IRQ_EN hr
    rw [Mach.act_tickIrq s.mem (ha ▸ by decide) (.inl hn), ha, hv, hm, hmask] at hw
    refine ⟨_, _, (exec_registerWrite ..).trans (runMem_after hw), rfl, by simp [Mach.storeReg], ?_, fun a hne => ?_⟩
    · rw [Mach.fld, Mach.storeReg, Mach.rd_wr_same]
      exact fieldsOf_storeBits_rw _ _ hrw hc hs
    · exact Mach.rd_wr_other _ _ hne
  · obtain ⟨h, e, hn, -, ha, hv, -, hm, ⟨ms, hr⟩, hw⟩ := writeReg_takes (mem := s.mem) ht
    obtain ⟨hmask, hrw, hc, hs⟩ := hit_TICK_IRQ_STATUS hr
    rw [Mach.act_tickIrq s.mem (ha ▸ by decide) (.inr hn), ha, hv, hm, hmask] at hw
    refine ⟨_, _, (exec_registerWrite ..).trans (runMem_after hw), rfl, by simp [Mach.storeReg], fun i hi => ?_, fun a hne => ?_⟩
    · rw [Mach.bit, Mach.storeReg, Mach.rd_wr_same]
      exact bitOf_storeBits_w1c _ _ hrw hc hs hi
    · exact Mach.rd_wr_other _ _ hne
  · obtain ⟨h, hr, hn, hl, hnear⟩ := reads_cases ht
    have read := Mach.readReg_TICK_LATE_CNT init.toNat hr hn hrc
    refine ⟨_, _, (exec_rcRead ..).trans (run_after rfl), rfl, ?_, ?_, fun a hne => ?_⟩
    all_goals simp only [Mach.readNow, hnear, hl, Mach.readAt, read]
    · simp
    · simp [bitsOutside]
    · exact Mach.rd_wr_other _ _ hne

end Sys2Proof.Machine
end


section
/-! SUPPORT. The tick edge and its clients: alignment, overruns, recorded times and the ends of reset pulses. -/

namespace Sys2Proof.Machine

variable {m : Mach}

/-! ### The edge -/

theorem exec_tickEdge (lt : Nat) (s : State) : exec (.tickEdge lt) s = runMem s (fun mem m => Mach.tickEdge mem m lt) := rfl

theorem makes_tickEdge {s : State} {lt : Nat} {mem : Mem} {m : Mach} (h : Mach.tickEdge s.mem s.now lt = (mem, m)) :
    Makes (.tickEdge lt) s mem m := makes_runMem (r := (mem, m)) (exec_tickEdge lt s) h

/-- Out of RUN, or before local time has reached its place, no edge falls. -/
theorem Mach.tickEdge_none (mem : Mem) {lt : Nat} (h : m.bit Rg.TICK_CTRL 0 = false ∨ lt < m.edgeDue / 4) :
    Mach.tickEdge mem m lt = (mem, m) := by
  unfold Mach.tickEdge
  exact if_pos (by rcases h with h | h <;> simp [h])

/-- The steps of an edge, in order (R28). -/
theorem Mach.tickEdge_runs (mem : Mem) {lt : Nat} (hc : m.rst.cReset = false) (hr : m.bit Rg.TICK_CTRL 0 = true)
    (hl : m.edgeDue / 4 ≤ lt) : Mach.tickEdge mem m lt =
      (let t := m.edgeDue / 4
       let n := (m.tickCount + 1) % 2 ^ 64
       let a := Mach.overdue mem (m.advance t)
       let b := Mach.endTick a.1 a.2 t
       let c := Mach.commitC b.1 b.2
       let q := (c.2.strobe .l).strobe .p
       let d := (((q.divergence q.updSkip).captureInputs.gwyCommit).alignEdge t).fire Rg.TICK_IRQ_STATUS 0
       let e := ((d.modSill fun x => if m.tick.started = false then { x with fails := 0 } else x).startTick n).plannedSwitch
       let f := Mach.resyncEdge c.1 e
       let g := Mach.liveCommit f.1 f.2.plumbEdge.lathEdge
       (g.1, (((g.2.updEdge n).modeEdge t).gatedDone.supplyEdge.wdtCount).refreshAll)) := by
  unfold Mach.tickEdge
  rw [if_neg (by simp [hc, hr, hl])]
  simp only [Bool.not_eq_eq_eq_not, Bool.not_true]

/-! ### Alignment -/

theorem Mach.rd_wr64_other {a lo hi : Nat} (v : Nat) (h1 : a ≠ lo) (h2 : a ≠ hi) : (m.wr64 lo hi v).rd a = m.rd a := by
  rw [Mach.wr64, Mach.rd_wr_other _ _ h2, Mach.rd_wr_other _ _ h1]

theorem Mach.rd64_wr64_same {lo hi : Nat} (v : Nat) (h : lo ≠ hi) : (m.wr64 lo hi v).rd64 lo hi = v % 2 ^ 64 := by
  rw [Mach.rd64, Mach.wr64, Mach.rd_wr_same, Mach.rd_wr_other _ _ h, Mach.rd_wr_same]
  omega

theorem unsignedOf_lt (n : Nat) (x : Int) : unsignedOf n x < 2 ^ n := by
  unfold unsignedOf
  have : (0 : Int) < ((2 ^ n : Nat) : Int) := by exact_mod_cast Nat.two_pow_pos n
  have := Int.emod_lt_of_pos x this
  have := Int.emod_nonneg x (Int.ne_of_gt ‹(0 : Int) < ((2 ^ n : Nat) : Int)›)
  omega

theorem Mach.showAligned_rd_other {a : Nat} (e : Int) (h1 : a ≠ Rg.TICK_STATUS) (h2 : a ≠ Rg.TICK_IRQ_STATUS) :
    (m.showAligned e).rd a = m.rd a := by
  unfold Mach.showAligned
  extract_lets ok was m1
  split
  · exact Mach.rd_setBit_other _ _ h1
  · exact (Mach.rd_fire_other _ h2).trans (Mach.rd_setBit_other _ _ h1)

theorem Mach.showAligned_bit (e : Int) :
    (m.showAligned e).bit Rg.TICK_STATUS 0 = decide (e.natAbs ≤ m.fld Rg.TICK_LOCK 15 0) := by
  unfold Mach.showAligned
  extract_lets ok was m1
  have shown : m1.bit Rg.TICK_STATUS 0 = ok := Mach.bit_setBit_same _ _ (by decide)
  split
  · exact shown
  · exact (Mach.bit_of_rd (Mach.rd_fire_other 3 (by decide)) 0).trans shown

/-- The registers of the edge before TICK_STATUS shows them: the error, the last length and the time of the edge. -/
def Mach.edgeShown (m : Mach) (e : Int) (last : Nat) : Mach :=
  ((m.wr Rg.TICK_ALIGN_ERR (unsignedOf 32 e)).wr Rg.TICK_LAST_LEN last).wr64 Rg.TICK_EDGE_TIME_LO Rg.TICK_EDGE_TIME_HI
    (clockNs m.clk.wt)

/-- The amount by which the tick that starts is shorter or longer than the period (R24). -/
def Mach.alignStep (m : Mach) : Nat :=
  if m.alignError.natAbs ≤ m.fld Rg.TICK_LOCK 15 0 then 0
  else min (m.alignError.natAbs * 4 / 5) (8 * m.fld Rg.TICK_PERIOD 13 0)

/-- What an alignment leaves in the registers is what `edgeShown` and TICK_STATUS show. -/
theorem Mach.alignEdge_rd (lt a : Nat) : ∃ last, (m.alignEdge lt).rd a =
    ((((m.edgeShown m.alignError last).showAligned m.alignError).setBit Rg.TICK_STATUS 1 (m.alignStep != 0)).setBit
      Rg.TICK_STATUS 2 false).rd a := by
  unfold Mach.alignEdge
  extract_lets e us d last m1 m2 m3
  refine ⟨last, ?_⟩
  have time : m2 = m.edgeShown m.alignError last := by simp [m2, m1, e, Mach.edgeShown]
  have step : d = m.alignStep := rfl
  rw [← time, ← step]
  rfl

theorem Mach.alignEdge_rd_other {a : Nat} (lt : Nat) (h1 : a ≠ Rg.TICK_STATUS) (h2 : a ≠ Rg.TICK_IRQ_STATUS) :
    ∃ last, (m.alignEdge lt).rd a = (m.edgeShown m.alignError last).rd a := by
  obtain ⟨last, h⟩ := Mach.alignEdge_rd (m := m) lt a
  exact ⟨last, by rw [h, Mach.rd_setBit_other _ _ h1, Mach.rd_setBit_other _ _ h1, Mach.showAligned_rd_other _ h1 h2]⟩

theorem Mach.alignEdge_error (lt : Nat) : (m.alignEdge lt).rd Rg.TICK_ALIGN_ERR = unsignedOf 32 m.alignError := by
  obtain ⟨last, h⟩ := Mach.alignEdge_rd_other (m := m) (a := Rg.TICK_ALIGN_ERR) lt (by decide) (by decide)
  rw [h, Mach.edgeShown, Mach.rd_wr64_other _ (by decide) (by decide), Mach.rd_wr_other _ _ (by decide), Mach.rd_wr_same]
  exact Nat.mod_eq_of_lt (unsignedOf_lt 32 _)

theorem Mach.alignEdge_time (lt : Nat) :
    (m.alignEdge lt).rd64 Rg.TICK_EDGE_TIME_LO Rg.TICK_EDGE_TIME_HI = clockNs m.clk.wt % 2 ^ 64 := by
  obtain ⟨last, hlo⟩ := Mach.alignEdge_rd_other (m := m) (a := Rg.TICK_EDGE_TIME_LO) lt (by decide) (by decide)
  obtain ⟨last', hhi⟩ := Mach.alignEdge_rd_other (m := m) (a := Rg.TICK_EDGE_TIME_HI) lt (by decide) (by decide)
  have same : ∀ l l', (m.edgeShown m.alignError l).rd Rg.TICK_EDGE_TIME_HI = (m.edgeShown m.alignError l').rd Rg.TICK_EDGE_TIME_HI :=
    fun l l' => by simp [Mach.edgeShown, Mach.wr64]
  rw [Mach.rd64, hlo, hhi, same last' last]
  exact Mach.rd64_wr64_same _ (by decide)

theorem Mach.alignEdge_aligned (lt : Nat) :
    (m.alignEdge lt).bit Rg.TICK_STATUS 0 = decide (m.alignError.natAbs ≤ m.fld Rg.TICK_LOCK 15 0) := by
  obtain ⟨last, h⟩ := Mach.alignEdge_rd (m := m) lt Rg.TICK_STATUS
  have lock : (m.edgeShown m.alignError last).rd Rg.TICK_LOCK = m.rd Rg.TICK_LOCK := by
    rw [Mach.edgeShown, Mach.rd_wr64_other _ (by decide) (by decide), Mach.rd_wr_other _ _ (by decide), Mach.rd_wr_other _ _ (by decide)]
  rw [Mach.bit_of_rd h, Mach.bit_setBit_other _ _ (by decide) (by decide), Mach.bit_setBit_other _ _ (by decide) (by decide),
    Mach.showAligned_bit, Mach.fld_of_rd lock]

theorem Mach.alignEdge_inKerf (lt : Nat) : (m.alignEdge lt).inKerf = false := by
  obtain ⟨last, h⟩ := Mach.alignEdge_rd (m := m) lt Rg.TICK_STATUS
  rw [Mach.inKerf, Mach.bit_of_rd h]
  exact Mach.bit_setBit_same _ _ (by decide)

theorem Mach.alignEdge_edgeLt (lt : Nat) : (m.alignEdge lt).tick.edgeLt = lt := rfl

theorem Mach.alignEdge_len (lt : Nat) : (m.alignEdge lt).tick.len =
    (if 0 < m.alignError then 800 * m.fld Rg.TICK_PERIOD 13 0 - m.alignStep else 800 * m.fld Rg.TICK_PERIOD 13 0 + m.alignStep) := rfl

/-- Settles O21: an edge is the row of its steps; the alignment's registers and length are read off it one by one. -/
theorem tickEdges : Obligations.TickEdges := by
  unfold Obligations.TickEdges
  refine fun s lt => ⟨fun h => ?_, ?_, fun m => ?_⟩
  · exact makes_tickEdge (Mach.tickEdge_none s.mem h)
  · intro t hc hr hl
    have edge := Mach.tickEdge_runs s.mem hc hr hl
    have ht : s.now.edgeDue / 4 = t := rfl
    rw [ht] at edge
    exact makes_tickEdge edge
  · refine ⟨Mach.alignEdge_error lt, Mach.alignEdge_time lt, Mach.alignEdge_aligned lt, Mach.alignEdge_inKerf lt, rfl, ?_⟩
    intro us
    refine ⟨fun h => ?_, fun h h0 => ?_, fun h h0 => ?_⟩ <;> rw [Mach.alignEdge_len, Mach.alignStep]
    · rw [if_pos h]; simp [us]
    · rw [if_neg (Nat.not_le.mpr h), if_pos h0]
    · rw [if_neg (Nat.not_le.mpr h), if_neg (by omega)]

end Sys2Proof.Machine
end


section
/-! SUPPORT. Tick clients: the start of the tick, overruns, recorded times and the ends of reset pulses. -/

namespace Sys2Proof.Machine

variable {m : Mach}

/-! ### The start of the tick leaves the clocks -/

@[simp] theorem Mach.showWorld_clk : m.showWorld.clk = m.clk := by simp [Mach.showWorld]
@[simp] theorem Mach.setHw_clk (p st : Nat) : (m.setHw p st).clk = m.clk := by simp [Mach.setHw]
@[simp] theorem Mach.abandonVisit_clk (id : Nat) : (m.abandonVisit id).clk = m.clk := rfl

@[simp] theorem Mach.visitExpires_clk (id : Nat) : (m.visitExpires id).clk = m.clk := by
  unfold Mach.visitExpires
  split
  · rfl
  · split
    · split
      · rfl
      · extract_lets m1 m2 old m3
        have kept : m2.clk = m.clk := by simp [m2, m1]
        split
        · exact kept
        · simp [m3, kept]
    · rfl

@[simp] theorem Mach.visitOver_clk (id : Nat) : (m.visitOver id).clk = m.clk := by
  unfold Mach.visitOver
  split
  · extract_lets was m1
    split <;> simp [m1, Mach.push]
  · rfl

@[simp] theorem Mach.initialEnds_clk : m.initialEnds.clk = m.clk := by
  refine Mach.forAll_keeps Mach.clk (fun m e => ?_) m _
  split
  · split <;> simp
  · rfl

theorem Mach.advance_lt {lt : Nat} (h : m.clk.lt ≤ lt) : (m.advance lt).clk.lt = lt := by
  unfold Mach.advance
  extract_lets d src e a0 a1 old c wt
  split
  · have : d = 0 := by simpa using ‹(d == 0) = true›
    omega
  · simp [Mach.showOffset, c]

theorem Mach.tickRuns_starts {lt : Nat} (hc : m.rst.cReset = false) (hs : m.isStranded = false)
    (hr : m.bit Rg.TICK_CTRL 0 = false) (hw : m.rst.warmStart = false) (h : m.rst.step = 13) :
    m.tickRuns lt =
      ({ (m.initialEnds.advance lt).setBit Rg.TICK_CTRL 0 true with
          tick := { ((m.initialEnds.advance lt).setBit Rg.TICK_CTRL 0 true).tick with
            edgeLt := (m.initialEnds.advance lt).clk.lt, edgeFr := 0
            len := ((m.initialEnds.advance lt).setBit Rg.TICK_CTRL 0 true).toGrid } } : Mach).showStage 14 := by
  simp [Mach.tickRuns, hc, hs, hr, hw, h]

theorem exec_tickRunStart (lt : Nat) (s : State) : exec (.tickRunStart lt) s = run s (fun m => m.tickRuns lt) := rfl
theorem exec_kerfStart (l : List (Fin 6 × Word)) (s : State) :
    exec (.kerfStart l) s = runMem s (fun mem m => Mach.kerfStart mem m l) := rfl
theorem exec_clientBudgetPoint (c : Fin 32) (s : State) :
    exec (.clientBudgetPoint c) s = runUp s (fun m => m.budgetPoint c) := rfl
theorem exec_tickDone (init : InitId) (v : Word) (ns : Nat) (s : State) : exec (.tickDone init v ns) s =
    runMem s (fun mem m => Mach.writeBy (fun m v => m.tickDone init.toNat v ns) mem m init.toNat Rg.TICK_DONE v.toNat) := rfl

theorem Mach.kerfStart_runs (mem : Mem) (l : List (Fin 6 × Word)) (hc : m.rst.cReset = false)
    (hr : m.bit Rg.TICK_CTRL 0 = true) (hk : m.inKerf = false) (hs : m.tick.started = true) :
    Mach.kerfStart mem m l =
      Mach.updKerf mem ((((m.setBit Rg.TICK_STATUS 2 true).fire Rg.TICK_IRQ_STATUS 1).overruns).plumbKerf l) := by
  unfold Mach.kerfStart
  rw [if_neg (by simp [hc, hr, hk, hs])]

/-! ### Overrun -/

theorem Mach.isLate_first {c : Nat} (hd : c ∈ m.tick.due) (h0 : m.tick.done = []) (ho : m.tick.ovr = [])
    (he : m.bit (Rg.TICK_CLIENT_CFG c) 0 = true) (hh : m.clientHeld c = false) : m.isLate c = true := by
  simp [Mach.isLate, hd, h0, ho, he, hh]

/-- The first overrun of a tick as it is counted and shown, before the client's USED register (R37, R39). -/
def Mach.lateShown (m : Mach) (c : Nat) : Mach :=
  ((({ m with tick := { m.tick with ovr := [c], drop := if 16 ≤ c then (c - 16) :: m.tick.drop else m.tick.drop } } : Mach).bump
    (Rg.TICK_CLIENT_OVR_CNT c)).setBit Rg.TICK_OVR_MAP c true).fire Rg.TICK_IRQ_STATUS 2

theorem Mach.lateShown_rd_other {a c : Nat} (h1 : a ≠ Rg.TICK_CLIENT_OVR_CNT c) (h2 : a ≠ Rg.TICK_OVR_MAP)
    (h3 : a ≠ Rg.TICK_IRQ_STATUS) : (m.lateShown c).rd a = m.rd a := by
  rw [Mach.lateShown, Mach.rd_fire_other _ h3, Mach.rd_setBit_other _ _ h2, Mach.bump, Mach.rd_wr_other _ _ h1]
  rfl

/-- The registers of a client that say how it is judged stand apart from those that an overrun changes. -/
theorem Mach.lateShown_rd_client {a : Nat} (c : Nat) (h : a = Rg.TICK_CLIENT_CFG c ∨ a = Rg.TICK_CLIENT_BUDGET c ∨ a = Rg.TICK_CLIENT_USED c) :
    (m.lateShown c).rd a = m.rd a := by
  simp only [Rg.TICK_CLIENT_CFG, Rg.TICK_CLIENT_BUDGET, Rg.TICK_CLIENT_USED] at h
  apply Mach.lateShown_rd_other <;> simp only [Rg.TICK_CLIENT_OVR_CNT, Rg.TICK_OVR_MAP, Rg.TICK_IRQ_STATUS] <;> omega

/-- A budget point at which a client without a limit is late. -/
theorem Mach.budgetPoint_late {c : Nat} (hl : m.isLate c = true) (h1 : c ≠ 1) (h2 : c ≠ 2) (h3 : c ≠ 3)
    (ho : m.tick.ovr = []) (hlim : m.fld (Rg.TICK_CLIENT_CFG c) 23 16 = 0) (hcon : m.fld (Rg.TICK_CLIENT_USED c) 31 24 < 255)
    (hb : m.fld (Rg.TICK_CLIENT_BUDGET c) 23 0 ≠ 0) :
    m.budgetPoint c = (m.lateShown c).wr (Rg.TICK_CLIENT_USED c)
      ((m.fld (Rg.TICK_CLIENT_USED c) 31 24 + 1) * 2 ^ 24 + m.fld (Rg.TICK_CLIENT_BUDGET c) 23 0) := by
  have cfg : (m.lateShown c).fld (Rg.TICK_CLIENT_CFG c) 23 16 = 0 :=
    (Mach.fld_of_rd (Mach.lateShown_rd_client c (.inl rfl)) _ _).trans hlim
  have budget := Mach.fld_of_rd (Mach.lateShown_rd_client (m := m) c (.inr (.inl rfl))) 23 0
  have used := Mach.fld_of_rd (Mach.lateShown_rd_client (m := m) c (.inr (.inr rfl))) 31 24
  have small : m.fld (Rg.TICK_CLIENT_BUDGET c) 23 0 % 2 ^ 24 = m.fld (Rg.TICK_CLIENT_BUDGET c) 23 0 :=
    Nat.mod_mod_of_dvd _ (Nat.dvd_refl _)
  have whole : min (m.fld (Rg.TICK_CLIENT_USED c) 31 24 + 1) 255 = m.fld (Rg.TICK_CLIENT_USED c) 31 24 + 1 := by omega
  have react : m.overrun c = (m.lateShown c).wr (Rg.TICK_CLIENT_USED c)
      ((m.fld (Rg.TICK_CLIENT_USED c) 31 24 + 1) * 2 ^ 24 + m.fld (Rg.TICK_CLIENT_BUDGET c) 23 0) := by
    unfold Mach.overrun
    rw [if_pos hl, ho]
    extract_lets src m1 m2 m3 m4 b u limit consec hit m5
    have shown : m4 = m.lateShown c := by simp [m4, h1, m3, m2, m1, src, Mach.lateShown]
    have none : hit = false := by simp [hit, limit, shown, cfg]
    simp only [none, m5, consec, u, b, shown, budget, used, hb, whole, small, beq_iff_eq, if_false, Bool.false_eq_true]
  simp [Mach.budgetPoint, hl, h2, h3, react]

theorem satInc_lt (n v : Nat) : satInc n v < 2 ^ n := by
  have := Nat.two_pow_pos n
  unfold satInc
  split <;> omega

/-- What the late client's registers show. -/
theorem Mach.budgetPoint_shows {c : Nat} (hl : m.isLate c = true) (h1 : c ≠ 1) (h2 : c ≠ 2) (h3 : c ≠ 3) (h32 : c < 32)
    (ho : m.tick.ovr = []) (hlim : m.fld (Rg.TICK_CLIENT_CFG c) 23 16 = 0) (hcon : m.fld (Rg.TICK_CLIENT_USED c) 31 24 < 255)
    (hb : m.fld (Rg.TICK_CLIENT_BUDGET c) 23 0 ≠ 0) :
    (m.budgetPoint c).tick.ovr = [c] ∧ (m.budgetPoint c).bit Rg.TICK_OVR_MAP c = true ∧
      (m.budgetPoint c).bit Rg.TICK_IRQ_STATUS 2 = true ∧
      (m.budgetPoint c).rd (Rg.TICK_CLIENT_OVR_CNT c) = satInc 32 (m.rd (Rg.TICK_CLIENT_OVR_CNT c)) ∧
      (m.budgetPoint c).rd (Rg.TICK_CLIENT_USED c) =
        (m.fld (Rg.TICK_CLIENT_USED c) 31 24 + 1) * 2 ^ 24 + m.fld (Rg.TICK_CLIENT_BUDGET c) 23 0 ∧
      (m.budgetPoint c).tick.drop = (if 16 ≤ c then (c - 16) :: m.tick.drop else m.tick.drop) := by
  rw [Mach.budgetPoint_late hl h1 h2 h3 ho hlim hcon hb]
  have fits : m.fld (Rg.TICK_CLIENT_BUDGET c) 23 0 < 2 ^ 24 := Nat.mod_lt _ (by decide)
  have away : ∀ a, a = Rg.TICK_OVR_MAP ∨ a = Rg.TICK_IRQ_STATUS ∨ a = Rg.TICK_CLIENT_OVR_CNT c → a ≠ Rg.TICK_CLIENT_USED c := by
    simp only [Rg.TICK_OVR_MAP, Rg.TICK_IRQ_STATUS, Rg.TICK_CLIENT_OVR_CNT, Rg.TICK_CLIENT_USED]
    omega
  refine ⟨by simp [Mach.lateShown], ?_, ?_, ?_, ?_, by simp [Mach.lateShown]⟩
  · rw [Mach.bit_of_rd (Mach.rd_wr_other _ _ (away _ (.inl rfl))), Mach.lateShown, Mach.bit_of_rd (Mach.rd_fire_other _ (by decide))]
    exact Mach.bit_setBit_same _ _ h32
  · rw [Mach.bit_of_rd (Mach.rd_wr_other _ _ (away _ (.inr (.inl rfl))))]
    exact Mach.bit_setBit_same _ _ (by decide)
  · rw [Mach.rd_wr_other _ _ (away _ (.inr (.inr rfl))), Mach.lateShown,
      Mach.rd_fire_other _ (by simp only [Rg.TICK_CLIENT_OVR_CNT, Rg.TICK_IRQ_STATUS]; omega),
      Mach.rd_setBit_other _ _ (by simp only [Rg.TICK_CLIENT_OVR_CNT, Rg.TICK_OVR_MAP]; omega), Mach.bump, Mach.rd_wr_same]
    exact Nat.mod_eq_of_lt (satInc_lt 32 _)
  · rw [Mach.rd_wr_same]
    omega

/-! ### The ends of reset pulses -/

theorem exec_pulseEnd_client (c : Fin 6) (s : State) :
    exec (.blockResetPulseEnd (.client c)) s = runUpMem s (fun mem m => Mach.clientResetEnd mem m c) := rfl
theorem exec_pulseEnd_die (d : FarDie) (s : State) :
    exec (.blockResetPulseEnd (.die d)) s = runUpMem s (fun mem m => (mem, m.blockPulseEnd (0, dieNo d, 0))) := rfl
theorem exec_pulseEnd_element (u : Fin 24) (i : BitVec 16) (s : State) :
    exec (.blockResetPulseEnd (.element u i)) s = runUpMem s (fun mem m => (mem, m.blockPulseEnd (2, u, i.toNat))) := rfl

theorem makes_runUpMem {c : Instr} {s : State} {f : Mem → Mach → Mem × Mach} {r : Mem × Mach} (hc : exec c s = runUpMem s f)
    (hr : s.now.rst.cReset = false) (h : f s.mem s.now = r) : Makes c s r.1 r.2 := by
  rw [Makes, hc]
  exact runUpMem_after hr h

theorem Mach.clientResetEnd_pulsed (mem : Mem) {c : Nat} (h5 : c ≠ 5) (h : m.tick.pulses = [c]) :
    Mach.clientResetEnd mem m c = Mach.unitRelease mem (({ m with tick := { m.tick with pulses := [] } } : Mach).modRst fun r =>
      { r with pulsed := r.pulsed.filter (· != (1, Mach.clientUnit c, 0)) }) (Mach.clientUnit c) := by
  simp [Mach.clientResetEnd, h, h5]

theorem makes_upMem {c : Instr} {s : State} {f : Mach → Mach} {m : Mach} (hc : exec c s = runUpMem s (fun mem m => (mem, f m)))
    (hr : s.now.rst.cReset = false) (h : f s.now = m) : Makes c s s.mem m := by
  rw [Makes, hc]
  exact runUpMem_after hr (by rw [h])

theorem Mach.pulseOver {x : Nat × Nat × Nat} (h : m.rst.pulsed = [x]) :
    (m.modRst fun r => { r with pulsed := r.pulsed.filter (· != x) }) = m.modRst fun r => { r with pulsed := [] } :=
  Mach.modRst_congr (by simp [h])

theorem Mach.blockPulseEnd_dieL (h : m.rst.pulsed = [(0, 1, 0)]) :
    m.blockPulseEnd (0, 1, 0) = (m.modRst fun r => { r with pulsed := [] }).dieRelease .l := by
  simp [Mach.blockPulseEnd, Mach.pulseOver h, h]

theorem Mach.blockPulseEnd_element {u i : Nat} (h : m.rst.pulsed = [(2, u, i)]) :
    m.blockPulseEnd (2, u, i) = ((m.modRst fun r => { r with pulsed := [] }).elemRelease u i).followResets := by
  simp [Mach.blockPulseEnd, Mach.pulseOver h, h]

theorem makes_memTo {c : Instr} {s : State} {f : Mem → Mach → Mem × Mach} {mem : Mem} {m : Mach} (hc : exec c s = runMem s f)
    (h : f s.mem s.now = (mem, m)) : Makes c s mem m := makes_runMem (r := (mem, m)) hc h

theorem Mach.tickDone_due {init v ns p : Nat} (hb : bitOf v 0 = true) (hp : m.partOf init = some p) (hd : (16 + p) ∈ m.tick.due)
    (h0 : m.tick.done = []) (ho : m.tick.ovr = []) : m.tickDone init v ns =
      ({ m with tick := { m.tick with done := [16 + p] } } : Mach).wr (Rg.TICK_CLIENT_USED (16 + p)) (ns % 2 ^ 24) := by
  simp [Mach.tickDone, Mach.clientDone, hb, hp, hd, h0, ho]

theorem Mach.tickDone_idle {init v ns p : Nat} (hp : m.partOf init = some p) (hd : (16 + p) ∉ m.tick.due) :
    m.tickDone init v ns = m := by
  simp [Mach.tickDone, Mach.clientDone, hp, hd]

/-- Settles O22: each event meets the guard of its rule, and what it writes is read back register by register. -/
theorem tickClients : Obligations.TickClients := by
  unfold Obligations.TickClients
  intro s hc
  refine ⟨fun lt hs hr hw h => ?_, fun l hr hk hs => ?_, fun c hd h0 ho h1 h2 h3 hlim hcon hb he hh => ?_,
    fun c h5 h => ?_, fun h => ?_, fun u i h => ?_, fun init v ns p ht hb hp hd h0 ho => ?_, fun init v ns p ht hp hd => ?_⟩
  · refine makes_does (makes_run (exec_tickRunStart lt s) (Mach.tickRuns_starts hc hs hr hw h)) ⟨rfl, ?_, ?_, ?_, fun hlt => ?_⟩
    · rw [Mach.showStage, Mach.bit_of_rd (Mach.rd_wr_other _ _ (by decide))]
      exact Mach.bit_setBit_same _ _ (by decide)
    · simp [Mach.showStage]
    · simp [Mach.showStage]
    · simp only [Mach.showStage, Mach.wr_clk, Mach.modRst_clk, Mach.setBit_clk]
      exact Mach.advance_lt (Mach.initialEnds_clk.symm ▸ hlt)
  · exact makes_runMem (exec_kerfStart l s) (Mach.kerfStart_runs s.mem l hc hr hk hs)
  · exact makes_does (makes_runUp (exec_clientBudgetPoint c s) hc rfl) ⟨rfl, Mach.budgetPoint_shows (Mach.isLate_first hd h0 ho he hh) h1 h2 h3
      c.isLt ho hlim hcon hb⟩
  · exact makes_runUpMem (exec_pulseEnd_client c s) hc (Mach.clientResetEnd_pulsed s.mem h5 h)
  · exact makes_upMem (exec_pulseEnd_die .l s) hc (Mach.blockPulseEnd_dieL h)
  · exact makes_upMem (exec_pulseEnd_element u i s) hc (Mach.blockPulseEnd_element h)
  · exact makes_memTo (exec_tickDone init v ns s)
      ((writeBy_takes ht).trans (congrArg _ (Mach.tickDone_due (m := s.now.answer .done) hb hp hd h0 ho)))
  · exact makes_memTo (exec_tickDone init v ns s)
      ((writeBy_takes ht).trans (congrArg _ (Mach.tickDone_idle (m := s.now.answer .done) hp hd)))

end Sys2Proof.Machine
end


section
/-! SUPPORT. The measurement pass: the flags of the sample point, raw codes, and the filter and limit pass of one input. -/

namespace Sys2Proof.Machine

variable {m : Mach} {i : Nat}

/-! ### A row of registers written one after another -/

theorem Mach.rd_forAll_wr_other {α : Type} {addr val : α → Nat} {a : Nat} {l : List α} (h : ∀ x ∈ l, a ≠ addr x) (m : Mach) :
    (m.forAll l fun m x => m.wr (addr x) (val x)).rd a = m.rd a := by
  induction l generalizing m with
  | nil => rfl
  | cons x l ih =>
    obtain ⟨hx, hl⟩ := List.forall_mem_cons.mp h
    exact (ih hl _).trans (Mach.rd_wr_other m _ hx)

theorem Mach.rd_forAll_wr {α : Type} {addr val : α → Nat} {l : List α} (hl : l.Pairwise fun x y => addr x ≠ addr y) {x : α}
    (hx : x ∈ l) (m : Mach) : (m.forAll l fun m x => m.wr (addr x) (val x)).rd (addr x) = val x % 2 ^ 32 := by
  induction l generalizing m with
  | nil => exact absurd hx List.not_mem_nil
  | cons y l ih =>
    obtain ⟨hy, hl⟩ := List.pairwise_cons.mp hl
    rcases List.mem_cons.mp hx with rfl | hx
    · exact (Mach.rd_forAll_wr_other hy _).trans (Mach.rd_wr_same m _ _)
    · exact ih hl hx _

/-! ### The sample point -/

theorem Mach.ch_meas (m : Mach) (x : MeasSt) (n : Nat) : ({ m with meas := x } : Mach).ch n = m.ch n := rfl

/-- The sample point starts the conversions and takes every switch as it is (R178). -/
theorem Mach.adcStart_ch {n : Nat} (hl : m.load.ch.length = 48) (hn : n < 48) :
    (m.adcStart.ch n).turned = false ∧ m.adcStart.meas.cond.getD n false = (m.ch n).ps.conducts := by
  have each := Mach.forAll_ch_once (m := m) (n := n) (fun c => (c.ps, c.turned)) (fun _ x => (x.1, false))
    (f := fun m n => m.modCh n fun c => { c with turned := false })
    (fun m k => Mach.modCh_length k _)
    (fun m k j hj => by rw [Mach.ch_modCh_other m _ hj])
    (fun m k hk => by rw [Mach.ch_modCh_same m _ hk])
    (List.nodup_range (n := 48)) (hl.symm ▸ hn)
  rw [if_pos (List.mem_range.mpr hn)] at each
  have ps := congrArg Prod.fst each
  have turned := congrArg Prod.snd each
  dsimp only at ps turned
  unfold Mach.adcStart
  extract_lets m1 src
  rw [Mach.ch_meas]
  refine ⟨turned, ?_⟩
  dsimp only
  rw [List.getD_eq_getElem?_getD, List.getElem?_map, List.getElem?_range hn, Option.map_some, Option.getD_some, ps]

/-! ### Raw codes -/

theorem Mach.length_drivenSamples (i : Nat) (v : List Nat) : (m.drivenSamples i v).length = v.length := by
  unfold Mach.drivenSamples
  split
  · split
    · exact List.length_map ..
    · split
      · simp only [List.length_append, List.length_map, List.length_take, List.length_drop]; omega
      · rfl
  · rfl

theorem Mach.drivenSamples_lt (i : Nat) {v : List Nat} (h : ∀ x ∈ v, x < 2 ^ 12) : ∀ x ∈ m.drivenSamples i v, x < 2 ^ 12 := by
  have lifted : ∀ w : List Nat, (∀ x ∈ w, x < 2 ^ 12) → ∀ x ∈ w.map (max 0xE00), x < 2 ^ 12 := fun w hw x hx => by
    obtain ⟨y, hy, rfl⟩ := List.mem_map.mp hx
    exact Nat.max_lt.mpr ⟨by decide, hw y hy⟩
  unfold Mach.drivenSamples
  split
  · split
    · exact lifted v h
    · split
      · intro x hx
        rcases List.mem_append.mp hx with hx | hx
        · exact lifted _ (fun y hy => h y (List.mem_of_mem_take hy)) x hx
        · exact h x (List.mem_of_mem_drop hx)
      · exact h
  · exact h

theorem sumNat_le {b : Nat} {l : List Nat} (h : ∀ x ∈ l, x ≤ b) : sumNat l ≤ b * l.length := by
  have general : ∀ (l : List Nat) (a : Nat), (∀ x ∈ l, x ≤ b) → l.foldl (· + ·) a ≤ a + b * l.length := by
    intro l
    induction l with
    | nil => intro a _; simp
    | cons x l ih =>
      intro a h
      obtain ⟨hx, hl⟩ := List.forall_mem_cons.mp h
      have := ih (a + x) hl
      simp only [List.foldl_cons, List.length_cons, Nat.mul_add, Nat.mul_one]
      omega
  simpa [sumNat] using general l 0 h

/-- The code of at most `2 ^ os` samples of 12 bits fits 12 bits (R181). -/
theorem rawCode_lt {os : Nat} {l : List Nat} (h : ∀ x ∈ l, x < 2 ^ 12) (hl : l.length ≤ 2 ^ os) : rawCode os l < 2 ^ 12 := by
  unfold rawCode
  split
  · cases l with
    | nil => decide
    | cons x l => exact h x List.mem_cons_self
  · have ho : os ≠ 0 := by simpa using ‹¬ (os == 0) = true›
    have sum := sumNat_le (b := 2 ^ 12 - 1) fun x hx => Nat.le_sub_one_of_lt (h x hx)
    have most := Nat.mul_le_mul_left (2 ^ 12 - 1) hl
    have half : 2 ^ (os - 1) < 2 ^ os := Nat.pow_lt_pow_right (by decide) (by omega)
    rw [Nat.div_lt_iff_lt_mul (Nat.two_pow_pos os)]
    omega

/-- What held samples leave of an input: its number, raw code, fault level and conducting flag (R181). -/
def Mach.heldSample (m : Mach) (s : List (List (BitVec 12))) (flags : BitVec 48) (i : Nat) : Nat × Nat × Bool × Bool :=
  let os := m.fld Rg.MEAS_CTRL 2 0
  let v := m.drivenSamples i (((s.getD i []).take (2 ^ os)).map (·.toNat))
  (i, rawCode os v, decide (i < 48) && v.any (0xE00 ≤ ·), i < 48 && m.condFlag flags i)

/-- The inputs that held samples give a code. -/
def Mach.heldInputs (m : Mach) (s : List (List (BitVec 12))) : List Nat :=
  (List.range 96).filter fun i => m.hasSample i && 2 ^ m.fld Rg.MEAS_CTRL 2 0 ≤ (s.getD i []).length

/-- The value that MEAS_RAW shows of a held sample. -/
def rawShown (x : Nat × Nat × Bool × Bool) : Nat := flagNat x.2.2.2 * 2 ^ 12 + x.2.1

theorem Mach.adcHeld_started (s : List (List (BitVec 12))) (flags : BitVec 48) (h : m.meas.started = true) :
    ∃ (n : Mach) (v : Nat), n = ({ m with meas := { m.meas with
        smp := (m.heldInputs s).map (m.heldSample s flags), held := true, started := false } } : Mach).forAll
          ((m.heldInputs s).map (m.heldSample s flags)) (fun m x => m.wr (Rg.MEAS_RAW x.1) (rawShown x)) ∧
      (m.adcHeld s flags = n.setFld Rg.MEAS_STATUS 15 8 v ∨
        m.adcHeld s flags = (n.setFld Rg.MEAS_STATUS 15 8 v).fire Rg.MEAS_IRQ_STATUS 2) := by
  unfold Mach.adcHeld
  rw [if_neg (by simp [h])]
  extract_lets os take smp src m1 m2 m3
  refine ⟨_, maskOfList m2.meas.timedOut, rfl, ?_⟩
  split
  · exact .inr rfl
  · exact .inl rfl

theorem Mach.adcHeld_raw (s : List (List (BitVec 12))) (flags : BitVec 48) (h : m.meas.started = true) (hi : i < 96)
    (hs : m.hasSample i = true) (hlen : 2 ^ m.fld Rg.MEAS_CTRL 2 0 ≤ (s.getD i []).length) :
    (m.adcHeld s flags).meas.held = true ∧ (m.adcHeld s flags).meas.started = false ∧
      (m.adcHeld s flags).rd (Rg.MEAS_RAW i) = rawShown (m.heldSample s flags i) := by
  obtain ⟨n, v, rfl, hn⟩ := Mach.adcHeld_started s flags h
  have away1 : Rg.MEAS_RAW i ≠ Rg.MEAS_STATUS := by simp only [Rg.MEAS_RAW, Rg.MEAS_STATUS]; omega
  have away2 : Rg.MEAS_RAW i ≠ Rg.MEAS_IRQ_STATUS := by simp only [Rg.MEAS_RAW, Rg.MEAS_IRQ_STATUS]; omega
  have apart : ((m.heldInputs s).map (m.heldSample s flags)).Pairwise fun x y => Rg.MEAS_RAW x.1 ≠ Rg.MEAS_RAW y.1 := by
    rw [List.pairwise_map]
    refine (List.nodup_range.filter _).imp fun {a b} hab => ?_
    simp only [Mach.heldSample, Rg.MEAS_RAW]
    omega
  have member : m.heldSample s flags i ∈ (m.heldInputs s).map (m.heldSample s flags) :=
    List.mem_map_of_mem (List.mem_filter.mpr ⟨List.mem_range.mpr hi, by simpa [hs] using hlen⟩)
  have bound : rawShown (m.heldSample s flags i) < 2 ^ 32 := by
    have code : (m.heldSample s flags i).2.1 < 2 ^ 12 := by
      refine rawCode_lt (Mach.drivenSamples_lt i fun x hx => ?_) ?_
      · obtain ⟨b, -, rfl⟩ := List.mem_map.mp hx
        exact b.isLt
      · rw [Mach.length_drivenSamples, List.length_map]
        exact List.length_take_le _ _
    have flag : flagNat (m.heldSample s flags i).2.2.2 ≤ 1 := by unfold flagNat; split <;> decide
    unfold rawShown
    omega
  have raw := fun n => Mach.rd_forAll_wr (val := rawShown) apart member n
  have kept : ∀ n : Mach, (n.forAll ((m.heldInputs s).map (m.heldSample s flags)) fun m x => m.wr (Rg.MEAS_RAW x.1) (rawShown x)).meas =
      n.meas := fun n => Mach.forAll_keeps Mach.meas (fun m x => Mach.wr_meas m _ _) n _
  rcases hn with hn | hn <;> rw [hn]
  · refine ⟨by simp [kept], by simp [kept], ?_⟩
    rw [Mach.rd_setFld_other _ _ _ away1]
    exact (raw _).trans (Nat.mod_eq_of_lt bound)
  · refine ⟨by simp [kept], by simp [kept], ?_⟩
    rw [Mach.rd_fire_other _ away2, Mach.rd_setFld_other _ _ _ away1]
    exact (raw _).trans (Nat.mod_eq_of_lt bound)

/-! ### One input in the pass -/

theorem Mach.measPass_runs {ns : Nat} (hh : m.meas.held = true) (ho : 1 ∉ m.tick.ovr) :
    m.measPass ns = ((({ (m.forAll (List.range 96) fun m i => m.measInput i) with meas :=
      { (m.forAll (List.range 96) fun m i => m.measInput i).meas with held := false, done := true } } : Mach).setBit
        Rg.MEAS_STATUS 1 false)).clientDone 1 ns := by
  unfold Mach.measPass
  rw [if_neg (by simp [hh, ho])]

theorem Mach.adcTimeout_first {k : Nat} (hs : m.meas.started = true) (hk : k ∉ m.meas.timedOut) :
    m.adcTimeout k = ((({ m with meas := { m.meas with timedOut := k :: m.meas.timedOut } } : Mach).setBit Rg.MEAS_STATUS (8 + k) true
      ).fire Rg.MEAS_IRQ_STATUS 0) := by
  simp [Mach.adcTimeout, hs, hk]

theorem Mach.measIn_modIn (f : MIn → MIn) (h : i < m.meas.inp.length) : (m.modIn i f).measIn i = f (m.measIn i) := by
  simp [Mach.measIn, Mach.modIn, List.getD, h]

@[simp] theorem Mach.modIn_inp_length (f : MIn → MIn) : (m.modIn i f).meas.inp.length = m.meas.inp.length := by
  simp [Mach.modIn]

theorem Mach.measInput_unsampled (h : m.hasSample i = false ∨ m.meas.smp.find? (·.1 == i) = none) :
    m.measInput i = m.modIn i fun x => { x with fresh := false, fault := false, cond := false } := by
  have none : (if m.hasSample i then m.meas.smp.find? (·.1 == i) else none) = none := by
    rcases h with h | h <;> simp [h]
  simp [Mach.measInput, none]

theorem Mach.measInput_fault {c : Nat} {k : Bool} (hs : m.hasSample i = true)
    (h : m.meas.smp.find? (·.1 == i) = some (i, c, true, k)) :
    m.measInput i = m.modIn i fun x => { x with fresh := false, fault := true, cond := k } := by
  simp [Mach.measInput, hs, h]

/-- The limit check changes nothing of an input but its state. -/
theorem MIn.judge_keeps (x : MIn) (low high deb : Nat) : (x.judge low high deb).y = x.y ∧ (x.judge low high deb).fresh = x.fresh ∧
    (x.judge low high deb).valid = x.valid ∧ (x.judge low high deb).cond = x.cond := by
  unfold MIn.judge
  extract_lets c n
  split
  · exact ⟨rfl, rfl, rfl, rfl⟩
  · split <;> exact ⟨rfl, rfl, rfl, rfl⟩

/-- A fresh sample without filter, link and limit interrupt: its value is the converted code (R184, R186). -/
theorem Mach.measInput_fresh {c gain : Nat} {off : Int} {k : Bool} (hi : i < m.meas.inp.length) (hs : m.hasSample i = true)
    (h : m.meas.smp.find? (·.1 == i) = some (i, c, false, k)) (h7 : m.bit (Rg.MEAS_IN_CFG i) 7 = false)
    (hf : m.fld (Rg.MEAS_IN_CFG i) 6 4 = 0) (hl : m.fld (Rg.MEAS_IN_CFG i) 13 8 = 0) (ha : m.fld (Rg.MEAS_IN_CFG i) 15 14 = 0)
    (hc : m.meas.cal.getD (calIdx i) (0, 16384) = (off, gain)) :
    ((m.measInput i).measIn i).y = convert i c off gain ∧ ((m.measInput i).measIn i).fresh = true ∧
      ((m.measInput i).measIn i).valid = true ∧ ((m.measInput i).measIn i).cond = k := by
  have cal : ∀ f, (m.modIn i f).meas.cal = m.meas.cal := fun _ => rfl
  rw [Mach.bit] at h7
  rw [Mach.fld] at hf hl ha
  rw [List.getD_eq_getElem?_getD] at hc
  have judged : ∃ low high deb, (m.measInput i).measIn i = (({ m.measIn i with fresh := true, fault := false, cond := k } : MIn).filter 0
      (bitsOf (m.rd (Rg.MEAS_IN_CFG i)) 3 0) (convert i c off gain)).judge low high deb := by
    refine ⟨bitsOf (m.rd (Rg.MEAS_IN_LIMIT i)) 15 0, bitsOf (m.rd (Rg.MEAS_IN_LIMIT i)) 31 16, bitsOf (m.rd (Rg.MEAS_IN_CFG i)) 31 16, ?_⟩
    simp [Mach.measInput, hs, h, h7, hf, hl, ha, hc, cal, Mach.measIn_modIn, hi]
  obtain ⟨low, high, deb, value⟩ := judged
  obtain ⟨hy, hfresh, hvalid, hcond⟩ := MIn.judge_keeps (({ m.measIn i with fresh := true, fault := false, cond := k } : MIn).filter 0
      (bitsOf (m.rd (Rg.MEAS_IN_CFG i)) 3 0) (convert i c off gain)) low high deb
  rw [value]
  exact ⟨hy, hfresh, hvalid, hcond⟩

theorem Mach.condFlag_sampled (f : BitVec 48) (ht : (m.ch i).turned = false) : m.condFlag f i = m.meas.cond.getD i false := by
  simp [Mach.condFlag, ht]

theorem Mach.condFlag_turned (f : BitVec 48) (h6 : i % 6 ≠ 0) (ht : (m.ch i).turned = true) : m.condFlag f i = f.getLsbD i := by
  simp [Mach.condFlag, ht, h6]

theorem Mach.drivenSamples_free (v : List Nat) (h : 48 ≤ i ∨ m.meas.caused.getD i false = false) : m.drivenSamples i v = v := by
  rw [Mach.drivenSamples, if_neg]
  rcases h with h | h
  · simp [Nat.not_lt.mpr h]
  · rw [h, Bool.and_false]; exact Bool.false_ne_true

theorem Mach.drivenSamples_caused (v : List Nat) (hi : i < 48) (h : m.meas.caused.getD i false = true) (hc : m.shownCause i ≠ 0) :
    m.drivenSamples i v = v.map (max 0xE00) := by
  rw [Mach.drivenSamples, if_pos (by rw [h, decide_eq_true hi]; rfl), if_pos (by simp [hc])]

/-! ### The limit check -/

/-- Where an input stands against its window (R188). -/
def MIn.side (x : MIn) (low high : Nat) : Nat :=
  if x.y < low && low != 0 then 1 else if high < x.y && high != 0xFFFF then 2 else 0

theorem MIn.judge_eq (x : MIn) (low high deb : Nat) : x.judge low high deb =
    (if x.side low high == x.lim then { x with cnt := 0, cand := x.side low high }
    else
      let n := if x.side low high == x.cand then x.cnt + 1 else 1
      if max 1 deb ≤ n then { x with lim := x.side low high, cand := x.side low high, cnt := 0 }
      else { x with cand := x.side low high, cnt := n }) := rfl

/-- With a debounce of one tick the state is where the value stands. -/
theorem MIn.judge_first {x : MIn} {low high : Nat} : (x.judge low high 1).lim = x.side low high := by
  rw [MIn.judge_eq]
  split
  · next h => exact (eq_of_beq h).symm
  · by_cases hc : x.side low high = x.cand <;> simp [hc]

/-- Short of the debounce only the count goes on. -/
theorem MIn.judge_counts {x : MIn} {low high deb : Nat} (h : x.side low high ≠ x.lim) (hc : x.side low high = x.cand)
    (hd : x.cnt + 1 < deb) : (x.judge low high deb).lim = x.lim ∧ (x.judge low high deb).cnt = x.cnt + 1 := by
  have few : ¬ max 1 deb ≤ x.cnt + 1 := by omega
  rw [hc] at h
  simp [MIn.judge_eq, h, hc, few]

theorem exec_adcSampleStart (s : State) : exec .adcSampleStart s = runUp s (fun m => m.adcStart) := rfl
theorem exec_adcSamplesHeld (x : AdcCodes) (s : State) :
    exec (.adcSamplesHeld x) s = runUp s (fun m => m.adcHeld x.samples x.flags) := rfl
theorem exec_measPassDone (ns : Nat) (s : State) : exec (.measPassDone ns) s = runUp s (fun m => m.measPass ns) := rfl
theorem exec_adcTimeout (k : Fin 8) (s : State) : exec (.adcTimeout k) s = runUp s (fun m => m.adcTimeout k) := rfl

/-- Settles O7: each step of the pass has a rule of its own; a raw register keeps the value of its one write. -/
theorem measurement : Obligations.Measurement := by
  unfold Obligations.Measurement
  refine ⟨fun s hc => ⟨fun hl => ?_, fun x f i l hst hi hs hx ho hlen => ?_, fun ns hh ho => ?_, fun k hst hk => ?_⟩,
    fun m i hi hl => ⟨fun f v => ⟨fun _ ht => Mach.condFlag_sampled f ht, fun _ h6 ht => Mach.condFlag_turned f h6 ht,
      fun h => Mach.drivenSamples_free v h, fun hi h hc => Mach.drivenSamples_caused v hi h hc⟩,
      fun h => Mach.measInput_unsampled h, fun c k hs h => Mach.measInput_fault hs h,
      fun c gain off k hs h h7 hf hlink ha hc => Mach.measInput_fresh (hl.symm ▸ hi) hs h h7 hf hlink ha hc,
      fun x low high h0 hF hle => ⟨fun hy h => ?_, fun hy h => ?_, fun hy hy' => ?_, fun hy h hcand hcnt => ?_⟩⟩⟩
  · exact makes_does (makes_runUp (exec_adcSampleStart s) hc rfl)
      ⟨rfl, rfl, rfl, rfl, fun n => (Mach.adcStart_ch hl n.isLt).symm⟩
  · subst hx
    exact makes_does (makes_runUp (exec_adcSamplesHeld ⟨x, f⟩ s) hc rfl) ⟨rfl, Mach.adcHeld_raw x f hst hi hs hlen⟩
  · exact makes_runUp (exec_measPassDone ns s) hc (Mach.measPass_runs hh ho)
  · exact makes_runUp (exec_adcTimeout k s) hc (Mach.adcTimeout_first hst hk)
  · rw [MIn.judge_first]; simp [MIn.side, hy, h0]
  · rw [MIn.judge_first]; simp [MIn.side, hy, hF]; omega
  · rw [MIn.judge_first]; simp [MIn.side, Nat.not_lt.mpr hy, Nat.not_lt.mpr hy']
  · have side : x.side low high = 1 := by simp [MIn.side, hy, h0]
    obtain ⟨hlim, hn⟩ := MIn.judge_counts (deb := 5) (by omega) (side.trans hcand.symm) hcnt
    exact ⟨hlim.trans h, hn⟩

end Sys2Proof.Machine
end


section
/-! SUPPORT. Frames that enter the switch: the oversize frame with an egress tag, where a state holds a cut-through frame
under a number that has not been given yet. -/

namespace Sys2Proof.Machine

theorem exec_frameIngress (p : Fin 22) (b : List Byte) (t : Nat) (s : State) :
    exec (.frameIngress p b t) s = runUp s (fun m => m.ingress p b t) := rfl

/-- A running module whose port 0 is up, with a cut-through frame stored under number 0, the next to be given. -/
def strayFrame : State :=
  let m := { State.reset.mach with
    rst := { State.reset.mach.rst with cReset := false }
    swc := { State.reset.mach.swc with frames := [{ id := 0, inp := 1, cls := 0, ct := true }] } }
  { State.reset with mach := (m.setBit (Rg.SWC_PORT_STATUS 0) 1 false).setBit (Rg.SWC_PORT_CFG 0) 0 true }

/-- A frame of 2,049 bytes with FCS that carries an egress tag. -/
def longTagged : List Byte := List.replicate 12 0 ++ [0x88, 0xB5] ++ List.replicate 2031 0

/-- The machine that the obligation names: the frame counted and dropped with counter 7 alone. -/
def strayDropped : Mach :=
  ((((strayFrame.now.advance 0).count 0 0).count 0 1 (longTagged.length + 4)).count 0 7).noteRx 0 [] none

theorem strayDropped_tagDrops : (strayFrame.after strayFrame.mem strayDropped).mach.rd Rg.PTP_TAG_DROP_CNT = 0 := by
  decide +kernel

theorem strayFrame_tagDrops :
    (strayFrame.after strayFrame.mem (strayFrame.now.ingress 0 longTagged 0)).mach.rd Rg.PTP_TAG_DROP_CNT = 1 := by
  decide +kernel

/-- Refutes O26: the switch takes a cut-through frame at or above its next number for the frame that it receives, so in a
state that holds one already an oversize tagged frame is counted as a tag error too. -/
theorem not_framesEnter : ¬ Obligations.FramesEnter := by
  unfold Obligations.FramesEnter
  intro h
  obtain ⟨-, long, -⟩ := h strayFrame 0 longTagged 0 rfl
  have drops : Makes (.frameIngress 0 longTagged 0) strayFrame strayFrame.mem strayDropped :=
    long (by decide +kernel) (by decide +kernel) (by decide +kernel) (by decide +kernel) (by decide +kernel)
  have takes : Makes (.frameIngress 0 longTagged 0) strayFrame strayFrame.mem (strayFrame.now.ingress 0 longTagged 0) :=
    makes_runUp (exec_frameIngress 0 longTagged 0 strayFrame) rfl rfl
  have same := Host.Outcome.next.inj (drops.symm.trans takes)
  have counted := strayDropped_tagDrops
  rw [same, strayFrame_tagDrops] at counted
  exact absurd counted (by decide)

end Sys2Proof.Machine
end


section
/-! SUPPORT. Writes of registers that perform an action of their chapter, and network time: clocks, slots, timed pins. -/

namespace Sys2Proof.Machine

variable {m : Mach}

/-! ### Writes -/

/-- A write that nothing bars answers `done` and performs what its register does at once. -/
theorem writeReg_acts {mem : Mem} {init a v : Nat} {n : RegName} {idx : List Nat} {r : Mem × Mach}
    (ht : m.takes init a v n idx = true)
    (h : ∀ (hit : Hit) (e : Stg), hit.d.name = n → hit.idx = idx → e.addr = a → e.val = v → e.init = init →
      Mach.act mem (m.answer .done) hit e = r) : Mach.writeReg mem m init a 4 v = r := by
  obtain ⟨hit, e, hn, hi, ha, hv, hin, -, -, hw⟩ := writeReg_takes (mem := mem) ht
  exact hw.trans (h hit e hn hi ha hv hin)

/-! ### Clocks -/

@[simp] theorem Mach.showOffset_clk : m.showOffset.clk = m.clk := by simp [Mach.showOffset]

/-- The clocks run on (R236, R237): local time, each domain at 1 plus its rate, working time with LT while LOCAL. -/
theorem Mach.advance_clk {lt : Nat} (h : m.clk.lt ≤ lt) : (m.advance lt).clk.lt = lt ∧
    (m.advance lt).clk.dt0 = m.clk.dt0 + ((lt - m.clk.lt : Nat) : Int) * (oneNs + m.domRate 0) ∧
    (m.advance lt).clk.dt1 = m.clk.dt1 + ((lt - m.clk.lt : Nat) : Int) * (oneNs + m.domRate 1) ∧
    (m.wtSource = 0 → (m.advance lt).clk.wt = m.clk.wt + ((lt - m.clk.lt : Nat) : Int) * oneNs) := by
  unfold Mach.advance
  extract_lets d src e a0 a1 old c wt
  split
  · next hd =>
    have stands : d = 0 := by simpa using hd
    have here : lt - m.clk.lt = 0 := by omega
    exact ⟨by omega, by simp [here], by simp [here], fun _ => by simp [here]⟩
  · refine ⟨by simp [c], by simp [c, a0, d], by simp [c, a1, d], fun hs => ?_⟩
    simp [wt, src, hs, c, old, d]

theorem Mach.advance_rst (lt : Nat) : (m.advance lt).rst = m.rst := by
  unfold Mach.advance
  extract_lets d src e a0 a1 old c wt
  split
  · rfl
  · simp [Mach.showOffset]

theorem Mach.snapshot_eq {lt : Nat} (hl : m.clk.lt = lt) : m.snapshot =
    ((((m.wr64 Rg.PTP_SNAP_LT_LO Rg.PTP_SNAP_LT_HI lt).wr64 Rg.PTP_SNAP_WT_LO Rg.PTP_SNAP_WT_HI (clockNs m.clk.wt)).wr64
      Rg.PTP_SNAP_DT0_LO Rg.PTP_SNAP_DT0_HI (clockNs m.clk.dt0)).wr64 Rg.PTP_SNAP_DT1_LO Rg.PTP_SNAP_DT1_HI (clockNs m.clk.dt1)) := by
  simp [Mach.snapshot, hl]

/-- A step of the first domain moves its clock alone. -/
theorem Mach.domStep_clk {v : Nat} (hv : v < 2 ^ 32) : ((m.wr (Rg.PTP_DOM_STEP_HI 0) v).domStep 0).clk =
    { m.clk with dt0 := m.clk.dt0 + signedOf 64 (m.rd (Rg.PTP_DOM_STEP_LO 0) + 2 ^ 32 * v) * oneNs } := by
  have words : (m.wr (Rg.PTP_DOM_STEP_HI 0) v).rd64 (Rg.PTP_DOM_STEP_LO 0) (Rg.PTP_DOM_STEP_HI 0) =
      m.rd (Rg.PTP_DOM_STEP_LO 0) + 2 ^ 32 * v := by
    rw [Mach.rd64, Mach.rd_wr_same, Mach.rd_wr_other _ _ (by decide), Nat.mod_eq_of_lt hv]
  simp [Mach.domStep, words, Mach.modClk]

/-! ### Slots -/

theorem Mach.servo_unlock {k : Nat} (h : m.slotState k ≠ 0) : m.servo k 0 = m.setSlot k 1 := by
  simp [Mach.servo, h]

theorem Mach.servo_lock {k : Nat} (h : m.slotState k ≠ 0) : m.servo k 1 =
    (m.modClk fun c => if k = 0 then { c with sync0 := c.lt } else { c with sync1 := c.lt }).setSlot k 2 := by
  simp [Mach.servo, h]

theorem Mach.servo_hold {k : Nat} (h : 2 ≤ m.slotState k) : m.servo k 2 = m.setSlot k 3 := by
  have h0 : m.slotState k ≠ 0 := by omega
  have h1 : m.slotState k ≠ 1 := by omega
  simp [Mach.servo, h0, h1]

theorem Mach.servo_hold_unlocked {k : Nat} (h : m.slotState k = 1) : m.servo k 2 = m := by
  simp [Mach.servo, h]

theorem Mach.syncLost_eq {k : Nat} (h : m.slotState k = 2) : m.syncLost k =
    if (if k = 0 then m.clk.sync0 else m.clk.sync1) + m.fld Rg.PTP_CTRL 15 0 * 1000000 ≤ m.clk.lt then m.setSlot k 3 else m := by
  simp [Mach.syncLost, h]

theorem Mach.holdoverSpent_eq {k : Nat} (h : m.slotState k = 3) : m.holdoverSpent k =
    if (if k = 0 then m.clk.hold0 else m.clk.hold1) + m.fld Rg.PTP_CTRL2 15 0 * 1000000000 ≤ m.clk.lt then m.setSlot k 1 else m := by
  simp [Mach.holdoverSpent, h]

/-- Both slots are locked and the second is better: it is the source once it has been locked for the revert time (R248). -/
theorem Mach.chosenSource_revert (hs : m.wtSource = 1) (h0 : m.slotState 0 = 2) (h1 : m.slotState 1 = 2)
    (hp : m.fld (Rg.PTP_DOM_CFG 1) 15 8 < m.fld (Rg.PTP_DOM_CFG 0) 15 8) : m.chosenSource =
      if m.fld Rg.PTP_CTRL2 31 16 ≠ 0 ∧ m.clk.lock1 + m.fld Rg.PTP_CTRL2 31 16 * 1000000000 ≤ m.clk.lt then 2 else 1 := by
  simp [Mach.chosenSource, hs, h0, h1, Mach.better, hp]

theorem Mach.join_clk (hs : m.wtSource = 1) (hp : m.clk.pulse = []) (hn : m.clk.next = []) :
    m.join.clk = { m.clk with wt := m.clk.dt0 } := by
  simp [Mach.join, hs, Mach.outputsJoin, Mach.domClock, Mach.modClk, hp, hn, Mach.forAll]

theorem Mach.slewEnds_clk (hs : m.wtSource = 2) (h : (m.clk.wt - m.clk.dt1).natAbs < oneNs) :
    m.slewEnds.clk = { m.clk with wt := m.clk.dt1 } := by
  have off : m.wtOffset = m.clk.wt - m.clk.dt1 := by simp [Mach.wtOffset, hs, Mach.domClock]
  rw [Mach.slewEnds, if_pos (off ▸ h)]
  simp [hs, Mach.modClk, Mach.domClock]

theorem exec_ptpSnapshot (init : InitId) (v : Word) (lt : Nat) (s : State) : exec (.ptpSnapshot init v lt) s =
    runMem s (fun mem m => Mach.writeReg mem (m.advance lt) init.toNat Rg.PTP_SNAP_CMD 4 v.toNat) := rfl
theorem exec_domainStep (init : InitId) (k : Fin 2) (v : Word) (lt : Nat) (s : State) : exec (.domainStep init k v lt) s =
    runMem s (fun mem m => Mach.writeReg mem (m.advance lt) init.toNat (Rg.PTP_DOM_STEP_HI k) 4 v.toNat) := rfl
theorem exec_servoUnlock (init : InitId) (k : Fin 2) (lt : Nat) (s : State) : exec (.servoUnlock init k lt) s =
    runMem s (fun mem m => Mach.writeReg mem (m.advance lt) init.toNat (Rg.PTP_DOM_SERVO k) 4 0) := rfl
theorem exec_servoLock (init : InitId) (k : Fin 2) (lt : Nat) (s : State) : exec (.servoLock init k lt) s =
    runMem s (fun mem m => Mach.writeReg mem (m.advance lt) init.toNat (Rg.PTP_DOM_SERVO k) 4 1) := rfl
theorem exec_servoHold (init : InitId) (k : Fin 2) (lt : Nat) (s : State) : exec (.servoHold init k lt) s =
    runMem s (fun mem m => Mach.writeReg mem (m.advance lt) init.toNat (Rg.PTP_DOM_SERVO k) 4 2) := rfl
theorem exec_syncTimeout (k : Fin 2) (lt : Nat) (s : State) :
    exec (.syncTimeout k lt) s = runUp s (fun m => (m.advance lt).syncLost k) := rfl
theorem exec_holdoverExpiry (k : Fin 2) (lt : Nat) (s : State) :
    exec (.holdoverExpiry k lt) s = runUp s (fun m => (m.advance lt).holdoverSpent k) := rfl
theorem exec_revertCheck (lt : Nat) (s : State) : exec (.revertCheck lt) s = runUp s (fun m => (m.advance lt).chooseSource) := rfl
theorem exec_wtJoin (init : InitId) (v : Word) (lt : Nat) (s : State) : exec (.wtJoin init v lt) s =
    runMem s (fun mem m => Mach.writeReg mem (m.advance lt) init.toNat Rg.PTP_WT_CMD 4 v.toNat) := rfl
theorem exec_slewDone (lt : Nat) (s : State) : exec (.slewDone lt) s = runUp s (fun m => (m.advance lt).slewEnds) := rfl

/-- A write of PTP_DOM_SERVO is the servo's. -/
theorem Mach.act_servo (mem : Mem) {h : Hit} {e : Stg} {k : Fin 2} (ha : e.addr = Rg.PTP_DOM_SERVO k) (hn : h.d.name = .PTP_DOM_SERVO)
    (hi : h.idx = [k.val]) : Mach.act mem m h e = (mem, m.servo k (bitsOf e.val 1 0)) := by
  have low : ¬ 0x42000000 ≤ Rg.PTP_DOM_SERVO k := by simp only [Rg.PTP_DOM_SERVO]; omega
  simp [Mach.act, ha, low, Mach.actModule, Mach.actCompute, Mach.actComm, hn, hi]

theorem makes_servo {s : State} {c : Instr} {init : InitId} {k : Fin 2} {lt v : Nat} {m : Mach}
    (hc : exec c s = runMem s fun mem m => Mach.writeReg mem (m.advance lt) init.toNat (Rg.PTP_DOM_SERVO k) 4 v)
    (ht : (s.now.advance lt).takes init.toNat (Rg.PTP_DOM_SERVO k) v .PTP_DOM_SERVO [k.val] = true)
    (h : ((s.now.advance lt).answer .done).servo k (bitsOf v 1 0) = m) : Makes c s s.mem m :=
  makes_memTo hc (writeReg_acts ht fun hit e hn hi ha hv _ => by rw [Mach.act_servo s.mem ha hn hi, hv, h])

/-- Settles O31: each event first advances the clocks; what it then does is the rule of its slot or clock. -/
theorem networkTime : Obligations.NetworkTime := by
  unfold Obligations.NetworkTime
  intro s lt hlt m
  have clock := Mach.advance_clk hlt
  refine ⟨clock, fun init v ht hb => ?_, fun init v ht => ?_, fun init k => ⟨fun ht h => ?_, fun ht h => ?_, fun ht h => ?_, fun ht h => ?_⟩,
    fun k hc h => ⟨fun hd => ?_, fun hd => ?_⟩, fun k hc h => ⟨fun hd => ?_, fun hd => ?_⟩,
    fun hc hs h0 h1 hp => ⟨fun hr hd => ?_, fun hr => ?_⟩, fun init v ht hb hs hpu hn => ?_, fun hc hs h => ?_⟩
  · refine makes_memTo (exec_ptpSnapshot init v lt s) (writeReg_acts ht fun hit e hn hi ha hv _ => ?_)
    have done := Mach.snapshot_eq (m := m.answer .done) clock.1
    have acts : Mach.act s.mem (m.answer .done) hit e = (s.mem, (m.answer .done).snapshot) := by
      simp [Mach.act, ha, Rg.PTP_SNAP_CMD, Mach.actModule, Mach.actCompute, Mach.actComm, hn, hv, hb]
    exact acts.trans (congrArg _ done)
  · have acts : ∀ (hit : Hit) (e : Stg), hit.d.name = .PTP_DOM_STEP_HI → hit.idx = [0] → e.addr = Rg.PTP_DOM_STEP_HI 0 → e.val = v.toNat →
        e.init = init.toNat → Mach.act s.mem (m.answer .done) hit e =
          (s.mem, ((m.answer .done).wr (Rg.PTP_DOM_STEP_HI 0) v.toNat).domStep 0) := fun hit e hn hi ha hv _ => by
      simp [Mach.act, ha, Rg.PTP_DOM_STEP_HI, Mach.actModule, Mach.actCompute, Mach.actComm, hn, hv, hi]
    exact makes_does (makes_memTo (exec_domainStep init 0 v lt s) (writeReg_acts ht acts)) ⟨rfl, Mach.domStep_clk v.isLt⟩
  · exact makes_servo (exec_servoUnlock init k lt s) ht (Mach.servo_unlock h)
  · exact makes_servo (exec_servoLock init k lt s) ht (Mach.servo_lock h)
  · exact makes_servo (exec_servoHold init k lt s) ht (Mach.servo_hold h)
  · exact makes_servo (exec_servoHold init k lt s) ht (Mach.servo_hold_unlocked h)
  · exact makes_runUp (exec_syncTimeout k lt s) hc ((Mach.syncLost_eq h).trans (if_pos hd))
  · exact makes_runUp (exec_syncTimeout k lt s) hc ((Mach.syncLost_eq h).trans (if_neg (Nat.not_le.mpr hd)))
  · exact makes_runUp (exec_holdoverExpiry k lt s) hc ((Mach.holdoverSpent_eq h).trans (if_pos hd))
  · exact makes_runUp (exec_holdoverExpiry k lt s) hc ((Mach.holdoverSpent_eq h).trans (if_neg (Nat.not_le.mpr hd)))
  · refine makes_runUp (exec_revertCheck lt s) hc ?_
    rw [Mach.chooseSource, Mach.chosenSource_revert hs h0 h1 hp, if_pos ⟨hr, clock.1.symm ▸ hd⟩]
  · refine makes_runUp (exec_revertCheck lt s) hc ?_
    rw [Mach.chooseSource, Mach.chosenSource_revert hs h0 h1 hp, if_neg fun h => h.1 hr, Mach.setSource, hs]
    rfl
  · have acts : ∀ (hit : Hit) (e : Stg), hit.d.name = .PTP_WT_CMD → hit.idx = [] → e.addr = Rg.PTP_WT_CMD → e.val = v.toNat →
        e.init = init.toNat → Mach.act s.mem (m.answer .done) hit e = (s.mem, (m.answer .done).join) := fun hit e hn hi ha hv _ => by
      simp [Mach.act, ha, Rg.PTP_WT_CMD, Mach.actModule, Mach.actCompute, Mach.actComm, hn, hv, hb]
    exact makes_does (makes_memTo (exec_wtJoin init v lt s) (writeReg_acts ht acts)) ⟨rfl, Mach.join_clk (m := m.answer .done) hs hpu hn⟩
  · exact makes_does (makes_runUp (exec_slewDone lt s) hc rfl) ⟨rfl, Mach.slewEnds_clk hs h⟩

/-! ### Timed pins -/

theorem Mach.modClk_congr {f g : ClkSt → ClkSt} (h : f m.clk = g m.clk) : m.modClk f = m.modClk g := by
  rw [Mach.modClk, Mach.modClk, h]

/-- A one-shot pulse starts and leaves no further start (R250). -/
theorem Mach.pulseStart_once {k t : Nat} (ho : m.timeOutOn k = true) (hn : m.clk.next = [(k, t)]) (hp : m.clk.pulse = [])
    (ht : t ≤ m.wtNow) (hm : m.fld (Rg.PTP_TOUT_CFG k) 1 0 = 1) : m.pulseStart k =
      (m.modClk fun c => { c with next := [], pulse := [⟨k, true, m.bit (Rg.PTP_TOUT_CFG k) 2, t + m.rd (Rg.PTP_TOUT_WIDTH k)⟩] }).fire
        (Rg.PTP_TOUT_IRQ_STATUS k) 0 := by
  have mode : m.toutMode k = 1 := hm
  have due : t ≤ m.wtNow + 1 := Nat.le_succ_of_le ht
  simp [Mach.pulseStart, hn, mode, ho, due, Mach.pulseOf, hp, Mach.modClk, kdel]

/-- A periodic pulse starts and leaves the start of the next (R250). -/
theorem Mach.pulseStart_again {k t : Nat} (ho : m.timeOutOn k = true) (hn : m.clk.next = [(k, t)]) (hp : m.clk.pulse = [])
    (ht : t ≤ m.wtNow) (hm : m.fld (Rg.PTP_TOUT_CFG k) 1 0 = 2) : m.pulseStart k =
      (m.modClk fun c => { c with
        next := [(k, t + m.rd (Rg.PTP_TOUT_PERIOD k))]
        pulse := [⟨k, false, m.bit (Rg.PTP_TOUT_CFG k) 2, t + m.rd (Rg.PTP_TOUT_WIDTH k)⟩] }).fire (Rg.PTP_TOUT_IRQ_STATUS k) 0 := by
  have mode : m.toutMode k = 2 := hm
  have due : t ≤ m.wtNow + 1 := Nat.le_succ_of_le ht
  simp [Mach.pulseStart, hn, mode, ho, due, Mach.pulseOf, hp, Mach.modClk, kput]

theorem Mach.pulseStart_early {k t : Nat} (hn : m.clk.next = [(k, t)]) (ht : m.wtNow + 1 < t) : m.pulseStart k = m := by
  have early : ¬ t ≤ m.wtNow + 1 := Nat.not_le.mpr ht
  simp [Mach.pulseStart, hn, early]

theorem Mach.pulseEnd_over {k stop : Nat} {once low : Bool} (h : m.clk.pulse = [⟨k, once, low, stop⟩]) (hs : stop ≤ m.wtNow) :
    m.pulseEnd k = if once then (m.modClk fun c => { c with pulse := [] }).setFld (Rg.PTP_TOUT_CFG k) 1 0 0
      else m.modClk fun c => { c with pulse := [] } := by
  have ends : stop ≤ m.wtNow + 1 := Nat.le_succ_of_le hs
  simp [Mach.pulseEnd, Mach.pulseOf, h, ends, Mach.modClk]

/-- A capture notes the edge in the tick and goes into the FIFO while that holds fewer than 8 (R252). -/
theorem Mach.capture_eq {k : Nat} {rising : Bool} (ho : m.timeInOn k = true) (hf : m.fld (Rg.PTP_TIN_CFG k) 1 0 = 3) (ht : m.clk.tin = []) :
    m.capture k rising =
      (if 8 ≤ (m.clk.fifo.getD k []).length then
        ((m.modClk fun c => { c with tin := [(k, clockNs m.clk.wt, rising, 1)] }).bump (Rg.PTP_TIN_DROP_CNT k)).fire (Rg.PTP_TIN_IRQ_STATUS k) 1
      else
        (((m.modClk fun c => { c with tin := [(k, clockNs m.clk.wt, rising, 1)] }).modClk fun c =>
          { c with fifo := c.fifo.modify k (· ++ [(clockNs m.clk.wt, rising)]) }).showTin k).fire (Rg.PTP_TIN_IRQ_STATUS k) 0) := by
  have edge : (if rising then bitOf 3 0 else bitOf 3 1) = true := by cases rising <;> rfl
  simp [Mach.capture, hf, ho, ht, edge, Mach.modClk]

theorem exec_timeOutPulseStart (k : Fin 8) (lt : Nat) (s : State) :
    exec (.timeOutPulseStart k lt) s = runUp s (fun m => (m.advance lt).pulseStart k) := rfl
theorem exec_timeOutPulseEnd (k : Fin 8) (lt : Nat) (s : State) :
    exec (.timeOutPulseEnd k lt) s = runUp s (fun m => (m.advance lt).pulseEnd k) := rfl
theorem exec_timeInCapture (k : Fin 8) (rising : Bool) (lt : Nat) (s : State) :
    exec (.timeInCapture k rising lt) s = runUp s (fun m => (m.advance lt).capture k rising) := rfl
theorem exec_tinPop (init : InitId) (k : Fin 8) (v : Word) (s : State) : exec (.tinPop init k v) s =
    runMem s (fun mem m => Mach.writeReg mem m init.toNat (Rg.PTP_TIN_POP k) 4 v.toNat) := rfl
theorem exec_txqPop (init : InitId) (q : Fin 6) (v : Word) (s : State) : exec (.txqPop init q v) s =
    runMem s (fun mem m => Mach.writeReg mem m init.toNat (Rg.PTP_TXQ_POP q) 4 v.toNat) := rfl

/-- Settles O32: a pin's event is one branch of its rule, and a pop is the write's own action. -/
theorem timedPins : Obligations.TimedPins := by
  unfold Obligations.TimedPins
  refine fun s => ⟨fun k lt hc => ?_, fun k rising lt hc => ?_, fun init k v ht hb => ?_, fun init q v ht hb => ?_⟩
  · refine ⟨fun t ho hn hp ht => ⟨fun hm => ?_, fun hm => ?_⟩, fun t hn ht => ?_, fun low stop hs => ⟨fun h => ?_, fun h => ?_⟩⟩
    · exact makes_runUp (exec_timeOutPulseStart k lt s) hc (Mach.pulseStart_once ho hn hp ht hm)
    · exact makes_runUp (exec_timeOutPulseStart k lt s) hc (Mach.pulseStart_again ho hn hp ht hm)
    · exact makes_runUp (exec_timeOutPulseStart k lt s) hc (Mach.pulseStart_early hn ht)
    · exact makes_runUp (exec_timeOutPulseEnd k lt s) hc (Mach.pulseEnd_over h hs)
    · exact makes_runUp (exec_timeOutPulseEnd k lt s) hc (Mach.pulseEnd_over h hs)
  · intro m ho hf ht _
    have edge := Mach.capture_eq (m := m) (rising := rising) ho hf ht
    refine ⟨fun h => ?_, fun h => ?_⟩
    · exact makes_runUp (exec_timeInCapture k rising lt s) hc (edge.trans (if_neg (Nat.not_le.mpr h)))
    · exact makes_runUp (exec_timeInCapture k rising lt s) hc (edge.trans (if_pos h))
  · refine makes_memTo (exec_tinPop init k v s) (writeReg_acts ht fun hit e hn hi ha hv _ => ?_)
    have low : ¬ 0x42000000 ≤ Rg.PTP_TIN_POP k := by simp only [Rg.PTP_TIN_POP]; omega
    simp [Mach.act, ha, low, Mach.actModule, Mach.actCompute, Mach.actComm, hn, hv, hb, hi, Mach.popTin]
  · refine makes_memTo (exec_txqPop init q v s) (writeReg_acts ht fun hit e hn hi ha hv _ => ?_)
    have low : ¬ 0x42000000 ≤ Rg.PTP_TXQ_POP q := by simp only [Rg.PTP_TXQ_POP]; omega
    simp [Mach.act, ha, low, Mach.actModule, Mach.actCompute, Mach.actComm, hn, hv, hb, hi, Mach.popTxq]

end Sys2Proof.Machine
end


section
/-! SUPPORT. Writes of registers on the far dies, where nothing is held back. -/

namespace Sys2Proof.Machine

variable {m : Mach}

theorem bitsOutside_zero (v : Nat) : bitsOutside v 0 = v &&& 0xFFFFFFFF := rfl

/-- The bits that a far write may change are bits of a 32-bit register. -/
theorem takesFar_mask {init a width v : Nat} {n : RegName} {e : Stg} (h : m.takesFar init a width v n = some e) :
    bitsOutside e.mask 0 = e.mask := by
  unfold Mach.takesFar at h
  split at h
  · split at h
    · next hc =>
      simp only [Bool.and_eq_true, Mach.mayWrite, beq_iff_eq] at hc
      obtain ⟨-, ⟨⟨-, -⟩, outside⟩, -⟩ := hc
      rw [← Option.some.inj h]
      exact (bitsOutside_self outside).1
    · cases h
  · cases h

/-- Without read-ahead data a write discards none. -/
theorem Mach.bufWrite_empty (a : Nat) (h : m.lath.bufs = []) : m.bufWrite a = m := by
  simp [Mach.bufWrite, Mach.bufDiscardIf, h, Mach.forAll]

/-- A far write that nothing holds back is carried out at once, and answers `done`. -/
theorem writeReg_takesFar {mem : Mem} {init a width v : Nat} {n : RegName} {e : Stg} (h : m.takesFar init a width v n = some e)
    (hb : m.lath.bufs = []) : ∃ (hh : Hit) (ms : List Nat), resolve a width = some (.reg hh ms) ∧ hh.d.name = n ∧ e.addr = a ∧
      e.val = v ∧ e.init = init ∧ e.members = ms ∧
      Mach.writeReg mem m init a width v = ((Mach.act mem m hh e).1, (Mach.act mem m hh e).2.answer .done) := by
  obtain ⟨hh, ms, f, hr, hn, -, hl, hi, he, hw, hbad, hmask⟩ := takesFar_cases h
  obtain ⟨l, hl⟩ := Option.isSome_iff_exists.mp hl
  have whole := takesFar_mask h
  subst he
  refine ⟨hh, ms, hr, hn, rfl, rfl, rfl, rfl, ?_⟩
  have done : Mach.farPerform mem m ⟨hh, { addr := a, mask := hh.d.writeMask, val := v, init := init, part := m.partOf init, members := ms }, some f⟩ =
      ((Mach.act mem m hh { addr := a, mask := hh.d.writeMask, val := v, init := init, part := m.partOf init, members := ms }).1,
        (Mach.act mem m hh { addr := a, mask := hh.d.writeMask, val := v, init := init, part := m.partOf init, members := ms }).2, true) := by
    simp only [Mach.farPerform, hbad, beq_self_eq_true, if_true, whole, beq_iff_eq]
    rw [if_neg hmask]
  simp only [Mach.writeReg, Mach.writeWith, hw, hl, hi, if_true, Mach.bufWrite_empty a hb, done]

end Sys2Proof.Machine
end

section
/-! SUPPORT. CAN channels: reception, filters and queues (R258 to R264). -/

namespace Sys2Proof.Machine

variable {m : Mach}

theorem Mach.integrated_eq {c : Nat} (hs : m.canState c = 1) (hh : m.canHears c = true) :
    m.integrated c = if 255 < m.canTec c then m.busOff c else (m.setCan c 2).confine c := by
  simp [Mach.integrated, hs, hh]

/-- A start of frame on the bus is network management's alone. -/
theorem Mach.nmSof_sameChannel (c : Nat) : (m.nmSof c).canHears c = m.canHears c ∧ (m.nmSof c).canState c = m.canState c ∧
    (m.nmSof c).fld (Rg.MBUS_CFG c) 1 0 = m.fld (Rg.MBUS_CFG c) 1 0 ∧ (∀ t, (m.nmSof c).wtAt t = m.wtAt t) ∧
    (m.nmSof c).canListens c = m.canListens c ∧ (m.nmSof c).mch c = m.mch c := by
  unfold Mach.nmSof
  split <;> exact ⟨rfl, rfl, rfl, fun _ => rfl, rfl, rfl⟩

theorem canReceive_routes {mem : Mem} {c lt sof : Nat} {f : CanFrame} (begun : Bool) (hh : (m.advance lt).canHears c = true)
    (hs : (m.advance lt).canState c = 2) (hf : f.format ≤ (m.advance lt).fld (Rg.MBUS_CFG c) 1 0) :
    canReceive mem m c f begun sof lt =
      (let r := routeFrame mem ((((m.advance lt).nmSof c).bump (Rg.MBUS_RX_FRAME_CNT c)).recGood c) c f (unsignedOf 64 ((m.advance lt).wtAt sof))
       (r.1, r.2.nmObserve c f false)) := by
  obtain ⟨ears, state, format, time, -, -⟩ := Mach.nmSof_sameChannel (m := m.advance lt) c
  have takes : ((m.advance lt).nmSof c).canReceives c begun = true := by simp [Mach.canReceives, ears, hh, state, hs]
  simp [canReceive, hh, takes, format, hf, frameReceived, Nat.not_lt.mpr hf, time]

theorem routeFrame_unmatched {mem : Mem} {c ts : Nat} {f : CanFrame} (h : m.fltSearch c f = none) :
    routeFrame mem m c f ts = if m.bit (Rg.MBUS_CTRL c) 1 then rxqFill mem m c 0 f 0xFFFF ts
      else (mem, m.bump (Rg.MBUS_RX_NOMATCH_CNT c)) := by
  simp [routeFrame, h]

theorem routeFrame_queue {mem : Mem} {c ts x : Nat} {f : CanFrame} (h : m.fltSearch c f = some x) (h3 : m.bit (fltReg x 0) 3 = false)
    (h2 : m.bit (fltReg x 0) 2 = true) :
    routeFrame mem m c f ts = rxqFill mem (m.bump (fltReg x 0xC)) c (m.fld (fltReg x 0) 6 4) f x ts := by
  rw [Mach.bit] at h2 h3
  simp [routeFrame, h, h2, h3, Mach.fld]

theorem routeFrame_object {mem : Mem} {c ts x : Nat} {f : CanFrame} (h : m.fltSearch c f = some x) (h3 : m.bit (fltReg x 0) 3 = true)
    (h2 : m.bit (fltReg x 0) 2 = false) : routeFrame mem m c f ts =
      (mem, { m.bump (fltReg x 0xC) with mbus := { m.mbus with
        objs := kput m.mbus.objs x f.payload, fresh := x :: m.mbus.fresh.filter (· != x) } }) := by
  rw [Mach.bit] at h2 h3
  simp [routeFrame, h, h2, h3]

theorem rxqFill_drops {mem : Mem} {c q x ts : Nat} {f : CanFrame}
    (h : m.bit (Rg.MBUS_RXQ_CTRL c q) 0 = false ∨ m.rxqSize c q ≤ m.rxqHeld c q ∨ m.bufSize c < f.payload.length) :
    rxqFill mem m c q f x ts = (mem, m.rxqDrop c q) := by
  unfold rxqFill
  extract_lets size held wr data
  rw [if_pos]
  rcases h with h | h | h
  · simp [h]
  · simp [size, held, h]
  · simp [data, h]

/-- An entry is filled: its payload is written, then its descriptor (R263). -/
theorem rxqFill_fills {mem mem1 mem2 : Mem} {m1 m2 : Mach} {c q x ts : Nat} {f : CanFrame}
    (h0 : m.bit (Rg.MBUS_RXQ_CTRL c q) 0 = true) (hroom : m.rxqHeld c q < m.rxqSize c q) (hp : m.rxqPending c q = false)
    (hd : f.payload ≠ []) (hsize : f.payload.length ≤ m.bufSize c) (hserved : m.served kRXQ (8 * c + q) = true)
    {base : Nat} (hbase : base = m.qBase (Rg.MBUS_RXQ_BASE_LO c q) (Rg.MBUS_RXQ_BASE_HI c q))
    {k : Mach} (hk : k = m.charge kRXQ (8 * c + q) (32 + f.payload.length))
    (hok : k.queueMemOk kRXQ c q (base + 32 * m.rxqSize c q + m.bufSize c * m.rxqWr c q) f.payload.length = true)
    (hw1 : k.dmaWrite mem (0x40 + c) (base + 32 * m.rxqSize c q + m.bufSize c * m.rxqWr c q) f.payload (k.queueOwner kRXQ c q) = some (mem1, m1))
    (hok1 : m1.queueMemOk kRXQ c q (base + 32 * m.rxqWr c q) 32 = true)
    (hlen : (m1.rxDescr f x (kgetD (m.mch c).seq q 0 % 65536) ts).length = 32)
    (hw2 : m1.dmaWrite mem1 (0x40 + c) (base + 32 * m.rxqWr c q) (m1.rxDescr f x (kgetD (m.mch c).seq q 0 % 65536) ts)
      (m1.queueOwner kRXQ c q) = some (mem2, m2)) :
    rxqFill mem m c q f x ts = (mem2, ((m2.modMch c fun y => { y with seq := kput y.seq q (kgetD (m.mch c).seq q 0 + 1) }).wr
      (Rg.MBUS_RXQ_STATUS c q) ((m.rxqHeld c q + 1) <<< 16 ||| (m.rxqWr c q + 1) % m.rxqSize c q)).rxqEvent c q) := by
  have some : m.rxqSize c q ≠ 0 := by omega
  have descr : m1.rxDescr f x (kgetD (m.mch c).seq q 0 % 65536) ts ≠ [] := fun e => by simp [e] at hlen
  subst hbase hk
  simp [rxqFill, h0, some, Nat.not_le.mpr hroom, hp, Nat.not_lt.mpr hsize, hserved, hd, hok, hw1, descr, hlen, hok1, hw2]

theorem Mach.rxqAck_held {c q n : Nat} (h : n ≤ m.rxqHeld c q) :
    m.rxqAck c q n = m.setFld (Rg.MBUS_RXQ_STATUS c q) 25 16 (m.rxqHeld c q - n) := by
  simp [Mach.rxqAck, Nat.not_lt.mpr h]

theorem Mach.rxqAck_more {c q n : Nat} (h : m.rxqHeld c q < n) : m.rxqAck c q n = m.canIrq c 11 := by
  simp [Mach.rxqAck, h]

theorem exec_canIntegrationDone (c : Fin 12) (s : State) : exec (.canIntegrationDone c) s = runUp s (fun m => m.integrated c) := rfl
theorem exec_canFrameReceived (c : Fin 12) (f : CanFrame) (begun : Bool) (sof lt : Nat) (s : State) :
    exec (.canFrameReceived c f begun sof lt) s = runUpMem s (fun mem m => canReceive mem m c f begun sof lt) := rfl
theorem exec_mbusRxqAck (init : InitId) (c : Fin 12) (q : Fin 8) (v : Word) (s : State) : exec (.mbusRxqAck init c q v) s =
    runMem s (fun mem m => Mach.writeReg mem m init.toNat (Rg.MBUS_RXQ_ACK c q) 4 v.toNat) := rfl

theorem makes_mbusRxqAck {s : State} {init : InitId} {c : Fin 12} {q : Fin 8} {v : Word} {m : Mach}
    (ht : s.now.takes init.toNat (Rg.MBUS_RXQ_ACK c q) v.toNat .MBUS_RXQ_ACK [c.val, q.val] = true)
    (h : (s.now.answer .done).rxqAck c q (bitsOf v.toNat 9 0) = m) : Makes (.mbusRxqAck init c q v) s s.mem m := by
  refine makes_memTo (exec_mbusRxqAck init c q v s) (writeReg_acts ht fun hit e hn hi ha hv _ => ?_)
  have low : ¬ 0x42000000 ≤ Rg.MBUS_RXQ_ACK c q := by simp only [Rg.MBUS_RXQ_ACK]; omega
  simp [Mach.act, ha, low, Mach.actModule, Mach.actCompute, Mach.actComm, hn, hv, hi, h]

theorem makes_upMemTo {c : Instr} {s : State} {f : Mem → Mach → Mem × Mach} {mem : Mem} {m : Mach} (hc : exec c s = runUpMem s f)
    (hr : s.now.rst.cReset = false) (h : f s.mem s.now = (mem, m)) : Makes c s mem m := makes_runUpMem (r := (mem, m)) hc hr h

/-- Settles O33: reception, routing and filling of an entry are a rule for each branch of the channel's own functions. -/
theorem canReceives : Obligations.CanReceives := by
  unfold Obligations.CanReceives
  refine fun s c => ⟨fun hc hs hh => ⟨fun h => ?_, fun h => ?_⟩, fun f begun sof lt hc => ?_, fun mem m f ts => ⟨fun h hb => ?_, fun h hb => ?_,
    fun x h h3 h2 => routeFrame_queue h h3 h2, fun x h h3 h2 => routeFrame_object h h3 h2, fun q x h => rxqFill_drops h, ?_⟩,
    fun init q v ht => ⟨fun h => ?_, fun h => ?_⟩⟩
  · exact makes_runUp (exec_canIntegrationDone c s) hc ((Mach.integrated_eq hs hh).trans (if_neg (Nat.not_lt.mpr h)))
  · exact makes_runUp (exec_canIntegrationDone c s) hc ((Mach.integrated_eq hs hh).trans (if_pos h))
  · intro m hh hs hf r
    exact makes_upMemTo (exec_canFrameReceived c f begun sof lt s) hc (canReceive_routes begun hh hs hf)
  · rw [routeFrame_unmatched h, hb]; rfl
  · rw [routeFrame_unmatched h, hb]; rfl
  · intro q x mem1 mem2 m1 m2 w base pay k h0 hroom hp hd hsize hserved hok hw1 hok1 hlen hw2
    exact rxqFill_fills h0 hroom hp hd hsize hserved rfl rfl hok hw1 hok1 hlen hw2
  · exact makes_mbusRxqAck ht (Mach.rxqAck_held h)
  · exact makes_mbusRxqAck ht (Mach.rxqAck_more h)

end Sys2Proof.Machine
end


section
/-! SUPPORT. CAN channels: error counts, bus-off, transceivers and selective wake (R270 to R276). -/

namespace Sys2Proof.Machine

variable {m : Mach}

/-! ### Errors -/

theorem Mach.xcvrMode_wr {a v : Nat} (c : Nat) (h1 : Rg.MBUS_XCVR_STATUS c ≠ a) (h2 : Rg.MBUS_XCVR_CTRL c ≠ a) :
    (m.wr a v).xcvrMode c = m.xcvrMode c := by
  simp only [Mach.xcvrMode, Mach.bit_of_rd (Mach.rd_wr_other m v h1), Mach.fld_of_rd (Mach.rd_wr_other m v h2)]

/-- A register outside the transceiver's and the configuration does not say whether the channel listens. -/
theorem Mach.canListens_wr {a v : Nat} (c : Nat) (h0 : Rg.MBUS_CFG c ≠ a) (h1 : Rg.MBUS_XCVR_STATUS c ≠ a) (h2 : Rg.MBUS_XCVR_CTRL c ≠ a) :
    (m.wr a v).canListens c = m.canListens c := by
  simp only [Mach.canListens, Mach.xcvrMode_wr c h1 h2, Mach.bit_of_rd (Mach.rd_wr_other m v h0)]

@[simp] theorem Mach.confine_mbus (c : Nat) : (m.confine c).mbus = m.mbus := by
  unfold Mach.confine
  extract_lets most w rose m1
  have kept : m1.mbus = m.mbus := by
    simp only [m1, Mach.doIf]
    split <;> simp [Mach.canIrq]
  split
  · simp [Mach.setCan, Mach.canIrq, kept]
  · split
    · simp [Mach.setCan, kept]
    · exact kept

@[simp] theorem Mach.setErr_mbus (c tec rc : Nat) : (m.setErr c tec rc).mbus = m.mbus := by simp [Mach.setErr]

theorem Mach.mch_congr {n : Mach} (h : n.mbus = m.mbus) (c : Nat) : n.mch c = m.mch c := by rw [Mach.mch, Mach.mch, h]

/-- An error of a channel that takes part and sends nothing: its code, its count, and the count of the side that it was on. -/
theorem canErrorOn_counts {mem : Mem} {c lec incr : Nat} (hs : m.canState c = 2 ∨ m.canState c = 3)
    (hh : m.canHears c = true) (hl : m.canListens c = false) (ht : (m.mch c).tx = none)
    {e : Mach} (he : e = ((m.nmSof c).setFld (Rg.MBUS_STATUS c) 6 4 lec).bump (Rg.MBUS_ERR_FRAME_CNT c)) :
    (∀ r, r = e.setErr c (e.canTec c) (e.canRec c + incr) →
      canErrorOn mem (m.nmSof c) c false lec incr = (mem, if 255 < r.canTec c then r.busOff c else r)) ∧
    (∀ r, r = e.setErr c (e.canTec c + incr) (e.canRec c) →
      canErrorOn mem (m.nmSof c) c true lec incr = (mem, (if 255 < r.canTec c then r.busOff c else r).afterTx c)) := by
  obtain ⟨ears, state, -, -, listens, chan⟩ := Mach.nmSof_sameChannel (m := m) c
  have talks : ((m.nmSof c).setFld (Rg.MBUS_STATUS c) 6 4 lec).canListens c = false := by
    rw [Mach.setFld, Mach.canListens_wr c (by simp only [Rg.MBUS_CFG, Rg.MBUS_STATUS]; omega)
      (by simp only [Rg.MBUS_XCVR_STATUS, Rg.MBUS_STATUS]; omega) (by simp only [Rg.MBUS_XCVR_CTRL, Rg.MBUS_STATUS]; omega), listens, hl]
  have quiet : ∀ t r, ((e.setErr c t r).mch c).tx = none := fun t r => by
    rw [Mach.mch_congr (m := m.nmSof c) (by simp [he]), chan, ht]
  have takesPart : ∀ tx : Bool, ¬ (!((m.nmSof c).canState c == 2 || (m.nmSof c).canState c == 3)
      || !((m.nmSof c).canHears c || tx && ((m.nmSof c).mch c).tx.isSome)) = true := fun tx => by
    rcases hs with hs | hs <;> simp [state, hs, ears, hh]
  refine ⟨?_, ?_⟩ <;> rintro r rfl <;> unfold canErrorOn <;> rw [if_neg (takesPart _)] <;>
    simp only [talks, Bool.false_eq_true, if_false, if_true, ← he, quiet]

theorem Mach.busOff_todo (c : Nat) : (m.busOff c).todo = m.todo ++ [.safety 0x114 c] := by
  have begun : ∀ n : Mach, (n.startRecovery c).todo = n.todo := fun n => by
    unfold Mach.startRecovery
    split <;> simp [Mach.setCan]
  unfold Mach.busOff
  extract_lets m1 m2
  have left : m2.todo = m.todo ++ [.safety 0x114 c] := by
    simp [m2, m1, Mach.raise, Mach.push, Mach.setCan, Mach.canIrq]
  split
  · exact (begun m2).trans left
  · exact left

theorem Mach.startRecovery_busOff {c : Nat} (h : m.canState c = 4) : m.startRecovery c = m.setCan c 5 := by
  simp [Mach.startRecovery, h]

theorem Mach.startRecovery_other {c : Nat} (h : m.canState c ≠ 4) : m.startRecovery c = m := by
  simp [Mach.startRecovery, h]

theorem Mach.recoveryWait_policy {c : Nat} (h : m.canState c = 4) (hp : m.fld (Rg.MBUS_CFG c) 23 16 ≠ 0) :
    m.recoveryWait c = m.setCan c 5 := by
  simp [Mach.recoveryWait, hp, Mach.startRecovery_busOff h]

theorem Mach.recoveryWait_command {c : Nat} (hp : m.fld (Rg.MBUS_CFG c) 23 16 = 0) : m.recoveryWait c = m := by
  simp [Mach.recoveryWait, hp]

theorem Mach.recovered_ends {c : Nat} (h : m.canState c = 5) (hh : m.canHears c = true) :
    m.recovered c = ((m.setCan c 2).setErr c 0 0).canIrq c 5 := by
  simp [Mach.recovered, h, hh]

/-! ### Transceivers -/

theorem Mach.xcvrWrite_changed {c mode : Nat} (hm : mode < 4) (h : m.fld (Rg.MBUS_XCVR_CTRL c) 1 0 ≠ mode) :
    m.xcvrWrite c mode = (m.setFld (Rg.MBUS_XCVR_CTRL c) 1 0 mode).setBit (Rg.MBUS_XCVR_STATUS c) 0 false := by
  simp [Mach.xcvrWrite, Nat.mod_eq_of_lt hm, h]

theorem Mach.xcvrDone_released {c : Nat} (hl : m.dieHeld .l = false) (he : m.elemHeld uMBUS c = false) :
    m.xcvrDone c = m.setBit (Rg.MBUS_XCVR_STATUS c) 0 true := by
  simp [Mach.xcvrDone, hl, he]

theorem Mach.xcvrEvent_begins {c b : Nat} (hl : m.dieHeld .l = false) (he : m.elemHeld uMBUS c = false)
    (h : m.bit (Rg.MBUS_XCVR_STATUS c) b = false) :
    m.xcvrEvent c b true = (m.setBit (Rg.MBUS_XCVR_STATUS c) b true).canIrq c 10 := by
  simp [Mach.xcvrEvent, hl, he, h, Mach.xcvrFault]

theorem Mach.xcvrEvent_ends {c b : Nat} (hl : m.dieHeld .l = false) (h : m.bit (Rg.MBUS_XCVR_STATUS c) b = true) :
    m.xcvrEvent c b false = m.setBit (Rg.MBUS_XCVR_STATUS c) b false := by
  simp [Mach.xcvrEvent, hl, h, Mach.xcvrFault]

/-! ### Wake -/

theorem Mach.canWakes_standby {c kind : Nat} (hk : m.sleepKind = none) (h : m.standsBy c kind = true) :
    m.canWakes c kind = (m.wakeStandby c).nmXwake c := by
  simp [Mach.canWakes, hk, h]

theorem Mach.canWakes_awake {c kind : Nat} (hk : m.sleepKind = none) (h : m.standsBy c kind = false) : m.canWakes c kind = m := by
  simp [Mach.canWakes, hk, h]

theorem Mach.wufStep_standby {c : Nat} (err : Bool) (h : m.standsBy c 2 = true) : m.wufStep c err = m.wufCount c err := by
  simp [Mach.wufStep, Mach.decodes, h]

theorem Mach.wufCount_awake {c : Nat} (err : Bool) (hs : m.sillWakes = false) : m.wufCount c err =
    m.wr (Rg.MBUS_WUF_ERR c) (if err then min (m.fld (Rg.MBUS_WUF_ERR c) 5 0 + 1) 32 else m.fld (Rg.MBUS_WUF_ERR c) 5 0 - 1) := by
  simp [Mach.wufCount, Mach.setWufErr, Mach.wufErr, hs]

/-- Counting leaves what says where the channel waits. -/
theorem Mach.wufCount_keeps {c : Nat} (err : Bool) (hs : m.sillWakes = false) :
    (m.wufCount c err).sleepKind = m.sleepKind ∧ (m.wufCount c err).sillWakes = m.sillWakes ∧
      (m.wufCount c err).standsBy c 2 = m.standsBy c 2 := by
  rw [Mach.wufCount_awake err hs]
  generalize (if err then min (m.fld (Rg.MBUS_WUF_ERR c) 5 0 + 1) 32 else m.fld (Rg.MBUS_WUF_ERR c) 5 0 - 1) = v
  have kind : (m.wr (Rg.MBUS_WUF_ERR c) v).sleepKind = m.sleepKind := by simp [Mach.sleepKind]
  have mode : (m.wr (Rg.MBUS_WUF_ERR c) v).xcvrMode c = m.xcvrMode c :=
    Mach.xcvrMode_wr c (by simp only [Rg.MBUS_XCVR_STATUS, Rg.MBUS_WUF_ERR]; omega) (by simp only [Rg.MBUS_XCVR_CTRL, Rg.MBUS_WUF_ERR]; omega)
  have cfg : (m.wr (Rg.MBUS_WUF_ERR c) v).fld (Rg.MBUS_CFG c) 9 8 = m.fld (Rg.MBUS_CFG c) 9 8 :=
    Mach.fld_of_rd (Mach.rd_wr_other m v (by simp only [Rg.MBUS_CFG, Rg.MBUS_WUF_ERR]; omega)) 9 8
  exact ⟨kind, by simp [Mach.sillWakes, Mach.asleep], by simp [Mach.standsBy, kind, mode, cfg]⟩

theorem Mach.selectiveWake_frame {c : Nat} {f : CanFrame} (hk : m.sleepKind = none) (hs : m.sillWakes = false)
    (h : m.standsBy c 2 = true) : m.selectiveWake c (some f) =
      if wufMatch (m.wufInUse c) f then ((m.wufCount c false).wakeStandby c).nmXwake c else m := by
  obtain ⟨kind, -, stands⟩ := Mach.wufCount_keeps (m := m) (c := c) false hs
  simp [Mach.selectiveWake, Mach.wufStep_standby false h, Mach.canWakes_standby (kind.trans hk) (stands.trans h)]

theorem Mach.decoderFrame_good {c : Nat} (h : m.standsBy c 2 = true) : m.decoderFrame c false = m.wufCount c false := by
  simp [Mach.decoderFrame, Mach.wufStep_standby false h]

theorem Mach.decoderFrame_error {c : Nat} (hk : m.sleepKind = none) (hs : m.sillWakes = false) (h : m.standsBy c 2 = true) :
    m.decoderFrame c true = if (m.wufCount c true).wufErr c = 32 then ((m.wufCount c true).wakeStandby c).nmXwake c
      else m.wufCount c true := by
  obtain ⟨kind, -, stands⟩ := Mach.wufCount_keeps (m := m) (c := c) true hs
  simp [Mach.decoderFrame, Mach.wufStep_standby true h, Mach.decodes, stands.trans h,
    Mach.canWakes_standby (kind.trans hk) (stands.trans h)]

theorem Mach.wufErr_counted {c : Nat} (hs : m.sillWakes = false) :
    (m.wufCount c true).wufErr c = min (m.fld (Rg.MBUS_WUF_ERR c) 5 0 + 1) 32 := by
  obtain ⟨-, awake, -⟩ := Mach.wufCount_keeps (m := m) (c := c) true hs
  rw [Mach.wufErr, awake, hs, Mach.wufCount_awake true hs]
  simp only [Bool.false_eq_true, if_false, if_true, Mach.fld, Mach.rd_wr_same, bitsOf, Nat.shiftRight_zero]
  omega

theorem exec_canError (c : Fin 12) (tx : Bool) (lec : Fin 7) (incr : Fin 9) (s : State) : exec (.canError c tx lec incr) s =
    runUpMem s (fun mem m => canErrorOn mem (if m.canHears c then m.nmSof c else m) c tx lec incr) := rfl
theorem exec_busoffRecoveryWait (c : Fin 12) (s : State) : exec (.busoffRecoveryWait c) s = runUp s (fun m => m.recoveryWait c) := rfl
theorem exec_mbusRecover (init : InitId) (c : Fin 12) (v : Word) (s : State) : exec (.mbusRecover init c v) s =
    runMem s (fun mem m => Mach.writeReg mem m init.toNat (Rg.MBUS_CMD c) 4 v.toNat) := rfl
theorem exec_busoffRecovered (c : Fin 12) (s : State) : exec (.busoffRecovered c) s = runUp s (fun m => m.recovered c) := rfl
theorem exec_xcvrModeWrite (init : InitId) (c : Fin 12) (v : Word) (s : State) : exec (.xcvrModeWrite init c v) s =
    runMem s (fun mem m => Mach.writeReg mem m init.toNat (Rg.MBUS_XCVR_CTRL c) 4 v.toNat) := rfl
theorem exec_xcvrModeDone (c : Fin 12) (s : State) : exec (.xcvrModeDone c) s = runUp s (fun m => m.xcvrDone c) := rfl
theorem exec_txdTimeout (c : Fin 12) (s : State) : exec (.txdTimeout c) s = runUp s (fun m => m.xcvrEvent c 1 true) := rfl
theorem exec_xcvrOvertemp (c : Fin 12) (s : State) : exec (.xcvrOvertemp c) s = runUp s (fun m => m.xcvrEvent c 2 true) := rfl
theorem exec_xcvrOvertempEnd (c : Fin 12) (s : State) : exec (.xcvrOvertempEnd c) s = runUp s (fun m => m.xcvrEvent c 2 false) := rfl
theorem exec_txdPathRecessive (c : Fin 12) (s : State) : exec (.txdPathRecessive c) s = runUp s (fun m => m.xcvrEvent c 1 false) := rfl
theorem exec_canDominantWake (c : Fin 12) (s : State) : exec (.canDominantWake c) s = run s (fun m => m.canWakes c 1) := rfl
theorem exec_canSelectiveWake (c : Fin 12) (f : Option CanFrame) (s : State) :
    exec (.canSelectiveWake c f) s = run s (fun m => m.selectiveWake c f) := rfl
theorem exec_selectiveWakeDecoderFrame (c : Fin 12) (err : Bool) (s : State) :
    exec (.selectiveWakeDecoderFrame c err) s = run s (fun m => m.decoderFrame c err) := rfl

theorem makes_mbusRecover {s : State} {init : InitId} {c : Fin 12} {v : Word} {m : Mach}
    (ht : s.now.takes init.toNat (Rg.MBUS_CMD c) v.toNat .MBUS_CMD [c.val] = true) (hb : bitOf v.toNat 0 = true)
    (h : (s.now.answer .done).startRecovery c = m) : Makes (.mbusRecover init c v) s s.mem m := by
  refine makes_memTo (exec_mbusRecover init c v s) (writeReg_acts ht fun hit e hn hi ha hv _ => ?_)
  have low : ¬ 0x42000000 ≤ Rg.MBUS_CMD c := by simp only [Rg.MBUS_CMD]; omega
  simp [Mach.act, ha, low, Mach.actModule, Mach.actCompute, Mach.actComm, hn, hv, hi, hb, h]

/-- Below the load channels an address has one register. -/
theorem findReg_of_resolve {a w : Nat} {h : Hit} {ms : List Nat} (ha : a < 0x42000000) (hr : resolve a w = some (.reg h ms)) :
    findReg a = some h := by
  have low : ¬ 0x42000000 ≤ a := Nat.not_le.2 ha
  rw [resolve, if_neg low] at hr
  cases hf : findReg a with
  | none => simp [hf] at hr
  | some x =>
    simp only [hf] at hr
    split at hr
    · cases hr
      rfl
    · cases hr

/-- The register at an address has an index. -/
def hasIndex (a : Nat) (l : List Nat) : Bool :=
  match findReg a with
  | some h => h.idx == l
  | none => false

theorem idx_of_resolve {a w : Nat} {h : Hit} {l ms : List Nat} (ha : a < 0x42000000) (hr : resolve a w = some (.reg h ms))
    (hl : hasIndex a l = true) : h.idx = l := by
  simpa [hasIndex, findReg_of_resolve ha hr] using hl

/-- The index of the register that an access of MBUS_XCVR_CTRL reaches. -/
theorem hit_MBUS_XCVR_CTRL {c : Fin 12} {h : Hit} {ms : List Nat} (hr : resolve (Rg.MBUS_XCVR_CTRL c) 4 = some (.reg h ms)) :
    h.idx = [c.val] := by
  have found : ∀ c : Fin 12, hasIndex (Rg.MBUS_XCVR_CTRL c) [c.val] = true := by decide +kernel
  exact idx_of_resolve (by simp only [Rg.MBUS_XCVR_CTRL]; omega) hr (found c)

theorem makes_xcvrModeWrite {s : State} {init : InitId} {c : Fin 12} {v : Word} {e : Stg}
    (ht : s.now.takesFar init.toNat (Rg.MBUS_XCVR_CTRL c) 4 v.toNat .MBUS_XCVR_CTRL = some e) (hb : s.now.lath.bufs = []) :
    Makes (.xcvrModeWrite init c v) s s.mem ((s.now.xcvrWrite c (bitsOf v.toNat 1 0)).answer .done) := by
  obtain ⟨hh, ms, hr, hn, ha, hv, -, -, hw⟩ := writeReg_takesFar (mem := s.mem) ht hb
  have low : ¬ 0x42000000 ≤ Rg.MBUS_XCVR_CTRL c := by simp only [Rg.MBUS_XCVR_CTRL]; omega
  have acts : Mach.act s.mem s.now hh e = (s.mem, s.now.xcvrWrite c (bitsOf v.toNat 1 0)) := by
    simp [Mach.act, ha, low, Mach.actModule, Mach.actCompute, Mach.actComm, hn, hv, hit_MBUS_XCVR_CTRL hr]
  rw [acts] at hw
  exact makes_memTo (exec_xcvrModeWrite init c v s) hw

/-- Settles O35: errors, recovery and the transceiver's events each meet the guard of their rule. -/
theorem canErrorsAndTransceivers : Obligations.CanErrorsAndTransceivers := by
  unfold Obligations.CanErrorsAndTransceivers
  refine ⟨fun s c => ⟨fun lec incr hc hs hh hl ht => ?_, fun m => Mach.busOff_todo c, fun hc hs hp => ?_, fun hc hp => ?_,
    fun init v ht hb => ⟨fun h => ?_, fun h => ?_⟩, fun hc hs hh => ?_⟩,
    fun s c => ⟨fun init v e ht hb h => ?_, fun hc hl he => ⟨?_, fun h => ?_, fun h => ?_, fun h => ?_, fun h => ?_⟩,
      fun hk h => ?_, fun hk h => ?_, fun hk hs h f => ⟨fun hf => ?_, fun hf => ?_, ?_, fun he => ?_, fun he => ?_⟩⟩⟩
  · intro m rx tx
    obtain ⟨asReceiver, asSender⟩ := canErrorOn_counts (mem := s.mem) (lec := lec) (incr := incr) hs hh hl ht (e := m) rfl
    have receives := asReceiver rx rfl
    have sends := asSender tx rfl
    refine ⟨fun h => ?_, fun h => ?_, fun h => ?_⟩ <;> refine makes_upMemTo (exec_canError ..) hc ?_ <;> rw [if_pos hh]
    · rw [receives, if_neg (Nat.not_lt.mpr h)]
    · rw [sends, if_neg (Nat.not_lt.mpr h)]
    · rw [sends, if_pos h]
  · exact makes_runUp (exec_busoffRecoveryWait c s) hc (Mach.recoveryWait_policy hs hp)
  · exact makes_runUp (exec_busoffRecoveryWait c s) hc (Mach.recoveryWait_command hp)
  · exact makes_mbusRecover ht hb (Mach.startRecovery_busOff h)
  · exact makes_mbusRecover ht hb (Mach.startRecovery_other h)
  · exact makes_runUp (exec_busoffRecovered c s) hc (Mach.recovered_ends hs hh)
  · have mode : bitsOf v.toNat 1 0 < 4 := Nat.mod_lt _ (by decide)
    rw [← Mach.xcvrWrite_changed mode h]
    exact makes_xcvrModeWrite ht hb
  · exact makes_runUp (exec_xcvrModeDone c s) hc (Mach.xcvrDone_released hl he)
  · exact makes_runUp (exec_txdTimeout c s) hc (Mach.xcvrEvent_begins hl he h)
  · exact makes_runUp (exec_xcvrOvertemp c s) hc (Mach.xcvrEvent_begins hl he h)
  · exact makes_runUp (exec_xcvrOvertempEnd c s) hc (Mach.xcvrEvent_ends hl h)
  · exact makes_runUp (exec_txdPathRecessive c s) hc (Mach.xcvrEvent_ends hl h)
  · exact makes_run (exec_canDominantWake c s) (Mach.canWakes_standby hk h)
  · exact makes_run (exec_canDominantWake c s) (Mach.canWakes_awake hk h)
  · refine makes_run (exec_canSelectiveWake c (some f) s) ((Mach.selectiveWake_frame hk hs h).trans (if_neg ?_))
    simp [hf]
  · exact makes_does (makes_run (exec_canSelectiveWake c (some f) s) ((Mach.selectiveWake_frame hk hs h).trans (if_pos hf))) ⟨rfl, rfl⟩
  · exact makes_run (exec_selectiveWakeDecoderFrame c false s) (Mach.decoderFrame_good h)
  · refine makes_run (exec_selectiveWakeDecoderFrame c true s) ((Mach.decoderFrame_error hk hs h).trans (if_neg ?_))
    rw [Mach.wufErr_counted hs]
    omega
  · refine makes_run (exec_selectiveWakeDecoderFrame c true s) ((Mach.decoderFrame_error hk hs h).trans (if_pos ?_))
    rw [Mach.wufErr_counted hs, he]
    rfl

end Sys2Proof.Machine
end


section
/-! SUPPORT. A transmitter that is switched off: network management observes the frame that has not been sent. -/

namespace Sys2Proof.Machine

theorem exec_canTxComplete (c : Fin 12) (sent : Bool) (s : State) :
    exec (.canTxComplete c sent) s = runUpMem s (fun mem m => canSent mem m c sent) := rfl

/-- A running module that sends a frame of network management's identifiers on CAN channel 0, which is segment 0, while
R273 has switched the channel's transmitter off. -/
def mutedSender : State :=
  let m := { State.reset.mach with
    rst := { State.reset.mach.rst with cReset := false }
    mbus := { State.reset.mach.mbus with ch := { tx := some { src := none, f := { id := 0x500 } } } :: List.replicate 11 {} } }
  { State.reset with mach :=
    ((m.wr (Rg.NM_SEG_CFG 0) (2 ^ 31 + 256)).setFld (Rg.NM_SEG_STATUS 0) 2 0 1).setBit (Rg.MBUS_XCVR_STATUS 0) 1 true }

/-- The machine that the obligation names: the attempt is over without success, and nothing else has happened. -/
def mutedLost : Mach :=
  (mutedSender.now.modMch 0 fun y => { y with tx := none, h := y.h.map fun e : HEnt => { e with busy := false } }).afterTx 0

/-- Network management has seen a message on segment 0. -/
def sawNm (m : Mach) : Bool := (m.nm.seg.map (·.nmSeen)).headD false

theorem mutedLost_unseen : sawNm (mutedSender.after mutedSender.mem mutedLost).mach = false := by decide +kernel

theorem mutedSender_seen : sawNm (mutedSender.after (canSent mutedSender.mem mutedSender.now 0 true).1
    (canSent mutedSender.mem mutedSender.now 0 true).2).mach = true := by decide +kernel

/-- Refutes O34: the end of an attempt behind a transmitter that is switched off leaves the frame unsent, but network
management observes it as a sent one. -/
theorem not_canSends : ¬ Obligations.CanSends := by
  unfold Obligations.CanSends
  intro h
  obtain ⟨-, -, ends, -⟩ := h mutedSender 0 rfl
  obtain ⟨-, -, lost, -⟩ := ends _ rfl rfl
  have stays : Makes (.canTxComplete 0 true) mutedSender mutedSender.mem mutedLost :=
    (lost rfl rfl rfl).2 (by decide +kernel)
  have sends := makes_runUpMem (exec_canTxComplete 0 true mutedSender) rfl rfl
  have same := Host.Outcome.next.inj (stays.symm.trans sends)
  have seen := mutedLost_unseen
  rw [same] at seen
  exact absurd (mutedSender_seen.symm.trans seen) (by decide)

end Sys2Proof.Machine
end


section
/-! SUPPORT. Far requests: held reads, posted writes and bursts over an idle lath (R343 to R346). -/

namespace Sys2Proof.Machine

variable {m : Mach}

/-! ### What the queue of a link shows -/

theorem linkOfChan_lt (c : Nat) : linkOfChan c < 2 := by unfold linkOfChan; split <;> decide

/-- The queue is shown in LATH_STATUS only. -/
theorem Mach.rd_showLath {a : Nat} (h : ∀ l, l < 2 → a ≠ Rg.LATH_STATUS l) : m.showLath.rd a = m.rd a := by
  simp only [Mach.showLath, Mach.forAll, List.foldl_cons, List.foldl_nil]
  rw [Mach.rd_setFld_other _ _ _ (h 1 (by decide)), Mach.rd_setFld_other _ _ _ (h 1 (by decide)),
    Mach.rd_setFld_other _ _ _ (h 0 (by decide)), Mach.rd_setFld_other _ _ _ (h 0 (by decide))]

theorem Mach.bit_showLath_ctrl (l : Nat) (q : List LReq) (i : Nat) :
    ((m.modLath fun x => { x with q := q }).showLath).bit (Rg.LATH_CTRL l) i = m.bit (Rg.LATH_CTRL l) i :=
  Mach.bit_of_rd (Mach.rd_showLath fun k hk => by simp only [Rg.LATH_CTRL, Rg.LATH_STATUS]; omega) i

/-! ### A queue that holds at most one request -/

theorem Mach.lathAdmit_empty (h : m.lath.q = []) : m.lathAdmit = m.showLath := by
  simp [Mach.lathAdmit, h, Mach.lathAdmitOne]

theorem Mach.lathAdmit_admitted {r : LReq} (h : m.lath.q = [r]) (hw : r.waiting = false) : m.lathAdmit = m.showLath := by
  simp [Mach.lathAdmit, h, Mach.lathAdmitOne, hw]

theorem Mach.lathDrop_only {r : LReq} (h : m.lath.q = [r]) :
    m.lathDrop r = (m.modLath fun x => { x with q := [] }).showLath := by
  have rest : m.lath.q.erase r = [] := by simp [h]
  simp only [Mach.lathDrop, Mach.modLath, rest]
  exact Mach.lathAdmit_empty rfl

/-- A request joins an empty queue. -/
theorem Mach.joinQueue (r : LReq) (h : m.lath.q = []) :
    (m.modLath fun x => { x with q := x.q ++ [r] }) = m.modLath fun x => { x with q := [r] } := by
  simp [Mach.modLath, h]

/-- The limit of the only request passes. -/
theorem Mach.markLate {r : LReq} (h : m.lath.q = [r]) :
    (m.modLath fun x => { x with q := x.q.takeWhile (· != r) ++ { r with late := true } :: (x.q.dropWhile (· != r)).drop 1 }) =
      m.modLath fun x => { x with q := [{ r with late := true }] } := by
  simp [Mach.modLath, h]

/-- A read takes the slot of an empty queue. -/
theorem Mach.lathTake_read {r : LReq} (hq : m.lath.q = []) (hw : r.write = false) :
    m.lathTake r = ((m.modLath fun x => { x with q := [r] }).showLath, true) := by
  have free : m.freeRead r.ch = true := by
    simp only [Mach.freeRead, hq, List.filter_nil, List.countP_nil, readsPerChan, readsPerLink]
    split <;> rfl
  simp only [Mach.lathTake, hw, free, hq, Mach.joinQueue r hq]
  simp

/-- A write takes a reserved entry of an empty queue. -/
theorem Mach.lathTake_write {r : LReq} (hq : m.lath.q = []) (hw : r.write = true) (hs : r.shared = false) :
    m.lathTake r = ((m.modLath fun x => { x with q := [r] }).showLath, true) := by
  have free : m.freeEntry r.ch = some false := by
    have some : 0 < resvEntries (linkOfChan r.ch) := by unfold resvEntries; split <;> decide
    simp [Mach.freeEntry, hq, some]
  have same : { r with shared := false } = r := by rw [← hs]
  simp only [Mach.lathTake, if_pos hw, free, hq, same, Mach.joinQueue r hq]
  simp

/-! ### Read-ahead buffers that hold nothing -/

theorem Mach.bufTake_empty (ch a : Nat) (h : m.lath.bufs = []) : m.bufTake ch a = (m, none) := by
  simp [Mach.bufTake, h, kget]

theorem Mach.bufLeave_empty (ch a : Nat) (h : m.lath.bufs = []) : m.bufLeave ch a = m := by
  simp [Mach.bufLeave, Mach.bufDiscardIf, h, Mach.forAll]

theorem Mach.readAhead_off {init ch : Nat} (a : Nat) (h : m.bit (Rg.LATH_CTRL (linkOfChan ch)) 0 = false) :
    m.readAhead init ch a = m := by
  simp [Mach.readAhead, h]

/-- A far read that nothing answers yet is held. -/
theorem Mach.farReadTake_held {init l a : Nat} (hq : m.lath.q = []) (hb : m.lath.bufs = []) :
    m.farReadTake init l a =
      (m.modLath fun x => { x with q := [{ ch := m.farChan l a, init := init, write := false, beats := [(a, 0)] }] }).showLath := by
  simp only [Mach.farReadTake, Mach.bufTake_empty _ _ hb, Mach.bufLeave_empty _ _ hb]
  rw [Mach.lathTake_read hq rfl]

/-! ### Reads -/

theorem Mach.nearRead_reg {init a w : Nat} {h : Hit} {ms : List Nat} (hr : m.rst.cReset = false) (hd : m.dbgBars init a false = false)
    (hh : resolve a w = some (.reg h ms)) (hg : m.readGone (some h) (if ms = [] then a else chanReg (ms.headD 0) (a % 0x100)) = false)
    (hw : m.isHeart init = true ∨ h.d.allHw = false) :
    m.nearRead init a w = (m, some (some h, if ms = [] then a else chanReg (ms.headD 0) (a % 0x100))) := by
  have world : (!m.isHeart init && h.d.allHw) = false := by rcases hw with hw | hw <;> simp [hw]
  simp only [Mach.nearRead, hr, hh, hd, List.isEmpty_iff, hg, world]
  rfl

theorem Mach.nearRead_diff {init a w x p : Nat} {ms : List Nat} (hr : m.rst.cReset = false) (hd : m.dbgBars init a false = false)
    (hh : resolve a w = some (.diff ms x p)) (hg : m.readGone none a = false) : m.nearRead init a w = (m, some (none, a)) := by
  simp [Mach.nearRead, hr, hh, hd, hg]

/-- A read reaches the far die: its channel holds it. -/
theorem Mach.farRead_held {init a w x l : Nat} {h : Option Hit} (hn : m.nearRead init a w = (m, some (h, x))) (hl : linkOfRead x = some l)
    (hq : m.lath.q = []) (hb : m.lath.bufs = []) : m.farRead init a w =
      (m.modLath fun y => { y with q := [{ ch := m.farChan l x, init := init, write := false, beats := [(x, 0)] }] }).showLath := by
  simp only [Mach.farRead, hn, hl]
  exact Mach.farReadTake_held hq hb

/-- One register without a read effect, for a held read. -/
theorem Mach.farBeat_plain {r : LReq} {a : Nat} {h : Hit} (hf : findReg a = some h) (hrc : h.d.accMask .rc = 0) (hb : m.lath.bufs = []) :
    m.farBeat r a = (m, m.farShown r.init a (m.farValue r.init a h).2) := by
  have value : (m.farValue r.init a h).1 = m := by simp [Mach.farValue, hrc]
  simp only [Mach.farBeat, Mach.bufTake_empty _ _ hb, Mach.bufLeave_empty _ _ hb, hf, value]

section reply
variable {r : LReq} {ch a : Nat} {h : Hit} (hq : m.lath.q = [r]) (hc : r.ch = ch) (hw : r.write = false) (hwait : r.waiting = false)
  (hburst : r.burst = none) (hbeats : r.beats = [(a, 0)]) (hf : findReg a = some h) (hs : m.linkState (linkOfChan ch) = 3)
include hq hc hw hwait hburst hbeats hf hs

theorem Mach.readReply_value (hb : m.lath.bufs = []) (hlate : r.late = false) (hg : m.readGone (some h) a = false)
    (hctrl : m.bit (Rg.LATH_CTRL (linkOfChan ch)) 0 = false) (hrc : h.d.accMask .rc = 0) :
    m.readReply ch = (m.lathDrop r).answer (.value (m.farShown r.init a (m.farValue r.init a h).2)) := by
  have off : (m.lathDrop r).bit (Rg.LATH_CTRL (linkOfChan ch)) 0 = false := by
    rw [Mach.lathDrop_only hq, Mach.bit_showLath_ctrl, hctrl]
  simp [Mach.readReply, hq, hc, hw, hwait, hburst, hbeats, hf, hs, hlate, hg, Mach.farBeat_plain hf hrc hb, Mach.readAhead_off _ off]

theorem Mach.readReply_gone (hlate : r.late = false) (hg : m.readGone (some h) a = true) :
    m.readReply ch = (m.lathDrop r).answer .gone := by
  simp [Mach.readReply, hq, hc, hw, hwait, hburst, hbeats, hf, hs, hlate, hg]

omit hburst hbeats hf in
theorem Mach.readReply_late (hlate : r.late = true) (hgone : r.gone = true) :
    m.readReply ch = ((m.lathDrop r).bump (Rg.LATH_LATE_CNT (linkOfChan ch))).lathIrq (linkOfChan ch) 1 := by
  simp [Mach.readReply, hq, hc, hw, hwait, hs, hlate, hgone]

end reply

theorem Mach.lathAddr_lath (l b a : Nat) : (m.lathAddr l b a).lath = m.lath := by
  simp only [Mach.lathAddr, Mach.lathIrq, Mach.fire_lath]
  split <;> simp

theorem Mach.readTimeout_held {r : LReq} {ch a : Nat} (hq : m.lath.q = [r]) (hc : r.ch = ch) (hw : r.write = false)
    (hwait : r.waiting = false) (hlate : r.late = false) (hburst : r.burst = none) (hbeats : r.beats = [(a, 0)]) :
    m.readTimeout ch = ((((m.bump (Rg.LATH_TIMEOUT_CNT (linkOfChan ch))).lathAddr (linkOfChan ch) 0 a).modLath fun x =>
      { x with q := [{ r with late := true }] }).answer .busError).showLath := by
  have found : (m.lath.q.find? fun r => r.ch == ch && !r.write && !r.late) = some r := by simp [hq, hc, hw, hlate]
  have queue : ((m.bump (Rg.LATH_TIMEOUT_CNT (linkOfChan ch))).lathAddr (linkOfChan ch) 0 a).lath.q = [r] :=
    by simp [Mach.lathAddr_lath, hq]
  have first : ((r.beats.head?).getD (0, 0)).1 = a := by simp [hbeats]
  simp only [Mach.readTimeout, found, first, if_neg (hwait ▸ Bool.false_ne_true : ¬ r.waiting = true)]
  rw [Mach.markLate queue]
  split
  · next some => cases hburst.symm.trans some
  · exact Mach.lathAdmit_admitted (r := { r with late := true }) rfl hwait

/-! ### Writes -/

theorem Mach.postWrite_held {l : Nat} {w : NearWrite} (hq : m.lath.q = []) (hb : m.lath.bufs = []) : m.postWrite l w =
    ((m.modLath fun x => { x with q := [{ ch := m.farChan l w.e.addr, init := w.e.init, write := true
                                          beats := [(w.e.addr, w.e.val)], wr := [w.e] }] }).showLath).answer .done := by
  simp only [Mach.postWrite, Mach.bufWrite_empty _ hb]
  rw [Mach.lathTake_write hq rfl rfl]
  rfl

theorem farWrite_takesFar {mem : Mem} {init a w v l : Nat} {n : RegName} {e : Stg} (ht : m.takesFar init a w v n = some e)
    (hl : linkOf a = some l) (hq : m.lath.q = []) (hb : m.lath.bufs = []) : farWrite mem m init a w v =
      (mem, ((m.modLath fun x => { x with q := [{ ch := m.farChan l a, init := e.init, write := true
                                                  beats := [(a, v)], wr := [e] }] }).showLath).answer .done) := by
  obtain ⟨hh, ms, f, -, -, -, -, -, he, hw, -, -⟩ := takesFar_cases ht
  simp only [farWrite, hw, hl, Mach.postWrite_held hq hb]
  rw [he]

theorem writeApply_head {mem : Mem} {r : LReq} {ch : Nat} (hr : m.lathHead ch = some r) (hw : r.write = true)
    (hs : m.linkState (linkOfChan ch) = 3) : writeApply mem m ch =
      ((r.wr.foldl (fun (x : Mem × Mach) e => applyBeat x.1 x.2 (linkOfChan ch) e) (mem, m)).1,
        (r.wr.foldl (fun (x : Mem × Mach) e => applyBeat x.1 x.2 (linkOfChan ch) e) (mem, m)).2.lathDrop r) := by
  simp [writeApply, hr, hw, hs]

theorem applyBeat_gone {mem : Mem} {l : Nat} {e : Stg} {h : Hit} {ms : List Nat}
    (hr : resolve e.addr (if l = 0 then 4 else 2) = some (.reg h ms)) (hm : e.members = []) (hg : m.goneAt h e.addr true = true) :
    applyBeat mem m l e = (mem, (m.wrError l e.addr).goneDrop) := by
  simp [applyBeat, hr, hm, hg]

theorem applyBeat_takes {mem : Mem} {l : Nat} {e : Stg} {h : Hit} {ms : List Nat}
    (hr : resolve e.addr (if l = 0 then 4 else 2) = some (.reg h ms)) (hm : e.members = []) (hg : m.goneAt h e.addr true = false)
    (hbad : e.mask &&& m.badMask e.addr h e.val = 0) (hmask : e.mask ≠ 0) (hlt : e.mask < 2 ^ 32) :
    applyBeat mem m l e = Mach.act mem m h e := by
  have whole : bitsOutside e.mask 0 = e.mask := (bitsOutside_zero _).trans (Nat.and_two_pow_sub_one_of_lt_two_pow (n := 32) hlt)
  have same : { e with members := [] } = e := by rw [← hm]
  simp [applyBeat, hr, hm, hg, Mach.reachable, Mach.farPerform, hbad, whole, hmask, same]

theorem Mach.entryTimeout_waiting {r : LReq} {ch : Nat}
    (hr : (m.lath.q.find? fun r => r.ch == ch && r.write && r.waiting) = some r) (hb : r.burst = none) : m.entryTimeout ch =
      ((((m.bump (Rg.LATH_TIMEOUT_CNT (linkOfChan ch))).lathIrq (linkOfChan ch) 0).modLath fun x => { x with q := x.q.erase r }
        ).answer .busError).showLath := by
  simp [Mach.entryTimeout, hr, hb]

/-! ### Bursts -/

section burst
variable {init a l : Nat} {vs : List Nat} (hc : m.rst.cReset = false) (hl : linkOf a = some l) (hi : Mach.bursts? init = true)
  (hv : vs ≠ [])
include hc hl hi hv

theorem Mach.burst_crosses (wr : Bool) {k : Nat} (hk : k < vs.length)
    (h : linkOf (a + (if l = 0 then 4 else 2) * k) ≠ some l ∨
      resolve (a + (if l = 0 then 4 else 2) * k) (if l = 0 then 4 else 2) = none) : m.burst init a wr vs = m.answer .busError := by
  have some : ((List.range vs.length).map fun k => a + (if l = 0 then 4 else 2) * k).any
      (fun b => linkOf b != some l || (resolve b (if l = 0 then 4 else 2)).isNone) = true :=
    List.any_eq_true.mpr ⟨_, List.mem_map.mpr ⟨k, List.mem_range.mpr hk, rfl⟩, by simpa using h⟩
  simp only [Mach.burst, hl, hc, hi, beq_iff_eq, some]
  simp [hv]

theorem Mach.burst_reaches (wr : Bool) (h : ∀ k, k < vs.length → linkOf (a + (if l = 0 then 4 else 2) * k) = some l ∧
      resolve (a + (if l = 0 then 4 else 2) * k) (if l = 0 then 4 else 2) ≠ none)
    (hs : 2 ≤ m.linkState l) (hd : m.dieHeld (if l = 0 then .l else .p) = false) :
    m.burst init a wr vs = if wr then m.burstWrite init l a (if l = 0 then 4 else 2) vs
      else m.burstRead init l a vs.length (if l = 0 then 4 else 2) := by
  have none : ((List.range vs.length).map fun k => a + (if l = 0 then 4 else 2) * k).any
      (fun b => linkOf b != some l || (resolve b (if l = 0 then 4 else 2)).isNone) = false := by
    simp only [List.any_eq_false, List.mem_map, List.mem_range]
    rintro _ ⟨k, hk, rfl⟩
    obtain ⟨link, found⟩ := h k hk
    rw [link, Option.isNone_eq_false_iff.mpr (Option.isSome_iff_ne_none.mpr found)]
    simp
  simp only [Mach.burst, hl, hc, hi, beq_iff_eq, none, hd]
  simp [hv, Nat.not_le.mpr hs]

end burst

theorem Mach.burstRead_one {init l a w : Nat} (hq : m.lath.q = []) : m.burstRead init l a 1 w =
    (m.modLath fun x => { x with
      nextBurst := m.lath.nextBurst + 1, bursts := x.bursts ++ [{ id := m.lath.nextBurst, left := 1 }]
      q := [{ ch := m.farChan l a, init := init, write := false, beats := [(a, 0)], burst := some m.lath.nextBurst }] }).showLath := by
  simp only [Mach.burstRead, List.range_succ, List.range_zero, List.nil_append, List.map_cons, List.map_nil, Nat.mul_zero, Nat.add_zero,
    cutBlocks, Mach.takePieces, Mach.burstOpen, Mach.forAll, List.foldl_cons, List.foldl_nil, List.length_cons, List.length_nil]
  rw [Mach.lathTake_read (m := m.modLath fun x => { x with
    nextBurst := m.lath.nextBurst + 1, bursts := x.bursts ++ [{ id := m.lath.nextBurst, left := 0 + 1 }] }) hq rfl]
  rfl

/-! ### The commands -/

theorem exec_farRead (init : InitId) (a w : Nat) (s : State) : exec (.farRead init a w) s = run s (fun m => m.farRead init.toNat a w) := rfl
theorem exec_farReadReply (ch : Fin 24) (s : State) : exec (.farReadReply ch) s = runUp s (fun m => m.readReply ch) := rfl
theorem exec_farReadTimeout (ch : Fin 24) (s : State) : exec (.farReadTimeout ch) s = runUp s (fun m => m.readTimeout ch) := rfl
theorem exec_farWrite (init : InitId) (a w : Nat) (v : Word) (s : State) :
    exec (.farWrite init a w v) s = runMem s (fun mem m => farWrite mem m init.toNat a w v.toNat) := rfl
theorem exec_farWriteEntryTimeout (ch : Fin 24) (s : State) :
    exec (.farWriteEntryTimeout ch) s = runUp s (fun m => m.entryTimeout ch) := rfl
theorem exec_farWriteApply (ch : Fin 24) (s : State) :
    exec (.farWriteApply ch) s = runUpMem s (fun mem m => writeApply mem m ch) := rfl
theorem exec_farBurst (init : InitId) (a : Nat) (wr : Bool) (vs : List Word) (s : State) :
    exec (.farBurst init a wr vs) s = run s (fun m => m.burst init.toNat a wr (vs.map (·.toNat))) := rfl

/-- Settles O40: with at most one request in the queue and no buffer, each far command has one outcome. -/
theorem farRequests : Obligations.FarRequests := by
  unfold Obligations.FarRequests
  intro s hc hb
  refine ⟨?_, ?_, ?_, ?_, ?_, ?_, ?_, ?_, ?_⟩
  · intro init a w l hq hd
    refine ⟨?_, ?_⟩
    · intro h ms hr x hl hg hw
      exact makes_run (exec_farRead init a w s) (Mach.farRead_held (Mach.nearRead_reg hc hd hr hg hw) hl hq hb)
    · intro ms k p hr hl hg
      exact makes_run (exec_farRead init a w s) (Mach.farRead_held (Mach.nearRead_diff hc hd hr hg) hl hq hb)
  · intro init a w h n hr ht
    obtain ⟨h', hr', -, hl, hnear⟩ := reads_cases ht
    obtain ⟨rfl, -⟩ := Target.reg.inj (Option.some.inj (hr.symm.trans hr'))
    exact makes_run (exec_farRead init a w s) (by simp only [Mach.farRead, hnear, hl, Mach.readAt])
  · intro r a ch h hq hch hw hwait hburst hbeats hf hs
    refine ⟨?_, ?_, ?_⟩
    · intro hlate hg hctrl hrc
      exact makes_runUp (exec_farReadReply ch s) hc (Mach.readReply_value hq hch hw hwait hburst hbeats hf hs hb hlate hg hctrl hrc)
    · intro hlate hg
      exact makes_runUp (exec_farReadReply ch s) hc (Mach.readReply_gone hq hch hw hwait hburst hbeats hf hs hlate hg)
    · intro hlate hgone
      exact makes_runUp (exec_farReadReply ch s) hc (Mach.readReply_late hq hch hw hwait hs hlate hgone)
  · intro r a ch hq hch hw hwait hlate hburst hbeats
    exact makes_runUp (exec_farReadTimeout ch s) hc (Mach.readTimeout_held hq hch hw hwait hlate hburst hbeats)
  · intro init a w l v n e ht hl hq
    exact makes_memTo (exec_farWrite init a w v s) (farWrite_takesFar ht hl hq hb)
  · intro r ch hr hw hs
    exact makes_upMemTo (exec_farWriteApply ch s) hc (writeApply_head hr hw hs)
  · intro mem m l e h ms hr hm
    exact ⟨applyBeat_gone hr hm, applyBeat_takes hr hm⟩
  · intro r ch hr hburst
    exact makes_runUp (exec_farWriteEntryTimeout ch s) hc (Mach.entryTimeout_waiting hr hburst)
  · intro init a l vs hl hi hv
    have words : vs.map (·.toNat) ≠ [] := by simpa using hv
    refine ⟨?_, ?_⟩
    · rintro ⟨k, hk, h⟩ wr
      exact makes_run (exec_farBurst init a wr vs s) (Mach.burst_crosses hc hl hi words wr (by simpa using hk) h)
    · intro h hs hd
      have reaches := fun wr => Mach.burst_reaches (m := s.now) hc hl hi words wr (by simpa using h) hs hd
      refine ⟨?_, ?_⟩
      · intro one hq
        refine makes_run (exec_farBurst init a false vs s) ((reaches false).trans ?_)
        rw [if_neg Bool.false_ne_true, List.length_map, one]
        exact Mach.burstRead_one hq
      · exact makes_run (exec_farBurst init a true vs s) ((reaches true).trans (if_pos rfl))

end Sys2Proof.Machine
end


section
/-! SUPPORT. Partition restarts, memory requests, ECC and xSPI (R359 to R362, R365, R367). -/

namespace Sys2Proof.Machine

variable {m : Mach}

/-! ### What the fabric leaves -/

/-- What every step of a loop keeps on the loop's own list, the loop keeps. -/
theorem Mach.forAll_keepsOn {α β : Type} (g : Mach → β) {f : Mach → α → Mach} {l : List α} (h : ∀ m, ∀ x ∈ l, g (f m x) = g m)
    (m : Mach) : g (m.forAll l f) = g m := by
  induction l generalizing m with
  | nil => rfl
  | cons x l ih => exact (ih (fun n y hy => h n y (List.mem_cons_of_mem _ hy)) (f m x)).trans (h m x List.mem_cons_self)

theorem Mach.safeOf_lt {id k : Nat} (h : Mach.safeOf id = some k) : k < 6 := by
  unfold Mach.safeOf at h
  grind

/-- A core's own state is no register. -/
theorem Mach.rd_modCore (id : Nat) (f : Core → Core) (a : Nat) : (m.modCore id f).rd a = m.rd a := rfl

/-- A halt shows in CHK_STATUS only. -/
theorem Mach.rd_honourHalt {a : Nat} (id : Nat) (h : ∀ k, k < 6 → a ≠ Rg.CHK_STATUS k) : (m.honourHalt id).rd a = m.rd a := by
  simp only [Mach.honourHalt]
  split
  · rfl
  · split
    · split
      · next k hk =>
        split
        · exact (Mach.rd_setFld_other _ _ _ (h k (Mach.safeOf_lt hk))).trans (Mach.rd_modCore ..)
        · rfl
      · rfl
    · rfl

theorem Mach.restarting_honourHalt (id : Nat) : (m.honourHalt id).fab.restarting = m.fab.restarting := by
  simp only [Mach.honourHalt]
  split
  · rfl
  · split
    · split
      · split
        · rw [Mach.setFld_fab]; rfl
        · rfl
      · rfl
    · rfl

/-- A core that starts shows in CHK_STATUS only. -/
theorem Mach.rd_startCore {a : Nat} (id : Nat) (h : ∀ k, k < 6 → a ≠ Rg.CHK_STATUS k) : (m.startCore id).rd a = m.rd a := by
  simp only [Mach.startCore, Mach.startVisit]
  split
  · rfl
  · split
    · rfl
    · split
      · split
        · exact Mach.rd_honourHalt id h
        · rfl
      · split
        · exact Mach.rd_honourHalt id h
        · rfl

theorem Mach.restarting_startCore (id : Nat) : (m.startCore id).fab.restarting = m.fab.restarting := by
  simp only [Mach.startCore, Mach.startVisit]
  split
  · rfl
  · split
    · rfl
    · split
      · split
        · exact Mach.restarting_honourHalt id
        · rfl
      · split
        · exact Mach.restarting_honourHalt id
        · rfl

/-- The checkers' states are shown in CHK_STATUS. -/
theorem Mach.rd_showChk {a : Nat} (h : ∀ k, k < 6 → a ≠ Rg.CHK_STATUS k) : m.showChk.rd a = m.rd a := by
  refine Mach.forAll_keepsOn (fun m => m.rd a) (fun n k hk => ?_) m
  have other := fun x => Mach.rd_setFld_other (m := n) 2 0 x (h k (List.mem_range.mp hk))
  dsimp only
  grind

theorem Mach.showChk_keeps {α : Type} (g : Mach → α) (hg : ∀ m a hi lo x, g (Mach.setFld m a hi lo x) = g m) : g m.showChk = g m := by
  refine Mach.forAll_keeps g (fun n k => ?_) m _
  have same := hg n
  dsimp only
  grind

theorem Mach.rd_setHw {a p : Nat} (st : Nat) (h1 : a ≠ Rg.WORLD_HW_STATE p) (h2 : a ≠ Rg.WORLD_STATUS) :
    (m.setHw p st).rd a = m.rd a :=
  (Mach.rd_wr_other _ _ h2).trans (Mach.rd_setFld_other _ _ _ h1)

theorem Mach.setHw_fab (p st : Nat) : (m.setHw p st).fab = m.fab := by simp [Mach.setHw, Mach.showWorld]

theorem Mach.setHw_tick (p st : Nat) : (m.setHw p st).tick = m.tick := by simp [Mach.setHw, Mach.showWorld]

theorem Mach.goneDrop_fab (n : Nat) : (m.goneDrop n).fab = m.fab := by
  unfold Mach.goneDrop
  split <;> simp

theorem Mach.dropReads_fab (ids : List Nat) : (m.dropReads ids).fab = m.fab := by
  simp only [Mach.dropReads, Mach.showLath, Mach.forAll, List.foldl_cons, List.foldl_nil, Mach.setFld_fab, Mach.goneDrop_fab]
  rfl

/-! ### A partition restart -/

/-- What a restart makes of a core leaves the other restarts. -/
theorem Mach.restarting_modCore (id : Nat) (f : Core → Core) : (m.modCore id f).fab.restarting = m.fab.restarting := rfl

/-- A partition in RUN that restarts is listed, and no longer due in the tick. -/
theorem Mach.restartPart_of_run {p : Nat} (h : m.partState p = 2) :
    (m.restartPart p).fab.restarting = p :: m.fab.restarting ∧ 16 + p ∉ (m.restartPart p).tick.due := by
  unfold Mach.restartPart
  rw [if_neg (by simp [h])]
  extract_lets ids heart stops own gone irq ends active drops tick quiet restarts fab listed shown
  have stopped : stops.fab.restarting = m.fab.restarting := by
    refine Mach.forAll_keeps (fun m => m.fab.restarting) (fun n i => ?_) m ids
    dsimp only
    grind [Mach.restarting_modCore, Mach.abandonVisit]
  have cleared : active.fab.restarting = m.fab.restarting :=
by
    refine (Mach.forAll_keeps (fun m => m.fab.restarting) (fun n i => ?_) ends ids).trans stopped
    exact Mach.restarting_modCore ..
  have dropped : drops.fab.restarting = m.fab.restarting := (congrArg FabSt.restarting (Mach.dropReads_fab ids)).trans cleared
  have same : shown.fab = listed.fab ∧ shown.tick = listed.tick := by
    simp only [shown]
    split
    · exact ⟨Mach.setHw_fab p 3, Mach.setHw_tick p 3⟩
    · exact ⟨rfl, rfl⟩
  obtain ⟨sameFab, sameTick⟩ := same
  refine ⟨?_, ?_⟩
  · rw [Mach.showChk_keeps (fun m => m.fab) (fun _ _ _ _ _ => by rw [Mach.setFld_fab]), sameFab]
    simp only [listed, restarts, quiet, Mach.setPartState, Mach.setFld_fab, dropped]
  · rw [Mach.showChk_keeps (fun m => m.tick) (fun _ _ _ _ _ => by rw [Mach.setFld_tick]), sameTick]
    simp [listed, restarts, quiet, Mach.setPartState]

/-- A core of the restarted partition that resumes shows in CHK_STATUS only. -/
theorem Mach.restartDone_of_restarting {p : Nat} (hp : p < 16) (h : m.partState p = 3) :
    (m.restartDone p).partState p = 2 ∧
    (m.restartDone p).fld (Rg.FAB_PART_STATUS p) 31 16 = satInc 16 (m.fld (Rg.FAB_PART_STATUS p) 31 16) ∧
    (m.restartDone p).bit Rg.FAB_IRQ_STATUS 2 = true ∧
    (m.restartDone p).fab.restarting = m.fab.restarting.filter (· != p) := by
  unfold Mach.restartDone
  rw [if_neg (by simp [h])]
  extract_lets old counted runs fab left shown resumed
  have cores : ∀ a, (∀ k, k < 6 → a ≠ Rg.CHK_STATUS k) → resumed.rd a = shown.rd a := fun a ha => by
    refine Mach.forAll_keeps (fun m => m.rd a) (fun n i => ?_) shown _
    grind [Mach.rd_startCore, Mach.rd_honourHalt, Mach.rd_modCore]
  have regs : ∀ a, (∀ k, k < 6 → a ≠ Rg.CHK_STATUS k) → a ≠ Rg.WORLD_HW_STATE p → a ≠ Rg.WORLD_STATUS →
      resumed.showChk.rd a = runs.rd a := fun a ha h1 h2 => by
    rw [Mach.rd_showChk ha, cores a ha]
    simp only [shown]
    split
    · exact Mach.rd_setHw 0 h1 h2
    · rfl
  have resumes : resumed.fab.restarting = shown.fab.restarting := by
    refine Mach.forAll_keeps (fun m => m.fab.restarting) (fun n i => ?_) shown _
    grind [Mach.restarting_startCore, Mach.restarting_honourHalt, Mach.restarting_modCore]
  have restarting : resumed.showChk.fab.restarting = m.fab.restarting.filter (· != p) := by
    rw [Mach.showChk_keeps (fun m => m.fab.restarting) (fun _ _ _ _ _ => by rw [Mach.setFld_fab]), resumes]
    have same : shown.fab = left.fab := by
      simp only [shown]
      split
      · exact Mach.setHw_fab p 0
      · rfl
    rw [same]
    simp [left, runs, counted, Mach.setPartState]
  have status := regs (Rg.FAB_PART_STATUS p) (fun k hk => by simp only [Rg.FAB_PART_STATUS, Rg.CHK_STATUS]; omega)
    (by simp only [Rg.FAB_PART_STATUS, Rg.WORLD_HW_STATE]; omega) (by simp only [Rg.FAB_PART_STATUS, Rg.WORLD_STATUS]; omega)
  have irq := regs Rg.FAB_IRQ_STATUS (fun k hk => by simp only [Rg.FAB_IRQ_STATUS, Rg.CHK_STATUS]; omega)
    (by simp only [Rg.FAB_IRQ_STATUS, Rg.WORLD_HW_STATE]; omega) (by decide)
  have apart : Rg.FAB_PART_STATUS p ≠ Rg.FAB_IRQ_STATUS := by simp only [Rg.FAB_PART_STATUS, Rg.FAB_IRQ_STATUS]; omega
  refine ⟨(Mach.fld_of_rd status 15 14).trans ?_, (Mach.fld_of_rd status 31 16).trans ?_, (Mach.bit_of_rd irq 2).trans ?_, restarting⟩
  · rw [Mach.fld_of_rd (Mach.rd_fire_other 2 apart)]
    exact Mach.fld_setFld_same _ 2 (by decide) (by decide)
  · rw [Mach.fld_of_rd (Mach.rd_fire_other 2 apart)]
    refine (Mach.fld_setFld_other _ 2 (by decide) (.inr (by decide)) (by decide)).trans ?_
    refine (Mach.fld_setFld_same _ (satInc 16 (m.fld (Rg.FAB_PART_STATUS p) 31 16)) (by decide) (by decide)).trans ?_
    exact Nat.mod_eq_of_lt (satInc_lt 16 _)
  · exact Mach.bit_setBit_true _ _ (by decide)

/-! ### Memory requests -/

theorem exec_fabricRequest_read (init : InitId) (a n : Nat) (data : List Byte) (s : State) :
    exec (.fabricRequest init a n 0 data) s =
      runMem s fun mem m => Mach.fabricAccess mem (m.addressed init.toNat a) init.toNat a n .read data := by rfl

theorem notWrite : (MemKind.read == MemKind.write) = false := rfl

section request
variable {mem : Mem} {init a n : Nat} {bs : List Byte} (hr : m.rst.cReset = false) (hn : n ≠ 0) (hf : m.memFits a n = true)
include hr hn hf

theorem Mach.fabricAccess_read (hd : m.dbgBlocked init false = false) (ha : m.fabAllowed init a n .read = true)
    (hp : m.poisoned a n = false) (hk : inRange a bKEYBLOB 0x10000 = false) : Mach.fabricAccess mem m init a n .read bs =
      (mem, (m.chargeFab init n).respond init (.value (leNat (memRead mem a n)))) := by
  have poison : (m.chargeFab init n).poisoned a n = false := hp
  simp [Mach.fabricAccess, hr, notWrite, hd, hn, hf, ha, hk, poison]

theorem Mach.fabricAccess_poisoned (hd : m.dbgBlocked init false = false) (ha : m.fabAllowed init a n .read = true)
    (hp : m.poisoned a n = true) : Mach.fabricAccess mem m init a n .read bs = (mem, (m.chargeFab init n).respond init .poison) := by
  have poison : (m.chargeFab init n).poisoned a n = true := hp
  simp [Mach.fabricAccess, hr, notWrite, hd, hn, hf, ha, poison]

theorem Mach.fabricAccess_violates (hd : m.dbgBlocked init false = false) (ha : m.fabAllowed init a n .read = false) :
    Mach.fabricAccess mem m init a n .read bs = (mem, (m.memViolation a init).respond init .busError) := by
  simp [Mach.fabricAccess, hr, notWrite, hd, hn, hf, ha]

theorem Mach.fabricAccess_write (hd : m.dbgBlocked init true = false) (hs : inSnap a n = false) (h3 : m.memIndex a ≠ some 3)
    (h5 : m.memIndex a ≠ some 5) (h6 : m.memIndex a ≠ some 6) (ha : m.fabAllowed init a n .write = true) :
    Mach.fabricAccess mem m init a n .write bs = (m.memStore mem a (sliceBytes bs 0 n),
      ((m.chargeFab init n).unpoison a n).respond init .done) := by
  have store : (m.chargeFab init n).memStore mem a (sliceBytes bs 0 n) = m.memStore mem a (sliceBytes bs 0 n) := rfl
  simp [Mach.fabricAccess, hr, hd, hn, hf, hs, h3, h5, h6, ha, store]

end request

/-! ### ECC -/

theorem Mach.eccCe_some {k n : Nat} (hk : k < 5) (hn : n ≠ 0) :
    m.eccCe k n = (m.bumpBy (Rg.MEM_CE_CNT k) n).fire Rg.MEM_IRQ_STATUS 1 := by
  simp [Mach.eccCe, Nat.not_le.mpr hk, hn]

theorem Mach.eccCe_none {k n : Nat} (h : 5 ≤ k ∨ n = 0) : m.eccCe k n = m := by
  rcases h with h | h <;> simp [Mach.eccCe, h]

theorem Mach.eccUe_first {k a : Nat} (hk : k < 6) (hi : m.memIndex a = some k) (hp : a / 8 * 8 ∉ m.memc.poison)
    (hb : m.bit Rg.MEM_IRQ_STATUS 2 = false) : m.eccUe k a =
      ((((({ m with memc := { m.memc with poison := a / 8 * 8 :: m.memc.poison } } : Mach).bump (Rg.MEM_UE_CNT k)).wr
        Rg.MEM_UE_ADDR_LO (a % 2 ^ 32)).wr Rg.MEM_UE_ADDR_HI (a / 2 ^ 32 % 256 ||| k <<< 8)).fire Rg.MEM_IRQ_STATUS 2).raise 0x115 k := by
  have first : ((({ m with memc := { m.memc with poison := a / 8 * 8 :: m.memc.poison } } : Mach).bump (Rg.MEM_UE_CNT k)).bit
      Rg.MEM_IRQ_STATUS 2) = false :=
    (Mach.bit_of_rd (Mach.rd_wr_other _ _ (by simp only [Rg.MEM_IRQ_STATUS, Rg.MEM_UE_CNT]; omega)) 2).trans hb
  simp [Mach.eccUe, Nat.not_le.mpr hk, hi, hp, first]

/-! ### xSPI -/

theorem Mach.xspiStart_taken {v : Nat} (hv : bitsOf v 19 9 ≤ 256) (hb : m.bit Rg.MEM_STATUS 2 = false) :
    m.xspiStart v = ({ m with memc := { m.memc with xspi := some v } } : Mach).setBit Rg.MEM_STATUS 2 true := by
  simp [Mach.xspiStart, Nat.not_lt.mpr hv, hb, Mach.setMemStatus]

theorem Mach.xspiStart_refused {v : Nat} (h : 256 < bitsOf v 19 9 ∨ m.bit Rg.MEM_STATUS 2 = true) :
    m.xspiStart v = m.fire Rg.MEM_IRQ_STATUS 0 := by
  rcases h with h | h <;> simp [Mach.xspiStart, h]

theorem exec_partitionRestart (init : InitId) (v : Word) (s : State) : exec (.partitionRestart init v) s =
    runMem s (fun mem m => Mach.writeReg mem m init.toNat Rg.FAB_PART_CTRL 4 v.toNat) := rfl
theorem exec_partitionRestartDone (p : Fin 16) (s : State) : exec (.partitionRestartDone p) s = runUp s (fun m => m.restartDone p) := rfl
theorem exec_eccCorrectable (k : Fin 7) (s : State) : exec (.eccCorrectable k) s = runUp s (fun m => m.eccCe k) := rfl
theorem exec_eccUncorrectable (k : Fin 7) (a : BitVec 40) (s : State) :
    exec (.eccUncorrectable k a) s = runUp s (fun m => m.eccUe k a.toNat) := rfl
theorem exec_transportError (s : State) : exec .transportError s = runUp s (fun m => m.request 0xA false) := rfl
theorem exec_scrubPass (x a b : Nat) (s : State) : exec (.scrubPass x a b) s = runUp s (fun m => m.scrub x a b) := rfl
theorem exec_lpddrEccPoll (n : Nat) (s : State) :
    exec (.lpddrEccPoll n) s = runUp s (fun m => m.eccCe 4 (if m.memc.lpddrGib == 0 then 0 else n)) := rfl
theorem exec_xspiCmd (init : InitId) (v : Word) (s : State) : exec (.xspiCmd init v) s =
    runMem s (fun mem m => Mach.writeReg mem m init.toNat Rg.MEM_XSPI_CMD 4 v.toNat) := rfl
theorem exec_xspiCmdDone (bs : List Byte) (s : State) : exec (.xspiCmdDone bs) s = runUp s (fun m => m.xspiDone bs) := rfl

theorem makes_xspiCmd {s : State} {init : InitId} {v : Word} {m : Mach}
    (ht : s.now.takes init.toNat Rg.MEM_XSPI_CMD v.toNat .MEM_XSPI_CMD [] = true)
    (h : (s.now.answer .done).xspiStart v.toNat = m) : Makes (.xspiCmd init v) s s.mem m := by
  refine makes_memTo (exec_xspiCmd init v s) (writeReg_acts ht fun hit e hn hi ha hv _ => ?_)
  simp [Mach.act, ha, Rg.MEM_XSPI_CMD, Mach.actModule, Mach.actCompute, hn, hv, h]

/-- Settles O42: restarts, memory requests, ECC events and xSPI commands branch by branch. -/
theorem fabricAndMemory : Obligations.FabricAndMemory := by
  unfold Obligations.FabricAndMemory
  intro s hr
  refine ⟨?_, ?_, ?_, ?_, ?_, ?_, ?_, ?_, ?_, ?_, ?_, ?_⟩
  · intro init v ht hb
    refine makes_memTo (exec_partitionRestart init v s) (writeReg_acts ht fun hit e hn hi ha hv _ => ?_)
    simp [Mach.act, ha, Rg.FAB_PART_CTRL, Mach.actModule, Mach.actCompute, hn, hv, Mach.partCtrl, hb]
  · exact fun m p _ h => Mach.restartPart_of_run h
  · intro m p h
    simp [Mach.partRestart, h]
  · intro p h
    exact makes_does (makes_runUp (exec_partitionRestartDone p s) hr rfl) ⟨rfl, Mach.restartDone_of_restarting p.isLt h⟩
  · intro init a n data m hd hn hf
    exact ⟨fun ha hp hk => makes_memTo (exec_fabricRequest_read init a n data s) (Mach.fabricAccess_read hr hn hf hd ha hp hk),
      fun ha hp => makes_memTo (exec_fabricRequest_read init a n data s) (Mach.fabricAccess_poisoned hr hn hf hd ha hp),
      fun ha => makes_memTo (exec_fabricRequest_read init a n data s) (Mach.fabricAccess_violates hr hn hf hd ha)⟩
  · intro init a n data m hd hn hf hs h3 h5 h6 ha
    exact makes_memTo (exec_fabricRequest_write init a n data s) (Mach.fabricAccess_write hr hn hf hd hs h3 h5 h6 ha)
  · exact fun k => ⟨fun hk => makes_runUp (exec_eccCorrectable k s) hr (Mach.eccCe_some hk Nat.one_ne_zero),
      fun hk => makes_runUp (exec_eccCorrectable k s) hr (Mach.eccCe_none (.inl hk))⟩
  · exact fun k a hk hi hp hb => makes_runUp (exec_eccUncorrectable k a s) hr (Mach.eccUe_first hk hi hp hb)
  · exact makes_runUp (exec_transportError s) hr rfl
  · intro x a b hx ha hb ce
    refine ⟨?_, ?_, fun hg => ?_, fun hg => ?_⟩
    · refine makes_runUp (exec_scrubPass x a b s) hr ?_
      simp [Mach.scrub, Mach.eccCe_some, hx, ha, hb, ce]
    · refine makes_runUp (exec_scrubPass 0 a 0 s) hr ?_
      simp [Mach.scrub, Mach.eccCe_some, Mach.eccCe_none, ha, ce]
    · refine makes_runUp (exec_lpddrEccPoll x s) hr ?_
      simp [hg, Mach.eccCe_some, hx, ce]
    · refine makes_runUp (exec_lpddrEccPoll x s) hr ?_
      simp [hg, Mach.eccCe_none]
  · intro init v ht
    exact ⟨fun hv hb => makes_xspiCmd ht (Mach.xspiStart_taken hv hb), fun h => makes_xspiCmd ht (Mach.xspiStart_refused h)⟩
  · intro v bs hx ended
    refine ⟨fun hb => ?_, fun hb => ?_⟩
    · refine makes_runUp (exec_xspiCmdDone bs s) hr ?_
      simp [Mach.xspiDone, hx, hb, ended, Mach.setMemStatus]
    · refine makes_runUp (exec_xspiCmdDone bs s) hr ?_
      simp [Mach.xspiDone, hx, hb, ended, Mach.setMemStatus]

end Sys2Proof.Machine
end


section
/-! SUPPORT. Failure signals, switch-over and repair of bents (R396 to R403). -/

namespace Sys2Proof.Machine

variable {m : Mach}

/-! ### The states of the two bents -/

/-- The state of a bent stands in BENT_STATUS. -/
theorem Mach.bentState_of_rd {n : Mach} (h : n.rd Rg.BENT_STATUS = m.rd Rg.BENT_STATUS) (b : Nat) : n.bentState b = m.bentState b := by
  simp only [Mach.bentState, Mach.fld_of_rd h]

/-- The state of one bent is not that of the other. -/
theorem Mach.bentState_setBent_other {b : Nat} (st : Nat) (h : b < 2) : (m.setBent b st).bentState (1 - b) = m.bentState (1 - b) := by
  obtain rfl | rfl : b = 0 ∨ b = 1 := by omega
  · exact Mach.fld_setFld_other _ st (by decide) (.inr (by decide)) (by decide)
  · exact Mach.fld_setFld_other _ st (by decide) (.inl (by decide)) (by decide)

/-- A failure of one bent, recorded, reported and shown. -/
def Mach.bentFails (m : Mach) (b src core : Nat) : Mach :=
  ((((m.recordFail b src core).raise 0x130 b).setBent b 2).holdBent b).fire Rg.BENT_IRQ_STATUS 1

theorem Mach.bentState_bentFails {b : Nat} (src core : Nat) (h : b < 2) :
    (m.bentFails b src core).bentState (1 - b) = m.bentState (1 - b) := by
  calc (m.bentFails b src core).bentState (1 - b)
      = (((m.recordFail b src core).raise 0x130 b).setBent b 2).bentState (1 - b) :=
        Mach.bentState_of_rd (Mach.rd_fire_other 1 (by decide)) _
    _ = ((m.recordFail b src core).raise 0x130 b).bentState (1 - b) := Mach.bentState_setBent_other 2 h
    _ = m.bentState (1 - b) := Mach.bentState_of_rd (Mach.rd_wr_other m _ (by decide)) _

section failure
variable {b src core : Nat} (hs : src ≠ 4) (hb : b < 2)
include hs

theorem Mach.bentFailure_failed (h : m.bentState b = 2) : m.bentFailure b src core = m := by
  simp [Mach.bentFailure, hs, h]

include hb

/-- The other bent takes the duties. -/
theorem Mach.bentFailure_handsOver (h : m.bentState b = 1) (hy : m.bentState (1 - b) = 1) :
    m.bentFailure b src core = (m.bentFails b src core).switchOver b (1 - b) := by
  have other : (m.bentFails b src core).bentState (1 - b) = 1 := (Mach.bentState_bentFails src core hb).trans hy
  rw [Mach.bentFails] at other ⊢
  simp [Mach.bentFailure, hs, h, other]

/-- No bent is left to take them. -/
theorem Mach.bentFailure_last (h : m.bentState b = 1) (hy : m.bentState (1 - b) = 2) :
    m.bentFailure b src core = (m.bentFails b src core).raise 0x131 b := by
  have other : (m.bentFails b src core).bentState (1 - b) = 2 := (Mach.bentState_bentFails src core hb).trans hy
  rw [Mach.bentFails] at other ⊢
  simp [Mach.bentFailure, hs, h, other]

end failure

theorem Mach.bentSignal_eq {b src core : Nat} (h0 : src ≠ 0) (h4 : src ≠ 4) :
    m.bentSignal b src core = (m.bentFailure b src (if src = 1 then core else 7)).followCores true := by
  simp [Mach.bentSignal, h0, h4]

theorem Mach.overlapEnds_open (h : m.bent.overlap ≠ 0) :
    m.overlapEnds = { m.laneArrives with bent := { m.laneArrives.bent with overlap := 0 } } := by
  simp [Mach.overlapEnds, h]

/-! ### BENT_CMD -/

section command
variable {v : Nat}

theorem Mach.bentCmd_switch (hk : bitsOf v 31 16 = 0xB3E7) (ho : bitsOf v 1 0 = 1) (hy : m.bentState (1 - bitsOf v 8 8) = 1) :
    m.bentCmd v = m.plan (bitsOf v 8 8) := by
  simp [Mach.bentCmd, hk, ho, hy]

theorem Mach.plan_up {b : Nat} (h0 : m.bentState b ≠ 0) (h2 : m.bentState b ≠ 2) :
    m.plan b = ((m.recordFail b 4 7).raise 0x130 b).modBent fun x => { x with planned := x.planned ++ [b] } := by
  simp [Mach.plan, h0, h2]

theorem Mach.plan_down {b : Nat} (h : m.bentState b = 0 ∨ m.bentState b = 2) : m.plan b = m := by
  rcases h with h | h <;> simp [Mach.plan, h]

theorem Mach.bentCmd_repair (hk : bitsOf v 31 16 = 0xB3E7) (ho : bitsOf v 1 0 = 2) (hb : m.bentState (bitsOf v 8 8) = 2)
    (hy : m.bentState (1 - bitsOf v 8 8) = 1) (hg : m.bit Rg.RSTC_GROUP_RST (25 + bitsOf v 8 8) = false)
    (hc : ∀ k, k < 3 → m.chkState (3 * bitsOf v 8 8 + k) ≠ 3) : m.bentCmd v = m.setBent (bitsOf v 8 8) 3 := by
  have free : ([0, 1, 2].any fun k => m.chkState (3 * bitsOf v 8 8 + k) == 3) = false := by
    simp [hc 1 (by decide), hc 2 (by decide), show m.chkState (3 * bitsOf v 8 8) ≠ 3 from hc 0 (by decide)]
  simp only [Mach.bentCmd, hk, ho, hb, hy, hg, free]
  rfl

theorem Mach.bentCmd_keyless (hk : bitsOf v 31 16 ≠ 0xB3E7) : m.bentCmd v = m.bentIrq 6 := by
  simp [Mach.bentCmd, hk]

end command

/-! ### Repair -/

theorem Mach.repairTested_passed {b : Nat} (h : m.bentIn 3 = some b) (hp : ∀ p ∈ Mach.bentParts b, m.bistShown p = 1) :
    m.repairTested true = m.setBent b 4 := by
  have all : ((Mach.bentParts b).all fun p => m.bistShown p == 1) = true := by simpa using hp
  simp [Mach.repairTested, h, all]

theorem Mach.repairTested_failed {b : Nat} (h : m.bentIn 3 = some b) : m.repairTested false = m.repairFails b := by
  simp [Mach.repairTested, h]

theorem exec_bentFailureSignal (b : Fin 2) (src : Fin 6) (k : Fin 8) (s : State) :
    exec (.bentFailureSignal b src k) s = runUp s (fun m => m.bentSignal b src k) := rfl
theorem exec_overlapWindowEnd (s : State) : exec .overlapWindowEnd s = runUp s Mach.overlapEnds := rfl
theorem exec_bentSwitch (init : InitId) (v : Word) (s : State) : exec (.bentSwitch init v) s =
    runMem s (fun mem m => Mach.writeReg mem m init.toNat Rg.BENT_CMD 4 v.toNat) := rfl
/-- A repair is asked for at the same register. -/
theorem exec_bentRepair (init : InitId) (v : Word) (s : State) : exec (.bentRepair init v) s = exec (.bentSwitch init v) s := rfl
theorem exec_repairTestDone (ok : Bool) (s : State) : exec (.repairTestDone ok) s = runUp s (fun m => m.repairTested ok) := rfl
theorem exec_tcmCopyDone (s : State) : exec .tcmCopyDone s = runUpMem s (fun mem m => Mach.copyDone mem m) := rfl

theorem makes_bentSwitch {s : State} {init : InitId} {v : Word} {m : Mach}
    (ht : s.now.takes init.toNat Rg.BENT_CMD v.toNat .BENT_CMD [] = true) (h : (s.now.answer .done).bentCmd v.toNat = m) :
    Makes (.bentSwitch init v) s s.mem m := by
  refine makes_memTo (exec_bentSwitch init v s) (writeReg_acts ht fun hit e hn hi ha hv _ => ?_)
  simp [Mach.act, ha, Rg.BENT_CMD, Mach.actModule, Mach.actCompute, hn, hv, h]

/-- Settles O46: a failure signal by the states of both bents, a command by its key, operation and those states. -/
theorem bents : Obligations.Bents := by
  unfold Obligations.Bents
  intro s hr
  refine ⟨?_, ?_, ?_, ?_, ?_⟩
  · intro b src k h0 h4 t
    have signal : s.now.bentSignal b src k = (s.now.bentFailure b src (if src = 1 then k.val else 7)).followCores true := by
      refine (Mach.bentSignal_eq (by omega) (by omega)).trans ?_
      simp only [Fin.ext_iff, Fin.isValue, Fin.val_one]
    have fails : t = s.now.bentFails b src (if src = 1 then k.val else 7) := rfl
    have not4 : src.val ≠ 4 := by omega
    refine ⟨fun h hy => ?_, fun h hy => ?_, fun h => ?_⟩
    · refine makes_runUp (exec_bentFailureSignal b src k s) hr ?_
      rw [signal, Mach.bentFailure_handsOver not4 b.isLt h hy, fails]
    · refine makes_runUp (exec_bentFailureSignal b src k s) hr ?_
      rw [signal, Mach.bentFailure_last not4 b.isLt h hy, fails]
    · refine makes_runUp (exec_bentFailureSignal b src k s) hr ?_
      rw [signal, Mach.bentFailure_failed not4 h]
  · exact fun h => makes_runUp (exec_overlapWindowEnd s) hr (Mach.overlapEnds_open h)
  · intro init v ht b w
    refine ⟨fun hk ho hy => ⟨fun h0 h2 => ?_, fun h => ?_⟩, fun hk ho hb hy hg hc => ?_, fun hk => ⟨?_, ?_⟩⟩
    · exact makes_bentSwitch ht ((Mach.bentCmd_switch (m := w) hk ho hy).trans (Mach.plan_up h0 h2))
    · exact makes_bentSwitch ht ((Mach.bentCmd_switch (m := w) hk ho hy).trans (Mach.plan_down h))
    · exact (exec_bentRepair init v s).trans (makes_bentSwitch ht (Mach.bentCmd_repair hk ho hb hy hg hc))
    · exact makes_bentSwitch ht (Mach.bentCmd_keyless hk)
    · exact (exec_bentRepair init v s).trans (makes_bentSwitch ht (Mach.bentCmd_keyless hk))
  · intro b h
    exact ⟨fun hp => makes_runUp (exec_repairTestDone true s) hr (Mach.repairTested_passed h hp),
      makes_runUp (exec_repairTestDone false s) hr (Mach.repairTested_failed h)⟩
  · intro b h
    refine makes_upMemTo (exec_tcmCopyDone s) hr ?_
    simp only [Mach.copyDone, show s.now.bentIn 4 = some b from h]

end Sys2Proof.Machine
end


section
/-! SUPPORT. Requests of the update service and what they leave of a reassembly (R470, R479). -/

namespace Sys2Proof.Machine

variable {m : Mach}

/-! ### What the security engine shows is no state of the update -/

theorem Mach.showKeyStatus_upd : m.showKeyStatus.upd = m.upd := Mach.wr_upd _ _ _

theorem Mach.showSessions_upd : m.showSessions.upd = m.upd :=
  Mach.showKeyStatus_upd.trans (Mach.forAll_keeps Mach.upd (fun _ _ => Mach.wr_upd _ _ _) m _)

theorem Mach.showKeys_upd : m.showKeys.upd = m.upd := by
  refine Mach.showSessions_upd.trans ((Mach.forAll_keeps Mach.upd (fun _ _ => ?_) _ _).trans ?_)
  · exact (Mach.wr_upd _ _ _).trans (Mach.wr_upd _ _ _)
  · simp

theorem Mach.closeSession_upd (s : Nat) : (m.closeSession s).upd = m.upd := by
  unfold Mach.closeSession
  split
  · exact Mach.showSessions_upd.trans (by simp)
  · rfl

theorem Mach.closeWhere_upd (p : Nat × Sess → Bool) : (m.closeWhere p).upd = m.upd :=
  Mach.forAll_keeps Mach.upd (fun _ _ => Mach.closeSession_upd _) m _

theorem Mach.slotChanged_upd (k : Nat) : (m.slotChanged k).upd = m.upd := by
  unfold Mach.slotChanged
  extract_lets closed scarf shown
  refine Mach.showKeys_upd.trans ?_
  simp only [shown]
  split
  · exact (Mach.setBit_upd _ _ _ _).trans (Mach.closeWhere_upd _)
  · exact Mach.closeWhere_upd _

theorem Mach.freeWords_upd (n : Nat) : (m.freeWords n).2.upd = m.upd := by
  induction n generalizing m with
  | zero => rfl
  | succ n ih => exact ih (m := m.draw.2)

theorem Mach.openFails_upd (code ref : Nat) : (m.openFails code ref).upd = m.upd := by
  simp only [Mach.openFails]
  split
  · exact Mach.showKeyStatus_upd.trans (by simp)
  · simp

theorem Mach.buileOpen_upd (f : BFrame) : (m.buileOpen f).1.upd = m.upd := by
  unfold Mach.buileOpen
  split
  · exact Mach.openFails_upd _ _
  · dsimp only
    split
    · exact Mach.openFails_upd _ _
    · exact (Mach.journal_upd ..).trans Mach.showSessions_upd

theorem Mach.sessFails_upd (s : Nat) (x : Sess) : (m.sessFails s x).upd = m.upd := by
  unfold Mach.sessFails
  split
  · exact Mach.closeSession_upd s
  · rfl

theorem Mach.sessEnds_upd (f : BFrame) : (m.sessEnds f).upd = m.upd := by
  unfold Mach.sessEnds
  split
  · exact Mach.showSessions_upd
  · split
    · exact Mach.closeSession_upd _
    · rfl

theorem Mach.keyUpdate_upd (b : List Byte) : (m.keyUpdate b).1.upd = m.upd := by
  simp only [Mach.keyUpdate]
  split
  · simp
  · exact (Mach.journal_upd ..).trans ((Mach.fire_upd ..).trans (Mach.slotChanged_upd _))

theorem Mach.buileSigned_upd (b : List Byte) : (m.buileSigned b).1.upd = m.upd := by
  unfold Mach.buileSigned
  split <;> rfl

theorem Mach.buileCal_upd (mem : Mem) (b : List Byte) (ses : Nat) : (Mach.buileCal mem m b ses).m.upd = m.upd := by
  unfold Mach.buileCal
  split
  · simp [Mach.calWrite]
  · rfl

/-! ### Commands of the update service keep a reassembly -/

theorem Mach.setUpd_upd (st : Nat) : (m.setUpd st).upd = m.upd := Mach.setFld_upd _ _ _ _ _

theorem Mach.updResult_upd (code entry detail : Nat) : (m.updResult code entry detail).upd = m.upd := by
  simp [Mach.updResult, Mach.updIrq]

theorem Mach.clearParts_upd : m.clearParts.upd = m.upd :=
  Mach.forAll_keeps Mach.upd (fun _ _ => by simp) m _

theorem Mach.unstage_upd : m.unstage.upd = m.upd := by
  unfold Mach.unstage
  extract_lets mine
  split <;> rfl

theorem Mach.updBegin_rx (mem : Mem) (who : Option Nat) : (Mach.updBegin mem m who).2.upd.rx = m.upd.rx := by
  simp only [Mach.updBegin]
  split
  · exact congrArg UpdSt.rx (Mach.updResult_upd ..)
  · simp only [Mach.updResult_upd, Mach.journal_upd, Mach.setFld_upd, Mach.setUpd_upd]
    rfl

theorem Mach.updWrite_upd (mem : Mem) (who : Option Nat) (off len : Nat) (data : Option (List Byte)) :
    (Mach.updWrite mem m who off len data).2.upd = m.upd := by
  simp only [Mach.updWrite, Mach.updRefuse]
  split
  · exact Mach.updResult_upd ..
  · split
    · exact Mach.updResult_upd ..
    · split
      · exact Mach.updResult_upd ..
      · exact (Mach.updResult_upd ..).trans (Mach.setUpd_upd _)

theorem Mach.updVerify_upd (who : Option Nat) : (m.updVerify who).upd = m.upd := by
  simp only [Mach.updVerify, Mach.updRefuse]
  split
  · exact Mach.updResult_upd ..
  · exact (Mach.setUpd_upd _).trans (Mach.wr_upd _ _ _)

theorem Mach.updCommit_rx (who : Option Nat) (delay first : Nat) : (m.updCommit who delay first).upd.rx = m.upd.rx := by
  have staged : ∀ (ups : List Nat) (n : Mach), (n.forAll ups fun m p => m.wr (Rg.UPD_PART_STATUS p) 0x80000000).upd = n.upd :=
    fun ups n => Mach.forAll_keeps Mach.upd (fun _ _ => Mach.wr_upd _ _ _) n ups
  simp only [Mach.updCommit, Mach.updRefuse]
  split
  · exact congrArg UpdSt.rx (Mach.updResult_upd ..)
  · split
    · exact congrArg UpdSt.rx (Mach.updResult_upd ..)
    · split
      · split
        · exact congrArg UpdSt.rx (Mach.updResult_upd ..)
        · rw [Mach.setUpd_upd, Mach.wr_upd, staged]
          show m.clearParts.upd.rx = m.upd.rx
          rw [Mach.clearParts_upd]
      · rw [Mach.setUpd_upd, Mach.wr_upd]
        rfl

theorem Mach.updEnd_rx (who : Option Nat) : (m.updEnd who).upd.rx = m.upd.rx := by
  have closes : m.updClose.upd.rx = m.upd.rx := by
    rw [Mach.updClose, Mach.updRelease, Mach.setUpd_upd, Mach.setFld_upd]
    show m.unstage.clearParts.upd.rx = m.upd.rx
    rw [Mach.clearParts_upd, Mach.unstage_upd]
  unfold Mach.updEnd
  extract_lets passed
  split
  · exact congrArg UpdSt.rx (Mach.updResult_upd ..)
  · exact (congrArg UpdSt.rx (Mach.updResult_upd ..)).trans closes

theorem Mach.updRequest_rx (mem : Mem) (s typ : Nat) (b : List Byte) : (Mach.updRequest mem m s typ b).2.upd.rx = m.upd.rx := by
  simp only [Mach.updRequest]
  split
  · exact Mach.updBegin_rx mem _
  · split
    · exact congrArg UpdSt.rx (Mach.updWrite_upd ..)
    · split
      · exact congrArg UpdSt.rx (Mach.updVerify_upd _)
      · split
        · exact Mach.updCommit_rx ..
        · split
          · exact Mach.updEnd_rx _
          · rfl

theorem Mach.sessRequest_rx (mem : Mem) (f : BFrame) : (Mach.sessRequest mem m f).m.upd.rx = m.upd.rx := by
  simp only [Mach.sessRequest]
  split
  · rfl
  · split
    · exact congrArg UpdSt.rx (Mach.buileSigned_upd _)
    · split
      · rfl
      · split
        · exact congrArg UpdSt.rx (Mach.keyUpdate_upd _)
        · split
          · exact congrArg UpdSt.rx (Mach.buileCal_upd ..)
          · split
            · rfl
            · split
              · exact Mach.updRequest_rx ..
              · rfl

/-- A Stranded module changes no lifecycle (R478), so that a request of a session keeps the reassembly. -/
theorem Mach.sessTyped_rx (mem : Mem) (x : Sess) (f : BFrame) (h : m.isStranded = true) :
    (Mach.sessTyped mem m x f).2.1.upd.rx = m.upd.rx := by
  have ends : ∀ n : Mach, (n.sessEnds f).upd.rx = n.upd.rx := fun n => congrArg UpdSt.rx (Mach.sessEnds_upd f)
  unfold Mach.sessTyped
  extract_lets refuse known' allowed
  split
  · exact ends m
  · next known =>
    have notLifecycle : ¬ (f.typ == 0x21) = true := fun e => known (by simp [known', h, eq_of_beq e, strandedTypes])
    split
    · exact ends m
    · exact (ends _).trans (Mach.sessRequest_rx mem f)

theorem Mach.buile_rx (mem : Mem) (fr : List Byte) (h : m.isStranded = true) : (Mach.buile mem m fr).2.1.upd.rx = m.upd.rx := by
  simp only [Mach.buile]
  split
  · rfl
  · next f _ =>
    split
    · exact congrArg UpdSt.rx (Mach.freeWords_upd 4)
    · split
      · exact congrArg UpdSt.rx (Mach.buileOpen_upd f)
      · split
        · rfl
        · split
          · exact congrArg UpdSt.rx (Mach.sessFails_upd ..)
          · split
            · exact congrArg UpdSt.rx (Mach.sessFails_upd ..)
            · exact Mach.sessTyped_rx mem _ f h

end Sys2Proof.Machine
end


section
/-! SUPPORT. Buile requests and their answers (R458 to R461, R479). -/

namespace Sys2Proof.Machine

variable {m : Mach} {fr : List Byte} {f : BFrame}

/-! ### A frame and its type -/

theorem buileParse_typ (h : buileParse fr = some f) : leAt fr 0 1 = f.typ := by
  unfold buileParse at h
  split at h
  · rw [← Option.some.inj h]
  · cases h

/-- A request that needs no identity does not wait for it. -/
theorem Mach.idWaits_other (h : buileParse fr = some f) (h17 : f.typ ≠ 17) (h18 : f.typ ≠ 18) : m.idWaits fr = false := by
  simp [Mach.idWaits, h, h17, h18]

theorem Mach.idWaits_ready (hs : m.bit Rg.KEY_STATUS 16 = true) : m.idWaits fr = false := by
  unfold Mach.idWaits
  split <;> simp [hs]

/-- A good request that needs the identity waits until it is ready. -/
theorem Mach.idWaits_good {x : Sess} (h : buileParse fr = some f) (ht : f.typ = 17 ∨ f.typ = 18) (hx : kget m.key.sess f.ses = some x)
    (hq : f.seq = x.seq + 1) (hg : f.tag = buileTag x.sk f.hdr f.body 0) (hs : m.bit Rg.KEY_STATUS 16 = false) :
    m.idWaits fr = true := by
  have typed : (f.typ == 17 || f.typ == 18) = true := by simpa using ht
  simp [Mach.idWaits, h, typed, hx, hq, hg, hs]

/-! ### A command carries a frame of its type -/

/-- The command of a type of request. -/
def Carries (c : Instr) (t : Nat) (fr : List Byte) : Prop := ∀ s, exec c s = runUpMem s (fun mem m => Mach.buileRow (· == t) mem m fr)

theorem buileHello_carries : Carries (.buileHello fr) 1 fr := fun _ => rfl
theorem buileOpen_carries : Carries (.buileOpen fr) 2 fr := fun _ => rfl
theorem buileClose_carries : Carries (.buileClose fr) 3 fr := fun _ => rfl
theorem builePing_carries : Carries (.builePing fr) 4 fr := fun _ => rfl
theorem buileAttest_carries : Carries (.buileAttest fr) 16 fr := fun _ => rfl
theorem buileAttestSigned_carries : Carries (.buileAttestSigned fr) 17 fr := fun _ => rfl
theorem buileReadIdentity_carries : Carries (.buileReadIdentity fr) 18 fr := fun _ => rfl
theorem buileKeyUpdate_carries : Carries (.buileKeyUpdate fr) 32 fr := fun _ => rfl
theorem buileLifecycle_carries : Carries (.buileLifecycle fr) 33 fr := fun _ => rfl
theorem buileCalWrite_carries : Carries (.buileCalWrite fr) 34 fr := fun _ => rfl
theorem buileReadJournal_carries : Carries (.buileReadJournal fr) 35 fr := fun _ => rfl
theorem buileUpdateStatus_carries : Carries (.buileUpdateStatus fr) 53 fr := fun _ => rfl

section row
variable {s : State} {c : Instr} {t : Nat} (hc : Carries c t fr) (hr : s.now.rst.cReset = false) (hk : s.now.keyRuns = true)
  (hf : buileParse fr = some f) (ht : f.typ = t)
include hc hr hk hf ht

/-- The engine answers the frame, and keeps its response. -/
theorem makes_answers {mem : Mem} {n : Mach} {r : List Byte} (hw : s.now.idWaits fr = false)
    (h : Mach.buile s.mem s.now fr = (mem, n, r)) : Makes c s mem (n.modKey fun k => { k with reply := r }) := by
  refine makes_upMemTo (hc s) hr ?_
  simp [Mach.buileRow, hk, buileParse_typ hf, ht, hw, h]

theorem makes_waits (hw : s.now.idWaits fr = true) :
    Makes c s s.mem (s.now.modKey fun k => { k with waits := k.waits ++ [(none, fr)] }) := by
  refine makes_upMemTo (hc s) hr ?_
  simp [Mach.buileRow, hk, buileParse_typ hf, ht, hw]

end row

/-! ### What a frame is answered -/

section answers
variable (mem : Mem) (hf : buileParse fr = some f)
include hf

theorem Mach.buile_hello (ht : f.typ = 1) : Mach.buile mem m fr = (mem, m.freshNonce.2,
    buileReply 1 f.ses f.seq 0 m.freshNonce.1 ((kget m.freshNonce.2.key.sess f.ses).map (·.sk))) := by
  simp [Mach.buile, hf, ht, Mach.buileHello]

theorem Mach.buile_open (ht : f.typ = 2) : Mach.buile mem m fr = (mem, m.buileOpen f) := by
  simp [Mach.buile, hf, ht]

variable (h1 : f.typ ≠ 1) (h2 : f.typ ≠ 2)
include h1 h2

theorem Mach.buile_closed (hx : kget m.key.sess f.ses = none) :
    Mach.buile mem m fr = (mem, m, buileReply f.typ f.ses f.seq 0x23 [] none) := by
  simp [Mach.buile, hf, h1, h2, hx]

variable {x : Sess} (hx : kget m.key.sess f.ses = some x)
include hx

theorem Mach.buile_outOfOrder (hq : f.seq ≠ x.seq + 1) :
    Mach.buile mem m fr = (mem, m.sessFails f.ses x, buileReply f.typ f.ses f.seq 0x24 [] none) := by
  simp [Mach.buile, hf, h1, h2, hx, hq]

theorem Mach.buile_untagged (hq : f.seq = x.seq + 1) (hg : f.tag ≠ buileTag x.sk f.hdr f.body 0) :
    Mach.buile mem m fr = (mem, m.sessFails f.ses x, buileReply f.typ f.ses f.seq 0x25 [] none) := by
  simp only [Mach.buile, hf, beq_iff_eq, h1, h2, if_false, hx, bne_iff_ne, ne_eq, hq, hg, not_true, not_false_eq_true, if_true]

theorem Mach.buile_good (hq : f.seq = x.seq + 1) (hg : f.tag = buileTag x.sk f.hdr f.body 0) : Mach.buile mem m fr =
    Mach.sessTyped mem (m.modKey fun k => { k with sess := kput k.sess f.ses { x with seq := f.seq, fails := 0 } })
      { x with seq := f.seq } f := by
  simp only [Mach.buile, hf, beq_iff_eq, h1, h2, if_false, hx, bne_iff_ne, ne_eq, hq, hg, not_true]

end answers

theorem Mach.buileOpen_short (h : f.body.length ≠ 100) :
    m.buileOpen f = (m.openFails 3 (leAt f.body 0 2), buileReply 2 f.ses f.seq 3 [] none) := by
  simp [Mach.buileOpen, h]

section opens
variable {n : List Byte} (hn : n = sliceBytes f.body 4 32) (h : f.body.length = 100)
include hn h

theorem Mach.buileOpen_opens {k : Nat} {x : Sess}
    (ho : (m.modKey fun k => { k with nonces := k.nonces.erase n }).openCheck f.body (m.key.nonces.contains n) = .ok (k, x)) :
    m.buileOpen f = (((m.modKey fun k => { k with nonces := k.nonces.erase n }).modKey fun y : KeySt =>
        { y with sess := kput y.sess k x, openFails := 0 }).showSessions.journal 0x44 k x.keyRef x.rights,
      buileReply 2 f.ses f.seq 0 [] (some x.sk)) := by
  subst hn
  have whole : ¬ (f.body.length != 100) = true := by simp [h]
  simp only [Mach.buileOpen, if_neg whole, ho]

theorem Mach.buileOpen_refused {c : Nat}
    (ho : (m.modKey fun k => { k with nonces := k.nonces.erase n }).openCheck f.body (m.key.nonces.contains n) = .error c) :
    m.buileOpen f = ((m.modKey fun k => { k with nonces := k.nonces.erase n }).openFails c (leAt f.body 0 2),
      buileReply 2 f.ses f.seq c [] none) := by
  subst hn
  have whole : ¬ (f.body.length != 100) = true := by simp [h]
  simp only [Mach.buileOpen, if_neg whole, ho]

end opens

/-! ### Requests of an open session -/

section request
variable {mem : Mem}

theorem Mach.sessRequest_ping (ht : f.typ = 4) : Mach.sessRequest mem m f = ⟨mem, m, 0, []⟩ := by
  simp [Mach.sessRequest, ht]

theorem Mach.sessRequest_attest (ht : f.typ = 16) :
    Mach.sessRequest mem m f = ⟨mem, m, (m.buileAttest f.body).1, (m.buileAttest f.body).2⟩ := by
  simp [Mach.sessRequest, ht]

theorem Mach.sessRequest_attestSigned (ht : f.typ = 17) :
    Mach.sessRequest mem m f = ⟨mem, (m.buileSigned f.body).1, (m.buileSigned f.body).2.1, (m.buileSigned f.body).2.2⟩ := by
  simp [Mach.sessRequest, ht]

theorem Mach.sessRequest_readIdentity (ht : f.typ = 18) : Mach.sessRequest mem m f = ⟨mem, m, 0, Mach.idPublic⟩ := by
  simp [Mach.sessRequest, ht]

theorem Mach.sessRequest_keyUpdate (ht : f.typ = 32) :
    Mach.sessRequest mem m f = ⟨mem, (m.keyUpdate f.body).1, (m.keyUpdate f.body).2, []⟩ := by
  simp [Mach.sessRequest, ht]

theorem Mach.sessRequest_calWrite (ht : f.typ = 34) : Mach.sessRequest mem m f = Mach.buileCal mem m f.body f.ses := by
  simp [Mach.sessRequest, ht]

theorem Mach.sessRequest_readJournal (ht : f.typ = 35) :
    Mach.sessRequest mem m f = ⟨mem, m, (Mach.buileJournal mem f.body).1, (Mach.buileJournal mem f.body).2⟩ := by
  simp [Mach.sessRequest, ht]

theorem Mach.sessRequest_updateStatus (ht : f.typ = 53) : Mach.sessRequest mem m f =
    ⟨mem, m, 0, leBytes 4 (m.rd Rg.UPD_STATUS) ++ leBytes 4 (m.rd Rg.UPD_RESULT) ++ leBytes 4 (m.rd Rg.UPD_DETAIL)⟩ := by
  simp [Mach.sessRequest, ht, Mach.updRequest]

end request

section session
variable (mem : Mem) (x : Sess) (hs : m.isStranded = false) (hm : f.seq ≠ 0xFFFFFFFF)
include hs hm

theorem Mach.sessTyped_rightless {r : Nat} (ht : f.typ ∈ sessionTypes) (h3 : f.typ ≠ 3) (hr : rightOf f.typ = some r)
    (hx : bitOf x.rights r = false) : Mach.sessTyped mem m x f = (mem, m, buileReply f.typ f.ses f.seq 0x26 [] none) := by
  unfold Mach.sessTyped
  extract_lets refuse known allowed
  rw [if_neg (by simp [known, hs, ht]), if_pos (by simp [allowed, hr, hx])]
  simp [refuse, Mach.sessEnds, h3, hm]

/-- A request that its right allows has the effect of its type. -/
theorem Mach.sessTyped_effect (ht : f.typ ∈ sessionTypes) (h3 : f.typ ≠ 3) (h33 : f.typ ≠ 33)
    (hr : ∀ r, rightOf f.typ = some r → bitOf x.rights r = true) {y : BAns} (hy : Mach.sessRequest mem m f = y) :
    Mach.sessTyped mem m x f = (y.mem, y.m, buileReply f.typ f.ses f.seq y.code y.body
      (if y.code = 0 then (kget y.m.key.sess f.ses).map (·.sk) else none)) := by
  unfold Mach.sessTyped
  extract_lets refuse known allowed dst c r sk
  have may : allowed = true := by
    simp only [allowed]
    split
    · next k hk => exact hr k hk
    · rfl
  rw [if_neg (by simp [known, hs, ht]), if_neg (by simp [may]), if_neg (by simp [h33])]
  simp [r, sk, hy, Mach.sessEnds, h3, hm]

omit hm in
theorem Mach.sessTyped_close (ht : f.typ = 3) : Mach.sessTyped mem m x f =
    (mem, (m.modKey fun k => { k with sess := kdel k.sess f.ses }).showSessions,
      buileReply 3 f.ses f.seq 0 [] ((kget m.key.sess f.ses).map (·.sk))) := by
  have typed : 3 ∈ sessionTypes := by decide
  simp [Mach.sessTyped, hs, ht, typed, rightOf, Mach.sessRequest, Mach.sessEnds]

omit hm in
theorem Mach.sessTyped_lifecycle (ht : f.typ = 33) (hr : bitOf x.rights 1 = true) (hb : f.body.length = 36)
    (hc : m.lcCode (leAt f.body 0 1) (x.keyRef / 256) = 0) {succ : Option (Nat × KSlot)} (hl : m.lcSuccessor x f.body = some succ) :
    Mach.sessTyped mem m x f = ((Mach.lcChange mem m (leAt f.body 0 1) succ).1, (Mach.lcChange mem m (leAt f.body 0 1) succ).2,
      buileReply 33 f.ses f.seq 0 [] (some x.sk)) := by
  unfold Mach.sessTyped
  generalize Mach.lcChange = lc
  extract_lets refuse known allowed dst c
  have typed : known = true := by simp only [known, hs, ht]; decide
  have may : allowed = true := by simp only [allowed, ht]; exact hr
  rw [if_neg (by simp [typed]), if_neg (by simp [may]), if_pos (by simp [ht]), if_neg (by simp [hb]),
    if_neg (by simp only [c, dst, hc]; decide)]
  split
  · next hn => cases hl.symm.trans hn
  · next s hs =>
    cases hl.symm.trans hs
    change (match lc mem m dst succ with | (mem, m) => (mem, m, buileReply f.typ f.ses f.seq 0 [] (some x.sk))) =
      ((lc mem m dst succ).1, (lc mem m dst succ).2, buileReply 33 f.ses f.seq 0 [] (some x.sk))
    generalize lc mem m dst succ = y
    obtain ⟨a, b⟩ := y
    simp only [ht]

end session

/-! ### The service port of a Stranded module -/

section port
variable {mem : Mem} (hk : m.keyRuns = true) (hs : m.isStranded = true)
  (he : beNat (sliceBytes fr 12 2) = m.fld Rg.UPD_SVC_CFG 31 16) (hl : 18 ≤ fr.length) (hx : m.upd.rx = none)
include hk hs he hl hx

/-- A frame of one segment is answered at once. -/
theorem Mach.serviceSegment_whole (hn : beNat (sliceBytes fr 16 2) = 1) (hi : beNat (sliceBytes fr 14 2) = 0) {whole : List Byte}
    (hw : whole = (fr.drop 18).take 1456) (hid : m.idWaits (whole.take (buileLen whole)) = false) {r : Mem × Mach × List Byte}
    (hr : Mach.buile mem m (whole.take (buileLen whole)) = r) : Mach.serviceSegment mem m fr =
      (r.1, (r.2.1.modKey fun k => { k with reply := r.2.2 }).modUpd fun u => { u with
        rx := none, tx := Mach.segments (m.fld Rg.UPD_SVC_CFG 31 16) (sliceBytes fr 6 6) r.2.2 }) := by
  have clear : m.modUpd (fun u => { u with rx := none }) = m := by
    have same : ({ m.upd with rx := none } : UpdSt) = m.upd := by rw [← hx]
    exact congrArg (fun u => { m with upd := u }) same
  have kept : r.2.1.upd.rx = none := by rw [← hr, Mach.buile_rx mem _ hs, hx]
  unfold Mach.serviceSegment
  extract_lets etype src i n old segs joined request idle
  have first : segs = [(0, whole)] := by simp only [segs, old, hx, i, hi, kput, hw]
  have all : joined = whole := by simp [joined, first]
  have same : request = whole.take (buileLen whole) := by simp only [request, all]
  have still : idle = m := clear
  have here : beNat (sliceBytes fr 14 2) = i := rfl
  have count : beNat (sliceBytes fr 16 2) = n := rfl
  rw [if_neg (by simp [hk, hs, he, etype, ← here, hi, ← count, hn, hl]), if_neg (by simp [first, ← count, hn]), still, same, hid]
  simp only [Bool.false_eq_true, if_false, hr]
  refine Prod.ext rfl ?_
  simp only [Mach.modUpd, Mach.modKey, kept]
  rfl

/-- A segment of more begins a reassembly. -/
theorem Mach.serviceSegment_first {i n : Nat} (hn : beNat (sliceBytes fr 16 2) = n) (hi : beNat (sliceBytes fr 14 2) = i) (hin : i < n)
    (h1 : 1 < n) : Mach.serviceSegment mem m fr = (mem, m.modUpd fun u => { u with
      rx := some ⟨leNat (sliceBytes fr 6 6), n, [(i, (fr.drop 18).take 1456)]⟩ }) := by
  simp [Mach.serviceSegment, hk, hs, he, hn, hi, Nat.not_le.mpr hin, Nat.not_lt.mpr hl, hx, h1, kput]

end port

theorem exec_servicePortSegment (fr : List Byte) (s : State) :
    exec (.servicePortSegment fr) s = runUpMem s (fun mem m => Mach.serviceSegment mem m fr) := rfl
theorem exec_segmentTimeout (s : State) : exec .segmentTimeout s = runUp s Mach.segmentsLate := rfl

/-! ### A good request of an open session -/

/-- The machine once a good request has been counted in its session. -/
def Mach.sequenced (m : Mach) (f : BFrame) (x : Sess) : Mach :=
  m.modKey fun k => { k with sess := kput k.sess f.ses { x with seq := f.seq, fails := 0 } }

theorem Mach.isStranded_sequenced (x : Sess) : (m.sequenced f x).isStranded = m.isStranded := rfl

section good
variable {s : State} {c : Instr} {t : Nat} {x : Sess} (hc : Carries c t fr) (hr : s.now.rst.cReset = false) (hk : s.now.keyRuns = true)
  (hf : buileParse fr = some f) (ht : f.typ = t) (hw : s.now.idWaits fr = false) (hx : kget s.now.key.sess f.ses = some x)
  (hq : f.seq = x.seq + 1) (hg : f.tag = buileTag x.sk f.hdr f.body 0) (h1 : t ≠ 1) (h2 : t ≠ 2)
include hc hr hk hf ht hw hx hq hg h1 h2

theorem makes_session {mem : Mem} {n : Mach} {r : List Byte}
    (h : Mach.sessTyped s.mem (s.now.sequenced f x) { x with seq := f.seq } f = (mem, n, r)) :
    Makes c s mem (n.modKey fun k => { k with reply := r }) := by
  subst ht
  exact makes_answers hc hr hk hf rfl hw ((Mach.buile_good s.mem hf h1 h2 hx hq hg).trans h)

variable (hs : s.now.isStranded = false) (hm : f.seq ≠ 0xFFFFFFFF) (typed : t ∈ sessionTypes) (h3 : t ≠ 3)
include hs hm typed h3

theorem makes_rightless {r : Nat} (right : rightOf t = some r) (hb : bitOf x.rights r = false) :
    Makes c s s.mem ((s.now.sequenced f x).modKey fun k => { k with reply := buileReply f.typ f.ses f.seq 0x26 [] none }) := by
  subst ht
  exact makes_session hc hr hk hf rfl hw hx hq hg h1 h2
    (Mach.sessTyped_rightless s.mem _ ((Mach.isStranded_sequenced x).trans hs) hm typed h3 right hb)

theorem makes_effect {y : BAns} (h33 : t ≠ 33) (right : ∀ r, rightOf t = some r → bitOf x.rights r = true)
    (hy : Mach.sessRequest s.mem (s.now.sequenced f x) f = y) :
    Makes c s y.mem (y.m.modKey fun k => { k with reply := (buileReply f.typ f.ses f.seq y.code y.body
      (if y.code = 0 then (kget y.m.key.sess f.ses).map (·.sk) else none)) }) := by
  subst ht
  exact makes_session hc hr hk hf rfl hw hx hq hg h1 h2
    (Mach.sessTyped_effect s.mem _ ((Mach.isStranded_sequenced x).trans hs) hm typed h3 h33 right hy)

/-- A request that always succeeds. -/
theorem makes_good {mem : Mem} {n : Mach} {b : List Byte} (h33 : t ≠ 33) (right : ∀ r, rightOf t = some r → bitOf x.rights r = true)
    (hy : Mach.sessRequest s.mem (s.now.sequenced f x) f = ⟨mem, n, 0, b⟩) :
    Makes c s mem (n.modKey fun k => { k with reply := (buileReply f.typ f.ses f.seq 0 b ((kget n.key.sess f.ses).map (·.sk))) }) := by
  have h := makes_effect hc hr hk hf ht hw hx hq hg h1 h2 hs hm typed h3 h33 right hy
  rwa [if_pos rfl] at h

end good

/-- Settles O52: a frame is answered by the first check it fails, or by the effect of its type. -/
theorem buileRequests : Obligations.BuileRequests := by
  unfold Obligations.BuileRequests
  intro s hr hk m replies
  have answers {c : Instr} {t : Nat} {fr : List Byte} {f : BFrame} {mem : Mem} {n : Mach} {r : List Byte} (hc : Carries c t fr)
      (hf : buileParse fr = some f) (ht : f.typ = t) (hw : m.idWaits fr = false) (h : Mach.buile s.mem m fr = (mem, n, r)) :
      replies c mem n r := makes_answers hc hr hk hf ht hw h
  refine ⟨fun fr f hf => ?_, ?_, ?_⟩
  · have other (h17 : f.typ ≠ 17) (h18 : f.typ ≠ 18) : m.idWaits fr = false := Mach.idWaits_other hf h17 h18
    refine ⟨?_, ?_, ?_, ?_, ?_, ?_, ?_, ?_⟩
    · intro ht
      exact answers buileHello_carries hf ht (other (by omega) (by omega)) (Mach.buile_hello s.mem hf ht)
    · intro ht hl n w
      refine ⟨fun k x ho => ?_, fun c ho => ?_⟩
      · refine answers buileOpen_carries hf ht (other (by omega) (by omega)) ((Mach.buile_open s.mem hf ht).trans ?_)
        rw [Mach.buileOpen_opens rfl hl ho]
      · refine answers buileOpen_carries hf ht (other (by omega) (by omega)) ((Mach.buile_open s.mem hf ht).trans ?_)
        rw [Mach.buileOpen_refused rfl hl ho]
    · intro ht hl
      refine answers buileOpen_carries hf ht (other (by omega) (by omega)) ((Mach.buile_open s.mem hf ht).trans ?_)
      rw [Mach.buileOpen_short hl]
    · intro ht hx
      refine answers builePing_carries hf ht (other (by omega) (by omega)) ?_
      rw [Mach.buile_closed s.mem hf (by omega) (by omega) hx, ht]
    · intro x ht hx hq
      refine answers builePing_carries hf ht (other (by omega) (by omega)) ?_
      rw [Mach.buile_outOfOrder s.mem hf (by omega) (by omega) hx hq, ht]
    · intro x ht hx hq hg
      refine answers builePing_carries hf ht (other (by omega) (by omega)) ?_
      rw [Mach.buile_untagged s.mem hf (by omega) (by omega) hx hq hg, ht]
    · intro x hx hq hg hs w
      exact ⟨fun ht => makes_waits buileAttestSigned_carries hr hk hf ht (Mach.idWaits_good hf (.inl ht) hx hq hg hs),
        fun ht => makes_waits buileReadIdentity_carries hr hk hf ht (Mach.idWaits_good hf (.inr ht) hx hq hg hs)⟩
    · intro x hx hq hg hm hs w sk good ends needs
      have effect {c : Instr} {t : Nat} {y : BAns} (hc : Carries c t fr) (ht : f.typ = t) (hw : s.now.idWaits fr = false)
          (typed : t ∈ sessionTypes) (h1 : t ≠ 1) (h2 : t ≠ 2) (h3 : t ≠ 3) (h33 : t ≠ 33)
          (right : ∀ r, rightOf t = some r → bitOf x.rights r = true) (hy : Mach.sessRequest s.mem (s.now.sequenced f x) f = y) :=
        makes_effect hc hr hk hf ht hw hx hq hg h1 h2 hs hm typed h3 h33 right hy
      have succeeds {c : Instr} {t : Nat} {mem : Mem} {n : Mach} {b : List Byte} (hc : Carries c t fr) (ht : f.typ = t)
          (hw : s.now.idWaits fr = false) (typed : t ∈ sessionTypes) (h1 : t ≠ 1) (h2 : t ≠ 2) (h3 : t ≠ 3) (h33 : t ≠ 33)
          (right : ∀ r, rightOf t = some r → bitOf x.rights r = true)
          (hy : Mach.sessRequest s.mem (s.now.sequenced f x) f = ⟨mem, n, 0, b⟩) :=
        makes_good hc hr hk hf ht hw hx hq hg h1 h2 hs hm typed h3 h33 right hy
      have rightless {c : Instr} {t r : Nat} (hc : Carries c t fr) (ht : f.typ = t) (hw : s.now.idWaits fr = false)
          (typed : t ∈ sessionTypes) (h1 : t ≠ 1) (h2 : t ≠ 2) (h3 : t ≠ 3) (right : rightOf t = some r) (hb : bitOf x.rights r = false) :=
        makes_rightless hc hr hk hf ht hw hx hq hg h1 h2 hs hm typed h3 right hb
      refine ⟨?_, ?_, ?_, ?_, ?_, ?_, ?_, ?_, ?_, ?_, ?_, ?_, ?_, ?_⟩
      · intro ht
        exact makes_session buileClose_carries hr hk hf ht (other (by omega) (by omega)) hx hq hg (by decide) (by decide)
          (Mach.sessTyped_close s.mem _ ((Mach.isStranded_sequenced x).trans hs) ht)
      · intro ht
        exact (succeeds builePing_carries ht (other (by omega) (by omega)) (by decide) (by decide) (by decide)
          (by decide) (by decide) (by simp [rightOf]) (Mach.sessRequest_ping ht) :)
      · intro ht
        exact (effect buileAttest_carries ht (other (by omega) (by omega)) (by decide) (by decide) (by decide)
          (by decide) (by decide) (by simp [rightOf]) (Mach.sessRequest_attest ht) :)
      · intro ht hid
        exact (effect buileAttestSigned_carries ht (Mach.idWaits_ready hid) (by decide) (by decide) (by decide)
          (by decide) (by decide) (by simp [rightOf]) (Mach.sessRequest_attestSigned ht) :)
      · intro ht hid
        exact (succeeds buileReadIdentity_carries ht (Mach.idWaits_ready hid) (by decide) (by decide)
          (by decide) (by decide) (by decide) (by simp [rightOf]) (Mach.sessRequest_readIdentity ht) :)
      · intro ht
        exact (effect buileKeyUpdate_carries ht (other (by omega) (by omega)) (by decide) (by decide) (by decide)
          (by decide) (by decide) (by simp [rightOf]) (Mach.sessRequest_keyUpdate ht) :)
      · intro ht right r
        exact (effect buileCalWrite_carries ht (other (by omega) (by omega)) (by decide) (by decide) (by decide)
          (by decide) (by decide) (by simpa [rightOf] using right) (Mach.sessRequest_calWrite ht) :)
      · exact fun ht => rightless buileCalWrite_carries ht (other (by omega) (by omega)) (by decide) (by decide) (by decide) (by decide) rfl
      · intro ht right
        exact (effect buileReadJournal_carries ht (other (by omega) (by omega)) (by decide) (by decide) (by decide)
          (by decide) (by decide) (by simpa [rightOf] using right) (Mach.sessRequest_readJournal ht) :)
      · exact fun ht => rightless buileReadJournal_carries ht (other (by omega) (by omega)) (by decide) (by decide) (by decide) (by decide) rfl
      · intro ht right
        exact (succeeds buileUpdateStatus_carries ht (other (by omega) (by omega)) (by decide) (by decide) (by decide)
          (by decide) (by decide) (by simpa [rightOf] using right) (Mach.sessRequest_updateStatus ht) :)
      · exact fun ht => rightless buileUpdateStatus_carries ht (other (by omega) (by omega)) (by decide) (by decide) (by decide) (by decide) rfl
      · intro succ ht right hb hc hl y
        exact makes_session buileLifecycle_carries hr hk hf ht (other (by omega) (by omega)) hx hq hg (by decide) (by decide)
          (Mach.sessTyped_lifecycle s.mem _ ((Mach.isStranded_sequenced x).trans hs) ht right hb hc hl)
      · exact fun ht => rightless buileLifecycle_carries ht (other (by omega) (by omega)) (by decide) (by decide) (by decide) (by decide) rfl
  · intro fr hs he hl hx
    refine ⟨?_, fun hin h1 => ?_⟩
    · intro hn hi whole hid r
      exact makes_upMemTo (exec_servicePortSegment fr s) hr (Mach.serviceSegment_whole hk hs he hl hx hn hi rfl hid rfl)
    · exact makes_upMemTo (exec_servicePortSegment fr s) hr (Mach.serviceSegment_first hk hs he hl hx rfl rfl hin h1)
  · exact makes_runUp (exec_segmentTimeout s) hr rfl

end Sys2Proof.Machine
end


section
/-! SUPPORT. The checks of a key-update message (R448). -/

namespace Sys2Proof.Machine

variable {m : Mach} {b : List Byte}

/-- A halfword is its two bytes, the lower first. -/
theorem leAt_two (b : List Byte) (o : Nat) : leAt b o 2 = leAt b o 1 + 256 * leAt b (o + 1) 1 := by
  have rest : b.drop (o + 1) = (b.drop o).tail := List.tail_drop.symm
  simp only [leAt, sliceBytes, rest]
  match b.drop o with
  | [] => rfl
  | [x] => simp [leNat]
  | x :: y :: t => simp [leNat]

/-- The kind of a key reference is its upper byte. -/
theorem leAt_kind (b : List Byte) (o : Nat) : leAt b o 2 / 256 = leAt b (o + 1) 1 := by
  have low : leAt b o 1 < 256 := by
    simp only [leAt, sliceBytes]
    match b.drop o with
    | [] => decide
    | x :: t => simpa [leNat] using x.isLt
  rw [leAt_two]
  omega

theorem authAccepted_iff (lc kind : Nat) :
    authAccepted lc kind = true ↔ (kind = 0 ∧ lc ∈ [0, 1, 3]) ∨ (kind = 1 ∧ lc ∈ [1, 2, 3]) := by
  simp [authAccepted, or_assoc]

theorem Mach.keyUpdate_refused (h : m.kuCode b ≠ 0) : m.keyUpdate b =
    ((m.bump Rg.KEY_KU_REJECT_CNT).journal 0x41 (m.kuCode b) (leAt b 7 1) (leAt b 24 4), m.kuCode b) := by
  simp [Mach.keyUpdate, h]

/-- The code is that of the first check that fails. -/
theorem firstFailure {magic form uid kind auth tag slot : Bool} {magicOk formOk uidOk kindOk authOk tagOk slotOk : Prop} {lc n k : Nat}
    (h1 : magic = true ↔ ¬magicOk) (h2 : form = true ↔ ¬formOk) (h3 : uid = true ↔ ¬uidOk) (h4 : kind = true ↔ ¬kindOk)
    (h5 : auth = true ↔ ¬authOk) (h6 : tag = true ↔ ¬tagOk) (h7 : slot = true ↔ ¬slotOk) :
    let code := if magic then 0x10 else if form then 0x11 else if uid then 0x12 else if lc == 4 then 0x18 else if kind then 0x13
      else if auth then 0x14 else if tag then 0x15 else if n ≤ k then 0x16 else if slot then 0x17 else 0
    (¬magicOk → code = 0x10) ∧ (magicOk → ¬formOk → code = 0x11) ∧ (magicOk → formOk → ¬uidOk → code = 0x12) ∧
    (magicOk → formOk → uidOk → lc = 4 → code = 0x18) ∧ (magicOk → formOk → uidOk → lc ≠ 4 → ¬kindOk → code = 0x13) ∧
    (magicOk → formOk → uidOk → lc ≠ 4 → kindOk → ¬authOk → code = 0x14) ∧
    (magicOk → formOk → uidOk → lc ≠ 4 → kindOk → authOk → (¬tagOk → code = 0x15) ∧ (tagOk → n ≤ k → code = 0x16) ∧
      (tagOk → k < n → (¬slotOk → code = 0x17) ∧ (slotOk → code = 0))) := by
  grind

/-- Settles O53: each check of the table is an `if` of the code, and its condition the table's. -/
theorem keyUpdateChecks : Obligations.KeyUpdateChecks := by
  unfold Obligations.KeyUpdateChecks
  refine ⟨fun m b h => Mach.keyUpdate_refused h, fun m b h0 => ?_⟩
  intro op alg len kind key form body magicOk uidOk kindOk slotAuth tagOk slotOk
  unfold Mach.kuCode
  extract_lets flags ref kind' formOk authSlot tag slot
  have magicIff : (leAt b 0 4 != 0x4B555044) = true ↔ ¬magicOk := bne_iff_ne
  have formIff : (!formOk) = true ↔ ¬form := by
    have pad : Mach.kuPad b = 8 * ((leAt b 36 4 + 7) / 8) := rfl
    simp only [formOk, form, pad, flags, len, Bool.not_eq_true', ← Bool.not_eq_true, Bool.and_eq_true, Bool.or_eq_true, beq_iff_eq,
      decide_eq_true_eq, and_assoc, or_assoc]
  have uidIff : (sliceBytes b 8 16 != Mach.uidBytes) = true ↔ ¬uidOk := bne_iff_ne
  have kindIff : (!authAccepted m.lifecycle kind' || (kind' == 0 && ref != 0)) = true ↔ ¬kindOk := by
    have zero : kind' = 0 → ref = 0 := fun h => by
      have upper : leAt b 29 1 = 0 := (leAt_kind b 28).symm.trans h
      simp only [ref, leAt_two, upper, h0 upper]
    have named : (kind' == 0 && ref != 0) = false := by
      by_cases h : kind' = 0
      · simp [zero h]
      · simp [h]
    rw [named, Bool.or_false, Bool.not_eq_true', ← Bool.not_eq_true, authAccepted_iff]
  have authIff : (!authSlot) = true ↔ ¬slotAuth := by
    simp only [authSlot, slotAuth, Bool.not_eq_true', ← Bool.not_eq_true, Bool.or_eq_true, beq_iff_eq]
    refine not_congr (or_congr Iff.rfl ?_)
    cases e : m.keySlot (ref % 256) with
    | none => simp
    | some k => simp
  have tagIff : (!tag) = true ↔ ¬tagOk := by
    simp only [tag, tagOk, Bool.not_eq_true', ← Bool.not_eq_true]
    refine not_congr ?_
    cases e : m.authKey (leAt b 28 2) <;> simp [key, body, e]
  have slotIff : (!slot) = true ↔ ¬slotOk := by
    simp only [slot, slotOk, Bool.not_eq_true', ← Bool.not_eq_true, beq_iff_eq]
    refine not_congr ?_
    split <;> simp
  exact firstFailure magicIff formIff uidIff kindIff authIff tagIff slotIff

end Sys2Proof.Machine
end


section
/-! SUPPORT. Mode commands and wakes (R88 to R93). -/

namespace Sys2Proof.Machine

variable {m : Mach}

/-! ### Mode commands -/

theorem bitOf_modeCmd (f : Bool) : ∀ cmd : Nat, cmd < 8 → (cmd + 256 * flagNat f) % 8 = cmd ∧ bitOf (cmd + 256 * flagNat f) 8 = f := by
  cases f <;> decide

/-- A command that its writer may give is held for the next edge. -/
theorem Mach.modeCmd_held {init cmd : Nat} {f : Bool} (h0 : cmd ≠ 0) (h4 : cmd ≤ 4) (h : m.isHeart init = true ∨ cmd ≤ 2 ∧ f = false) :
    m.modeCmd init (cmd + 256 * flagNat f) = m.modRst fun r => { r with modeCmd := some (cmd, f) } := by
  obtain ⟨code, force⟩ := bitOf_modeCmd f cmd (by omega)
  rcases h with h | ⟨h2, rfl⟩
  · simp [Mach.modeCmd, code, force, h, h0, Nat.not_lt.mpr h4, Mach.doIf]
  · have h3 : cmd ≠ 3 := by omega
    have h4' : cmd ≠ 4 := by omega
    have low : cmd < 3 := by omega
    simp [Mach.modeCmd, code, force, h0, Nat.not_lt.mpr h4, h3, h4', low, Mach.doIf]

/-- A write of RSTC_MODE_CMD. -/
theorem makes_modeWrite {s : State} {c : Instr} {init : InitId} {cmd : Nat} {f : Bool} (hc : exec c s = modeWrite init cmd f s)
    (ht : s.now.takes init.toNat Rg.RSTC_MODE_CMD (cmd + 256 * flagNat f) .RSTC_MODE_CMD [] = true)
    (h0 : cmd ≠ 0) (h4 : cmd ≤ 4) (h : s.now.isHeart init.toNat = true ∨ cmd ≤ 2 ∧ f = false) :
    Makes c s s.mem ((s.now.answer .done).modRst fun r => { r with modeCmd := some (cmd, f) }) := by
  refine makes_memTo hc (writeReg_acts ht fun hit e hn hi ha hv hw => ?_)
  simp [Mach.act, ha, Rg.RSTC_MODE_CMD, Mach.actModule, hn, hv, hw]
  exact Mach.modeCmd_held (m := s.now.answer .done) h0 h4 h

theorem Mach.dozeWake_taken {n : Nat} (hn : n < 1024) (hs : m.fld Rg.RSTC_MODE 1 0 = 1) (ht : m.irqTarget n < 4) (hi : m.irqTaken n = true) :
    m.dozeWake = ((m.modRst fun r => { r with gated := [], dozeWait := [] }).setMode 0).showDoze := by
  have some : ((List.range 1024).any fun n => m.irqTarget n < 4 && m.irqTaken n) = true :=
    List.any_eq_true.mpr ⟨n, List.mem_range.mpr hn, by simp [ht, hi]⟩
  simp only [Mach.dozeWake, some, if_true, Mach.dozeExit, hs, beq_self_eq_true]

/-! ### Wakes -/

/-- The module starts on a latched wake, with KL30 in its normal range. -/
theorem Mach.wakeUp_latched (hk : m.rst.kl30 = .normal) (hl : m.sill.latched = true) :
    m.wakeUp = m.modRst fun r => { r with pmode := .off, low := true, reach := .powerOn, cause := some 0xE, drivers := [.sill],
                                          ext := false, cReset := true, lReset := true, step := 0, warmStart := false, ovp := false, ovpEdge := false } := by
  simp [Mach.wakeUp, Mach.mainPower, Mach.modRst, hk, hl]

/-- An enabled event wakes a module that sleeps. -/
theorem Mach.wake_asleep {a : Nat} (ha : a ≠ 0) (hs : m.rst.shut = .none) (hk : m.rst.kl30 = .normal) (hl : m.asleep = true) :
    m.wake a 0 = (m.modSill fun x => { x with wakeA := x.wakeA ||| a, wakeB := x.wakeB ||| 0, latched := true }
    ).modRst fun r => { r with pmode := .off, low := true, reach := .powerOn, cause := some 0xE, drivers := [.sill],
                               ext := false, cReset := true, lReset := true, step := 0, warmStart := false, ovp := false, ovpEdge := false } := by
  have woken : m.wake a 0 = (m.modSill fun x => { x with wakeA := x.wakeA ||| a, wakeB := x.wakeB ||| 0, latched := true }).wakeUp := by
    simp [Mach.wake, ha, hs, hl]
  exact woken.trans (Mach.wakeUp_latched hk rfl)

theorem Mach.sleepKind_sleep (hs : m.rst.shut = .none) (hp : m.rst.pmode = .sleep) : m.sleepKind = some 3 := by
  simp [Mach.sleepKind, hs, hp]

theorem Mach.sleepKind_dormant (hs : m.rst.shut = .none) (hp : m.rst.pmode = .dormant) : m.sleepKind = some 4 := by
  simp [Mach.sleepKind, hs, hp]

theorem Mach.asleep_sleep (hp : m.rst.pmode = .sleep) : m.asleep = true := by simp [Mach.asleep, hp]

theorem Mach.sleepKind_asleep (hs : m.rst.shut = .none) (h : m.asleep = true) : ∃ k, m.sleepKind = some k := by
  simp only [Mach.asleep, Bool.or_eq_true, beq_iff_eq] at h
  exact h.elim (fun h => ⟨3, Mach.sleepKind_sleep hs h⟩) fun h => ⟨4, Mach.sleepKind_dormant hs h⟩

theorem Mach.wakeEnables_asleep (h : m.asleep = true) : m.wakeEnables = m.sill.wakeEn := by
  simp [Mach.wakeEnables, Mach.sillWakes, h]

theorem Mach.wakePols_asleep (h : m.asleep = true) : m.wakePols = m.sill.wakePol := by
  simp [Mach.wakePols, Mach.sillWakes, h]

/-! ### Pins that wake -/

/-- One bit of a halfword. -/
theorem onesOf_pow (i : Fin 16) : onesOf 16 (2 ^ i.val) = [i.val] := by
  revert i
  decide

theorem maskOfList_one (i : Nat) : maskOfList [i] = 2 ^ i := by simp [maskOfList]

/-- The bits of a mask are its members. -/
theorem bitOf_maskOfList (l : List Nat) (i : Nat) : bitOf (maskOfList l) i = l.contains i := by
  have fold : ∀ (l : List Nat) (v : Nat), (l.foldl (fun v i => v ||| 2 ^ i) v).testBit i = (v.testBit i || l.contains i) := by
    intro l
    induction l with
    | nil => simp
    | cons x l ih =>
      intro v
      rw [List.foldl_cons, ih, Nat.testBit_or, Nat.testBit_two_pow, List.contains_cons, Bool.or_assoc]
      congr 2
      exact Bool.eq_iff_iff.2 (by rw [beq_iff_eq, decide_eq_true_eq, eq_comm])
  simp [bitOf_eq_testBit, maskOfList, fold]

/-- The edges of pins that are in use. -/
def Mach.usedPins (m : Mach) (v : Nat) : Nat := maskOfList ((onesOf 16 v).filter fun i => !m.pinOff (8 + i) 39)

theorem Mach.bitOf_usedPins (v : Nat) (i : Fin 16) : bitOf (m.usedPins v) i = (bitOf v i && !m.pinOff (8 + i) 39) := by
  rw [Mach.usedPins, bitOf_maskOfList, Bool.eq_iff_iff]
  simp [onesOf, i.isLt, and_comm]

/-- In sleep the pins wake by the edge that their polarity names. -/
theorem Mach.wakePins_asleep {rising falling : Nat} {i : Fin 16} (hs : m.rst.shut = .none) (ha : m.asleep = true)
    (he : m.sill.wakeEn = 2 ^ i.val) : ∃ level, m.wakePins rising falling = ({ m with meas := { m.meas with wakeNow := level } } : Mach).wake
      (if bitOf (if bitOf m.sill.wakePol i then m.usedPins falling else m.usedPins rising) i then 2 ^ i.val else 0) 0 := by
  obtain ⟨k, hk⟩ := Mach.sleepKind_asleep hs ha
  unfold Mach.wakePins
  extract_lets used r f level meas n pol
  refine ⟨level, ?_⟩
  have kind : n.sleepKind = some k := hk
  have enables : n.wakeEnables = 2 ^ i.val := (Mach.wakeEnables_asleep ha).trans he
  have pols : pol = m.sill.wakePol := Mach.wakePols_asleep ha
  have oneBit : ∀ b : Bool, maskOfList (if b then [i.val] else []) = if b then 2 ^ i.val else 0 := by
    rintro (_ | _)
    · rfl
    · exact maskOfList_one i
  simp only [kind, enables, pols, onesOf_pow, List.filter_cons, List.filter_nil, oneBit]
  rfl

theorem exec_dozeExit (s : State) : exec .dozeExit s = runUp s Mach.dozeWake := rfl
theorem exec_wakePinEvent (r f : BitVec 16) (s : State) : exec (.wakePinEvent r f) s = run s (fun m => m.wakePins r.toNat f.toNat) := rfl
theorem exec_linSleepWake (chs : BitVec 12) (s : State) : exec (.linSleepWake chs) s = run s (fun m => m.wakeLin chs.toNat) := rfl
theorem exec_sleepTimerExpiry (s : State) : exec .sleepTimerExpiry s = run s Mach.wakeTimer := rfl
theorem exec_latchedWakeStart (s : State) : exec .latchedWakeStart s = run s Mach.latchedWake := rfl

/-- The LIN channel's bit among the wake sources. -/
theorem linWakeBit (c : Fin 12) : (bitsOf (2 ^ (16 + c.val)) 27 16 &&& (BitVec.ofNat 12 (2 ^ c.val)).toNat % 4096) <<< 16 = 2 ^ (16 + c.val) := by
  revert c
  decide

/-- Settles O15: a command is held with its force bit; a wake is latched and starts the module. -/
theorem modesAndWakes : Obligations.ModesAndWakes := by
  unfold Obligations.ModesAndWakes
  refine ⟨?_, ?_⟩
  · intro s init f held ok
    refine ⟨fun h => ?_, fun h => ?_, fun h => ?_, fun h => ?_, fun n hr hs ht hi => ?_⟩
    · exact makes_modeWrite (c := .modeCmdRun init f) rfl h.1 (by decide) (by decide) h.2
    · exact makes_modeWrite (c := .modeCmdDoze init f) rfl h.1 (by decide) (by decide) h.2
    · exact makes_modeWrite (c := .modeCmdSleep init f) rfl h.1 (by decide) (by decide) h.2
    · exact makes_modeWrite (c := .modeCmdDormant init f) rfl h.1 (by decide) (by decide) h.2
    · exact makes_runUp (exec_dozeExit s) hr (Mach.dozeWake_taken n.isLt hs ht hi)
  · intro s hs hk woken
    refine ⟨?_, ?_, ?_, ?_, ?_, ?_⟩
    · intro r f i ha he hp hr ho
      obtain ⟨level, pins⟩ := Mach.wakePins_asleep (rising := r.toNat) (falling := f.toNat) hs ha he
      have edge : bitOf (s.now.usedPins r.toNat) i = true := by simp [Mach.bitOf_usedPins, hr, ho]
      rw [hp, if_neg Bool.false_ne_true, if_pos edge] at pins
      refine makes_does (makes_run (exec_wakePinEvent r f s) (pins.trans (Mach.wake_asleep (Nat.ne_of_gt (Nat.two_pow_pos _)) hs hk ha))) ⟨rfl, rfl, rfl⟩
    · intro r f i ha he hp hf
      obtain ⟨level, pins⟩ := Mach.wakePins_asleep (rising := r.toNat) (falling := f.toNat) hs ha he
      have edge : ¬ bitOf (s.now.usedPins f.toNat) i = true := by simp [Mach.bitOf_usedPins, hf]
      rw [hp, if_pos rfl, if_neg edge] at pins
      exact makes_does (makes_run (exec_wakePinEvent r f s) pins) ⟨rfl, rfl, rfl⟩
    · intro c hp he
      have asleep := Mach.asleep_sleep hp
      refine makes_run (exec_linSleepWake _ s) (Eq.trans ?_ (Mach.wake_asleep (Nat.ne_of_gt (Nat.two_pow_pos _)) hs hk asleep))
      rw [Mach.wakeLin, Mach.sleepKind_sleep hs hp, if_pos (beq_self_eq_true _), Mach.wakeEnables_asleep asleep, he, linWakeBit]
    · intro hp he
      have asleep := Mach.asleep_sleep hp
      have timer : (s.now.sleepKind == some 3 && bitOf s.now.wakeEnables 28) = true := by
        rw [Mach.sleepKind_sleep hs hp, Mach.wakeEnables_asleep asleep, he]
        decide
      exact makes_run (exec_sleepTimerExpiry s) ((if_pos timer).trans (Mach.wake_asleep (by decide) hs hk asleep))
    · intro hp
      refine makes_run (exec_sleepTimerExpiry s) ?_
      simp [Mach.wakeTimer, Mach.sleepKind_dormant hs hp]
    · intro ha hl
      refine makes_run (exec_latchedWakeStart s) (Eq.trans ?_ (Mach.wakeUp_latched hk hl))
      simp [Mach.latchedWake, ha, hl]

end Sys2Proof.Machine
end


section
/-! SUPPORT. Writes of the reset registers, watchdogs and element resets (R97 to R101, R110). -/

namespace Sys2Proof.Machine

variable {m : Mach}

/-- The mask of a write is that of its register. -/
theorem writeReg_masked {mem : Mem} {init a v mask : Nat} {n : RegName} {idx : List Nat} {r : Mem × Mach} (ht : m.takes init a v n idx = true)
    (hm : ∀ (hit : Hit) (ms : List Nat), resolve a 4 = some (.reg hit ms) → hit.d.writeMask = mask)
    (h : ∀ (hit : Hit) (e : Stg), hit.d.name = n → e.addr = a → e.val = v → e.mask = mask → Mach.act mem (m.answer .done) hit e = r) :
    Mach.writeReg mem m init a 4 v = r := by
  obtain ⟨hit, e, hn, -, ha, hv, -, hmask, ⟨ms, hr⟩, hw⟩ := writeReg_takes (mem := mem) ht
  exact hw.trans (h hit e hn ha hv (hmask.trans (hm hit ms hr)))

theorem mask_RSTC_DIE_RST {h : Hit} {ms : List Nat} (hr : resolve Rg.RSTC_DIE_RST 4 = some (.reg h ms)) : h.d.writeMask = 3 := by
  have found : resolve Rg.RSTC_DIE_RST 4 = some (.reg ⟨_, []⟩ []) := rfl
  cases found.symm.trans hr
  decide

theorem mask_RSTC_UNIT_RST {h : Hit} {ms : List Nat} (hr : resolve Rg.RSTC_UNIT_RST 4 = some (.reg h ms)) : h.d.writeMask = 0xFFFFFF := by
  have found : resolve Rg.RSTC_UNIT_RST 4 = some (.reg ⟨_, []⟩ []) := rfl
  cases found.symm.trans hr
  decide

theorem mask_RSTC_GROUP_RST {h : Hit} {ms : List Nat} (hr : resolve Rg.RSTC_GROUP_RST 4 = some (.reg h ms)) :
    h.d.writeMask = 0xFFFFFFF := by
  have found : resolve Rg.RSTC_GROUP_RST 4 = some (.reg ⟨_, []⟩ []) := rfl
  cases found.symm.trans hr
  decide

/-! ### A write that changes one bit -/

/-- What setting or clearing bit `i` of an otherwise clear register writes, what that leaves of it, and what it changes. -/
def OneBit (n mask i : Nat) : Prop :=
  withBits 0 i i 1 = 2 ^ i ∧ withBits (2 ^ i) i i 0 = 0 ∧ Mach.changedBits n 0 (mergeBits 0 (2 ^ i) mask) = [i] ∧
    Mach.changedBits n (2 ^ i) (mergeBits (2 ^ i) 0 mask) = [i] ∧ bitOf (mergeBits 0 (2 ^ i) mask) i = true ∧ bitOf (mergeBits (2 ^ i) 0 mask) i = false

theorem oneBit_die : ∀ i : Fin 2, OneBit 2 3 i := by unfold OneBit; decide
theorem oneBit_unit : ∀ i : Fin 24, OneBit 24 0xFFFFFF i := by unfold OneBit; decide +kernel
theorem oneBit_group : ∀ i : Fin 28, OneBit 28 0xFFFFFFF i := by unfold OneBit; decide +kernel

section write
variable {s : State} {c : Instr} {init : InitId} {m : Mach} {mem : Mem}

theorem makes_dieWrite {i v whole : Nat} {b : Bool} (hc : exec c s = bitWrite init Rg.RSTC_DIE_RST i b s)
    (hv : withBits (s.now.rd Rg.RSTC_DIE_RST) i i (flagNat b) = v) (hw : mergeBits (s.now.rd Rg.RSTC_DIE_RST) v 3 = whole)
    (ht : s.now.takes init.toNat Rg.RSTC_DIE_RST v .RSTC_DIE_RST [] = true) (h : (s.now.answer .done).dieWrite whole = m) :
    Makes c s s.mem m := by
  subst hv
  refine makes_memTo hc (writeReg_masked ht (fun _ _ => mask_RSTC_DIE_RST) fun hit e hn ha hv he => ?_)
  have merged : mergeBits ((s.now.answer .done).rd e.addr) e.val e.mask = whole := by rw [ha, hv, he]; exact hw
  have low : ¬ 0x42000000 ≤ e.addr := by rw [ha]; decide
  rw [Mach.act, if_neg low]
  simp only [Mach.actModule, hn, merged, h]

theorem makes_unitWrite {i v whole : Nat} {b : Bool} (hc : exec c s = bitWrite init Rg.RSTC_UNIT_RST i b s)
    (hv : withBits (s.now.rd Rg.RSTC_UNIT_RST) i i (flagNat b) = v) (hw : mergeBits (s.now.rd Rg.RSTC_UNIT_RST) v 0xFFFFFF = whole)
    (ht : s.now.takes init.toNat Rg.RSTC_UNIT_RST v .RSTC_UNIT_RST [] = true)
    (h : Mach.unitWrite s.mem (s.now.answer .done) whole = (mem, m)) : Makes c s mem m := by
  subst hv
  refine makes_memTo hc (writeReg_masked ht (fun _ _ => mask_RSTC_UNIT_RST) fun hit e hn ha hv he => ?_)
  have merged : mergeBits ((s.now.answer .done).rd e.addr) e.val e.mask = whole := by rw [ha, hv, he]; exact hw
  have low : ¬ 0x42000000 ≤ e.addr := by rw [ha]; decide
  rw [Mach.act, if_neg low]
  simp only [Mach.actModule, hn, merged, h]

theorem makes_groupWrite {i v whole : Nat} {b : Bool} (hc : exec c s = bitWrite init Rg.RSTC_GROUP_RST i b s)
    (hv : withBits (s.now.rd Rg.RSTC_GROUP_RST) i i (flagNat b) = v) (hw : mergeBits (s.now.rd Rg.RSTC_GROUP_RST) v 0xFFFFFFF = whole)
    (ht : s.now.takes init.toNat Rg.RSTC_GROUP_RST v .RSTC_GROUP_RST [] = true) (h : (s.now.answer .done).groupWrite whole = m) :
    Makes c s s.mem m := by
  subst hv
  refine makes_memTo hc (writeReg_masked ht (fun _ _ => mask_RSTC_GROUP_RST) fun hit e hn ha hv he => ?_)
  have merged : mergeBits ((s.now.answer .done).rd e.addr) e.val e.mask = whole := by rw [ha, hv, he]; exact hw
  have low : ¬ 0x42000000 ≤ e.addr := by rw [ha]; decide
  rw [Mach.act, if_neg low]
  simp only [Mach.actModule, hn, merged, h]

end write

/-! ### The rules of the registers -/

theorem foldl_filter_one {α : Type} (f : α → Nat → α) (x : α) {p : Nat → Bool} {u : Nat} (h : p u = true) :
    ([u].filter p).foldl f x = f x u := by
  rw [List.filter_cons_of_pos h]
  rfl

theorem Mach.dieWrite_one {v i : Nat} (h : changedBits 2 (m.rd Rg.RSTC_DIE_RST) v = [i]) : m.dieWrite v = m.dieBitSet i (bitOf v i) := by
  rw [Mach.dieWrite, h]
  rfl

theorem Mach.unitWrite_one {mem : Mem} {v u : Nat} (h : changedBits 24 (m.rd Rg.RSTC_UNIT_RST) v = [u]) (hu : unitResettable u = true) :
    Mach.unitWrite mem m v = Mach.unitBit mem m u (bitOf v u) := by
  rw [Mach.unitWrite, h]
  exact foldl_filter_one _ _ hu

theorem Mach.groupWrite_one {v g : Nat} (h : changedBits 28 (m.rd Rg.RSTC_GROUP_RST) v = [g]) :
    m.groupWrite v = m.groupBit g (bitOf v g) := by
  rw [Mach.groupWrite, h]
  rfl

theorem Mach.dieBitSet_free {i : Nat} (h : m.dieHeld (bitDie i) = false) :
    m.dieBitSet i true = (m.setBit Rg.RSTC_DIE_RST i true).dieAssert (bitDie i) := by simp [Mach.dieBitSet, h]

theorem Mach.dieBitSet_off (i : Nat) : m.dieBitSet i false = (m.setBit Rg.RSTC_DIE_RST i false).dieRelease (bitDie i) := rfl

theorem Mach.unitBit_free {mem : Mem} {u : Nat} (h : m.unitHeld u = false) :
    Mach.unitBit mem m u true = (mem, (m.setBit Rg.RSTC_UNIT_RST u true).unitAssert u) := by simp [Mach.unitBit, h]

theorem Mach.unitBit_off {mem : Mem} (u : Nat) :
    Mach.unitBit mem m u false = Mach.unitRelease mem (m.setBit Rg.RSTC_UNIT_RST u false) u := rfl

/-! ### Watchdogs -/

/-- An expired watchdog of reaction 3 reports and starts over. -/
theorem Mach.wdtExpiry_report {n : Nat} (hr : m.rst.cReset = false) (hw : m.fld (Rg.RSTC_WDT_CFG n) 15 0 ≠ 0)
    (hn : m.fld (Rg.RSTC_WDT_CFG n) 15 0 ≤ kgetD m.rst.wdt n 0) (hk : m.fld (Rg.RSTC_WDT_CFG n) 17 16 = 3) :
    m.wdtExpiry n = (m.wdtKick n).raise 0x107 n := by
  have kicked : (m.wdtKick n).fld (Rg.RSTC_WDT_CFG n) 17 16 = 3 := hk
  have due : ¬ (m.rst.cReset || m.fld (Rg.RSTC_WDT_CFG n) 15 0 == 0 || kgetD m.rst.wdt n 0 < m.fld (Rg.RSTC_WDT_CFG n) 15 0) = true := by
    simp [hr, hw, hn]
  rw [Mach.wdtExpiry, if_neg due]
  dsimp only
  rw [kicked]
  rfl

/-! ### Elements -/

/-- What a value of RSTC_ELEM_RST says: its unit, its index and its bit, and nothing outside them. -/
theorem elemValue (b : Bool) (u : Fin 32) (i : Fin 96) :
    bitsOf (flagNat b * 2 ^ 31 + u.val * 2 ^ 24 + i.val) 28 24 = u.val ∧ bitsOf (flagNat b * 2 ^ 31 + u.val * 2 ^ 24 + i.val) 15 0 = i.val ∧
      bitOf (flagNat b * 2 ^ 31 + u.val * 2 ^ 24 + i.val) 31 = b ∧
      (flagNat b * 2 ^ 31 + u.val * 2 ^ 24 + i.val) &&& 0x9F00FFFF = flagNat b * 2 ^ 31 + u.val * 2 ^ 24 + i.val := by
  revert b u i
  decide +kernel

theorem elemCount_le : ∀ u : Fin 32, elemCount u ≤ 96 := by decide

/-- A write of RSTC_ELEM_RST holds no other element. -/
theorem Mach.elemHeld_wr (v u i : Nat) : (m.wr Rg.RSTC_ELEM_RST v).elemHeld u i = m.elemHeld u i := by
  have unit : (m.wr Rg.RSTC_ELEM_RST v).rd Rg.RSTC_UNIT_RST = m.rd Rg.RSTC_UNIT_RST := Mach.rd_wr_other m v (by decide)
  have group : (m.wr Rg.RSTC_ELEM_RST v).rd Rg.RSTC_GROUP_RST = m.rd Rg.RSTC_GROUP_RST := Mach.rd_wr_other m v (by decide)
  simp only [Mach.elemHeld, Mach.unitHeld, Mach.bistBlock, Mach.bit, unit, group, Mach.wr_rst]

section elem
variable {v u i : Nat} (hu : bitsOf v 28 24 = u) (hi : bitsOf v 15 0 = i) (hc : i < elemCount u) (hv : v &&& 0x9F00FFFF = v)

include hu hi hc hv

/-- A free element is held, with the others of its set. -/
theorem Mach.elemWrite_hold (hb : bitOf v 31 = true) (hf : m.elemHeld u i = false) (hn : (u, i) ∉ m.rst.elems) :
    m.elemWrite v = ((((m.wr Rg.RSTC_ELEM_RST v).modRst fun r => { r with elems := r.elems ++ m.elemSet u i }).elemAssert u i).followResets) := by
  have free : (m.wr Rg.RSTC_ELEM_RST v).elemHeld u i = false := (Mach.elemHeld_wr v u i).trans hf
  simp [Mach.elemWrite, hu, hi, hv, hb, hn, free, Nat.not_le.2 hc]

/-- A held element is released, with the others of its set. -/
theorem Mach.elemWrite_release (hb : bitOf v 31 = false) (hn : (u, i) ∈ m.rst.elems) :
    m.elemWrite v = ((((m.wr Rg.RSTC_ELEM_RST v).modRst fun r =>
      { r with elems := r.elems.filter fun e => !(m.elemSet u i).contains e }).elemRelease u i).followResets) := by
  simp [Mach.elemWrite, hu, hi, hv, hb, hn, Nat.not_le.2 hc]

end elem

section obligation
variable {s : State} {init : InitId}

theorem makes_swRst {c : Instr} {key : BitVec 16} {kind v : Nat} {m : Mach} (hc : exec c s = swRstWrite init key kind s)
    (hv : key.toNat * 2 ^ 16 + kind = v) (ht : s.now.takes init.toNat Rg.RSTC_SW_RST v .RSTC_SW_RST [] = true)
    (h : (s.now.answer .done).swReset v = m) : Makes c s s.mem m := by
  subst hv
  refine makes_memTo hc (writeReg_acts ht fun hit e hn hi ha hv hinit => ?_)
  have low : ¬ 0x42000000 ≤ e.addr := by rw [ha]; decide
  rw [Mach.act, if_neg low]
  simp only [Mach.actModule, hn, hv, h]

theorem makes_wdtKick {n : Fin 16} {v : Word} (hb : bitOf v.toNat 0 = true)
    (ht : s.now.takes init.toNat (Rg.RSTC_WDT_KICK n) v.toNat .RSTC_WDT_KICK [n.val] = true) :
    Makes (.watchdogKick init n v) s s.mem ((s.now.answer .done).wdtKick n) := by
  refine makes_memTo (show exec (.watchdogKick init n v) s = runMem s fun mem m => Mach.writeReg mem m init.toNat (Rg.RSTC_WDT_KICK n) 4 v.toNat
    from rfl) (writeReg_acts ht fun hit e hn hi ha hv hinit => ?_)
  have low : ¬ 0x42000000 ≤ e.addr := by rw [ha, Rg.RSTC_WDT_KICK]; omega
  rw [Mach.act, if_neg low]
  simp only [Mach.actModule, hn, hi, hv, hb, List.headD_cons, if_true]

theorem makes_elemWrite {c : Instr} {u : Fin 32} {i : BitVec 16} {b : Bool} {v : Nat} {m : Mach} (hc : exec c s = elemRstWrite init u i b s)
    (hv : flagNat b * 2 ^ 31 + u.val * 2 ^ 24 + i.toNat = v) (ht : s.now.takes init.toNat Rg.RSTC_ELEM_RST v .RSTC_ELEM_RST [] = true)
    (h : (s.now.answer .done).elemWrite v = m) : Makes c s s.mem m := by
  subst hv
  refine makes_memTo hc (writeReg_acts ht fun hit e hn hi ha hv hinit => ?_)
  have low : ¬ 0x42000000 ≤ e.addr := by rw [ha]; decide
  rw [Mach.act, if_neg low]
  simp only [Mach.actModule, hn, hv, h]

end obligation

/-- Settles O16: a write of a reset register holds or releases what its bit names, and an expired watchdog reports. -/
theorem resetWrites : Obligations.ResetWrites := by
  unfold Obligations.ResetWrites
  refine ⟨fun s init => ?_, fun s init u i hi => ?_⟩
  · intro now
    refine ⟨fun ht => ?_, fun ht => ?_, fun hz hf ht => ?_, fun hz ht => ?_, fun u hu hz hf ht => ?_, fun u hu hz ht => ?_,
      fun g hz ht => ?_, fun g hz ht => ?_, fun n v hb ht => makes_wdtKick hb ht, fun n hr hw hn hk => ?_⟩
    · exact makes_swRst rfl (by decide) ht rfl
    · exact makes_swRst rfl (by decide) ht rfl
    · obtain ⟨set, -, -, -, -, -⟩ := oneBit_die 0
      obtain ⟨-, -, changed, -, on, -⟩ := oneBit_die 0
      refine makes_dieWrite (v := 1) (whole := mergeBits 0 1 3) rfl (hz ▸ set) (by rw [hz]) ht ?_
      have differs : Mach.changedBits 2 ((s.now.answer .done).rd Rg.RSTC_DIE_RST) (mergeBits 0 1 3) = [0] := by
        rw [Mach.answer_rd, hz]; exact changed
      exact (Mach.dieWrite_one differs).trans (Mach.dieBitSet_free hf)
    · obtain ⟨-, cleared, -, changed, -, off⟩ := oneBit_die 1
      refine makes_dieWrite (v := 0) (whole := mergeBits 2 0 3) rfl (hz ▸ cleared) (by rw [hz]) ht ?_
      have differs : Mach.changedBits 2 ((s.now.answer .done).rd Rg.RSTC_DIE_RST) (mergeBits 2 0 3) = [1] := by
        rw [Mach.answer_rd, hz]; exact changed
      exact (Mach.dieWrite_one differs).trans (Mach.dieBitSet_off 1)
    · obtain ⟨set, -, changed, -, on, -⟩ := oneBit_unit u
      refine makes_unitWrite (whole := mergeBits 0 (2 ^ u.val) 0xFFFFFF) rfl (hz ▸ set) (by rw [hz]) ht ?_
      have differs : Mach.changedBits 24 ((s.now.answer .done).rd Rg.RSTC_UNIT_RST) (mergeBits 0 (2 ^ u.val) 0xFFFFFF) = [u.val] := by
        rw [Mach.answer_rd, hz]; exact changed
      rw [Mach.unitWrite_one differs hu, on]
      exact Mach.unitBit_free hf
    · intro r
      obtain ⟨-, cleared, -, changed, -, off⟩ := oneBit_unit u
      refine makes_unitWrite (v := 0) (whole := mergeBits (2 ^ u.val) 0 0xFFFFFF) rfl (hz ▸ cleared) (by rw [hz]) ht ?_
      have differs : Mach.changedBits 24 ((s.now.answer .done).rd Rg.RSTC_UNIT_RST) (mergeBits (2 ^ u.val) 0 0xFFFFFF) = [u.val] := by
        rw [Mach.answer_rd, hz]; exact changed
      rw [Mach.unitWrite_one differs hu, off]
      exact Mach.unitBit_off u.val
    · obtain ⟨set, -, changed, -, on, -⟩ := oneBit_group g
      refine makes_groupWrite (whole := mergeBits 0 (2 ^ g.val) 0xFFFFFFF) rfl (hz ▸ set) (by rw [hz]) ht ?_
      have differs : Mach.changedBits 28 ((s.now.answer .done).rd Rg.RSTC_GROUP_RST) (mergeBits 0 (2 ^ g.val) 0xFFFFFFF) = [g.val] := by
        rw [Mach.answer_rd, hz]; exact changed
      rw [Mach.groupWrite_one differs, on]
    · obtain ⟨-, cleared, -, changed, -, off⟩ := oneBit_group g
      refine makes_groupWrite (v := 0) (whole := mergeBits (2 ^ g.val) 0 0xFFFFFFF) rfl (hz ▸ cleared) (by rw [hz]) ht ?_
      have differs : Mach.changedBits 28 ((s.now.answer .done).rd Rg.RSTC_GROUP_RST) (mergeBits (2 ^ g.val) 0 0xFFFFFFF) = [g.val] := by
        rw [Mach.answer_rd, hz]; exact changed
      rw [Mach.groupWrite_one differs, off]
    · exact makes_run (show exec (.watchdogExpiry n) s = run s fun m => m.wdtExpiry n from rfl) (Mach.wdtExpiry_report hr hw hn hk)
  · intro on off
    have small : i.toNat < 96 := Nat.lt_of_lt_of_le hi (elemCount_le u)
    refine ⟨fun h => ?_, fun hc hu => ?_, fun hf hn ht => ?_, fun hn ht => ?_⟩
    · rcases h with h | h <;> simp [Mach.elemSet, h]
    · simp [Mach.elemSet, hc, hu]
    · obtain ⟨unit, index, held, whole⟩ := elemValue true u ⟨i.toNat, small⟩
      exact makes_elemWrite (b := true) (v := on) rfl (by simp [on, flagNat]) ht
        (Mach.elemWrite_hold (m := s.now.answer .done) unit index hi whole held hf hn)
    · obtain ⟨unit, index, held, whole⟩ := elemValue false u ⟨i.toNat, small⟩
      have eq : flagNat false * 2 ^ 31 + u.val * 2 ^ 24 + i.toNat = off := by simp [off, flagNat]
      simp only [eq] at unit index held whole
      exact makes_elemWrite (b := false) (v := off) rfl eq ht
        (Mach.elemWrite_release (m := s.now.answer .done) unit index hi whole held hn)

end Sys2Proof.Machine
end


section
/-! SUPPORT. Commits of the far dies, live applications of an image, ownership queries and the rest pattern (R34, R56 to R73). -/

namespace Sys2Proof.Machine

variable {m : Mach}

theorem exec_farCommitApply (d : FarDie) (s : State) : exec (.farCommitApply d) s = runUp s (fun m => m.farApply d) := rfl
theorem exec_commitAck (d : FarDie) (s : State) : exec (.commitAck d) s = runUp s (fun m => m.commitAck d) := rfl
theorem exec_commitFault (d : FarDie) (s : State) : exec (.commitFault d) s = runUp s (fun m => m.commitFault d) := rfl
theorem exec_liveVerifyDone (s : State) : exec .liveVerifyDone s = runUp s Mach.liveVerified := rfl
theorem exec_liveStage (s : State) : exec .liveStage s = runUp s Mach.liveStage := rfl
theorem exec_restPatternWrite (ok : Bool) (s : State) : exec (.restPatternWrite ok) s = runP s (fun m => m.latchWrite ok) := rfl

/-! ### Far commits -/

/-- The one acknowledgement that stands out comes. -/
theorem Mach.ackOff_last {d : FarDie} (h : m.stage.ackWait = [dieNo d]) : m.ackOff d = { m with stage := { m.stage with ackWait := [] } } := by
  simp [Mach.ackOff, h]

theorem Mach.farApply_l {es : List Stg} (h : m.stage.shadowL = some es) :
    m.farApply .l = (((({ m with stage := { m.stage with shadowL := none } } : Mach).goneDrop (stgCount (es.filter (·.gone)))).forAll
      (es.filter (!·.gone)) Mach.bring).roleCommit m) := by
  simp only [Mach.farApply, h]

theorem Mach.farApply_p {es : List Stg} (h : m.stage.shadowP = some es) :
    m.farApply .p = (let x := ({ m with stage := { m.stage with shadowP := none } } : Mach).goneDrop (stgCount (es.filter (·.gone)))
      x.commitP (es.filter (!·.gone)) (x.fld Rg.TICK_PERIOD 13 0) x.tickCount) := by
  simp only [Mach.farApply, h]

theorem Mach.commitAck_l (hw : m.stage.ackWait = [1]) (hs : m.stage.shadowL = none) :
    m.commitAck .l = { m with stage := { m.stage with ackWait := [] } } := by
  have last : m.ackOff .l = { m with stage := { m.stage with ackWait := [] } } := Mach.ackOff_last hw
  have taken : ¬ (!m.stage.ackWait.contains (dieNo .l) || m.shadowed .l) = true := by simp [hw, dieNo, Mach.shadowed, hs]
  rw [Mach.commitAck, if_neg taken]
  exact last

theorem Mach.commitAck_p (hw : m.stage.ackWait = [2]) (hs : m.stage.shadowP = none) :
    m.commitAck .p = (({ m with stage := { m.stage with ackWait := [] }, meas := { m.meas with wakeAck := m.meas.wakeNow } } : Mach
      ).gwyAck).sendHeldLane := by
  have last : m.ackOff .p = { m with stage := { m.stage with ackWait := [] } } := Mach.ackOff_last hw
  have taken : ¬ (!m.stage.ackWait.contains (dieNo .p) || m.shadowed .p) = true := by simp [hw, dieNo, Mach.shadowed, hs]
  rw [Mach.commitAck, if_neg taken]
  dsimp only
  rw [last]

theorem Mach.commitFault_l (hw : m.stage.ackWait = [1]) :
    m.commitFault .l = (((({ m with stage := { m.stage with ackWait := [], shadowL := none } } : Mach).bump Rg.TICK_COMMIT_FAULT_CNT).fire
      Rg.TICK_IRQ_STATUS 6).raise 0x105 1) := by
  have last : m.ackOff .l = { m with stage := { m.stage with ackWait := [] } } := Mach.ackOff_last hw
  have taken : ¬ (!m.stage.ackWait.contains (dieNo .l)) = true := by simp [hw, dieNo]
  rw [Mach.commitFault, if_neg taken]
  dsimp only
  rw [last]
  rfl

/-- Settles O20: a far die applies what it holds at the strobe, and its acknowledgement or its fault ends the wait. -/
theorem farCommits : Obligations.FarCommits := by
  unfold Obligations.FarCommits
  intro s hr
  refine ⟨fun es h => ?_, fun es h => ?_, fun h => ?_, fun h => ?_, fun h => ?_⟩
  · exact makes_runUp (exec_farCommitApply .l s) hr (Mach.farApply_l h)
  · exact makes_runUp (exec_farCommitApply .p s) hr (Mach.farApply_p h)
  · exact fun hs => makes_runUp (exec_commitAck .l s) hr (Mach.commitAck_l h hs)
  · exact fun hs => makes_runUp (exec_commitAck .p s) hr (Mach.commitAck_p h hs)
  · exact makes_runUp (exec_commitFault .l s) hr (Mach.commitFault_l h)

/-! ### Live applications -/

theorem Mach.liveCmd_taken {copy : List Byte} {v : Nat} (hv : bitOf v 0 = true) (hl : m.truss.live = none) :
    m.liveCmd copy v = (({ m with truss :=
      { m.truss with live := some { slot := bitsOf v 1 1, delay := bitsOf v 31 16, copy := copy } } } : Mach).setFld Rg.TRUSS_STATUS 2 0 1) := by
  simp [Mach.liveCmd, hv, hl]

theorem Mach.liveCmd_busy {copy : List Byte} {v : Nat} (hv : bitOf v 0 = true) (hl : m.truss.live ≠ none) :
    m.liveCmd copy v = m.fire Rg.TRUSS_IRQ_STATUS 7 := by
  simp [Mach.liveCmd, hv, Option.isSome_iff_ne_none.2 hl]

theorem Mach.liveVerified_waiting {j : LiveJob} (hl : m.truss.live = some j) (hj : j.img = none) (hs : m.fld Rg.TRUSS_STATUS 2 0 = 1) :
    m.liveVerified = m.liveChecked j (m.verify j.copy m.truss.image) := by
  simp [Mach.liveVerified, hl, hj, hs]

theorem Mach.liveChecked_passed {j : LiveJob} {v : Verdict} {i : Image} (h : v.img = some i) :
    m.liveChecked j v = (let x := m.showVerdict v true
      ({ x with truss := { x.truss with live := some { j with img := some i, copy := [], edges := 0, tried := x.inKerf } } } : Mach).setFld
        Rg.TRUSS_STATUS 2 0 2) := by
  simp only [Mach.liveChecked, h]

theorem Mach.liveChecked_failed {j : LiveJob} {v : Verdict} (h : v.img = none) :
    m.liveChecked j v = (let x := m.showVerdict v true
      ((({ x with truss := { x.truss with live := none } } : Mach).setFld Rg.TRUSS_STATUS 2 0 0).journal 0x21 v.code v.detail j.slot).fire
        Rg.TRUSS_IRQ_STATUS 1) := by
  simp only [Mach.liveChecked, h]

section stage
variable {j : LiveJob} {run i : Image} (hl : m.truss.live = some j) (hr : m.truss.image = some run) (hi : j.img = some i)
  (hs : j.staged = false) (ht : j.tried = false) (hd : j.delay ≤ j.edges) (hk : m.inKerf = true)

include hl hr hi hs ht hd hk

/-- In the kerf of its tick a job writes all its values, or waits for another tick, or gives up. -/
theorem Mach.liveStage_due : m.liveStage = match m.liveWriteAll i (liveSections run i) with
    | some x => ({ x with truss := { x.truss with live := some { j with staged := true, tried := true } } } : Mach).setFld Rg.TRUSS_STATUS 2 0 3
    | none =>
      if j.deferrals < 16 then { m with truss := { m.truss with live := some { j with deferrals := j.deferrals + 1, tried := true } } }
      else ((({ m with truss := { m.truss with live := none } } : Mach).setFld Rg.TRUSS_STATUS 2 0 0).journal 0x23 1 i.serial j.slot).fire
        Rg.TRUSS_IRQ_STATUS 2 := by
  have due : ¬ (j.staged || j.tried || !m.inKerf || decide (j.edges < j.delay)) = true := by simp [hs, ht, hd, hk]
  simp only [Mach.liveStage, hl, hr, hi, due]
  rfl

end stage

theorem makes_trussLiveStart {s : State} {init : InitId} {v : Word} {x : Mach}
    (ht : s.now.takes init.toNat Rg.TRUSS_LIVE_CMD v.toNat .TRUSS_LIVE_CMD [] = true)
    (h : (s.now.answer .done).liveCmd (slotBytes s.mem (bitsOf v.toNat 1 1)) v.toNat = x) : Makes (.trussLiveStart init v) s s.mem x := by
  refine makes_memTo (show exec (.trussLiveStart init v) s = runMem s fun mem m => Mach.writeReg mem m init.toNat Rg.TRUSS_LIVE_CMD 4 v.toNat
    from rfl) (writeReg_acts ht fun hit e hn hi ha hv hinit => ?_)
  have low : ¬ 0x42000000 ≤ e.addr := by rw [ha]; decide
  rw [Mach.act, if_neg low]
  simp only [Mach.actModule, hn, hv, h]

/-- Settles O23: a live application is taken and checked, and its values are staged in the kerf of its tick. -/
theorem liveApplications : Obligations.LiveApplications := by
  unfold Obligations.LiveApplications
  intro s
  refine ⟨fun init v ht hv => ⟨fun hl => ?_, fun hl => ?_⟩, fun j hr hl hj hs => ?_, fun j v => ?_, fun j run i hr hl hi hj hs ht hd hk => ?_⟩
  · exact makes_trussLiveStart ht (Mach.liveCmd_taken hv hl)
  · exact makes_trussLiveStart ht (Mach.liveCmd_busy hv hl)
  · exact makes_runUp (exec_liveVerifyDone s) hr (Mach.liveVerified_waiting hl hj hs)
  · exact ⟨fun i hi => Mach.liveChecked_passed hi, fun hi => Mach.liveChecked_failed hi⟩
  · have due := Mach.liveStage_due hl hi hj hs ht hd hk
    refine ⟨fun x hx => ?_, fun hx hm => ?_, fun hx hm => ?_⟩
    · rw [hx] at due
      exact makes_runUp (exec_liveStage s) hr due
    · rw [hx] at due
      exact makes_runUp (exec_liveStage s) hr (due.trans (if_pos hm))
    · rw [hx] at due
      exact makes_runUp (exec_liveStage s) hr (due.trans (if_neg (Nat.not_lt.2 hm)))

/-! ### Owners and the rest pattern -/

/-- An ownership query shows the owner, or the error bit where the resource has none. -/
theorem Mach.ownerAsk_eq (v : Nat) : m.ownerAsk v = (m.wr Rg.TRUSS_OWNER_QUERY v).wr Rg.TRUSS_OWNER_RESULT
    (((m.wr Rg.TRUSS_OWNER_QUERY v).ownerQuery (v / 2 ^ 24) (v % 2 ^ 24)).getD 0x10000) := by
  rw [Mach.ownerAsk]
  cases (m.wr Rg.TRUSS_OWNER_QUERY v).ownerQuery (v / 2 ^ 24) (v % 2 ^ 24) <;> rfl

section latch
variable {p : List RestEnt} (hp : m.truss.latch.handoff = some p) (h0 : m.truss.latch.copy0.good = true)
  (h1 : m.truss.latch.copy1.good = false)

include h0 h1

theorem Mach.latchInUse_first : m.latchInUse = some m.truss.latch.copy0 := by simp [Mach.latchInUse, h0, h1]

theorem Mach.latchTarget_first : m.latchTarget = 1 := by simp [Mach.latchTarget, h0, h1]

include hp

theorem Mach.latchWrite_good : m.latchWrite true = ((({ m with truss := { m.truss with latch :=
    { m.truss.latch with handoff := none, tries := 0, copy1 := ⟨(m.truss.latch.copy0.seq + 1) % 2 ^ 32, true, p⟩ } } } : Mach).showLatch).showStore) := by
  simp [Mach.latchWrite, hp, Mach.latchInUse_first h0 h1, Mach.latchTarget_first h0 h1]

theorem Mach.latchWrite_retry (ht : m.truss.latch.tries = 0) : m.latchWrite false = (({ m with truss := { m.truss with latch :=
    { m.truss.latch with tries := 1, copy1 := ⟨(m.truss.latch.copy0.seq + 1) % 2 ^ 32, false, p⟩ } } } : Mach).showStore) := by
  simp [Mach.latchWrite, hp, Mach.latchInUse_first h0 h1, Mach.latchTarget_first h0 h1, ht]

theorem Mach.latchWrite_givesUp (ht : m.truss.latch.tries ≠ 0) : m.latchWrite false = ((((({ m with truss := { m.truss with latch :=
    { m.truss.latch with handoff := none, tries := 0, copy1 := ⟨(m.truss.latch.copy0.seq + 1) % 2 ^ 32, false, p⟩ } } } : Mach).fire
      Rg.TRUSS_IRQ_STATUS 4).journal 0x33 1 ((m.truss.latch.copy0.seq + 1) % 2 ^ 32)).raise 0x100 1).showStore) := by
  simp [Mach.latchWrite, hp, Mach.latchInUse_first h0 h1, Mach.latchTarget_first h0 h1, ht]

end latch

/-- Settles O24: a query shows the owner or its error bit; the copy not in use is written, tried again, and given up. -/
theorem ownersAndRest : Obligations.OwnersAndRest := by
  unfold Obligations.OwnersAndRest
  intro s
  refine ⟨fun init v ht => ?_, fun p hm hp h0 h1 => ?_⟩
  · intro x
    refine makes_memTo (show exec (.trussOwnerQuery init v) s = runMem s fun mem m => Mach.writeReg mem m init.toNat Rg.TRUSS_OWNER_QUERY 4 v.toNat
      from rfl) (writeReg_acts ht fun hit e hn hi ha hv hinit => ?_)
    have low : ¬ 0x42000000 ≤ e.addr := by rw [ha]; decide
    rw [Mach.act, if_neg low]
    simp only [Mach.actModule, hn, hv, Mach.ownerAsk_eq, x]
  · intro l seq
    exact ⟨makes_runP (exec_restPatternWrite true s) hm (Mach.latchWrite_good hp h0 h1),
      fun ht => makes_runP (exec_restPatternWrite false s) hm (Mach.latchWrite_retry hp h0 h1 ht),
      fun ht => makes_runP (exec_restPatternWrite false s) hm (Mach.latchWrite_givesUp hp h0 h1 ht)⟩

end Sys2Proof.Machine
end


section
/-! SUPPORT. The MAC table: ends of reception, learning, ageing and commands (R197, R198, R205, R207). -/

namespace Sys2Proof.Machine

variable {m : Mach}

theorem exec_frameReceiveEnd (p : Fin 22) (how : RxEnd) (sym c u : Nat) (x : RxStop) (s : State) : exec (.frameReceiveEnd p how sym c u x) s =
    runUp s (fun m => ((m.advance x.lt).lineErrors p sym c u).frameEnd p how x.more) := rfl
theorem exec_learnRequest (s : State) : exec .learnRequest s = runUp s Mach.learnOne := rfl
theorem exec_macAgeOut (x : MacAge) (vid : BitVec 12) (s : State) :
    exec (.macAgeOut x vid) s = runUp s (fun m => (m.advance x.lt).ageOut x.mac.toNat vid.toNat) := rfl
theorem exec_macCmdDone (s : State) : exec .macCmdDone s = runUp s Mach.macFinish := rfl
theorem exec_downPortMacPurge (p : Fin 22) (s : State) : exec (.downPortMacPurge p) s = runUp s (fun m => m.purgeMacs p) := rfl

/-! ### Ends of reception -/

/-- Nothing is dropped where no frame is selected. -/
theorem Mach.dropUnsent_none {sel : Frame → Bool} (h : ∀ f ∈ m.swc.frames, sel f = false) : m.dropUnsent sel = m := by
  have empty : (m.swc.frames.filter fun f => sel f && !f.refs.any (m.begun f.id)) = [] := by
    refine List.filter_eq_nil_iff.2 fun f hf => ?_
    simp [h f hf]
  rw [Mach.dropUnsent, empty]
  rfl

theorem Mach.requestLearn_room {mac vid p : Nat} (ho : m.engineOff 0 = false) (hl : m.swc.learn.length < 256) :
    m.requestLearn mac vid p = m.modSwc fun x => { x with learn := x.learn ++ [(mac, vid, p)] } := by
  simp [Mach.requestLearn, ho, Nat.not_le.mpr hl]

section receive
variable {p mac vid i : Nat} {more : Bool} (hx : m.swc.rx = [⟨p, [i], some (mac, vid)⟩])

include hx

theorem Mach.receiving_last (how : RxEnd) : m.frameEnd p how more = (m.receiveEnd p how).heardFrame p more := by
  simp [Mach.frameEnd, Mach.receiving, hx]

/-- A frame received well is complete, and its source is to be learned. -/
theorem Mach.receiveEnd_good (hf : ∀ f ∈ m.swc.frames, f.cutAt = none ∧ f.bad = false) (hl : m.swc.learn.length < 256)
    (ho : m.engineOff 0 = false) :
    m.receiveEnd p .good = (m.modSwc fun x =>
      let fs := x.frames.map fun f : Frame => if [i].contains f.id then { f with done := true } else f
      { x with rx := [], learn := x.learn ++ [(mac, vid, p)], frames := fs }).showBuffer := by
  have kept : (m.modSwc fun s => { s with rx := s.rx.filter (·.port != p) }).dropUnsent (fun f => [i].contains f.id && f.cutAt.isSome) =
      m.modSwc fun s => { s with rx := s.rx.filter (·.port != p) } :=
    Mach.dropUnsent_none fun f hm => by simp [(hf f hm).1]
  have good : (m.swc.frames.filter fun f => [i].contains f.id).any (·.bad) = false := by
    rw [List.any_eq_false]
    intro f hm
    simp [(hf f (List.mem_filter.1 hm).1).2]
  have swc (g : SwcSt → SwcSt) : (m.modSwc g).swc = g m.swc := rfl
  simp only [Mach.receiveEnd, hx, List.find?_cons, beq_self_eq_true, kept, swc, good, if_true, Bool.false_eq_true, if_false]
  rw [Mach.requestLearn_room]
  case ho => exact ho
  case hl => exact hl
  simp [Mach.modSwc, hx]

/-- A frame that ends badly before any of it is stored leaves nothing. -/
theorem Mach.receiveEnd_bad {how : RxEnd} (hh : how ≠ .good) (hf : m.swc.frames = []) :
    m.receiveEnd p how = (m.modSwc fun x => { x with rx := [] }).showBuffer := by
  have kept : (m.modSwc fun s => { s with rx := s.rx.filter (·.port != p) }).dropUnsent (fun f => [i].contains f.id && f.cutAt.isSome) =
      m.modSwc fun s => { s with rx := s.rx.filter (·.port != p) } :=
    Mach.dropUnsent_none fun f hm => by
      have nil : f ∈ m.swc.frames := hm
      simp [hf] at nil
  have none : ((m.modSwc fun s => { s with rx := s.rx.filter (·.port != p) }).swc.frames.filter fun f => [i].contains f.id) = [] := by
    simp [Mach.modSwc, hf]
  have bad : (how == RxEnd.good) = false := by simp [hh]
  simp only [Mach.receiveEnd, hx, List.find?_cons, beq_self_eq_true, kept, none, bad]
  simp [Mach.modSwc, Mach.forAll, hx, hf]

end receive

/-! ### Learning, ageing, purges -/

section learn
variable {mac vid p : Nat} {rest : List (Nat × Nat × Nat)} (hl : m.swc.learn = (mac, vid, p) :: rest) (ho : m.engineOff 0 = false)

include hl ho

/-- The oldest request leaves its queue and refreshes the entry that it finds, or makes one. -/
theorem Mach.learnOne_oldest : m.learnOne = (let x := m.modSwc fun s => { s with learn := rest }
    match m.macFind mac vid with
    | some e => if e.static then x else x.setMacs (m.swc.macs.map fun y : MacEnt =>
        if y.mac == mac && y.vid == vid then { y with mask := 2 ^ p, fresh := m.clk.lt } else y)
    | none => if 8192 ≤ m.swc.macs.length then x.learnDrop else x.setMacs (m.swc.macs ++ [⟨mac, vid, 2 ^ p, false, m.clk.lt⟩])) := by
  have on : ¬ m.engineOff 0 = true := by simp [ho]
  simp only [Mach.learnOne, hl, if_neg on]
  rfl

end learn

/-- Only the entry named goes, if it is dynamic and has aged. -/
theorem Mach.ageOut_on {mac vid : Nat} (ho : m.engineOff 0 = false) : m.ageOut mac vid =
    m.setMacs (m.swc.macs.filter fun e => !(e.mac == mac && e.vid == vid && !e.static && m.fld Rg.SWC_CTRL 15 0 != 0 &&
      decide (e.fresh + m.fld Rg.SWC_CTRL 15 0 * 1000000000 ≤ m.clk.lt))) := by
  have same (e : MacEnt) : (!(m.aged 1 e && e.mac == mac && e.vid == vid)) = !(e.mac == mac && e.vid == vid && !e.static &&
      m.fld Rg.SWC_CTRL 15 0 != 0 && decide (e.fresh + m.fld Rg.SWC_CTRL 15 0 * 1000000000 ≤ m.clk.lt)) := by
    rw [Mach.aged, Nat.one_mul]
    ac_rfl
  simp only [Mach.ageOut, ho, Bool.false_eq_true, if_false, same]

theorem Mach.purgeMacs_down {p : Nat} (ho : m.engineOff 0 = false) (hp : p ∈ m.swc.purge) : m.purgeMacs p =
    ((m.modSwc fun x => { x with purge := x.purge.filter (· != p) }).setMacs (m.swc.macs.filter fun e => e.static || !bitOf e.mask p)) := by
  simp [Mach.purgeMacs, ho, hp]

/-! ### Commands -/

theorem Mach.macStart_idle {v : Nat} (hr : m.bit Rg.SWC_MAC_RESULT 31 = true) (hv : bitsOf v 1 0 ≠ 0) :
    m.macStart v = ((m.modSwc fun x => { x with cmd := some ⟨bitsOf v 1 0, m.rd Rg.SWC_MAC_ADDR_LO + 2 ^ 32 * m.fld Rg.SWC_MAC_ADDR_HI 15 0,
      m.fld Rg.SWC_MAC_ADDR_HI 27 16, bitsOf v 29 8⟩ }).wr Rg.SWC_MAC_RESULT 0) := by
  simp [Mach.macStart, hr, hv]

theorem makes_macStart {c : Instr} {s : State} {init : InitId} {v : Word} {x : Mach}
    (hc : exec c s = runMem s fun mem m => Mach.writeReg mem m init.toNat Rg.SWC_MAC_CMD 4 v.toNat)
    (ht : s.now.takes init.toNat Rg.SWC_MAC_CMD v.toNat .SWC_MAC_CMD [] = true) (h : (s.now.answer .done).macStart v.toNat = x) :
    Makes c s s.mem x := by
  refine makes_memTo hc (writeReg_acts ht fun hit e hn hi ha hv hinit => ?_)
  have low : ¬ 0x42000000 ≤ e.addr := by rw [ha]; decide
  rw [Mach.act, if_neg low]
  simp only [Mach.actModule, Mach.actCompute, Mach.actComm, hn, hv, h]

theorem noMacError : flagNat false <<< 28 = 0 := rfl

section finish
variable {c : MacCmd} (hc : m.swc.cmd = some c) (ho : m.engineOff 0 = false)

/-- A table command ends: the table it leaves, and what it posts. -/
def Mach.macEnded (m : Mach) (l : List MacEnt) (r : Nat) : Mach :=
  (((m.modSwc fun x => { x with cmd := none }).setMacs l).wr Rg.SWC_MAC_RESULT (2 ^ 31 ||| 0 ||| r)).fire Rg.SWC_IRQ_STATUS 4

/-- The table without the entry that a command names. -/
def Mach.macOthers (m : Mach) (c : MacCmd) : List MacEnt := m.swc.macs.filter fun e => !(e.mac == c.mac && e.vid == c.vid)

include hc ho

theorem Mach.macFinish_add (hop : c.op = 2) (hf : m.macFind c.mac c.vid = none) (hl : m.swc.macs.length < 8192) :
    m.macFinish = m.macEnded (m.macOthers c ++ [⟨c.mac, c.vid, c.mask, true, 0⟩]) 0 := by
  have room : ¬ 8192 ≤ m.swc.macs.length := Nat.not_le.2 hl
  simp [Mach.macFinish, Mach.macEnded, Mach.macOthers, hc, ho, hop, hf, room, noMacError]

theorem Mach.macFinish_lookup {e : MacEnt} (hop : c.op = 1) (hf : m.macFind c.mac c.vid = some e) :
    m.macFinish = m.macEnded m.swc.macs (2 ^ 30 ||| flagNat e.static <<< 29 ||| e.mask) := by
  simp [Mach.macFinish, Mach.macEnded, hc, ho, hop, hf, noMacError]

theorem Mach.macFinish_delete {e : MacEnt} (hop : c.op = 3) (hf : m.macFind c.mac c.vid = some e) :
    m.macFinish = m.macEnded (m.macOthers c) (2 ^ 30 ||| flagNat e.static <<< 29 ||| e.mask) := by
  simp [Mach.macFinish, Mach.macEnded, Mach.macOthers, hc, ho, hop, hf, noMacError]

end finish

/-- Settles O27: what the table learns, loses, and posts for a command. -/
theorem macTable : Obligations.MacTable := by
  unfold Obligations.MacTable
  intro s hr ho
  refine ⟨?_, fun mac vid p rest hl => ?_, fun mac vid lt => ?_, fun init v ht hb => ?_, fun c hc => ?_, fun p hp => ?_⟩
  · intro p sym c u lt mac vid i how more m hx hf
    refine ⟨fun hh hl hm => ?_, fun hh hn => ?_⟩
    · subst hh
      refine makes_runUp (exec_frameReceiveEnd p .good sym c u ⟨lt, more⟩ s) hr ((Mach.receiving_last hx .good).trans ?_)
      rw [Mach.receiveEnd_good hx hf hl hm]
    · refine makes_runUp (exec_frameReceiveEnd p how sym c u ⟨lt, more⟩ s) hr ((Mach.receiving_last hx how).trans ?_)
      rw [Mach.receiveEnd_bad hx hh hn]
  · intro m
    have oldest := Mach.learnOne_oldest hl ho
    refine ⟨fun hf hlen => ?_, fun e hf hs => ?_, fun hf hlen => ?_⟩
    · rw [hf] at oldest
      exact makes_runUp (exec_learnRequest s) hr (oldest.trans (if_neg (Nat.not_le.2 hlen)))
    · rw [hf] at oldest
      exact makes_runUp (exec_learnRequest s) hr (oldest.trans (if_pos hs))
    · rw [hf] at oldest
      exact makes_runUp (exec_learnRequest s) hr (oldest.trans (if_pos hlen))
  · intro m age hm
    exact makes_runUp (exec_macAgeOut ⟨mac, lt⟩ vid s) hr (Mach.ageOut_on hm)
  · intro c m
    refine ⟨fun hop => ?_, fun hop => ?_, fun hop => ?_⟩
    · exact makes_macStart (c := .macLookup init v) rfl ht (Mach.macStart_idle hb (by omega))
    · exact makes_macStart (c := .macAdd init v) rfl ht (Mach.macStart_idle hb (by omega))
    · exact makes_macStart (c := .macDelete init v) rfl ht (Mach.macStart_idle hb (by omega))
  · intro others ended
    refine ⟨fun hop hf hl => ?_, fun e hop hf => ?_, fun e hop hf => ?_⟩
    · exact makes_runUp (exec_macCmdDone s) hr (Mach.macFinish_add hc ho hop hf hl)
    · exact makes_runUp (exec_macCmdDone s) hr (Mach.macFinish_lookup hc ho hop hf)
    · exact makes_runUp (exec_macCmdDone s) hr (Mach.macFinish_delete hc ho hop hf)
  · exact makes_runUp (exec_downPortMacPurge p s) hr (Mach.purgeMacs_down ho hp)

end Sys2Proof.Machine
end


section
/-! SUPPORT. Frames that leave the switch, ports that go down, gates and elimination (R199 to R214). -/

namespace Sys2Proof.Machine

variable {m : Mach}

theorem exec_frameTransmitStart (p : Fin 22) (t : Nat) (s : State) :
    exec (.frameTransmitStart p t) s = runUp s (fun m => m.transmitStart p t (m.mediumFree p)) := rfl
theorem exec_frameTransmitEnd (p : Fin 22) (n lt : Nat) (s : State) :
    exec (.frameTransmitEnd p n lt) s = runUp s (fun m => m.sendEnd p n lt) := rfl
theorem exec_portDown (p : Fin 22) (s : State) : exec (.portDown p) s = runUp s (fun m => m.portDown p) := rfl
theorem exec_flushComplete (p : Fin 22) (s : State) : exec (.flushComplete p) s = runUp s (fun m => m.flushDone p) := rfl
theorem exec_gateEntryStart (p : Fin 22) (lt : Nat) (s : State) :
    exec (.gateEntryStart p lt) s = runUp s (fun m => (m.advance lt).gateNext p) := rfl
theorem exec_frerHistoryReset (f : Fin 256) (s : State) : exec (.frerHistoryReset f) s = runUp s (fun m => m.frerReset f) := rfl

/-! ### Transmission -/

/-- The machine in which a port chooses its next frame. -/
def Mach.beforeSend (m : Mach) (p t : Nat) : Mach :=
  ((((m.advance t).dropCut t).shapersRun p t).gateDrops p (m.advance t).swc.frames.length).showBuffer

/-- An idle port of the line starts the frame that it selects. -/
theorem Mach.transmitStart_selected {p t : Nat} {f : Frame} {out : List Byte} {g : Mach} (hd : (m.advance t).isDown p = false)
    (he : (m.advance t).portEnabled p = true) (hx : (m.advance t).txOf p = none) (hu : (m.advance t).unitHeld uSWC = false)
    (hf : (m.beforeSend p t).selectFrame p t = some f) (hi : f.tsId = none) (hp : p < 18)
    (hg : (m.beforeSend p t).modSwc (fun x => { x with rr := kput x.rr (Mach.pcKey p f.cls) f.inp }) = g)
    (hs : g.startCopy f p (g.txStamp p t) = (g, some out)) :
    m.transmitStart p t true = g.modSwc fun x => { x with tx := ⟨p, f.id, out, f.cls, [], t⟩ :: x.tx } := by
  have ready : ¬ ((m.advance t).isDown p || !(m.advance t).portEnabled p || ((m.advance t).txOf p).isSome || !true ||
      (m.advance t).unitHeld uSWC) = true := by simp [hd, he, hx, hu]
  have line : ¬ 18 ≤ p := Nat.not_le.2 hp
  rw [Mach.beforeSend] at hf hg
  simp only [Mach.transmitStart, if_neg ready, hf, line, decide_false, Bool.false_and, Bool.false_eq_true, if_false, hg, hs, hi]

/-- The last byte of a complete copy: it is counted, its FCS goes on the line, and its cells return. -/
theorem Mach.transmitEnd_complete {p lt : Nat} {x : TxCur} {f : Frame} (hx : (m.advance lt).txOf p = some x) (hr : x.rings = [])
    (hf : (m.advance lt).frameOf x.id = some f) (hd : f.done = true) (hc : f.ct = false) (hb : f.bad = false) :
    m.transmitEnd p lt = ((((((((m.advance lt).shapersRun p lt).count p 2).count p 3 (x.out.length + 4)).lineEnd p x.out false).dropTx p).release
      f.id p).showBuffer) := by
  simp only [Mach.transmitEnd, hx, hr, hf, hd, hc, hb, List.isEmpty_nil, Bool.not_true, Bool.false_eq_true, if_false]

theorem Mach.lineEnd_good (p : Nat) (b : List Byte) : m.lineEnd p b false =
    m.modSwc fun y => { y with sent := kput y.sent p (b ++ leBytes 4 (Config.crc32 b).toNat) } := by
  simp [Mach.lineEnd, Mach.fcsOf]

/-- A port that is no T1S port has neither collisions nor an opportunity to pass on. -/
theorem Mach.sendEnd_sending {p lt : Nat} {x : TxCur} (hp : portType p ≠ 3) (hx : m.txOf p = some x) (n : Nat) :
    m.sendEnd p n lt = m.transmitEnd p lt := by
  have plca (y : Mach) : y.plcaOk p = false := by simp [Mach.plcaOk, Mach.plcaOn, hp]
  have after (y : Mach) : y.afterFrame p = y := by simp [Mach.afterFrame, plca]
  simp [Mach.sendEnd, hx, hp, after]

/-! ### Ports, gates, elimination -/

theorem Mach.portDown_disabled {p : Nat} (hd : m.isDown p = false) (he : m.portEnabled p = false) : m.portDown p = m.goDown p := by
  simp [Mach.portDown, hd, he]

theorem Mach.flushDone_down {p : Nat} (hf : m.bit (Rg.SWC_PORT_STATUS p) 2 = true) (hd : m.bit (Rg.SWC_PORT_STATUS p) 0 = false) :
    m.flushDone p = (m.setBit (Rg.SWC_PORT_STATUS p) 2 false).fire Rg.SWC_IRQ_STATUS 1 := by
  have still : ((m.setBit (Rg.SWC_PORT_STATUS p) 2 false).fire Rg.SWC_IRQ_STATUS 1).bit (Rg.SWC_PORT_STATUS p) 0 = false := by
    rw [Mach.bit, Mach.rd_fire_other 1 (by simp only [Rg.SWC_PORT_STATUS, Rg.SWC_IRQ_STATUS]; omega)]
    exact (Mach.bit_setBit_other _ false (by decide) (by decide)).trans hd
  simp [Mach.flushDone, hf, still]

theorem Mach.gateNext_due {p : Nat} (hr : (m.gateOf p).running = true) (hc : (m.gateOf p).cur + 1 < (m.gateOf p).list.length)
    (ht : (m.gateOf p).start + sumNat (((m.gateOf p).list.take ((m.gateOf p).cur + 1)).map (·.2)) ≤ m.wtNs + 1) :
    m.gateNext p = (m.shapersRun p m.clk.lt).modGate p fun g => { g with cur := g.cur + 1 } := by
  exact if_pos (by rw [hr, decide_eq_true hc, decide_eq_true ht]; rfl)

/-- Settles O28: the frame that a port selects starts, its last byte counts it, and a port that goes down flushes. -/
theorem framesLeave : Obligations.FramesLeave := by
  unfold Obligations.FramesLeave
  intro s hr
  refine ⟨?_, ?_, fun p hd he => ?_, fun p hf hd => ?_, fun p lt => ?_, fun f hf => ?_⟩
  · intro p t f out m0 m1 m g hd he hx hm hu hf hi hp hs
    refine makes_runUp (exec_frameTransmitStart p t s) hr ?_
    rw [hm]
    exact Mach.transmitStart_selected hd he hx hu hf hi hp rfl hs
  · intro p lt x f hk hp m hx hm hrings hf hd hc hb htx hon r
    refine makes_runUp (exec_frameTransmitEnd p 0 lt s) hr ((Mach.sendEnd_sending hp hx 0).trans ?_)
    rw [Mach.transmitEnd_complete hm hrings hf hd hc hb, Mach.lineEnd_good]
  · exact makes_runUp (exec_portDown p s) hr (Mach.portDown_disabled hd he)
  · exact makes_runUp (exec_flushComplete p s) hr (Mach.flushDone_down hf hd)
  · intro m hg hc ht
    exact makes_runUp (exec_gateEntryStart p lt s) hr (Mach.gateNext_due hg hc ht)
  · exact makes_runUp (exec_frerHistoryReset f s) hr (if_pos hf)

end Sys2Proof.Machine
end


section
/-! SUPPORT. Links, diagnostics and PLCA of the Ethernet ports (R222 to R226, R232, R233). -/

namespace Sys2Proof.Machine

variable {m : Mach}

theorem exec_portLinkUp (p : Fin 22) (s : State) : exec (.portLinkUp p) s = runUpMem s (fun mem m =>
    if 18 ≤ p.val && p.val < 21 then txRings mem (m.linkUpNow p) p (m.linkUpNow p).clk.lt else (mem, m.linkUpNow p)) := rfl
theorem exec_portLinkLoss (p : Fin 22) (s : State) : exec (.portLinkLoss p) s = runUp s (fun m => m.linkLoss p) := rfl
theorem exec_trainingTimeout (p : Fin 18) (s : State) : exec (.trainingTimeout p) s = runUp s (fun m => m.trainTimeout p) := rfl
theorem exec_diagStart (init : InitId) (p : Fin 22) (v : Word) (s : State) :
    exec (.diagStart init p v) s = runMem s (fun mem m => Mach.writeReg mem m init.toNat (Rg.EPORT_DIAG_CMD p) 4 v.toNat) := rfl
theorem exec_diagComplete (p : Fin 22) (code : Fin 5) (e : BitVec 16) (s : State) :
    exec (.diagComplete p code e) s = runUp s (fun m => m.diagEnd p code e.toNat) := rfl
theorem exec_sqiUpdate (p : Fin 22) (q : Fin 8) (s : State) : exec (.sqiUpdate p q) s = runUp s (fun m => m.setSqi p q) := rfl
theorem exec_partnerEnergyChange (p : Fin 22) (on : Bool) (s : State) :
    exec (.partnerEnergyChange p on) s = runUp s (fun m => m.setEnergy p on) := rfl
theorem exec_usxAnWord (p : Fin 22) (up : Bool) (rate : Fin 6) (rem : Bool) (s : State) :
    exec (.usxAnWord p up rate rem) s = runUp s (fun m => m.usxWord p up rate rem) := rfl
theorem exec_plcaBeacon (p : Fin 22) (s : State) : exec (.plcaBeacon p) s = runUp s (fun m => m.beacon p) := rfl
theorem exec_plcaBeaconTimeout (p : Fin 22) (s : State) : exec (.plcaBeaconTimeout p) s = runUp s (fun m => m.beaconTimeout p) := rfl
theorem exec_plcaOpportunityTimeout (p : Fin 22) (s : State) :
    exec (.plcaOpportunityTimeout p) s = runUp s (fun m => m.opportunityEnds p) := rfl
theorem exec_plcaDupEnd (p : Fin 22) (s : State) : exec (.plcaDupEnd p) s = runUp s (fun m => m.dupEnds p) := rfl

/-! ### Links -/

/-- The ports below 12 are T1 ports with a link of their own. -/
theorem portType_t1 {p : Nat} (h : p < 12) : portType p < 3 := by
  simp only [portType, h, if_true]
  split
  · decide
  · split <;> decide

theorem Mach.linkUpNow_t1 {p : Nat} (hp : p < 12) (hs : m.portState p = 2) : m.linkUpNow p = m.enterPort p 3 := by
  have t1 := portType_t1 hp
  have host : portType p ≠ 4 := by omega
  have outer : ¬ 18 ≤ p := by omega
  simp [Mach.linkUpNow, hs, host, outer]

theorem Mach.linkLoss_t1 {p : Nat} (hp : p < 12) (hs : m.portState p = 3) :
    m.linkLoss p = ((m.modPort p fun x => { x with linkLost := true }).bump (Rg.EPORT_LINK_DOWN_CNT p)).enterPort p 2 := by
  have t1 := portType_t1 hp
  have shared : portType p ≠ 3 := by omega
  have gateway : p ≠ 21 := by omega
  have outer : ¬ 18 ≤ p := by omega
  simp [Mach.linkLoss, hs, shared, gateway, outer]

theorem Mach.trainTimeout_t1 {p : Nat} (hp : p < 12) (hs : m.portState p = 2) :
    m.trainTimeout p = ((m.modPort p fun x => { x with trainTimeout := true }).bump (Rg.EPORT_TRAIN_FAIL_CNT p)).showPort p := by
  have t1 := portType_t1 hp
  have shared : portType p ≠ 3 := by omega
  simp [Mach.trainTimeout, hs, shared]

/-! ### Diagnostics -/

theorem Mach.diagStart_default {p v : Nat} (hb : bitOf v 0 = true) (hp : p < 12)
    (hs : m.portState p = 0 ∨ m.portState p = 2 ∨ m.portState p = 3) (hv : bitsOf v 14 8 = 0) :
    m.diagStart p v = (m.modPort p fun x => { x with vf := 68 }).enterPort p 4 := by
  have free : m.portState p ≠ 1 ∧ m.portState p ≠ 4 := by omega
  simp [Mach.diagStart, hb, hv, free, Nat.not_le.mpr hp]

theorem Mach.diagStart_outside {p v : Nat} (hb : bitOf v 0 = true) (hv : 90 < bitsOf v 14 8) :
    m.diagStart p v = m.fire (Rg.EPORT_IRQ_STATUS p) 7 := by
  have zero : bitsOf v 14 8 ≠ 0 := by omega
  simp [Mach.diagStart, hb, zero, hv]

/-- What a diagnostic reports leaves the port's enable. -/
theorem Mach.portEnabled_diag (p x : Nat) :
    ((m.wr (Rg.EPORT_DIAG_RESULT p) x).fire (Rg.EPORT_IRQ_STATUS p) 2).portEnabled p = m.portEnabled p := by
  rw [Mach.portEnabled, Mach.bit, Mach.rd_fire_other 2 (by simp only [Rg.SWC_PORT_CFG, Rg.EPORT_IRQ_STATUS]; omega),
    Mach.rd_wr_other _ x (by simp only [Rg.SWC_PORT_CFG, Rg.EPORT_DIAG_RESULT]; omega)]
  rfl

section diag
variable {p : Nat} (hs : m.portState p = 4) (he : m.portEnabled p = false) (echo : Nat)

include hs he

/-- An open cable: the distance of its echo. -/
theorem Mach.diagEnd_open : m.diagEnd p 2 echo = (((m.wr (Rg.EPORT_DIAG_RESULT p) (echo <<< 16 ||| 2 <<< 13 |||
    min 511 (Mach.distDm (m.port p).vf echo))).fire (Rg.EPORT_IRQ_STATUS p) 2).enterPort p 0) := by
  have off := (Mach.portEnabled_diag (m := m) p (echo <<< 16 ||| 2 <<< 13 ||| min 511 (Mach.distDm (m.port p).vf echo))).trans he
  have busy : ¬ (m.portState p != 4) = true := by simp [hs]
  simp only [Mach.diagEnd, if_neg busy, beq_self_eq_true, Bool.true_or, if_true, off, Bool.false_eq_true, if_false]

/-- A cable without fault has no distance. -/
theorem Mach.diagEnd_good : m.diagEnd p 1 echo =
    (((m.wr (Rg.EPORT_DIAG_RESULT p) (1 <<< 13)).fire (Rg.EPORT_IRQ_STATUS p) 2).enterPort p 0) := by
  have off := (Mach.portEnabled_diag (m := m) p (1 <<< 13)).trans he
  have busy : ¬ (m.portState p != 4) = true := by simp [hs]
  have near : (1 == 2 || 1 == 3) = false := rfl
  have shown : 0 <<< 16 ||| 1 <<< 13 ||| 0 = 1 <<< 13 := rfl
  simp only [Mach.diagEnd, if_neg busy, near, shown, off, Bool.false_eq_true, if_false]

end diag

/-- The index of a port's diagnostic command. -/
theorem hit_EPORT_DIAG_CMD {p : Fin 22} {h : Hit} {ms : List Nat} (hp : p.val < 12) (hr : resolve (Rg.EPORT_DIAG_CMD p) 4 = some (.reg h ms)) :
    h.idx = [p.val] := by
  have found : ∀ p : Fin 12, hasIndex (Rg.EPORT_DIAG_CMD p) [p.val] = true := by decide +kernel
  exact idx_of_resolve (by simp only [Rg.EPORT_DIAG_CMD]; omega) hr (found ⟨p.val, hp⟩)

theorem makes_diagStart {s : State} {init : InitId} {p : Fin 22} {v : Word} {e : Stg} {x : Mach} (hp : p.val < 12)
    (ht : s.now.takesFar init.toNat (Rg.EPORT_DIAG_CMD p) 4 v.toNat .EPORT_DIAG_CMD = some e) (hb : s.now.lath.bufs = [])
    (h : s.now.diagStart p v.toNat = x) : Makes (.diagStart init p v) s s.mem (x.answer .done) := by
  obtain ⟨hh, ms, hr, hn, ha, hv, -, -, hw⟩ := writeReg_takesFar (mem := s.mem) ht hb
  have low : ¬ 0x42000000 ≤ Rg.EPORT_DIAG_CMD p := by simp only [Rg.EPORT_DIAG_CMD]; omega
  have acts : Mach.act s.mem s.now hh e = (s.mem, x) := by
    simp [Mach.act, ha, low, Mach.actModule, Mach.actCompute, Mach.actComm, hn, hv, hit_EPORT_DIAG_CMD hp hr, h]
  rw [acts] at hw
  exact makes_memTo (exec_diagStart init p v s) hw

/-! ### PLCA -/

section plca
variable {p : Nat} (ho : m.plcaOn p = true)

include ho

theorem Mach.beacon_coordinator (hn : m.plcaNode p = 0) : m.beacon p = (m.modPort p fun x => { x with plcaDup := true }).showPort p := by
  simp [Mach.beacon, ho, hn]

theorem Mach.beacon_node (hn : m.plcaNode p ≠ 0) : m.beacon p = (m.modPort p fun x =>
    { x with plcaFail := false, opp := 0, burst := 0, plca := m.rd (Rg.EPORT_PLCA p) }).showPort p := by
  simp [Mach.beacon, ho, hn]

theorem Mach.beaconTimeout_node (hn : m.plcaNode p ≠ 0) : m.beaconTimeout p = (m.modPort p fun x => { x with plcaFail := true }).showPort p := by
  simp [Mach.beaconTimeout, ho, hn]

/-- An opportunity that the port leaves unused ends where it takes part in the cycle. -/
theorem Mach.opportunityEnds_unused (hk : m.plcaNode p = 0 ∨ (m.port p).plcaFail = false) (hx : m.txOf p = none) (hr : m.receiving p = false) :
    m.opportunityEnds p = m.nextOpportunity p := by
  have ok : m.plcaOk p = true := by simpa [Mach.plcaOk, ho] using hk
  simp [Mach.opportunityEnds, ok, hx, hr]

omit ho in
theorem Mach.nextOpportunity_node (hn : m.plcaNode p ≠ 0) : m.nextOpportunity p = m.modPort p fun x => { x with opp := x.opp + 1, burst := 0 } := by
  simp [Mach.nextOpportunity, hn]

omit ho in
theorem Mach.nextOpportunity_coordinator (hn : m.plcaNode p = 0) : m.nextOpportunity p = m.modPort p fun x =>
    if bitsOf x.plca 15 8 ≤ x.opp + 1 then { x with opp := 0, burst := 0, plca := m.rd (Rg.EPORT_PLCA p), plcaFail := false }
    else { x with opp := x.opp + 1, burst := 0 } := by
  simp [Mach.nextOpportunity, hn]

theorem Mach.shared_of_plcaOn : (portType p == 3) = true := (Bool.and_eq_true_iff.1 ho).1

theorem Mach.mediumFree_outside (hn : m.plcaNode p ≠ 0) (hf : (m.port p).plcaFail = true) : m.mediumFree p = !m.receiving p := by
  simp [Mach.mediumFree, Mach.shared_of_plcaOn ho, Mach.plcaOk, hn, hf]

theorem Mach.mediumFree_inCycle (hf : (m.port p).plcaFail = false) :
    m.mediumFree p = (!m.receiving p && (m.port p).opp == m.plcaNode p) := by
  simp [Mach.mediumFree, Mach.shared_of_plcaOn ho, Mach.plcaOk, ho, hf]

end plca

/-- Settles O29: each event of a port's link, diagnostic or PLCA meets the guard of its rule. -/
theorem portLinks : Obligations.PortLinks := by
  unfold Obligations.PortLinks
  intro s hr p
  refine ⟨fun hp hs hu => ?_, fun hp hs => ?_, fun q hq hs => ?_, fun init v e ht hm hb hv hp hs => ⟨fun h => ?_, fun h => ?_⟩,
    fun e hs he => ⟨?_, ?_⟩, fun q hp hs => ?_, fun on => ?_, fun up rate rem ht ho => ?_,
    fun ho => ⟨fun hn => ?_, fun hn => ?_, fun hn => ?_, fun hn hf hx hrx => ?_, fun hn hx hrx => ?_, ?_, fun hn hf => ?_, fun hf => ?_⟩⟩
  · refine makes_upMemTo (exec_portLinkUp p s) hr ?_
    rw [if_neg (by simp; omega), Mach.linkUpNow_t1 hp hs]
  · exact makes_runUp (exec_portLinkLoss p s) hr (Mach.linkLoss_t1 hp hs)
  · exact makes_runUp (exec_trainingTimeout q s) hr (Mach.trainTimeout_t1 hq hs)
  · exact makes_diagStart hp ht hb (Mach.diagStart_default hv hp hs h)
  · exact makes_diagStart hp ht hb (Mach.diagStart_outside hv h)
  · exact makes_runUp (exec_diagComplete p 2 e s) hr (Mach.diagEnd_open hs he e.toNat)
  · exact makes_runUp (exec_diagComplete p 1 e s) hr (Mach.diagEnd_good hs he e.toNat)
  · exact makes_runUp (exec_sqiUpdate p q s) hr (if_pos (by simp [hp, hs]))
  · exact makes_runUp (exec_partnerEnergyChange p on s) hr rfl
  · exact makes_runUp (exec_usxAnWord p up rate rem s) hr (by simp [Mach.usxWord, ht, ho])
  · exact makes_runUp (exec_plcaBeacon p s) hr (Mach.beacon_coordinator ho hn)
  · exact makes_runUp (exec_plcaBeacon p s) hr (Mach.beacon_node ho hn)
  · exact makes_runUp (exec_plcaBeaconTimeout p s) hr (Mach.beaconTimeout_node ho hn)
  · exact makes_runUp (exec_plcaOpportunityTimeout p s) hr
      ((Mach.opportunityEnds_unused ho (.inr hf) hx hrx).trans (Mach.nextOpportunity_node hn))
  · exact makes_runUp (exec_plcaOpportunityTimeout p s) hr
      ((Mach.opportunityEnds_unused ho (.inl hn) hx hrx).trans (Mach.nextOpportunity_coordinator hn))
  · exact makes_runUp (exec_plcaDupEnd p s) hr rfl
  · exact Mach.mediumFree_outside ho hn hf
  · exact Mach.mediumFree_inCycle ho hf

end Sys2Proof.Machine
end


section
/-! SUPPORT. Descriptor rings of the internal ports and the counters of the switch (R217, R228, R229). -/

namespace Sys2Proof.Machine

variable {m : Mach}

theorem exec_ringTailWrite (init : InitId) (p : Fin 22) (r : Fin 8) (tx : Bool) (v : Word) (lt : Nat) (s : State) :
    exec (.ringTailWrite init p r tx v lt) s =
      runMem s (fun mem m => Mach.writeReg mem (m.advance lt) init.toNat (Mach.ringTail p r tx) 4 v.toNat) := rfl
theorem exec_rxRingDeliver (p : Fin 22) (s : State) : exec (.rxRingDeliver p) s = runUpMem s (fun mem m => rxDeliver mem m p) := rfl
theorem exec_rxNobufTimeout (p : Fin 22) (r : Fin 8) (s : State) : exec (.rxNobufTimeout p r) s = runUp s (fun m => m.rxNobuf p r) := rfl
theorem exec_swcCntLoRead (init : InitId) (p : Fin 22) (k : Fin 32) (s : State) :
    exec (.swcCntLoRead init p k) s = run s (fun m => m.readNow init.toNat (Rg.SWC_CNT_LO p k) 4) := rfl

/-! ### Tails -/

/-- The masks of a ring's tail. -/
def TailMasks (d : RegDesc) : Prop :=
  d.writeMask = 0x1FFF ∧ d.maskIf (·.acc == .rw) = 0x1FFF ∧ d.maskIf (·.acc == .w1c) = 0 ∧ d.maskIf (·.acc == .w1s) = 0

/-- The register at an address has the masks of a tail. -/
def isTail (a : Nat) : Bool :=
  match findReg a with
  | some h => h.d.writeMask == 0x1FFF && h.d.maskIf (·.acc == .rw) == 0x1FFF && h.d.maskIf (·.acc == .w1c) == 0 && h.d.maskIf (·.acc == .w1s) == 0
  | none => false

theorem isTail_ring : ∀ (r : Fin 8) (tx : Bool), isTail (Mach.ringTail 18 r tx) = true := by decide +kernel

theorem tailMasks_of_isTail {a : Nat} {h : Hit} (ht : isTail a = true) (hf : findReg a = some h) : TailMasks h.d := by
  simpa [TailMasks, isTail, hf, and_assoc] using ht

/-- A write of a tail stores its 13 bits. -/
theorem fieldsOf_storeBits_tail (old v : Nat) {d : RegDesc} (hd : TailMasks d) : bitsOf (storeBits old v d.writeMask d % 2 ^ 32) 12 0 = v % 8192 := by
  obtain ⟨hm, hw, hc, hs⟩ := hd
  have low : (0x1FFF : Nat) = 2 ^ 13 - 1 := rfl
  refine Nat.eq_of_testBit_eq fun i => ?_
  rw [show (8192 : Nat) = 2 ^ 13 from rfl, Nat.testBit_mod_two_pow, testBit_bitsOf, Nat.testBit_mod_two_pow]
  by_cases h : i < 13
  · have h32 : i < 32 := by omega
    have one : (0x1FFF : Nat).testBit i = true := by rw [low, Nat.testBit_two_pow_sub_one]; simp [h]
    simp [storeBits, hm, hw, hc, hs, testBit_bitsOutside, testBit_mergeBits, h, h32, one]
  · simp [h]

theorem ringTail_below (r : Fin 8) (tx : Bool) : Mach.ringTail 18 r tx < 0x42000000 := by
  cases tx <;> simp only [Mach.ringTail, Rg.EPORT_TX_TAIL, Rg.EPORT_RX_TAIL, if_true, Bool.false_eq_true, if_false] <;> omega

/-- A tail as it is written: the ring is to go on. -/
def Mach.tailSet (h : Hit) (r v : Nat) (tx : Bool) (m : Mach) : Mach :=
  (m.storeReg h (Mach.ringTail 18 r tx) v h.d.writeMask).ringGo 18 r tx

section tail
variable {h : Hit} {r : Fin 8} {tx : Bool} {v : Nat}

theorem Mach.tailSet_fld (hd : TailMasks h.d) (m : Mach) : (Mach.tailSet h r v tx m).fld (Mach.ringTail 18 r tx) 12 0 = v % 8192 := by
  have stored : (Mach.tailSet h r v tx m).rd (Mach.ringTail 18 r tx) = storeBits (m.rd (Mach.ringTail 18 r tx)) v h.d.writeMask h.d % 2 ^ 32 :=
    Mach.rd_wr_same m _ _
  rw [Mach.fld, stored, fieldsOf_storeBits_tail _ _ hd]

theorem Mach.tailSet_goes (m : Mach) : (Mach.tailSet h r v tx m).ringStopped 18 r tx = false := by
  simp [Mach.tailSet, Mach.ringStopped, Mach.ringGo]

theorem Mach.tailSet_rd (m : Mach) {a : Nat} (ha : a ≠ Mach.ringTail 18 r tx) : (Mach.tailSet h r v tx m).rd a = m.rd a := Mach.rd_wr_other m _ ha

end tail

/-! ### Frames offered to rings -/

section deliver
variable {x : TxCur} {r : Nat} (ht : m.swc.tx = [x]) (hp : x.port = 18) (hr : x.rings = [r])

include ht hp

theorem Mach.txOf_last : m.txOf 18 = some x := by simp [Mach.txOf, ht, hp]

include hr

/-- The ring that still waits for the frame takes it or does not. -/
theorem rxDeliver_one {mem mem' : Mem} {m' : Mach} {taken : Bool} (hs : m.ringServed 18 r = true)
    (hx : rxRing mem m 18 r x.out = (mem', m', taken)) : rxDeliver mem m 18 = (mem', m'.doIf taken fun y => y.modSwc fun s => { s with
      tx := s.tx.map fun z : TxCur => if z.port == 18 then { z with rings := z.rings.filter (· != r) } else z }) := by
  simp only [rxDeliver, Mach.txOf_last ht hp, hr, List.foldl_cons, List.foldl_nil, hs, Bool.not_true, Bool.false_eq_true, if_false, hx]

/-- A ring that has had no descriptor for too long drops the frame. -/
theorem Mach.rxNobuf_one : m.rxNobuf 18 r =
    (((m.modSwc fun y => { y with tx := [{ x with rings := [] }] }).bump (Rg.EPORT_RX_NOBUF_CNT 18)).ringEvent 18 r 4 2) := by
  simp [Mach.rxNobuf, Mach.txOf_last ht hp, hr, Mach.modSwc, ht, hp]

end deliver

/-! ### Counters -/

/-- The register at an address is the low word of counter `k` of port `p`, which reads whole and which no read clears. -/
def isCounter (a p k : Nat) : Bool :=
  match findReg a with
  | some h => h.idx == [p, k] && Mach.readMask true h.d == 0xFFFFFFFF && h.d.accMask .rc == 0
  | none => false

theorem isCounter_SWC_CNT_LO : ∀ (p : Fin 22) (k : Fin 32), isCounter (Rg.SWC_CNT_LO p k) p k = true := by decide +kernel

theorem coldAt_SWC_CNT_LO : ∀ (p : Fin 22) (k : Fin 32), coldAt (Rg.SWC_CNT_LO p k) < 2 ^ 32 := by decide +kernel

/-- A read of a low word gives it and holds the high word. -/
theorem Mach.readReg_SWC_CNT_LO {h : Hit} {ms : List Nat} {init : Nat} (p : Fin 22) (k : Fin 32)
    (hr : resolve (Rg.SWC_CNT_LO p k) 4 = some (.reg h ms)) (hn : h.d.name = .SWC_CNT_LO) (hh : m.isHeart init = true) :
    m.readReg init (Rg.SWC_CNT_LO p k) h = (m.holdCounter p k, m.rd (Rg.SWC_CNT_LO p k)) := by
  have below : Rg.SWC_CNT_LO p k < 0x42000000 := by simp only [Rg.SWC_CNT_LO]; omega
  obtain ⟨⟨hi, hm⟩, hc⟩ : (h.idx = [p.val, k.val] ∧ Mach.readMask true h.d = 0xFFFFFFFF) ∧ h.d.accMask .rc = 0 := by
    simpa [isCounter, findReg_of_resolve below hr] using isCounter_SWC_CNT_LO p k
  have whole : m.rd (Rg.SWC_CNT_LO p k) &&& 0xFFFFFFFF = m.rd (Rg.SWC_CNT_LO p k) := by
    rw [show (0xFFFFFFFF : Nat) = 2 ^ 32 - 1 from rfl, Nat.and_two_pow_sub_one_eq_mod, Nat.mod_eq_of_lt (Mach.rd_lt (coldAt_SWC_CNT_LO p k))]
  have out : m.inert h (Rg.SWC_CNT_LO p k) = false := by
    have inst : ¬ Rg.SWC_CNT_LO p k < 0x40080000 := by simp only [Rg.SWC_CNT_LO]; omega
    have lin : ¬ 0x41400000 ≤ Rg.SWC_CNT_LO p k := by simp only [Rg.SWC_CNT_LO]; omega
    simp [Mach.inert, hn, inst, lin]
  simp [Mach.readReg, out, hn, hi, hm, hc, hh, Mach.shown, whole]

/-- Settles O30: tails, deliveries and the counters' low words each follow their rule. -/
theorem ringsAndCounters : Obligations.RingsAndCounters := by
  unfold Obligations.RingsAndCounters
  intro s
  refine ⟨fun init r v lt ht => ?_, fun init r v lt ht => ?_, fun p x hr hx he => ?_, fun x r hr ht hp he hs => ⟨fun mem m h => ?_, fun mem m h => ?_, ?_⟩,
    fun init p k hreads hh => ?_⟩
  · obtain ⟨h, e, hn, hi, ha, hv, -, hm, ⟨ms, hres⟩, hw⟩ := writeReg_takes (mem := s.mem) ht
    have masks := tailMasks_of_isTail (isTail_ring r false) (findReg_of_resolve (ringTail_below r false) hres)
    have low : ¬ 0x42000000 ≤ e.addr := by rw [ha]; exact Nat.not_le.2 (ringTail_below r false)
    have acts : Mach.act s.mem ((s.now.advance lt).answer .done) h e = (s.mem, Mach.tailSet h r v.toNat false ((s.now.advance lt).answer .done)) := by
      rw [Mach.act, if_neg low]
      simp only [Mach.actModule, Mach.actCompute, Mach.actComm, hn, hi, ha, hv, hm]
      rfl
    refine makes_does (makes_memTo (exec_ringTailWrite init 18 r false v lt s) (hw.trans acts)) ⟨rfl, ?_, ?_, ?_, fun a hne => ?_⟩
    · simp [Mach.tailSet, Mach.ringGo, Mach.storeReg]
    · exact Mach.tailSet_goes _
    · exact Mach.tailSet_fld masks _
    · exact Mach.tailSet_rd _ hne
  · obtain ⟨h, e, hn, hi, ha, hv, -, hm, ⟨ms, hres⟩, hw⟩ := writeReg_takes (mem := s.mem) ht
    have masks := tailMasks_of_isTail (isTail_ring r true) (findReg_of_resolve (ringTail_below r true) hres)
    have low : ¬ 0x42000000 ≤ e.addr := by rw [ha]; exact Nat.not_le.2 (ringTail_below r true)
    have acts : Mach.act s.mem ((s.now.advance lt).answer .done) h e =
        txKick s.mem ((s.now.advance lt).answer .done) 18 r (Mach.tailSet h r v.toNat true) := by
      rw [Mach.act, if_neg low]
      simp only [Mach.actModule, Mach.actCompute, Mach.actComm, hn, hi, ha, hv, hm]
      rfl
    refine ⟨Mach.tailSet h r v.toNat true, fun y => ⟨Mach.tailSet_fld masks y, Mach.tailSet_goes y, fun a hne => Mach.tailSet_rd y hne⟩, ?_⟩
    exact makes_runMem (exec_ringTailWrite init 18 r true v lt s) (hw.trans acts)
  · refine makes_upMemTo (exec_rxRingDeliver p s) hr ?_
    simp only [rxDeliver, hx, he, List.foldl_nil]
  · refine makes_upMemTo (exec_rxRingDeliver 18 s) hr ((rxDeliver_one ht hp he hs h).trans ?_)
    simp only [Mach.doIf, if_true]
  · refine makes_upMemTo (exec_rxRingDeliver 18 s) hr ((rxDeliver_one ht hp he hs h).trans ?_)
    simp only [Mach.doIf, Bool.false_eq_true, if_false]
  · exact makes_runUp (exec_rxNobufTimeout 18 r s) hr (Mach.rxNobuf_one ht hp he)
  · obtain ⟨h, hres, hn, hl, hnear⟩ := reads_cases hreads
    refine makes_run (exec_swcCntLoRead init p k s) ?_
    simp only [Mach.readNow, hnear, hl, Mach.readAt, Mach.readReg_SWC_CNT_LO p k hres hn hh]
    rfl

end Sys2Proof.Machine
end


section
/-! SUPPORT. LIN frames, sleep and wake (R284 to R288). -/

namespace Sys2Proof.Machine

variable {m : Mach} {c : Nat}

theorem exec_linHeaderStart (x : LinStart) (s : State) : exec (.linHeaderStart x) s = runUp s (fun m => (m.advance x.lt).linHeader x.ch) := rfl
theorem exec_linFrameComplete (c : Fin 12) (err : Fin 6) (x : LinResp) (s : State) : exec (.linFrameComplete c err x) s =
    runUp s (fun m => m.linLive c fun m => (m.linFrame c err x.data x.check).nmLinSlept c) := rfl
theorem exec_linResponseTimeout (c : Fin 12) (s : State) :
    exec (.linResponseTimeout c) s = runUp s (fun m => m.linLive c fun m => m.linNoResponse c) := rfl
theorem exec_linHeaderReceived (c : Fin 12) (i : Fin 64) (brk rate : Nat) (s : State) :
    exec (.linHeaderReceived c i brk rate) s = runUp s (fun m => m.linLive c fun m => m.linHeaderIn c i brk rate) := rfl
theorem exec_linWakePulseEnd (c : Fin 12) (s : State) :
    exec (.linWakePulseEnd c) s = runUp s (fun m => m.linLive c fun m => m.linPulseEnd c) := rfl
theorem exec_linInactivityTimeout (c : Fin 12) (s : State) :
    exec (.linInactivityTimeout c) s = runUp s (fun m => m.linLive c fun m => (m.linIdle c).nmLinSlept c) := rfl
theorem exec_linWakeDetect (c : Fin 12) (us : Nat) (s : State) :
    exec (.linWakeDetect c us) s = runUp s (fun m => m.linLive c fun m => (m.linWake c us).nmLinWoke c) := rfl
theorem exec_linDominantTimeout (c : Fin 12) (s : State) :
    exec (.linDominantTimeout c) s = runUp s (fun m => m.linLive c fun m => m.linDominant c true) := rfl
theorem exec_linBusRecessive (c : Fin 12) (s : State) : exec (.linBusRecessive c) s = runUp s (fun m => m.linDominant c false) := rfl

/-- An event of a channel that is out of reset and has its ball takes its course. -/
theorem Mach.linLive_on (f : Mach → Mach) (hs : m.linState c ≠ 3) (hh : m.elemHeld uLIN c = false) (hd : m.dieHeld .l = false)
    (ho : m.linOff c = false) : m.linLive c f = f m := by
  simp [Mach.linLive, hs, hh, hd, ho]

/-! ### Headers of a commander -/

section header
variable (hs : m.linMaySend c = true) (hr : m.linResponder c = false) (ho : m.linOff c = false)

include hs hr ho

theorem Mach.linHeader_sleep (hq : (m.lch c).sleepReq = true) :
    m.linHeader c = m.modLch c fun x => { x with sleepReq := false, cur := some (m.linBegin c 0x3C true) } := by
  simp [Mach.linHeader, hs, hr, ho, hq]

theorem Mach.linHeader_slot {k : Nat} {t : List Nat} (hq : (m.lch c).sleepReq = false) (hp : (m.lch c).pend = k :: t)
    (ha : m.linAsleep c = false) : m.linHeader c = (m.modLch c fun x =>
      { x with pend := t, cur := some (m.linBegin c (m.fld (Rg.LIN_SLOT c (m.fld (Rg.LIN_STATUS c) 5 4) k) 5 0) false) }).showPend c := by
  simp [Mach.linHeader, hs, hr, ho, hq, hp, ha]

end header

/-! ### The end of a frame -/

section channel
variable (f : LinCh → LinCh) (n : Nat)

/-- What the machine remembers of a channel does not bear on its configuration. -/
theorem Mach.modLch_linDir : (m.modLch c f).linDir c n = m.linDir c n := rfl
theorem Mach.modLch_linLen : (m.modLch c f).linLen c n = m.linLen c n := rfl
theorem Mach.modLch_linCheck (d : List Byte) : (m.modLch c f).linCheck c n d = m.linCheck c n d := rfl
theorem Mach.modLch_linResponder : (m.modLch c f).linResponder c = m.linResponder c := rfl
theorem Mach.modLch_linState : (m.modLch c f).linState c = m.linState c := rfl

end channel

/-- The channel when its frame has ended. -/
def Mach.linEnded (m : Mach) (c : Nat) : Mach := m.modLch c fun x => { x with cur := none }

/-- The channel when it has sent its response. -/
def Mach.linPublished (m : Mach) (c : Nat) (k : LinCur) : Mach :=
  (m.linEnded c).modLch c fun x => { x with sent := k.resp ++ [m.linCheck c k.id k.resp] }

/-- The frame's identifier is one that has a direction only below 62. -/
theorem Mach.id_of_linDir {i : Nat} (h : m.linDir c i ≠ 0) : i < 62 := by
  exact Nat.lt_of_not_le fun hi => h (if_neg (Nat.not_lt.2 hi))

/-- The status of a frame is apart from its configuration. -/
theorem Mach.linLen_status {i v : Nat} (_hi : i < 62) : (m.setFld (Rg.LIN_FRAME_STATUS c i) 31 16 v).linLen c i = m.linLen c i := by
  rw [Mach.linLen, Mach.linLen]
  exact Mach.fld_of_rd (Mach.rd_setFld_other _ _ _ (by simp only [Rg.LIN_FRAME_CFG, Rg.LIN_FRAME_STATUS]; omega)) _ _

section frame
variable {k : LinCur} {data : List Byte} {check : Byte} (hk : (m.lch c).cur = some k)

include hk

theorem Mach.linFrame_sleep (hs : k.sleep = true) : m.linFrame c 0 data check = (m.linPublished c k).linSleep c := by
  simp only [Mach.linFrame, hk, Mach.linCode, Mach.linSent, hs, Bool.or_true, Bool.true_or, if_true, bne_self_eq_false,
    Bool.false_eq_true, if_false, beq_self_eq_true, Mach.modLch_linCheck]
  rfl

section awake
variable (hs : k.sleep = false)

include hs

theorem Mach.linFrame_published (hr : m.linResponder c = false) (hd : m.linDir c k.id = 1) : m.linFrame c 0 data check =
    ((m.linPublished c k).setFld (Rg.LIN_FRAME_STATUS c k.id) 31 16 (m.rd Rg.TICK_COUNT_LO)).linIrq c 0 := by
  have other : (1 == 2) = false := rfl
  have some : (1 == 0) = false := rfl
  simp only [Mach.linFrame, hk, Mach.linCode, Mach.linSent, hs, hr, hd, Mach.modLch_linDir, Mach.modLch_linResponder, Mach.modLch_linCheck,
    Bool.or_true, Bool.false_and, if_true, bne_self_eq_false, Bool.false_eq_true, if_false, beq_self_eq_true, other, some]
  rfl

omit hk in
/-- What a subscribed frame's reception means: too few bytes, a wrong checksum, or none of these. -/
theorem Mach.linCode_subscribed (hd : m.linDir c k.id = 2) : (m.linEnded c).linCode c k 0 data check =
    if data.length < m.linLen c k.id then 5 else if m.linCheck c k.id data ≠ check then 2 else 0 := by
  simp [Mach.linCode, Mach.linEnded, Mach.modLch_linDir, Mach.modLch_linLen, Mach.modLch_linCheck, hs, hd]

theorem Mach.linFrame_received (hr : m.linResponder c = false) (hd : m.linDir c k.id = 2) (hl : m.linLen c k.id ≤ data.length)
    (hc : check = m.linCheck c k.id data) : m.linFrame c 0 data check =
    ((((m.linEnded c).setFld (Rg.LIN_FRAME_STATUS c k.id) 31 16 (m.rd Rg.TICK_COUNT_LO)).modLch c fun x => { x with
      objs := kput x.objs k.id (data.take (m.linLen c k.id)), fresh := k.id :: x.fresh.filter (· != k.id) }).linIrq c 0) := by
  have code := Mach.linCode_subscribed (check := check) (data := data) hs hd
  rw [if_neg (Nat.not_lt.2 hl), if_neg (not_not_intro hc.symm)] at code
  have below : k.id < 62 := Mach.id_of_linDir (m := m) (c := c) (by omega)
  have published : (2 == 1) = false := rfl
  have some : (2 == 0) = false := rfl
  rw [Mach.linEnded] at code ⊢
  simp only [Mach.linFrame, hk, code, Mach.linSent, hs, hr, hd, Mach.modLch_linDir, Mach.modLch_linResponder, published, some,
    Bool.or_false, Bool.false_and, if_true, bne_self_eq_false, Bool.false_eq_true, if_false, beq_self_eq_true, Mach.linLen_status below]
  rfl

theorem Mach.linFrame_error {err code : Nat} (hd : m.linDir c k.id ≠ 0) (hp : err = 0 → m.linDir c k.id ≠ 1)
    (hc : (m.linEnded c).linCode c k err data check = code) (hn : code ≠ 0) :
    m.linFrame c err data check = (m.linEnded c).linError c k.id code := by
  rw [Mach.linEnded] at hc ⊢
  have sent : (if err == 0 then (m.modLch c fun x => { x with cur := none }).linSent c k else m.modLch c fun x => { x with cur := none }) =
      m.modLch c fun x => { x with cur := none } := by
    by_cases h : err = 0
    · simp [h, Mach.linSent, hs, Mach.modLch_linDir, hp h]
    · simp [h]
  simp only [Mach.linFrame, hk, hc, sent]
  simp [hn, Mach.modLch_linDir, hd]

theorem Mach.linNoResponse_awaited (hd : m.linDir c k.id = 2) : m.linNoResponse c = (m.linEnded c).linError c k.id 1 := by
  simp [Mach.linNoResponse, hk, hs, hd, Mach.modLch_linDir, Mach.linEnded]

end awake

theorem Mach.linNoResponse_own (hd : m.linDir c k.id = 1) : m.linNoResponse c = m := by
  simp [Mach.linNoResponse, hk, hd]

end frame

/-! ### Responders, sleep and wake -/

section responder
variable {i brk rate : Nat} (hs : m.linState c = 1) (hr : m.linResponder c = true) (hh : m.elemHeld uLIN c = false)

include hs hr hh

theorem Mach.linHeaderIn_short (hb : brk < 110) : m.linHeaderIn c i brk rate = m.linError c i 6 := by
  simp [Mach.linHeaderIn, hs, hr, hh, hb]

theorem Mach.linHeaderIn_good (hb : 110 ≤ brk) (hl : m.fld (Rg.LIN_CFG c) 31 16 * 85 ≤ rate * 100)
    (hu : rate * 100 ≤ m.fld (Rg.LIN_CFG c) 31 16 * 115) (hd : m.linDir c i ≠ 0) : m.linHeaderIn c i brk rate =
    m.modLch c fun x => { x with cur := some { id := i, rate := rate, t0 := m.clk.lt, resp := if m.linDir c i = 1 then m.linData c i else [] } } := by
  simp [Mach.linHeaderIn, hs, hr, hh, Nat.not_lt.2 hb, Nat.not_lt.2 hl, Nat.not_lt.2 hu, hd]

end responder

theorem Mach.linCmd_sleep (hs : m.linState c = 1) (hr : m.linResponder c = false) :
    m.linCmd c 1 = m.modLch c fun x => { x with sleepReq := true } := by
  have sleep : bitOf 1 0 = true := by decide
  have wake : bitOf 1 1 = false := by decide
  simp [Mach.linCmd, sleep, wake, hs, hr]

theorem Mach.linCmd_wake (hs : m.linState c = 2) : m.linCmd c 2 = m.modLch c fun x => { x with pulse := true } := by
  have sleep : bitOf 2 0 = false := by decide
  have wake : bitOf 2 1 = true := by decide
  simp [Mach.linCmd, sleep, wake, hs]

theorem makes_linCmd {x : Instr} {s : State} {init : InitId} {c : Fin 12} {v : Word} {m : Mach}
    (hx : exec x s = runMem s fun mem m => Mach.writeReg mem m init.toNat (Rg.LIN_CMD c) 4 v.toNat)
    (ht : s.now.takes init.toNat (Rg.LIN_CMD c) v.toNat .LIN_CMD [c.val] = true) (h : (s.now.answer .done).linCmd c v.toNat = m) :
    Makes x s s.mem m := by
  refine makes_memTo hx (writeReg_acts ht fun hit e hn hi ha hv hinit => ?_)
  have low : ¬ 0x42000000 ≤ Rg.LIN_CMD c := by simp only [Rg.LIN_CMD]; omega
  rw [Mach.act, ha, if_neg low]
  simp only [Mach.actModule, Mach.actCompute, Mach.actComm, hn, hi, hv, List.headD_cons, h]

theorem Mach.linPulseEnd_asleep (hs : m.linState c = 2) (hp : (m.lch c).pulse = true) :
    m.linPulseEnd c = (m.modLch c fun x => { x with pulse := false, woke := false }).setLin c 1 := by
  simp [Mach.linPulseEnd, hp, Mach.modLch_linState, hs]

theorem Mach.nmLinWoke_unwoken (h : (m.lch c).woke = false) : m.nmLinWoke c = m := by
  rw [Mach.nmLinWoke]
  split
  · simp [h]
  · rfl

/-- Settles O36: each event of a channel that is out of reset meets the guard of its rule. -/
theorem linFrames : Obligations.LinFrames := by
  unfold Obligations.LinFrames
  intro s c hr hh hd ho m idle
  have live (f : Mach → Mach) (hs : m.linState c ≠ 3) : s.now.linLive c f = f s.now := Mach.linLive_on f hs hh hd ho
  refine ⟨fun lt => ?_, fun k data check hs hk => ?_, fun i brk rate => ?_, fun init => ⟨fun ht hs hc => ?_, fun ht hs => ?_⟩, fun hs hp => ?_,
    fun hs hc => ?_, fun us hs => ⟨fun hl hu => ?_, fun hu hw => ?_⟩, fun hs => ⟨?_, ?_⟩⟩
  · intro a ha hc hb
    exact ⟨fun hq => makes_runUp (exec_linHeaderStart ⟨c, lt⟩ s) hr (Mach.linHeader_sleep ha hc hb hq),
      fun k t hq hp hn => makes_runUp (exec_linHeaderStart ⟨c, lt⟩ s) hr (Mach.linHeader_slot ha hc hb hq hp hn)⟩
  · intro sent
    have on (f : Mach → Mach) : s.now.linLive c f = f s.now := live f (by omega)
    have completes {err : Fin 6} {x : Mach} (h : s.now.linFrame c err data check = x) :
        Makes (.linFrameComplete c err ⟨data, check⟩) s s.mem (x.nmLinSlept c) :=
      makes_runUp (exec_linFrameComplete c err ⟨data, check⟩ s) hr ((on _).trans (congrArg (Mach.nmLinSlept · c) h))
    refine ⟨fun hq => ?_, fun hq hc hv => ?_, fun hq hc hv => ⟨fun hl he => ?_, fun hl => ?_, fun hl he => ?_⟩, fun err he hq hv => ?_, fun hq hv => ?_,
      fun hv => ?_⟩
    · exact completes (Mach.linFrame_sleep hk hq)
    · exact completes (Mach.linFrame_published hk hq hc hv)
    · exact completes (Mach.linFrame_received hk hq hc hv hl he)
    · have code := Mach.linCode_subscribed (check := check) (data := data) hq hv
      exact completes (Mach.linFrame_error hk hq (by omega) (by omega) (code.trans (if_pos hl)) (by decide))
    · have code := Mach.linCode_subscribed (check := check) (data := data) hq hv
      rw [if_neg (Nat.not_lt.2 hl), if_pos he.symm] at code
      exact completes (Mach.linFrame_error hk hq (by omega) (by omega) code (by decide))
    · have code : (s.now.linEnded c).linCode c k err data check = err := if_pos (by simp [he])
      exact completes (Mach.linFrame_error hk hq hv (fun h => absurd h he) code he)
    · exact makes_runUp (exec_linResponseTimeout c s) hr ((on _).trans (Mach.linNoResponse_awaited hk hq hv))
    · exact makes_runUp (exec_linResponseTimeout c s) hr ((on _).trans (Mach.linNoResponse_own hk hv))
  · intro r hs hc
    have on (f : Mach → Mach) : s.now.linLive c f = f s.now := live f (by omega)
    exact ⟨fun hb => makes_runUp (exec_linHeaderReceived c i brk rate s) hr ((on _).trans (Mach.linHeaderIn_short hs hc hh hb)),
      fun hb hl hu hv => makes_runUp (exec_linHeaderReceived c i brk rate s) hr ((on _).trans (Mach.linHeaderIn_good hs hc hh hb hl hu hv))⟩
  · exact makes_linCmd (x := .linGotoSleep init c 1) rfl ht (Mach.linCmd_sleep hs hc)
  · exact makes_linCmd (x := .linWakePulse init c 2) rfl ht (Mach.linCmd_wake hs)
  · exact makes_runUp (exec_linWakePulseEnd c s) hr ((live _ (by omega)).trans (Mach.linPulseEnd_asleep hs hp))
  · have idles : s.now.linIdle c = s.now.linSleep c := if_pos (by simp [show s.now.linResponder c = true from hc, show s.now.linState c = 1 from hs])
    exact makes_runUp (exec_linInactivityTimeout c s) hr ((live _ (by omega)).trans (congrArg (Mach.nmLinSlept · c) idles))
  · have wakes : s.now.linWake c us = (s.now.modLch c fun x => { x with woke := true }).linIrq c 3 :=
      if_pos (by simp [hl, hu, show s.now.linState c = 2 from hs])
    exact makes_runUp (exec_linWakeDetect c us s) hr ((live _ (by omega)).trans (congrArg (Mach.nmLinWoke · c) wakes))
  · have stays : s.now.linWake c us = s.now := if_neg (by simp; omega)
    exact makes_runUp (exec_linWakeDetect c us s) hr
      ((live _ (by omega)).trans ((congrArg (Mach.nmLinWoke · c) stays).trans (Mach.nmLinWoke_unwoken hw)))
  · exact makes_runUp (exec_linDominantTimeout c s) hr (live _ hs)
  · exact makes_runUp (exec_linBusRecessive c s) hr rfl

end Sys2Proof.Machine
end


section
/-! SUPPORT. Requests and timers of network management (R300 to R308, R312). -/

namespace Sys2Proof.Machine

variable {m : Mach}

theorem exec_silenceWaitExpiry (i : Fin 24) (s : State) : exec (.silenceWaitExpiry i) s =
    runUp s (fun m => m.segExpiry i (m.segState i == 3 && !m.segLatch i) (m.seg i).silence (m.segSilenceMs i)) := rfl
theorem exec_ringTimeout (i : Fin 24) (s : State) : exec (.ringTimeout i) s =
    runUp s (fun m => m.segExpiry i (m.ringPhase i 2) (m.seg i).ring (m.segKeepMs i)) := rfl
theorem exec_alivePhaseEnd (i : Fin 24) (s : State) : exec (.alivePhaseEnd i) s =
    runUp s (fun m => m.segExpiry i (m.ringPhase i 1) (m.seg i).alive (4 * m.segHoldMs i)) := rfl
theorem exec_ringHoldExpiry (i : Fin 24) (s : State) : exec (.ringHoldExpiry i) s =
    runUp s (fun m => m.segExpiry i (m.ringPhase i 2 && (m.seg i).tokenHeld) (m.seg i).token (m.segHoldMs i)) := rfl
theorem exec_keepaliveDue (i : Fin 24) (s : State) : exec (.keepaliveDue i) s =
    runUp s (fun m => m.segExpiry i (m.segState i == 2 && m.segPresence i && !m.segLin i) (m.seg i).keep (m.segKeepMs i / 4)) := rfl
theorem exec_wakeHoldExpiry (i : Fin 24) (s : State) : exec (.wakeHoldExpiry i) s =
    runUp s (fun m => m.segExpiry i (m.segState i == 2) (m.seg i).hold (m.segKeepMs i)) := rfl
theorem exec_presenceTimeout (i : Fin 24) (s : State) : exec (.presenceTimeout i) s =
    runUp s (fun m => m.segExpiry i (m.segState i == 2 && (m.segPresence i || m.segLin i)) (m.seg i).pres (m.segKeepMs i)) := rfl

/-! ### Requests -/

theorem makes_nmCtrl {c : Instr} {s : State} {init : InitId} {i : Fin 24} {v : Word} {x : Mach}
    (hc : exec c s = runMem s fun mem m => Mach.writeReg mem m init.toNat (Rg.NM_SEG_CTRL i) 4 v.toNat)
    (ht : s.now.takes init.toNat (Rg.NM_SEG_CTRL i) v.toNat .NM_SEG_CTRL [i.val] = true) (h : (s.now.answer .done).nmCtrl i v.toNat = x) :
    Makes c s s.mem x := by
  refine makes_memTo hc (writeReg_acts ht fun hit e hn hi ha hv hinit => ?_)
  have low : ¬ 0x42000000 ≤ Rg.NM_SEG_CTRL i := by simp only [Rg.NM_SEG_CTRL]; omega
  rw [Mach.act, ha, if_neg low]
  simp only [Mach.actModule, Mach.actCompute, Mach.actComm, hn, hi, hv, List.headD_cons, h]

theorem Mach.nmCtrl_awake (i : Nat) : m.nmCtrl i 1 = ((m.setBit (Rg.NM_SEG_CTRL i) 0 true).setBit (Rg.NM_SEG_CTRL i) 1 true).nmCancel := by
  have awake : bitOf 1 0 = true := by decide
  simp only [Mach.nmCtrl, awake, Bool.true_or, if_true]

theorem Mach.nmCtrl_wake (i : Nat) : m.nmCtrl i 2 = ((m.setBit (Rg.NM_SEG_CTRL i) 0 false).setBit (Rg.NM_SEG_CTRL i) 1 true).nmCancel := by
  have awake : bitOf 2 0 = false := by decide
  have wake : bitOf 2 1 = true := by decide
  simp only [Mach.nmCtrl, awake, wake, Bool.or_true, if_true]

theorem makes_nmLogClear {s : State} {init : InitId} {v : Word} (ht : s.now.takes init.toNat Rg.NM_LOG_CLEAR v.toNat .NM_LOG_CLEAR [] = true)
    (hv : bitOf v.toNat 0 = true) : Makes (.nmLogClear init v) s s.mem (s.now.answer .done).logClear := by
  refine makes_memTo (show exec (.nmLogClear init v) s = runMem s fun mem m => Mach.writeReg mem m init.toNat Rg.NM_LOG_CLEAR 4 v.toNat from rfl)
    (writeReg_acts ht fun hit e hn hi ha he hinit => ?_)
  have low : ¬ 0x42000000 ≤ Rg.NM_LOG_CLEAR := by decide
  rw [Mach.act, ha, if_neg low]
  simp only [Mach.actModule, Mach.actCompute, Mach.actComm, hn, he, hv, if_true]

/-! ### Timers -/

/-- A timer's event is taken exactly where it has run its count of edges. -/
theorem makes_segExpiry {c : Instr} {s : State} {f : Mach → Mach} {i n t : Nat} {on : Bool} (hc : exec c s = runUp s f)
    (hf : f s.now = s.now.segExpiry i on n t) (hr : s.now.rst.cReset = false) (ho : on = true) :
    (s.now.msTicks t ≤ n → Makes c s s.mem ((s.now.segTimers i).showSeg i)) ∧ (n < s.now.msTicks t → Makes c s s.mem s.now) :=
  ⟨fun h => makes_runUp hc hr (hf.trans (if_pos (by simp [ho, h]))), fun h => makes_runUp hc hr (hf.trans (if_neg (by simp [ho, h])))⟩

section ready
variable (i : Nat)

theorem Mach.showReady_rd {a : Nat} (h : a ≠ Rg.NM_SEG_STATUS i) : (m.showReady i).rd a = m.rd a := Mach.rd_setBit_other _ _ h

theorem Mach.showReady_segState : (m.showReady i).segState i = m.segState i := Mach.fld_setFld_other _ _ (by decide) (.inl (by decide)) (by decide)

theorem Mach.showReady_segPhase : (m.showReady i).segPhase i = m.segPhase i := Mach.fld_setFld_other _ _ (by decide) (.inl (by decide)) (by decide)

theorem Mach.showReady_cfg : (m.showReady i).rd (Rg.NM_SEG_CFG i) = m.rd (Rg.NM_SEG_CFG i) :=
  Mach.showReady_rd i (by simp only [Rg.NM_SEG_CFG, Rg.NM_SEG_STATUS]; omega)

theorem Mach.showReady_msTicks (t : Nat) : (m.showReady i).msTicks t = m.msTicks t := by
  rw [Mach.msTicks, Mach.msTicks, Mach.showReady_rd i (by simp only [Rg.TICK_PERIOD, Rg.NM_SEG_STATUS]; omega)]

theorem Mach.showReady_timing : (m.showReady i).rd (Rg.NM_SEG_TIMING i) = m.rd (Rg.NM_SEG_TIMING i) :=
  Mach.showReady_rd i (by simp only [Rg.NM_SEG_TIMING, Rg.NM_SEG_STATUS]; omega)

theorem Mach.showReady_msg : (m.showReady i).rd (Rg.NM_SEG_MSG i) = m.rd (Rg.NM_SEG_MSG i) :=
  Mach.showReady_rd i (by simp only [Rg.NM_SEG_MSG, Rg.NM_SEG_STATUS]; omega)

theorem Mach.showReady_ctrl : (m.showReady i).rd (Rg.NM_SEG_CTRL i) = m.rd (Rg.NM_SEG_CTRL i) :=
  Mach.showReady_rd i (by simp only [Rg.NM_SEG_CTRL, Rg.NM_SEG_STATUS]; omega)

theorem Mach.showReady_segLin : (m.showReady i).segLin i = m.segLin i := by
  rw [Mach.segLin, Mach.segLin, Mach.fld_of_rd (Mach.showReady_cfg i)]

theorem Mach.showReady_segPresence : (m.showReady i).segPresence i = m.segPresence i := by
  rw [Mach.segPresence, Mach.segPresence, Mach.bit, Mach.bit, Mach.showReady_cfg]

theorem Mach.showReady_segKeepMs : (m.showReady i).segKeepMs i = m.segKeepMs i := Mach.fld_of_rd (Mach.showReady_timing i) _ _

theorem Mach.showReady_segSilenceMs : (m.showReady i).segSilenceMs i = m.segSilenceMs i := Mach.fld_of_rd (Mach.showReady_timing i) _ _

theorem Mach.showReady_segHoldMs : (m.showReady i).segHoldMs i = m.segHoldMs i := Mach.fld_of_rd (Mach.showReady_msg i) _ _

theorem Mach.showReady_ownReady : (m.showReady i).ownReady i = m.ownReady i := by
  have hold : ((m.showReady i).seg i).hold = (m.seg i).hold := by simp [Mach.seg, Mach.showReady]
  simp only [Mach.ownReady, Mach.segLatch, Mach.bit, Mach.showReady_ctrl, Mach.showReady_msTicks, Mach.showReady_segKeepMs, hold]

end ready

section timers
variable {i : Nat}

theorem Mach.segTimers_agreed (hs : m.segState i = 3) (hl : m.segLin i = false) (ht : m.msTicks (m.segSilenceMs i) ≤ (m.seg i).silence) :
    m.segTimers i = (m.showReady i).segSleep i := by
  simp [Mach.segTimers, Mach.showReady_segState, Mach.showReady_segLin, Mach.showReady_msTicks, Mach.showReady_segSilenceMs, hs, hl, ht]

section ring
variable {ph : Nat} (hr : m.ringPhase i ph = true)

include hr

theorem Mach.ringPhase_iff : m.segState i = 2 ∧ m.segLin i = false ∧ m.segPresence i = false ∧ m.segPhase i = ph := by
  simpa [Mach.ringPhase, and_assoc] using hr

/-- A ring segment in AWAKE has the timers of its phase. -/
theorem Mach.segTimers_ring : m.segTimers i = (let r := m.showReady i
    if ph == 1 then (if m.msTicks (4 * m.segHoldMs i) ≤ (m.seg i).alive then r.enterRing i else r)
    else if ph == 2 then
      if m.msTicks (m.segKeepMs i) ≤ (m.seg i).ring then ((r.bump (Rg.NM_SEG_RESTART_CNT i)).segIrq i 3).enterAlive i false
      else if (m.seg i).tokenHeld && m.msTicks (m.segHoldMs i) ≤ (m.seg i).token then r.packRing i
      else r
    else r) := by
  obtain ⟨hs, hl, hp, ht⟩ := Mach.ringPhase_iff hr
  simp [Mach.segTimers, Mach.showReady_segState, Mach.showReady_segLin, Mach.showReady_segPresence, Mach.showReady_segPhase,
    Mach.showReady_msTicks, Mach.showReady_segHoldMs, hs, hl, hp, ht]

end ring

section presence
variable (hs : m.segState i = 2) (hl : m.segLin i = false) (hp : m.segPresence i = true)

include hs hl hp

theorem Mach.segTimers_agrees (ho : m.ownReady i = true) (ht : m.msTicks (m.segKeepMs i) ≤ (m.seg i).pres) :
    m.segTimers i = (m.showReady i).agree i := by
  simp [Mach.segTimers, Mach.showReady_segState, Mach.showReady_segLin, Mach.showReady_segPresence, Mach.showReady_ownReady, hs, hl, hp, ho, ht]

theorem Mach.segTimers_keepalive (ho : m.ownReady i = false) (ht : m.msTicks (m.segKeepMs i / 4) ≤ (m.seg i).keep) :
    m.segTimers i = ((m.showReady i).packNm i ((m.showReady i).nmMsg i 2 0xFF false false)).modSeg i fun g => { g with keep := 0 } := by
  simp [Mach.segTimers, Mach.showReady_segState, Mach.showReady_segLin, Mach.showReady_segPresence, Mach.showReady_ownReady,
    Mach.showReady_msTicks, Mach.showReady_segKeepMs, hs, hl, hp, ho, ht]

end presence

end timers

/-- Settles O38: requests set the latch, and each timer acts once it has run. -/
theorem networkManagement : Obligations.NetworkManagement := by
  unfold Obligations.NetworkManagement
  intro s i m ev due
  refine ⟨fun init => ⟨fun ht => ?_, fun ht => ?_, fun v ht hv => ?_⟩, fun hr hs hl => ?_, fun hr hp => ⟨?_, fun hh => ?_⟩, fun hr hp => ?_,
    fun hr hs => ⟨fun hp hl => ?_, ?_, fun hp => ?_⟩, fun m => ?_⟩
  · exact makes_nmCtrl (c := .nmAwakeReq init i 1) rfl ht (Mach.nmCtrl_awake i)
  · exact makes_nmCtrl (c := .nmWakeRequest init i 2) rfl ht (Mach.nmCtrl_wake i)
  · exact makes_nmLogClear ht hv
  · exact makes_segExpiry (exec_silenceWaitExpiry i s) rfl hr (by simp [show s.now.segState i = 3 from hs, show s.now.segLatch i = false from hl])
  · exact makes_segExpiry (exec_ringTimeout i s) rfl hr hp
  · exact makes_segExpiry (exec_ringHoldExpiry i s) rfl hr (Bool.and_eq_true_iff.2 ⟨hp, hh⟩)
  · exact makes_segExpiry (exec_alivePhaseEnd i s) rfl hr hp
  · exact makes_segExpiry (exec_keepaliveDue i s) rfl hr
      (by simp [show s.now.segState i = 2 from hs, show s.now.segPresence i = true from hp, show s.now.segLin i = false from hl])
  · exact makes_segExpiry (exec_wakeHoldExpiry i s) rfl hr (by simp [show s.now.segState i = 2 from hs])
  · exact makes_segExpiry (exec_presenceTimeout i s) rfl hr
      (by simp [show s.now.segState i = 2 from hs, show s.now.segPresence i = true from hp])
  · intro r ms
    refine ⟨fun hs hl ht => Mach.segTimers_agreed hs hl ht, fun hp ht => ?_, fun hp ht => ?_, fun hp hk hh ht => ?_,
      fun hs hl hp ho ht => Mach.segTimers_agrees hs hl hp ho ht, fun hs hl hp ho ht => Mach.segTimers_keepalive hs hl hp ho ht⟩
    · exact (Mach.segTimers_ring hp).trans (if_pos ht)
    · exact (Mach.segTimers_ring hp).trans (if_pos ht)
    · exact (Mach.segTimers_ring hp).trans ((if_neg (Nat.not_le.2 hk)).trans (if_pos (by simp [hh, show m.msTicks _ ≤ _ from ht])))

end Sys2Proof.Machine
end


section
/-! SUPPORT. Requests of the far dies, locked sequences, failing flits and read-ahead (R349 to R353). -/

namespace Sys2Proof.Machine

variable {m : Mach}

theorem exec_farInitiatedRequest (l : Fin 2) (a w : Nat) (wr : Bool) (v : Word) (s : State) :
    exec (.farInitiatedRequest l a w wr v) s = runMem s (fun mem m => farInitiated mem m l a w wr v.toNat) := rfl
theorem exec_lockedSequence (init : InitId) (a w : Nat) (rmw : Bool) (s : State) :
    exec (.lockedSequence init a w rmw) s = runUp s (fun m => m.lockedSeq init.toNat a w rmw) := rfl
theorem exec_flitCrcError (l : Fin 2) (replay : Bool) (s : State) :
    exec (.flitCrcError l replay) s = runUp s (fun m => m.flitError l replay) := rfl
theorem exec_linkRetrainDone (l : Fin 2) (ok : Bool) (s : State) :
    exec (.linkRetrainDone l ok) s = runUp s (fun m => m.retrained l ok) := rfl
theorem exec_readaheadDiscard (ch : Fin 24) (s : State) : exec (.readaheadDiscard ch) s = runUp s (fun m => m.bufDiscard ch true) := rfl

/-! ### Requests of a far die -/

section request
variable {mem : Mem} {l a w v : Nat} (hc : m.rst.cReset = false)

include hc

theorem farInitiated_down (wr : Bool) (hl : m.linkState l ≠ 3) : farInitiated mem m l a w wr v = (mem, m) := by
  simp [farInitiated, hc, hl]

variable (hl : m.linkState l = 3)

include hl

theorem farInitiated_outside (wr : Bool) (ha : Mach.farMayAddress l a = false) :
    farInitiated mem m l a w wr v = (mem, (m.bump (Rg.LATH_XREJ_CNT l)).lathAddr l 5 a) := by
  simp [farInitiated, hc, hl, ha]

variable (ha : Mach.farMayAddress l a = true)

include ha

theorem farInitiated_reads {h : Hit} {n : RegName} (hr : resolve a w = some (.reg h [])) (ht : m.reads (0x60 + l) a w n = true) :
    farInitiated mem m l a w false v = (mem, (m.readReg (0x60 + l) a h).1.answer (.value (m.readReg (0x60 + l) a h).2)) := by
  obtain ⟨x, hx, -, -, near⟩ := reads_cases ht
  cases hx.symm.trans hr
  simp [farInitiated, hc, hl, ha, near, Mach.readAt]

theorem farInitiated_writes {h : Hit} {n : RegName} (hr : resolve a 4 = some (.reg h [])) (ht : m.takes (0x60 + l) a v n h.idx = true) :
    farInitiated mem m l a 4 true v = Mach.act mem (m.answer .done) h
      { addr := a, mask := h.d.writeMask, val := v, init := 0x60 + l, part := m.partOf (0x60 + l), members := [] } := by
  obtain ⟨x, hx, -, -, -, -, near⟩ := takes_cases ht
  cases hx.symm.trans hr
  simp [farInitiated, hc, hl, ha, near]

end request

/-! ### Flits and retrainings -/

/-- The count of a link's replays in a row. -/
def Mach.replaySeen (m : Mach) (l k : Nat) : Mach := m.modLath fun x => { x with replays := x.replays.modify l fun _ => k }

/-- The count of a link's failed retrainings in a row. -/
def Mach.retrainTries (m : Mach) (l k : Nat) : Mach := m.modLath fun x => { x with retrains := x.retrains.modify l fun _ => k }

section flit
variable {l : Nat} (hl : m.linkState l = 3)

include hl

theorem Mach.flitError_first : m.flitError l false = (m.replaySeen l 0).bump (Rg.LATH_REPLAY_CNT l) := by
  simp [Mach.flitError, hl, Mach.replaySeen]

theorem Mach.flitError_again (hn : m.lath.replays.getD l 0 < 3) :
    m.flitError l true = (m.replaySeen l (m.lath.replays.getD l 0 + 1)).bump (Rg.LATH_REPLAY_CNT l) := by
  have up : ¬ (m.linkState l != 3) = true := by simp [hl]
  have few : ¬ 4 ≤ m.lath.replays.getD l 0 + 1 := by omega
  simp only [Mach.flitError, if_neg up, if_true, if_neg few, Mach.replaySeen]

theorem Mach.flitError_fourth (hn : 3 ≤ m.lath.replays.getD l 0) :
    m.flitError l true = ((m.replaySeen l (m.lath.replays.getD l 0 + 1)).setLink l 4).lathIrq l 6 := by
  have up : ¬ (m.linkState l != 3) = true := by simp [hl]
  have many : 4 ≤ m.lath.replays.getD l 0 + 1 := by omega
  simp only [Mach.flitError, if_neg up, if_true, if_pos many, Mach.replaySeen]

end flit

section retrain
variable {l : Nat} (hl : m.linkState l = 4)

include hl

theorem Mach.retrained_good : m.retrained l true = (m.retrainTries l 0).setLink l 3 := by
  have down : ¬ (m.linkState l != 4) = true := by simp [hl]
  simp only [Mach.retrained, if_neg down, if_true, Mach.retrainTries, Nat.zero_mod]

theorem Mach.retrained_failed (hn : m.lath.retrains.getD l 0 < 2) :
    m.retrained l false = (m.retrainTries l (m.lath.retrains.getD l 0 + 1)).lathIrq l 6 := by
  have down : ¬ (m.linkState l != 4) = true := by simp [hl]
  have few : m.lath.retrains.getD l 0 + 1 < 3 := by omega
  simp only [Mach.retrained, if_neg down, Bool.false_eq_true, if_false, if_pos few, Mach.retrainTries, Nat.mod_eq_of_lt few]

theorem Mach.retrained_held (hn : m.lath.retrains.getD l 0 = 2) : m.retrained l false =
    (((((m.retrainTries l 0).setLink l 1).setBit (Rg.LATH_STATUS l) 3 true).lathIrq l 7).raise 0x116 l) := by
  have down : ¬ (m.linkState l != 4) = true := by simp [hl]
  have third : ¬ 2 + 1 < 3 := by omega
  simp only [Mach.retrained, if_neg down, Bool.false_eq_true, if_false, hn, if_neg third, Mach.retrainTries, Nat.mod_self, Nat.reduceAdd]

end retrain

theorem Mach.bufDiscard_silent {ch : Nat} {b : LBuf} (hb : m.lath.bufs = [(ch, b)]) (he : ∀ x ∈ b.held, readEffects x.1 = false) :
    m.bufDiscard ch true = m.modLath fun x => { x with bufs := [] } := by
  have found : kget m.lath.bufs ch = some b := by simp [hb, kget]
  have none : (b.held.filter fun x => readEffects x.1) = [] := List.filter_eq_nil_iff.2 fun x hx => by simp [he x hx]
  simp only [Mach.bufDiscard, found, none, if_true, Mach.forAll, List.foldl_nil]
  simp [Mach.modLath, hb, kdel]

/-- Settles O41: what a far die reaches, and what a link's failures and a discarded buffer do. -/
theorem linkEvents : Obligations.LinkEvents := by
  unfold Obligations.LinkEvents
  intro s hc m
  refine ⟨fun l a w wr v => ⟨fun hl => ?_, fun hl ha => ?_, fun h n hl ha hr ht => ?_, fun h n hl ha hr ht => ?_⟩,
    fun init a w l hl => ⟨?_, ?_⟩, fun l hl => ?_, fun l hl => ?_, fun ch b hb he => ?_⟩
  · exact makes_memTo (exec_farInitiatedRequest l a w wr v s) (farInitiated_down hc wr hl)
  · exact makes_memTo (exec_farInitiatedRequest l a w wr v s) (farInitiated_outside hc hl wr ha)
  · exact makes_memTo (exec_farInitiatedRequest l a w false v s) (farInitiated_reads hc hl ha hr ht)
  · intro y
    exact makes_runMem (exec_farInitiatedRequest l a 4 true v s) (farInitiated_writes hc hl ha hr ht)
  · exact makes_runUp (exec_lockedSequence init a w true s) hc (by simp only [Mach.lockedSeq, hl, if_true]; rfl)
  · exact makes_runUp (exec_lockedSequence init a w false s) hc (by simp only [Mach.lockedSeq, hl, Bool.false_eq_true, if_false]; rfl)
  · intro n seen
    exact ⟨makes_runUp (exec_flitCrcError l false s) hc (Mach.flitError_first hl),
      fun hn => makes_runUp (exec_flitCrcError l true s) hc (Mach.flitError_again hl hn),
      fun hn => makes_runUp (exec_flitCrcError l true s) hc (Mach.flitError_fourth hl hn)⟩
  · intro n tries
    exact ⟨makes_runUp (exec_linkRetrainDone l true s) hc (Mach.retrained_good hl),
      fun hn => makes_runUp (exec_linkRetrainDone l false s) hc (Mach.retrained_failed hl hn),
      fun hn => makes_runUp (exec_linkRetrainDone l false s) hc (Mach.retrained_held hl hn)⟩
  · exact makes_runUp (exec_readaheadDiscard ch s) hc (Mach.bufDiscard_silent hb he)

end Sys2Proof.Machine
end


section
/-! SUPPORT. Delivery, claim and end of interrupts (R364, R410). -/

namespace Sys2Proof.Machine

variable {m : Mach}

theorem exec_irqAssert (n : Fin 1024) (s : State) : exec (.irqAssert n) s = runUp s (fun m => m.irqAssert n) := rfl
theorem exec_irqClaim (init : InitId) (t : Fin 16) (s : State) :
    exec (.irqClaim init t) s = run s (fun m => m.readNow init.toNat (Rg.IRQ_CLAIM t) 4) := rfl

/-! ### Delivery -/

/-- A source that no core takes does nothing. -/
theorem Mach.irqAssert_untaken {n : Nat} (h : m.irqTaken n = false) : m.irqAssert n = m := by
  have rests : m.irqDeliver n = m := by
    rw [Mach.irqDeliver]
    dsimp only
    split
    · rfl
    · exact if_pos (by simp [h])
  simp [Mach.irqAssert, h, rests]

section core
variable {n : Nat} {c : Core} (hc : m.core (coreOfTarget (m.irqTarget n)) = some c)

include hc

/-- A source that is taken reaches its core, a heartwood source by a visit, and ends Doze. -/
theorem Mach.irqAssert_taken (h : m.irqTaken n = true) : m.irqAssert n =
    (let x := m.modCore (coreOfTarget (m.irqTarget n)) fun c => { c with recv := some n }
     let y := if isShared c && m.heartSource n && !c.heartNow then x.startVisit (coreOfTarget (m.irqTarget n)) { byIrq := true } else x
     if m.irqTarget n < 4 then y.dozeExit else y) := by
  have delivered : m.irqDeliver n = (let x := m.modCore (coreOfTarget (m.irqTarget n)) fun c => { c with recv := some n }
      if isShared c && m.heartSource n && !c.heartNow then x.startVisit (coreOfTarget (m.irqTarget n)) { byIrq := true } else x) := by
    rw [Mach.irqDeliver]
    simp only [hc, h, Bool.not_true, Bool.false_eq_true, if_false]
    rfl
  simp only [Mach.irqAssert, h, delivered, Bool.and_true, decide_eq_true_eq]

/-- The priority of the active source that a core serves is not above that of a source that it takes. -/
theorem Mach.irqTaken_outranked {a : Nat} {t : List Nat} (ha : c.active = a :: t) (hp : m.irqPrio n ≤ m.irqPrio a) : m.irqTaken n = false := by
  have outranked : ¬ m.irqPrio a < m.irqPrio n := Nat.not_lt.2 hp
  simp [Mach.irqTaken, hc, ha, outranked]

variable (hr : c.run = true) (hh : c.halted = false) (he : m.irqEnabled n = true) (hp : m.irqPending n = true) (ha : c.active = [])

include hr hh he hp ha

/-- An idle core takes an enabled source as its world allows. -/
theorem Mach.irqTaken_idle : m.irqTaken n =
    (!isShared c || (if m.heartSource n then c.heartNow || m.hwState (c.heart.getD 0) != 3 else !c.heartNow)) := by
  simp [Mach.irqTaken, hc, hr, hh, he, hp, ha]

end core

/-! ### Claim and end -/

theorem hasIndex_IRQ_CLAIM : ∀ t : Fin 16, hasIndex (Rg.IRQ_CLAIM t) [t.val] = true := by decide +kernel

/-- A read of its claim register claims for the target's own core. -/
theorem Mach.readReg_IRQ_CLAIM {h : Hit} {ms : List Nat} (t : Fin 16) (hr : resolve (Rg.IRQ_CLAIM t) 4 = some (.reg h ms))
    (hn : h.d.name = .IRQ_CLAIM) : m.readReg (coreOfTarget t) (Rg.IRQ_CLAIM t) h = m.irqClaimOf t := by
  have below : Rg.IRQ_CLAIM t < 0x42000000 := by simp only [Rg.IRQ_CLAIM]; omega
  have hi : h.idx = [t.val] := idx_of_resolve below hr (hasIndex_IRQ_CLAIM t)
  have out : m.inert h (Rg.IRQ_CLAIM t) = false := by
    have inst : ¬ Rg.IRQ_CLAIM t < 0x40080000 := by simp only [Rg.IRQ_CLAIM]; omega
    have lin : ¬ 0x41400000 ≤ Rg.IRQ_CLAIM t := by simp only [Rg.IRQ_CLAIM]; omega
    simp [Mach.inert, hn, inst, lin]
  simp [Mach.readReg, out, hn, hi]

theorem Mach.irqClaimOf_best {t n : Nat} (h : m.irqBest t = some n) : m.irqClaimOf t =
    (({ m with irq := { m.irq with vec := m.irq.vec.filter (· != n), active := (n, t) :: m.irq.active } } : Mach).modCore (coreOfTarget t)
      fun c => { c with active := n :: c.active, recv := if c.recv == some n then none else c.recv }, n) := by
  unfold Mach.irqClaimOf
  generalize m.irqBest t = best at h
  subst h
  rfl

theorem Mach.irqClaimOf_none {t : Nat} (h : m.irqBest t = none) : m.irqClaimOf t = (m, 0x3FFFFFF) := by
  unfold Mach.irqClaimOf
  generalize m.irqBest t = best at h
  subst h
  rfl

theorem makes_irqClaim {s : State} {init : InitId} {t : Fin 16} {x : Mach} {v : Nat} (ht : s.now.reads init.toNat (Rg.IRQ_CLAIM t) 4 .IRQ_CLAIM = true)
    (hi : init.toNat = coreOfTarget t) (h : s.now.irqClaimOf t = (x, v)) : Makes (.irqClaim init t) s s.mem (x.answer (.value v)) := by
  obtain ⟨hit, hres, hn, hl, hnear⟩ := reads_cases ht
  have read := (Mach.readReg_IRQ_CLAIM (m := s.now) t hres hn).trans h
  rw [← hi] at read
  refine makes_run (exec_irqClaim init t s) ?_
  simp only [Mach.readNow, hnear, hl, Mach.readAt, read]

theorem makes_irqEoi {s : State} {init : InitId} {t : Fin 16} {v : Word} {x : Mach}
    (ht : s.now.takes init.toNat (Rg.IRQ_EOI t) v.toNat .IRQ_EOI [t.val] = true) (h : (s.now.answer .done).irqEnd t (bitsOf v.toNat 25 0) = x) :
    Makes (.irqEoi init t v) s s.mem x := by
  refine makes_memTo (show exec (.irqEoi init t v) s = runMem s fun mem m => Mach.writeReg mem m init.toNat (Rg.IRQ_EOI t) 4 v.toNat from rfl)
    (writeReg_acts ht fun hit e hn hi ha hv hinit => ?_)
  have low : ¬ 0x42000000 ≤ Rg.IRQ_EOI t := by simp only [Rg.IRQ_EOI]; omega
  rw [Mach.act, ha, if_neg low]
  simp only [Mach.actModule, Mach.actCompute, hn, hi, hv, List.headD_cons, h]

/-- Settles O43: a source that its core takes reaches it; a claim answers the best source, and its end ends it. -/
theorem interrupts : Obligations.Interrupts := by
  unfold Obligations.Interrupts
  intro s hr m
  refine ⟨fun n c => ?_, fun init t ht hi => ⟨fun n hb => ?_, fun hb => ?_⟩, fun init t v ht => ?_⟩
  · intro id awake hc hrun hh he hp
    have idle := fun ha => Mach.irqTaken_idle (m := s.now) hc hrun hh he hp ha
    refine ⟨fun ha hs => ?_, fun ha hs hw hn hx => ?_, fun ha hs hw hn => ?_, fun a t ha hl => ?_⟩
    · have taken := Mach.irqAssert_taken (m := s.now) hc ((idle ha).trans (by simp [hs]))
      simp only [hs, Bool.false_and, Bool.false_eq_true, if_false] at taken
      exact makes_runUp (exec_irqAssert n s) hr taken
    · have heart : s.now.heartSource n = true := hw
      have ready : (s.now.hwState (c.heart.getD 0) != 3) = true := bne_iff_ne.2 hx
      have taken := Mach.irqAssert_taken (m := s.now) hc ((idle ha).trans (by simp [heart, hn, ready]))
      simp only [hs, heart, hn, Bool.true_and, Bool.not_false, if_true] at taken
      exact makes_runUp (exec_irqAssert n s) hr taken
    · have sap : s.now.heartSource n = false := hw
      exact makes_runUp (exec_irqAssert n s) hr (Mach.irqAssert_untaken ((idle ha).trans (by simp [hs, sap, hn])))
    · exact makes_runUp (exec_irqAssert n s) hr (Mach.irqAssert_untaken (Mach.irqTaken_outranked hc ha hl))
  · rw [hi]
    exact makes_irqClaim ht hi (Mach.irqClaimOf_best hb)
  · exact makes_irqClaim ht hi (Mach.irqClaimOf_none hb)
  · intro n
    exact ⟨fun hn => makes_irqEoi ht (if_pos (List.contains_iff_mem.2 hn)),
      fun hn => makes_irqEoi ht (if_neg (fun h => hn (List.contains_iff_mem.1 h)))⟩

end Sys2Proof.Machine
end


section
/-! SUPPORT. Checked cores: disagreements, replays, checker faults, plumb tests and the complement domain (R372 to R386). -/

namespace Sys2Proof.Machine

variable {m : Mach}

theorem exec_mismatch (c : Fin 6) (g : Fin 8) (lanes : Word) (pc : BitVec 40) (loads : Bool) (s : State) :
    exec (.mismatch c g lanes pc loads) s = runUp s (fun m => m.disagree c g lanes.toNat pc.toNat loads) := rfl
theorem exec_replayCompare (c : Fin 6) (p : Option Word) (s : State) :
    exec (.replayCompare c p) s = runUp s (fun m => m.replayOk c (p.map (·.toNat))) := rfl
theorem exec_checkerFault (c : Fin 6) (kind : Fin 4) (g : Fin 8) (lanes : Word) (pc : BitVec 40) (both : Bool) (s : State) :
    exec (.checkerFault c kind g lanes pc both) s = runUp s (fun m => m.faultOf c kind g lanes.toNat pc.toNat both) := rfl
theorem exec_plumbTimer (l : List (Fin 6 × Word)) (s : State) : exec (.plumbTimer l) s = runUp s (fun m => m.plumbBoot l) := rfl
theorem exec_csync (init : InitId) (s : State) : exec (.csync init) s = runUp s (fun m => m.csync init.toNat) := rfl
theorem exec_ctest (init : InitId) (gd : Fin 32) (fail : Option (Fin 8 × Word)) (s : State) :
    exec (.ctest init gd fail) s = runUp s (fun m => m.ctest init.toNat gd (fail.map fun x => (x.1.val, x.2.toNat))) := rfl
theorem exec_cinj (init : InitId) (s : State) : exec (.cinj init) s = runUp s (fun m => m.cinj init.toNat) := rfl

/-! ### Disagreements -/

/-- A disagreement seen in RUN: recorded, counted and reported, with the program counter of its instruction. -/
def Mach.mismatchSeen (m : Mach) (c g lanes pc : Nat) : Mach :=
  ((((m.chkRecord c (Mach.groupCause g) g lanes pc 0 false).bump (Rg.CHK_MISMATCH_CNT c)).chkIrq c 0).modChk c
    fun x => { x with dis := 1, pc := pc }).modCore (0x10 + 2 * c) fun x => { x with pc := BitVec.ofNat 40 pc }

/-- What a record writes leaves the core's control register. -/
theorem Mach.chkRecord_ctrl (c cause g lanes pc replays : Nat) (both : Bool) :
    (m.chkRecord c cause g lanes pc replays both).rd (Rg.CHK_CTRL c) = m.rd (Rg.CHK_CTRL c) := by
  rw [Mach.chkRecord]
  split
  · rfl
  · dsimp only
    rw [Mach.rd_wr_other _ _ (by simp only [Rg.CHK_CTRL, Rg.CHK_LANES]; omega),
      Mach.rd_wr64_other _ (by simp only [Rg.CHK_CTRL, Rg.CHK_FAULT_PC_LO]; omega) (by simp only [Rg.CHK_CTRL, Rg.CHK_FAULT_PC_HI]; omega),
      Mach.rd_wr_other _ _ (by simp only [Rg.CHK_CTRL, Rg.CHK_FAULT_INFO]; omega)]

theorem Mach.mismatchSeen_ctrl (c g lanes pc : Nat) : (m.mismatchSeen c g lanes pc).rd (Rg.CHK_CTRL c) = m.rd (Rg.CHK_CTRL c) := by
  have reported : (((m.chkRecord c (Mach.groupCause g) g lanes pc 0 false).bump (Rg.CHK_MISMATCH_CNT c)).chkIrq c 0).rd (Rg.CHK_CTRL c) =
      m.rd (Rg.CHK_CTRL c) := by
    rw [Mach.chkIrq, Mach.rd_fire_other _ (by simp only [Rg.CHK_CTRL, Rg.CHK_IRQ_STATUS]; omega), Mach.bump,
      Mach.rd_wr_other _ _ (by simp only [Rg.CHK_CTRL, Rg.CHK_MISMATCH_CNT]; omega), Mach.chkRecord_ctrl]
  exact reported

/-- A first disagreement replays within the limit, and reacts without one or when a load forbids it. -/
theorem Mach.disagree_run {c g lanes pc : Nat} {loads : Bool} (hs : m.chkState c = 1) (hi : (m.chkOf c).inj = false) :
    m.disagree c g lanes pc loads = (if m.fld (Rg.CHK_CTRL c) 1 0 = 0 ∨ loads = true then (m.mismatchSeen c g lanes pc).chkReact c 0x120
      else (m.mismatchSeen c g lanes pc).setChk c 2) := by
  have counts : ¬ (m.chkState c != 1 && m.chkState c != 2) = true := by simp [hs]
  have first : (1 == 2) = false := rfl
  have limit := Mach.fld_of_rd (Mach.mismatchSeen_ctrl (m := m) c g lanes pc) 1 0
  have within : (m.fld (Rg.CHK_CTRL c) 1 0 == 0 || decide (m.fld (Rg.CHK_CTRL c) 1 0 < 1) || loads) =
      decide (m.fld (Rg.CHK_CTRL c) 1 0 = 0 ∨ loads = true) := by
    cases loads <;> simp
  simp only [Mach.disagree, if_neg counts]
  simp only [hs, hi, first, Bool.false_and, Bool.false_eq_true, if_false, Nat.sub_self, Bool.not_false, Bool.and_true]
  rw [Mach.mismatchSeen] at limit ⊢
  simp only [limit, within, decide_eq_true_eq]

/-! ### Replays, checker faults, plumb tests -/

/-- A replay that agrees: counted and reported, and the core is in RUN again. -/
def Mach.replayed (m : Mach) (c : Nat) : Mach :=
  (((m.modChk c fun x => { x with dis := 0, pc := 0, csync := false }).bump (Rg.CHK_REPLAY_OK_CNT c)).chkIrq c 1).setChk c 1

theorem Mach.replayOk_agrees {c : Nat} (fail : Option Nat) (hs : m.chkState c = 2) : m.replayOk c fail =
    (let x := if (m.chkOf c).csync then (m.replayed c).answer .done else m.replayed c
     (if (m.chkOf c).owed then x.plumb c fail else x).honourHalt (0x10 + 2 * c)) := by
  have replays : ¬ (m.chkState c != 2) = true := by simp [hs]
  rw [Mach.replayOk, if_neg replays]
  rfl

theorem Mach.checkerFault_checked {c cause g lanes pc : Nat} {both : Bool} (hs : m.chkState c = 1 ∨ m.chkState c = 2 ∨ m.chkState c = 4) :
    m.checkerFault c cause g lanes pc both =
      (((m.chkRecord c cause g lanes pc (m.chkOf c).dis both).bump (Rg.CHK_CHECKER_CNT c)).chkIrq c 2).chkReact c 0x121 := by
  have checked : ¬ (m.chkState c == 0 || m.chkState c == 3 || m.chkState c == 5) = true := by
    rcases hs with h | h | h <;> simp [h]
  simp only [Mach.checkerFault, if_neg checked]

theorem Mach.checkerFault_unchecked {c cause g lanes pc : Nat} {both : Bool} (hs : m.chkState c = 0 ∨ m.chkState c = 3 ∨ m.chkState c = 5) :
    m.checkerFault c cause g lanes pc both = m := by
  have unchecked : (m.chkState c == 0 || m.chkState c == 3 || m.chkState c == 5) = true := by
    rcases hs with h | h | h <;> simp [h]
  simp only [Mach.checkerFault, if_pos unchecked]

theorem Mach.plumbBoot_waiting (l : List (Fin 6 × Word)) (ht : m.tick.started = false) : m.plumbBoot l =
    m.forAll (List.range 6) fun m c => if m.chkState c = 1 then m.plumb c (Mach.plumbOf l c) else m := by
  simp [Mach.plumbBoot, ht]

/-- A test that passes moves on to the next group. -/
theorem Mach.plumbGroup_plumb (c : Nat) : (m.plumb c none).plumbGroup c = (m.plumbGroup c + 1) % 8 := by
  have kept (v x : Nat) : bitsOf (withBits v 31 16 x) 2 0 = bitsOf v 2 0 := by
    refine Nat.eq_of_testBit_eq fun i => ?_
    rw [testBit_bitsOf, testBit_bitsOf, testBit_withBits]
    by_cases h : i < 3
    · rw [if_neg (by omega)]
      simp [h, show i < 32 by omega]
    · simp [h]
  have moved (v x : Nat) : bitsOf (withBits v 2 0 x % 2 ^ 32) 2 0 = x % 8 := by
    refine Nat.eq_of_testBit_eq fun i => ?_
    rw [show (8 : Nat) = 2 ^ 3 from rfl, testBit_bitsOf, Nat.testBit_mod_two_pow, Nat.testBit_mod_two_pow, testBit_withBits]
    by_cases h : i < 3
    · rw [if_pos (by omega)]
      simp [h, show i < 32 by omega]
    · simp [h]
  have group (x : Mach) (v : Nat) : ((x.wr (Rg.CHK_PLUMB c) v).modChk c fun x => { x with skips := 0 }).plumbGroup c = bitsOf (v % 2 ^ 32) 2 0 :=
    congrArg (bitsOf · 2 0) (Mach.rd_wr_same x _ _)
  rw [Mach.plumb, group, moved, kept]
  rfl

/-! ### The complement domain -/

theorem complement_eq (x : Word) : ~~~x = -x - 1 := by
  rw [BitVec.neg_eq_not_add]
  exact (BitVec.add_sub_cancel _ _).symm

theorem complement_toInt (x : Word) : (~~~x).toInt = -x.toInt - 1 := by
  have := x.isLt
  simp only [BitVec.toInt_eq_toNat_cond, BitVec.toNat_not]
  split <;> split <;> omega

/-- The complement turns an order about. -/
theorem complement_ult (a b : Word) : (~~~b).ult (~~~a) = a.ult b := by
  have := a.isLt
  have := b.isLt
  simp only [BitVec.ult, BitVec.toNat_not, decide_eq_decide]
  omega

theorem complement_slt (a b : Word) : (~~~b).slt (~~~a) = a.slt b := by
  simp only [BitVec.slt, complement_toInt, decide_eq_decide]
  omega

theorem complement_beq (a b : Word) : (~~~a == ~~~b) = (a == b) := by
  refine Bool.eq_iff_iff.2 ?_
  rw [beq_iff_eq, beq_iff_eq]
  exact ⟨fun h => by rw [← BitVec.not_not (b := a), h, BitVec.not_not], congrArg _⟩

/-- The bits below `n`. -/
theorem getLsbD_below : ∀ n i : Fin 32, (BitVec.twoPow 32 n.val - 1).getLsbD i = decide (i < n) := by decide +kernel

/-- A left shift in the complement domain fills with ones. -/
theorem complement_shl (a : Word) (n : Fin 32) : ((~~~a) <<< n.val) ||| (BitVec.twoPow 32 n.val - 1) = ~~~(a <<< n.val) := by
  ext i hi
  have below := getLsbD_below n ⟨i, hi⟩
  simp only [BitVec.getElem_or, BitVec.getElem_shiftLeft, BitVec.getElem_not]
  rw [← BitVec.getLsbD_eq_getElem (x := BitVec.twoPow 32 n.val - 1), below]
  by_cases h : i < n.val <;> simp [h, Fin.lt_def]

/-- So does a logical right shift. -/
theorem complement_shr (a : Word) (n : Fin 32) : ((~~~a) >>> n.val) ||| ~~~(BitVec.allOnes 32 >>> n.val) = ~~~(a >>> n.val) := by
  have ones (k : Nat) (hk : k < 32) : (BitVec.allOnes 32)[k] = true := BitVec.getElem_allOnes k hk
  generalize BitVec.allOnes 32 = x at ones
  ext i hi
  by_cases h : n.val + i < 32
  · simp [h, ones _ h]
  · simp [BitVec.getLsbD_of_ge _ _ (Nat.not_lt.1 h)]

/-- Each mortise unit computes the complement of the tenon result. -/
theorem mortise_complement (o : CodedOp) (a b : Word) : o.mortise (~~~a) (~~~b) = ~~~(o.tenon a b) := by
  cases o with
  | add => simp only [CodedOp.mortise, CodedOp.tenon, complement_eq]; grind
  | sub => simp only [CodedOp.mortise, CodedOp.tenon, complement_eq]; grind
  | and => exact BitVec.not_and.symm
  | or => exact BitVec.not_or.symm
  | xor =>
    ext i hi
    simp [CodedOp.mortise, CodedOp.tenon]
  | mulLow => simp only [CodedOp.mortise, CodedOp.tenon, complement_eq]; grind
  | shl n => exact complement_shl a n
  | shr n => exact complement_shr a n
  | sar n => exact BitVec.not_sshiftRight.symm
  | unit u => simp [CodedOp.mortise, CodedOp.tenon]

theorem mortise_condition (o : CodedCond) (a b : Word) : o.mortise (~~~a) (~~~b) = !(o.tenon a b) := by
  cases o with
  | below => exact congrArg not (complement_ult a b)
  | less => exact congrArg not (complement_slt a b)
  | equal => exact congrArg not (complement_beq a b)

/-- Every lane agrees exactly where the pair is complementary. -/
theorem lanesOf_eq_zero (x y : Word) : lanesOf x y = 0 ↔ y = ~~~x := by
  rw [lanesOf]
  constructor <;> intro h
  · ext i hi
    have lane : (~~~(x ^^^ y))[i] = (0 : Word)[i] := congrArg (fun v : Word => v[i]) h
    cases hx : x[i] <;> simpa [hx] using lane
  · subst h
    ext i hi
    simp

/-! ### Commands and instructions -/

theorem makes_chkRelease {s : State} {init : InitId} {c : Fin 6} {v : Word} {x : Mach}
    (ht : s.now.takes init.toNat (Rg.CHK_CMD c) v.toNat .CHK_CMD [c.val] = true) (hv : bitOf v.toNat 0 = true)
    (h : (s.now.answer .done).chkRelease c = x) : Makes (.chkRelease init c v) s s.mem x := by
  refine makes_memTo (show exec (.chkRelease init c v) s = runMem s fun mem m => Mach.writeReg mem m init.toNat (Rg.CHK_CMD c) 4 v.toNat from rfl)
    (writeReg_acts ht fun hit e hn hi ha he hinit => ?_)
  have low : ¬ 0x42000000 ≤ Rg.CHK_CMD c := by simp only [Rg.CHK_CMD]; omega
  rw [Mach.act, ha, if_neg low]
  simp only [Mach.actModule, Mach.actCompute, hn, hi, he, hv, List.headD_cons, if_true, h]

theorem Mach.chkRelease_held {c : Nat} (hs : m.chkState c = 3) : m.chkRelease c = ((m.setChk c 0).startCore (0x10 + 2 * c)).showChk := by
  have held : ¬ (m.chkState c != 3) = true := by simp [hs]
  rw [Mach.chkRelease, if_neg held]

theorem Mach.chkRelease_other {c : Nat} (hs : m.chkState c ≠ 3) : m.chkRelease c = m.chkIrq c 5 := if_pos (bne_iff_ne.2 hs)

section coder
variable {id k : Nat} (hk : m.coder id = some k)

include hk

theorem Mach.csync_coder : m.csync id =
    if m.fab.coded && m.chkState k == 2 then m.modChk k fun x => { x with csync := true } else m.answer .done := by
  simp only [Mach.csync, hk]

theorem Mach.ctest_plain (gd : Nat) (fail : Option (Nat × Nat)) (hc : m.fab.coded = false) : m.ctest id gd fail = m.setReg id gd 0xFFFFFFFF := by
  simp [Mach.ctest, hk, hc]

theorem Mach.ctest_passes (gd : Nat) (hc : m.fab.coded = true) : m.ctest id gd none = m.setReg id gd 0 := by simp [Mach.ctest, hk, hc]

theorem Mach.ctest_fails (gd g lanes : Nat) (hc : m.fab.coded = true) :
    m.ctest id gd (some (g, lanes)) = m.checkerFault k 0xA g lanes 0 false := by simp [Mach.ctest, hk, hc]

theorem Mach.cinj_arms (hc : m.fab.coded = true) (hh : m.isHeart id = true) (hb : m.bit (Rg.CHK_CTRL k) 2 = true) :
    m.cinj id = m.modChk k fun x => { x with inj := true } := by simp [Mach.cinj, hk, hc, hh, hb]

end coder

/-- Settles O45: disagreements, replays, faults and tests of a checked core, and the complement domain. -/
theorem checkedCores : Obligations.CheckedCores := by
  unfold Obligations.CheckedCores
  intro s hr m
  refine ⟨fun c g lanes pc loads hs hi => ?_, fun c hs => ?_, fun c kind g lanes pc both => ⟨fun hs => ?_, fun hs => ?_⟩,
    fun l => ⟨fun ht => ?_, fun ht => ?_⟩, fun m c lanes => ⟨rfl, fun _ => Mach.plumbGroup_plumb c⟩,
    fun o k a b => ⟨mortise_complement o a b, mortise_condition k a b, fun x => ?_⟩, fun init c v ht hv => ⟨fun hs => ?_, fun hs => ?_⟩,
    fun init k gd g lanes hk => ⟨fun hc hs => ?_, fun hs => ?_, fun hc => ?_, fun hc => ⟨?_, ?_⟩, fun hc hh hb => ?_⟩⟩
  · intro t
    have run := Mach.disagree_run (m := s.now) (g := g.val) (lanes := lanes.toNat) (pc := pc.toNat) (loads := loads) hs hi
    refine ⟨fun hl hn => ?_, fun hl => ?_⟩
    · exact makes_runUp (exec_mismatch c g lanes pc loads s) hr (run.trans (if_neg (not_or.2 ⟨hl, by simp [hn]⟩)))
    · exact makes_runUp (exec_mismatch c g lanes pc loads s) hr (run.trans (if_pos hl))
  · intro t
    have agrees := fun fail => Mach.replayOk_agrees (m := s.now) fail hs
    refine ⟨fun ho hy => ?_, fun ho hy => ?_, fun p ho hy => ?_⟩
    · refine makes_runUp (exec_replayCompare c none s) hr ((agrees _).trans ?_)
      simp only [show (s.now.chkOf c).owed = false from ho, show (s.now.chkOf c).csync = false from hy, Bool.false_eq_true, if_false]
      rfl
    · refine makes_runUp (exec_replayCompare c none s) hr ((agrees _).trans ?_)
      simp only [show (s.now.chkOf c).owed = false from ho, show (s.now.chkOf c).csync = true from hy, Bool.false_eq_true, if_false, if_true]
      rfl
    · refine makes_runUp (exec_replayCompare c p s) hr ((agrees _).trans ?_)
      simp only [show (s.now.chkOf c).owed = true from ho, show (s.now.chkOf c).csync = false from hy, Bool.false_eq_true, if_false, if_true]
      rfl
  · refine makes_runUp (exec_checkerFault c kind g lanes pc both s) hr ?_
    rw [Mach.faultOf, Mach.checkerFault_checked hs]
    match kind with
    | 0 | 1 | 2 | 3 => rfl
  · exact makes_runUp (exec_checkerFault c kind g lanes pc both s) hr (Mach.checkerFault_unchecked hs)
  · exact makes_runUp (exec_plumbTimer l s) hr (if_pos ht)
  · exact makes_runUp (exec_plumbTimer l s) hr (Mach.plumbBoot_waiting l ht)
  · rw [mortise_complement, lanesOf_eq_zero]
  · exact makes_chkRelease ht hv (Mach.chkRelease_held hs)
  · exact makes_chkRelease ht hv (Mach.chkRelease_other hs)
  · exact makes_runUp (exec_csync init s) hr
      ((Mach.csync_coder hk).trans (if_pos (by simp [hc, hs])))
  · refine makes_runUp (exec_csync init s) hr ((Mach.csync_coder hk).trans (if_neg fun h => ?_))
    obtain ⟨coded, replay⟩ := Bool.and_eq_true_iff.1 h
    exact hs.elim (fun h => by simp [h] at coded) (fun h => h (beq_iff_eq.1 replay))
  · exact makes_runUp (exec_ctest init gd none s) hr (Mach.ctest_plain hk gd none hc)
  · exact makes_runUp (exec_ctest init gd none s) hr (Mach.ctest_passes hk gd hc)
  · exact makes_runUp (exec_ctest init gd (some (g, lanes)) s) hr (Mach.ctest_fails hk gd g lanes.toNat hc)
  · exact makes_runUp (exec_cinj init s) hr (Mach.cinj_arms hk hc hh hb)

end Sys2Proof.Machine
end


section
/-! SUPPORT. World calls and returns, visits that last too long, claims and leases (R407 to R414). -/

namespace Sys2Proof.Machine

variable {m : Mach}

theorem exec_peg (init : InitId) (s : State) : exec (.peg init) s = runUp s (fun m => m.pegMark init.toNat) := rfl
theorem exec_wcall (init : InitId) (gd gs : Fin 32) (s : State) :
    exec (.wcall init gd gs) s = runUpMem s (fun mem m => (mem, Mach.wcall mem m init.toNat gd gs)) := rfl
theorem exec_wret (init : InitId) (gs : Fin 32) (s : State) : exec (.wret init gs) s = runUp s (fun m => m.wret init.toNat gs) := rfl
theorem exec_visitTimeout (init : InitId) (s : State) : exec (.visitTimeout init) s = runUp s (fun m => m.visitOver init.toNat) := rfl
theorem exec_leaseExpiry (k : Fin 4) (s : State) : exec (.leaseExpiry k) s = runUp s (fun m => m.leaseExpires k) := rfl

/-! ### Calls and returns -/

/-- The sapwood bank that a return hands its result to. -/
def handedBack (gd gs : Nat) (d : Core) : List Word :=
  setG (copyArgs d.gHeart d.gSap) gd (if hwUnavailable ≤ (d.gHeart.getD gs 0).toNat then hwBadReturn else (d.gHeart.getD gs 0).toNat)

section running
variable {mem : Mem} {id gd gs : Nat} {c : Core} (hc : m.core id = some c) (hr : c.run = true) (hh : c.halted = false)

include hc hr hh

/-- A core without two worlds has neither instruction. -/
theorem Mach.wcall_plain (hs : Mach.isShared c = false) : Mach.wcall mem m id gd gs = m.modCore id fun c => { c with lastFault := 5 } := by
  simp [Mach.wcall, hc, hr, hh, hs]

theorem Mach.wret_plain (hs : Mach.isShared c = false) : m.wret id gs = m.modCore id fun c => { c with lastFault := 5 } := by
  simp [Mach.wret, hc, hr, hh, hs]

/-- A return hands back the result and goes on in the other world. -/
theorem Mach.wret_visiting {v : Visit} (hs : Mach.isShared c = true) (hi : c.inHeart = true) (hv : c.visit = some v) : m.wret id gs =
    (((m.modCore id fun d =>
      if v.byIrq || v.initial then Mach.backToSap (m.partUp d.sap) d
      else Mach.backToSap (m.partUp d.sap) { d with gSap := handedBack v.gd gs d }).honourHalt id).showChk) := by
  have runs : ¬ (!c.run || c.halted) = true := by simp [hr, hh]
  have visits : ¬ (!Mach.isShared c || !Mach.visiting c) = true := by simp [hs, Mach.visiting, hi, hv]
  simp only [Mach.wret, hc, if_neg runs, if_neg visits]
  rw [hv]
  rfl

section call
variable (hs : Mach.isShared c = true) (hw : c.heartNow = false)

include hs hw

/-- The target of a call lies in an enabled window of the partition. -/
def Mach.inPeg (m : Mach) (p a : Nat) : Bool :=
  (List.range 32).any fun e => bitOf (m.rd (Rg.WORLD_PEG_LO e)) 0 && m.fld (Rg.WORLD_PEG_SIZE e) 19 16 == p &&
    inRange a (m.pegSpan e (m.rd (Rg.WORLD_PEG_LO e))).1 (m.pegSpan e (m.rd (Rg.WORLD_PEG_LO e))).2

theorem Mach.wcall_unavailable (hp : m.hwState (c.heart.getD 0) ≠ 1 ∨ m.partState (c.heart.getD 0) ≠ 2) :
    Mach.wcall mem m id gd gs = m.modCore id fun c => { c with gSap := setG c.gSap gd hwUnavailable } := by
  simp [Mach.wcall, hc, hr, hh, hs, hw, hp]

variable (h1 : m.hwState (c.heart.getD 0) = 1) (h2 : m.partState (c.heart.getD 0) = 2)

include h1 h2

/-- A call of a partition that is ready enters at a PEG inside a window, and faults elsewhere. -/
theorem Mach.wcall_ready : Mach.wcall mem m id gd gs =
    if m.inPeg (c.heart.getD 0) (c.gSap.getD gs 0).toNat && leNat (memRead mem (c.gSap.getD gs 0).toNat 4) == pegWord then
      (m.modCore id fun c => { c with gHeart := copyArgs c.gSap c.gHeart }).startVisit id { gd := gd }
    else ((m.modCore id fun c => { c with lastFault := 4 }).bump Rg.WORLD_PEG_FAULT_CNT).fire Rg.WORLD_IRQ_STATUS 1 := by
  have runs : ¬ (!c.run || c.halted) = true := by simp [hr, hh]
  have calls : ¬ (!Mach.isShared c || c.heartNow) = true := by simp [hs, hw]
  have ready : ¬ (m.hwState (c.heart.getD 0) != 1 || m.partState (c.heart.getD 0) != 2) = true := by simp [h1, h2]
  simp only [Mach.wcall, hc, if_neg runs, if_neg calls, if_neg ready]
  rfl

end call

end running

/-! ### Visits that last too long -/

/-- The machine once a visit's timer has run out: abandoned, counted and reported. -/
def Mach.timedOut (m : Mach) (id : Nat) : Mach := ((m.abandonVisit id).bump Rg.WORLD_TIMEOUT_CNT).fire Rg.WORLD_IRQ_STATUS 2

section timedOut
variable (id : Nat)

theorem Mach.timedOut_rd {a : Nat} (h1 : a ≠ Rg.WORLD_TIMEOUT_CNT) (h2 : a ≠ Rg.WORLD_IRQ_STATUS) : (m.timedOut id).rd a = m.rd a := by
  rw [Mach.timedOut, Mach.rd_fire_other _ h2, Mach.bump, Mach.rd_wr_other _ _ h1]
  rfl

theorem Mach.timedOut_counts : (m.timedOut id).rd Rg.WORLD_TIMEOUT_CNT = satInc 32 (m.rd Rg.WORLD_TIMEOUT_CNT) := by
  rw [Mach.timedOut, Mach.rd_fire_other _ (by decide), Mach.bump, Mach.rd_wr_same, Nat.mod_eq_of_lt (satInc_lt 32 _)]
  rfl

theorem Mach.timedOut_reports : (m.timedOut id).bit Rg.WORLD_IRQ_STATUS 2 = true := Mach.bit_setBit_true _ _ (by decide)

theorem Mach.timedOut_keeps : (m.timedOut id).todo = m.todo ∧ (m.timedOut id).world = m.world := by
  simp [Mach.timedOut, Mach.abandonVisit]

end timedOut

/-- A partition is hung: counted, and in state HUNG. -/
def Mach.hangs (m : Mach) (p : Nat) : Mach :=
  ((m.wr (Rg.WORLD_HW_STATE p) (withBits (m.rd (Rg.WORLD_HW_STATE p)) 31 16 (satInc 16 (bitsOf (m.rd (Rg.WORLD_HW_STATE p)) 31 16)))).setHw p 2
    ).modWorld fun w => { w with hung := if w.hung.contains p then w.hung else p :: w.hung }

theorem Mach.hangs_rd (p : Nat) {a : Nat} (h1 : a ≠ Rg.WORLD_HW_STATE p) (h2 : a ≠ Rg.WORLD_STATUS) : (m.hangs p).rd a = m.rd a :=
  (Mach.rd_setHw 2 h1 h2).trans (Mach.rd_wr_other _ _ h1)

theorem Mach.hangs_hwState {p : Nat} (hp : p < 16) : (m.hangs p).hwState p = 2 := by
  have apart : Rg.WORLD_HW_STATE p ≠ Rg.WORLD_STATUS := by simp only [Rg.WORLD_HW_STATE, Rg.WORLD_STATUS]; omega
  exact (Mach.fld_of_rd (Mach.rd_wr_other _ _ apart) 1 0).trans (Mach.fld_setFld_same _ 2 (by decide) (by decide))

theorem Mach.hangs_keeps (p : Nat) : (m.hangs p).todo = m.todo ∧
    (m.hangs p).world.hung = if m.world.hung.contains p then m.world.hung else p :: m.world.hung := by
  simp [Mach.hangs, Mach.setHw, Mach.showWorld, Mach.modWorld]

/-- A visit of a ready partition that lasts too long hangs it, and it is to restart. -/
theorem Mach.visitOver_ready {id p : Nat} {c : Core} {v : Visit} (hp : p < 16) (hc : m.core id = some c) (hv : c.visit = some v)
    (hh : c.heart = some p) (hi : v.initial = false) (ht : c.halted = false) (hs : m.hwState p = 1) :
    m.visitOver id = ((m.timedOut id).hangs p).push (.partRestart p) := by
  have still : (m.timedOut id).hwState p = 1 := (Mach.fld_of_rd (Mach.timedOut_rd id
    (by simp only [Rg.WORLD_HW_STATE, Rg.WORLD_TIMEOUT_CNT]; omega) (by simp only [Rg.WORLD_HW_STATE, Rg.WORLD_IRQ_STATUS]; omega)) 1 0).trans hs
  have counts : ¬ (v.initial || c.halted) = true := by simp [hi, ht]
  have fresh : ¬ ((m.timedOut id).hwState p == 2 || (m.timedOut id).hwState p == 3) = true := by simp [still]
  have expires : m.visitExpires id = (m.timedOut id).hangs p := by
    rw [Mach.timedOut] at fresh ⊢
    simp only [Mach.visitExpires, hc, hv, hh, if_neg counts, if_neg fresh]
    rfl
  have heart : (m.core id).bind (·.heart) = some p := by rw [hc]; exact hh
  simp only [Mach.visitOver, heart, expires, hs, Mach.hangs_hwState hp]
  rfl

/-! ### Registers of the worlds -/

theorem makes_hwReady {s : State} {init : InitId} {p : Fin 16} {v : Word} {x : Mach}
    (ht : s.now.takes init.toNat (Rg.WORLD_HW_READY p) v.toNat .WORLD_HW_READY [p.val] = true) (h : (s.now.answer .done).hwReady p v.toNat = x) :
    Makes (.worldHwReady init p v) s s.mem x := by
  refine makes_memTo (show exec (.worldHwReady init p v) s = runMem s fun mem m => Mach.writeReg mem m init.toNat (Rg.WORLD_HW_READY p) 4 v.toNat
    from rfl) (writeReg_acts ht fun hit e hn hi ha hv hinit => ?_)
  have low : ¬ 0x42000000 ≤ Rg.WORLD_HW_READY p := by simp only [Rg.WORLD_HW_READY]; omega
  rw [Mach.act, ha, if_neg low]
  simp only [Mach.actModule, Mach.actCompute, hn, hi, hv, List.headD_cons, h]

theorem makes_worldClaim {c : Instr} {s : State} {init : InitId} {k : Fin 4} {v : Word} {x : Mach}
    (hc : exec c s = runMem s fun mem m => Mach.writeReg mem m init.toNat (Rg.WORLD_CLAIM k) 4 v.toNat)
    (ht : s.now.takes init.toNat (Rg.WORLD_CLAIM k) v.toNat .WORLD_CLAIM [k.val] = true)
    (h : (s.now.answer .done).worldClaim init.toNat k v.toNat = x) : Makes c s s.mem x := by
  refine makes_memTo hc (writeReg_acts ht fun hit e hn hi ha hv hinit => ?_)
  have low : ¬ 0x42000000 ≤ Rg.WORLD_CLAIM k := by simp only [Rg.WORLD_CLAIM]; omega
  rw [Mach.act, ha, if_neg low]
  simp only [Mach.actModule, Mach.actCompute, hn, hi, hv, hinit, List.headD_cons, h]

section claim
variable {init k v : Nat}

theorem Mach.worldClaim_holds (hv : bitOf v 0 = true) : m.worldClaim init k v =
    (((m.wr (Rg.WORLD_CLAIM k) (v &&& 0xFFFF0001)).modWorld fun x => { x with lease := kput x.lease k (m.clk.lt + bitsOf v 31 16 * 1000000) }
      ).setFld (Rg.WORLD_CLAIM_LEFT k) 31 28 ((m.partOf init).getD 0)) := by
  have part : ((m.wr (Rg.WORLD_CLAIM k) (v &&& 0xFFFF0001)).modWorld fun x =>
      { x with lease := kput x.lease k (m.clk.lt + bitsOf v 31 16 * 1000000) }).partOf init = m.partOf init := by
    simp [Mach.partOf, Mach.core, Mach.modWorld]
  simp only [Mach.worldClaim, hv, if_true, Mach.wr_clk, part]

theorem Mach.worldClaim_frees (hv : bitOf v 0 = false) : m.worldClaim init k v =
    (m.wr (Rg.WORLD_CLAIM k) (v &&& 0xFFFF0001)).modWorld fun x => { x with lease := kdel x.lease k } := by
  simp only [Mach.worldClaim, hv, Bool.false_eq_true, if_false]

end claim

/-- Settles O47: calls, returns, visits that last too long, and what the worlds' registers do. -/
theorem worlds : Obligations.Worlds := by
  unfold Obligations.Worlds
  intro s hr m
  refine ⟨fun init => makes_runUp (exec_peg init s) hr rfl, fun init gd gs c hc hrun hh => ?_, fun init c v p hc hv hp hi hh hs hn ht => ?_,
    fun init p v ht hv hs => ?_, fun init k v ht => ?_, fun k hk => makes_runUp (exec_leaseExpiry k s) hr (if_pos hk)⟩
  · intro p a
    have calls {x : Mach} (h : Mach.wcall s.mem s.now init.toNat gd gs = x) : Makes (.wcall init gd gs) s s.mem x :=
      makes_upMemTo (exec_wcall init gd gs s) hr (congrArg (Prod.mk s.mem) h)
    refine ⟨fun hs => ⟨calls (Mach.wcall_plain hc hrun hh hs), makes_runUp (exec_wret init gs s) hr (Mach.wret_plain hc hrun hh hs)⟩,
      fun hs hw => ⟨fun hp => calls (Mach.wcall_unavailable hc hrun hh hs hw hp), fun e h1 h2 he hb hz hin hg => ?_, fun h1 h2 hg => ?_⟩,
      fun v hs hi hv => ?_⟩
    · have peg : s.now.inPeg (c.heart.getD 0) (c.gSap.getD gs 0).toNat = true :=
        List.any_eq_true.2 ⟨e, List.mem_range.2 he, by simp only [Bool.and_eq_true, beq_iff_eq]; exact ⟨⟨hb, hz⟩, hin⟩⟩
      exact calls ((Mach.wcall_ready hc hrun hh hs hw h1 h2).trans (if_pos (Bool.and_eq_true_iff.2 ⟨peg, beq_iff_eq.2 hg⟩)))
    · exact calls ((Mach.wcall_ready hc hrun hh hs hw h1 h2).trans (if_neg fun h => hg (beq_iff_eq.1 (Bool.and_eq_true_iff.1 h).2)))
    · intro r g
      refine makes_runUp (exec_wret init gs s) hr ((Mach.wret_visiting hc hrun hh hs hi hv).trans ?_)
      have back : (fun d : Core => if v.byIrq || v.initial then Mach.backToSap (s.now.partUp d.sap) d
          else Mach.backToSap (s.now.partUp d.sap) { d with gSap := handedBack v.gd gs d }) =
          fun d => { d with inHeart := false, visit := none, run := d.sapReady && s.now.partUp d.sap,
                            restartSap := d.restartSap && !s.now.partUp d.sap, gSap := if d.restartSap then noRegs else g d } := by
        funext d
        by_cases h : v.byIrq = true ∨ v.initial = true
        · simp [Mach.backToSap, g, h]
        · simp [Mach.backToSap, handedBack, g, h, r]
      rw [back]
  · obtain ⟨todo, world⟩ := Mach.timedOut_keeps (m := s.now) init.toNat
    obtain ⟨todo', hung⟩ := Mach.hangs_keeps (m := s.now.timedOut init.toNat) p.val
    have other {a : Nat} (h1 : a ≠ Rg.WORLD_HW_STATE p) (h2 : a ≠ Rg.WORLD_STATUS) :
        (((s.now.timedOut init.toNat).hangs p).push (.partRestart p)).rd a = (s.now.timedOut init.toNat).rd a := Mach.hangs_rd p.val h1 h2
    have count := other (a := Rg.WORLD_TIMEOUT_CNT) (by simp only [Rg.WORLD_HW_STATE, Rg.WORLD_TIMEOUT_CNT]; omega) (by decide)
    have status := other (a := Rg.WORLD_IRQ_STATUS) (by simp only [Rg.WORLD_HW_STATE, Rg.WORLD_IRQ_STATUS]; omega) (by decide)
    refine makes_does (makes_runUp (exec_visitTimeout init s) hr (Mach.visitOver_ready p.isLt hc hv hp hi hh hs))
      ⟨rfl, Mach.hangs_hwState p.isLt, ?_, ?_, count.trans (Mach.timedOut_counts init.toNat), ?_⟩
    · rw [world] at hung
      exact hung.trans (if_neg fun h => hn (List.contains_iff_mem.1 h))
    · have empty : ((s.now.timedOut init.toNat).hangs p).todo = [] := (todo'.trans todo).trans ht
      simp [Mach.push, empty]
    · exact (congrArg (bitOf · 2) status).trans (Mach.timedOut_reports init.toNat)
  · exact makes_hwReady ht (if_pos (by simp [hv, show (s.now.answer .done).hwState p = 0 from hs]))
  · intro w
    refine ⟨fun hv => ?_, fun hv => ?_⟩
    · exact makes_worldClaim (c := .worldClaim init k v) rfl ht (Mach.worldClaim_holds hv)
    · exact makes_worldClaim (c := .worldClaimRelease init k v) rfl ht (Mach.worldClaim_frees hv)

end Sys2Proof.Machine
end


section
/-! SUPPORT. The debug port: halts, register writes, challenges, EXTEST and peg windows (R389, R417 to R421). -/

namespace Sys2Proof.Machine

variable {m : Mach}

theorem exec_debugHalt (id : InitId) (s : State) : exec (.debugHalt id) s = runUp s (fun m => m.haltCore id.toNat) := rfl
theorem exec_debugStep (id : InitId) (s : State) : exec (.debugStep id) s = runUp s (fun m => m.debugStep id.toNat) := rfl
theorem exec_debugRegisterWrite (id : InitId) (g : DbgTarget) (v f : Word) (s : State) :
    exec (.debugRegisterWrite id g v f) s = runUp s (fun m => m.debugReg id.toNat g v.toNat f.toNat) := rfl
theorem exec_debugResume (id : InitId) (s : State) : exec (.debugResume id) s = runUp s (fun m => m.resumeCore id.toNat) := rfl
theorem exec_dbgCheckDone (s : State) : exec .dbgCheckDone s = runUp s Mach.dbgCheck := rfl
theorem exec_boundaryScanExtest (s : State) : exec .boundaryScanExtest s = runUp s Mach.extest := rfl
theorem exec_debugResetRequest (warm : Bool) (s : State) : exec (.debugResetRequest warm) s = run s (fun m => m.debugReset warm) := rfl

/-! ### Halt requests -/

section halt
variable {id : Nat} {c : Core} (hc : m.core id = some c)

include hc

theorem Mach.honourHalt_waits (h : m.mayHalt c = false ∨ m.inReplay id = true) : m.honourHalt id = m := by
  have waits : ¬ (c.haltReq && c.run && m.mayHalt c && !m.inReplay id) = true := by
    rcases h with h | h <;> simp [h]
  simp only [Mach.honourHalt, hc, if_neg waits]

variable (hq : c.haltReq = true) (hr : c.run = true) (hm : m.mayHalt c = true) (hi : m.inReplay id = false)

include hq hr hm hi

theorem Mach.honourHalt_plain (hs : Mach.safeOf id = none) :
    m.honourHalt id = m.modCore id fun c => { c with halted := true, haltReq := false } := by
  have takes : (c.haltReq && c.run && m.mayHalt c && !m.inReplay id) = true := by simp [hq, hr, hm, hi]
  simp only [Mach.honourHalt, hc, if_pos takes, hs]

theorem Mach.honourHalt_checked {k : Nat} (hs : Mach.safeOf id = some k) (hf : m.fab.coded = true) (hk : m.chkState k = 1) :
    m.honourHalt id = (m.modCore id fun c => { c with halted := true, haltReq := false }).setChk k 4 := by
  have takes : (c.haltReq && c.run && m.mayHalt c && !m.inReplay id) = true := by simp [hq, hr, hm, hi]
  have coded : (m.modCore id fun c => { c with halted := true, haltReq := false }).fab.coded = true := hf
  have state : (m.modCore id fun c => { c with halted := true, haltReq := false }).fld (Rg.CHK_STATUS k) 2 0 = 1 := hk
  simp only [Mach.honourHalt, hc, if_pos takes, hs, coded, state]
  rfl

end halt

/-! ### The one core of a machine, which no checker compares -/

section plain
variable {id : Nat} {c : Core} (hc : m.fab.cores = [(id, c)]) (hs : Mach.safeOf id = none)

/-- The machine with another state of its one core. -/
def Mach.withCore (m : Mach) (id : Nat) (c : Core) : Mach := { m with fab := { m.fab with cores := [(id, c)] } }

theorem Mach.core_withCore (id : Nat) (c : Core) : (m.withCore id c).core id = some c := by simp [Mach.core, Mach.withCore, kget]

include hc in
theorem Mach.core_only : m.core id = some c := by simp [Mach.core, hc, kget]

include hs in
theorem Mach.withCore_modCore (c : Core) (f : Core → Core) : (m.withCore id c).modCore id f = m.withCore id (f c) := by
  have apart : ¬ (0x10 ≤ id ∧ id < 0x1C) := fun h => by simp [Mach.safeOf, h] at hs
  have plain : (m.fab.coded && decide (0x10 ≤ id) && decide (id < 0x1C)) = false := by
    simp only [Bool.and_eq_false_iff, decide_eq_false_iff_not, or_assoc]
    exact .inr (Decidable.not_and_iff_or_not.1 apart)
  simp [Mach.modCore, Mach.withCore, plain]

include hc in
theorem Mach.eq_withCore : m = m.withCore id c := by simp [Mach.withCore, ← hc]

include hc hs

theorem Mach.modCore_only (f : Core → Core) : m.modCore id f = m.withCore id (f c) := by
  conv => lhs; rw [Mach.eq_withCore hc]
  exact Mach.withCore_modCore hs c f

theorem Mach.haltCore_allowed (hh : c.halted = false) (hr : c.run = true) (hm : m.mayHalt c = true) :
    m.haltCore id = m.withCore id { c with halted := true, haltReq := false } := by
  have free (d : Core) : (m.withCore id d).inReplay id = false := by simp [Mach.inReplay, hs]
  have req : (!c.halted) = true := by rw [hh]; rfl
  rw [Mach.haltCore, Mach.modCore_only hc hs, req]
  exact (Mach.honourHalt_plain (Mach.core_withCore id { c with haltReq := true }) rfl hr hm (free _) hs).trans (Mach.withCore_modCore hs _ _)

theorem Mach.haltCore_waits (hh : c.halted = false) (hm : m.mayHalt c = false) : m.haltCore id = m.withCore id { c with haltReq := true } := by
  have may : (m.withCore id { c with haltReq := true }).mayHalt { c with haltReq := true } = false := hm
  rw [Mach.haltCore, Mach.modCore_only hc hs, hh, Bool.not_false]
  exact Mach.honourHalt_waits (Mach.core_withCore id _) (.inl may)

theorem Mach.debugReg_plain {t : DbgTarget} {v f : Nat} (hh : c.halted = true) (hm : m.mayHalt c = true) :
    m.debugReg id t v f = (m.debugSet id t v).answer .done := by
  simp [Mach.debugReg, Mach.core_only hc, hh, hm, hs]

theorem Mach.resumeCore_allowed (hh : c.halted = true) (hm : m.mayHalt c = true) :
    m.resumeCore id = m.withCore id { c with halted := false, haltReq := false } := by
  simp [Mach.resumeCore, Mach.core_only hc, hh, hm, hs, Mach.modCore_only hc hs]

end plain

theorem Mach.debugReg_running {id : Nat} {c : Core} {t : DbgTarget} {v f : Nat} (hc : m.core id = some c) (hh : c.halted = false) :
    m.debugReg id t v f = m.answer .busError := by
  simp [Mach.debugReg, hc, hh]

theorem Mach.debugStep_halted {id : Nat} {c : Core} (hc : m.core id = some c) (hh : c.halted = true) : m.debugStep id = m := by
  simp [Mach.debugStep, hc, hh]

theorem Mach.debugStep_running {id : Nat} {c : Core} (hc : m.core id = some c) (hh : c.halted = false) : m.debugStep id = m.haltCore id := by
  simp [Mach.debugStep, hc, hh]

/-! ### Checked cores -/

/-- A change of the values under a key keeps the keys. -/
theorem kget_map {α : Type} (l : List (Nat × α)) (k : Nat) (f : α → α) :
    kget (l.map fun x => if x.1 == k then (x.1, f x.2) else x) k = (kget l k).map f := by
  induction l with
  | nil => rfl
  | cons x t ih =>
    obtain ⟨j, y⟩ := x
    by_cases h : j = k
    · simp [kget, h]
    · simp only [List.map_cons, beq_iff_eq, h, if_false, kget, beq_eq_false_iff_ne.2 h, Bool.false_eq_true]
      simpa only [beq_iff_eq] using ih

/-- In coded mode a safe core's mortise context follows every change. -/
def Mach.mirrored (m : Mach) (id : Nat) (c : Core) : Core := if m.fab.coded && 0x10 ≤ id && id < 0x1C then c.mirror else c

theorem Mach.core_modCore {id : Nat} {c : Core} (f : Core → Core) (hc : m.core id = some c) :
    (m.modCore id f).core id = some (m.mirrored id (f c)) := by
  have got := kget_map m.fab.cores id fun c => m.mirrored id (f c)
  rw [show kget m.fab.cores id = some c from hc] at got
  exact got

/-- What a mirrored core keeps of its own. -/
theorem Mach.mirrored_keeps (id : Nat) (c : Core) : (m.mirrored id c).haltReq = c.haltReq ∧ (m.mirrored id c).run = c.run ∧
    (m.mirrored id c).heartNow = c.heartNow := by
  rw [Mach.mirrored]
  split <;> exact ⟨rfl, rfl, rfl⟩

/-- A halt that follows its request at once leaves no trace of the request. -/
theorem Mach.modCore_halt (id : Nat) (f : Core → Core) (hf : ∀ c, ∃ b, f c = { c with haltReq := b }) :
    (m.modCore id f).modCore id (fun c => { c with halted := true, haltReq := false }) =
      m.modCore id fun c => { c with halted := true, haltReq := false } := by
  have twice : ∀ x : Nat × Core, (let y := if x.1 == id then (x.1, m.mirrored id (f x.2)) else x
      if y.1 == id then (y.1, m.mirrored id { y.2 with halted := true, haltReq := false }) else y) =
      if x.1 == id then (x.1, m.mirrored id { x.2 with halted := true, haltReq := false }) else x := by
    intro x
    obtain ⟨b, hb⟩ := hf x.2
    by_cases h : x.1 = id
    · simp only [h, beq_self_eq_true, if_true, hb, Mach.mirrored]
      split <;> rfl
    · simp [h]
  have cores : ((m.modCore id f).modCore id (fun c => { c with halted := true, haltReq := false })).fab.cores =
      (m.modCore id fun c => { c with halted := true, haltReq := false }).fab.cores :=
    (List.map_map ..).trans (List.map_congr_left fun x _ => twice x)
  exact congrArg (fun l => { m with fab := { m.fab with cores := l } }) cores

section checked
variable {id k : Nat} {c : Core} (hc : m.core id = some c) (hs : Mach.safeOf id = some k)

include hc hs

theorem Mach.haltCore_inReplay (hf : m.fab.coded = true) (hk : m.chkState k = 2) :
    m.haltCore id = m.modCore id fun c => { c with haltReq := !c.halted } := by
  have state : (m.modCore id fun c => { c with haltReq := !c.halted }).fld (Rg.CHK_STATUS k) 2 0 = 2 := hk
  have coded : (m.modCore id fun c => { c with haltReq := !c.halted }).fab.coded = true := hf
  exact Mach.honourHalt_waits (Mach.core_modCore _ hc) (.inr (by simp only [Mach.inReplay, hs, coded, state]; rfl))

variable (hm : m.mayHalt c = true)

include hm

theorem Mach.haltCore_checked (hh : c.halted = false) (hr : c.run = true) (hf : m.fab.coded = true) (hk : m.chkState k = 1) :
    m.haltCore id = (m.modCore id fun c => { c with halted := true, haltReq := false }).setChk k 4 := by
  obtain ⟨req, run, heart⟩ := m.mirrored_keeps id { c with haltReq := !c.halted }
  have may : (m.modCore id fun c => { c with haltReq := !c.halted }).mayHalt (m.mirrored id { c with haltReq := !c.halted }) = true := by
    rw [Mach.mayHalt, heart]
    exact hm
  have state : (m.modCore id fun c => { c with haltReq := !c.halted }).fld (Rg.CHK_STATUS k) 2 0 = 1 := hk
  have free : (m.modCore id fun c => { c with haltReq := !c.halted }).inReplay id = false := by
    simp [Mach.inReplay, hs, state]
  rw [Mach.haltCore, Mach.honourHalt_checked (Mach.core_modCore _ hc) (req.trans (by simp [hh])) (run.trans hr) may free hs hf hk,
    Mach.modCore_halt id _ fun c => ⟨_, rfl⟩]

section write
variable {t : DbgTarget} {v f : Nat} (hh : c.halted = true)

include hh

theorem Mach.debugReg_replayFails (hf : m.fab.coded = true) (hn : f ≠ 0) : m.debugReg id t v f = m.checkerFault k 0xB 7 f 0 false := by
  simp [Mach.debugReg, hc, hh, hm, hs, hf, hn]

theorem Mach.debugReg_checked (hf : m.fab.coded = false ∨ f = 0) : m.debugReg id t v f = (m.debugSet id t v).answer .done := by
  rcases hf with h | h <;> simp [Mach.debugReg, hc, hh, hm, hs, h]

end write

end checked

/-! ### Challenges -/

theorem Mach.dbgRequest_keeps (v : Nat) : (m.dbgRequest v).world = { m.world with nonce := true, req := v % 16, checking := false } ∧
    (m.dbgRequest v).drawn = m.drawn + 4 := by
  constructor <;> simp [Mach.dbgRequest, Mach.forAll, Mach.draw, Mach.modWorld, List.range_succ]

theorem makes_dbgRequest {s : State} {init : InitId} {v : Word} (ht : s.now.takes init.toNat Rg.WORLD_DBG_REQ v.toNat .WORLD_DBG_REQ [] = true) :
    Makes (.dbgRequest init v) s s.mem ((s.now.answer .done).dbgRequest v.toNat) := by
  refine makes_memTo
    (show exec (.dbgRequest init v) s = runMem s fun mem m => Mach.writeReg mem m init.toNat Rg.WORLD_DBG_REQ 4 v.toNat from rfl)
    (writeReg_acts ht fun hit e hn hi ha hv hinit => ?_)
  have low : ¬ 0x42000000 ≤ Rg.WORLD_DBG_REQ := by decide
  rw [Mach.act, ha, if_neg low]
  simp only [Mach.actModule, Mach.actCompute, hn, hv]

theorem makes_dbgResponse {s : State} {init : InitId} {v : Word}
    (ht : s.now.takes init.toNat (Rg.WORLD_DBG_RESP 7) v.toNat .WORLD_DBG_RESP [7] = true) :
    Makes (.dbgResponse init v) s s.mem ((s.now.answer .done).dbgResponse 7 v.toNat) := by
  refine makes_memTo
    (show exec (.dbgResponse init v) s = runMem s fun mem m => Mach.writeReg mem m init.toNat (Rg.WORLD_DBG_RESP 7) 4 v.toNat from rfl)
    (writeReg_acts ht fun hit e hn hi ha hv hinit => ?_)
  have low : ¬ 0x42000000 ≤ Rg.WORLD_DBG_RESP 7 := by decide
  rw [Mach.act, ha, if_neg low]
  simp only [Mach.actModule, Mach.actCompute, hn, hi, hv, List.headD_cons]

theorem makes_dbgLock {s : State} {init : InitId} {v : Word} (ht : s.now.takes init.toNat Rg.WORLD_DBG_LOCK v.toNat .WORLD_DBG_LOCK [] = true)
    (hb : bitOf v.toNat 0 = true) : Makes (.dbgLock init v) s s.mem (s.now.answer .done).dbgWithdraw := by
  refine makes_memTo
    (show exec (.dbgLock init v) s = runMem s fun mem m => Mach.writeReg mem m init.toNat Rg.WORLD_DBG_LOCK 4 v.toNat from rfl)
    (writeReg_acts ht fun hit e hn hi ha hv hinit => ?_)
  have low : ¬ 0x42000000 ≤ Rg.WORLD_DBG_LOCK := by decide
  rw [Mach.act, ha, if_neg low]
  simp only [Mach.actModule, Mach.actCompute, hn, hv, hb, if_true]

section check
variable (hc : m.world.checking = true)

/-- The bytes of a response or of a nonce. -/
def Mach.dbgWords (m : Mach) (r : Nat → Nat) (n : Nat) : List Byte := ((List.range n).map fun i => leBytes 4 (m.rd (r i))).flatten

/-- The right response to the challenge that stands. -/
def Mach.dbgGood (m : Mach) (k : List Byte) : List Byte :=
  Mach.kmac k "MZ4820-DEBUG" (m.dbgWords Rg.WORLD_DBG_NONCE 4 ++ Mach.uidBytes ++ leBytes 4 m.world.req) 32

include hc

theorem Mach.dbgCheck_noKey (h : m.keyWith 5 = none) : m.dbgCheck = (m.modWorld fun x => { x with checking := false }).dbgFails := by
  have key : (m.modWorld fun x => { x with checking := false }).keyWith 5 = none := h
  simp only [Mach.dbgCheck, hc, Bool.not_true, Bool.false_eq_true, if_false, key]

theorem Mach.dbgCheck_key {k : List Byte} (h : m.keyWith 5 = some k) : m.dbgCheck =
    if m.world.nonce && !m.bit Rg.WORLD_DBG_STATUS 12 && m.dbgWords Rg.WORLD_DBG_RESP 8 == m.dbgGood k then
      ((((m.modWorld fun x => { x with checking := false }).modWorld fun x => { x with
        granted := x.granted ||| (x.req &&& dbgByChallenge m.lifecycle) }).voidNonce).showDbg).fire Rg.WORLD_IRQ_STATUS 5
    else (m.modWorld fun x => { x with checking := false }).dbgFails := by
  have key : (m.modWorld fun x => { x with checking := false }).keyWith 5 = some k := h
  simp only [Mach.dbgCheck, hc, Bool.not_true, Bool.false_eq_true, if_false, key]
  rfl

end check

/-! ### Boundary scan and peg windows -/

section extest
variable (hj : ∀ i, i < 5 → m.pinFn (ballNo 6 (22 + i)) = some 0x70)

include hj

theorem Mach.extest_assigned : m.extest = if bitOf m.dbgEnables 1 && bitOf m.dbgEnables 3 then
    (m.modWorld fun x => { x with extest := true }).answer .done else m.answer .busError := by
  have jtag : ((List.range 5).all fun i => m.pinFn (ballNo 6 (22 + i)) == some 0x70) = true :=
    List.all_eq_true.2 fun i hi => beq_iff_eq.2 (hj i (List.mem_range.1 hi))
  simp only [Mach.extest, jtag, Bool.not_true, Bool.false_eq_true, if_false]

end extest

theorem makes_pegWindowEnable {s : State} {init : InitId} {e : Fin 32} {v : Word} {x : Mach}
    (ht : s.now.takes init.toNat (Rg.WORLD_PEG_LO e) v.toNat .WORLD_PEG_LO [e.val] = true)
    (h : (s.now.answer .done).pegWrite e v.toNat = x) : Makes (.pegWindowEnable init e v) s s.mem x := by
  refine makes_memTo
    (show exec (.pegWindowEnable init e v) s = runMem s fun mem m => Mach.writeReg mem m init.toNat (Rg.WORLD_PEG_LO e) 4 v.toNat from rfl)
    (writeReg_acts ht fun hit i hn hi ha hv hinit => ?_)
  have low : ¬ 0x42000000 ≤ Rg.WORLD_PEG_LO e := by simp only [Rg.WORLD_PEG_LO]; omega
  rw [Mach.act, ha, if_neg low]
  simp only [Mach.actModule, Mach.actCompute, hn, hi, hv, List.headD_cons, h]

/-- A window that was not enabled takes its fields, and its enable where the conditions hold. -/
theorem Mach.pegWrite_enable {e v : Nat} (hd : m.bit (Rg.WORLD_PEG_LO e) 0 = false) (hb : bitOf v 0 = true) : m.pegWrite e v =
    if m.pegOk e v then m.wr (Rg.WORLD_PEG_LO e) (v &&& 0xFFFFF001)
    else (m.wr (Rg.WORLD_PEG_LO e) (v &&& 0xFFFFF000)).fire Rg.WORLD_IRQ_STATUS 7 := by
  have off : bitOf (m.rd (Rg.WORLD_PEG_LO e)) 0 = false := hd
  simp only [Mach.pegWrite, off, hb, Bool.false_eq_true, if_false, Bool.true_and]
  cases m.pegOk e v <;> rfl

/-- Settles O48: a core is debugged only in a world that allows it, and rights follow the challenge. -/
theorem debugRights : Obligations.DebugRights := by
  unfold Obligations.DebugRights
  intro s hr m
  refine ⟨fun id c hc hs => ⟨fun hh hrun hm => ?_, fun hh hm => ?_, fun hh => ?_, fun hh hm g v f => ?_, fun hh g v f => ?_, fun hh hm => ?_⟩,
    fun id c k hc hs hm => ⟨fun hh hrun hf hk => ?_, fun _ _ hf hk => ?_, fun hh g v f => ⟨fun hf hn => ?_, fun h => ?_⟩⟩,
    fun init v => ⟨fun ht => ?_, makes_dbgResponse, makes_dbgLock⟩, ?_, fun hj => ⟨fun h1 h3 => ?_, fun h => ?_⟩,
    fun init e v ht hd hb => ⟨fun ok => ?_, fun ok => ?_⟩,
    fun warm => makes_run (exec_debugResetRequest warm s) rfl⟩
  · have halts := Mach.haltCore_allowed (m := s.now) hc hs hh hrun hm
    exact ⟨makes_runUp (exec_debugHalt id s) hr halts,
      makes_runUp (exec_debugStep id s) hr ((Mach.debugStep_running (Mach.core_only hc) hh).trans halts)⟩
  · exact makes_runUp (exec_debugHalt id s) hr (Mach.haltCore_waits hc hs hh hm)
  · exact makes_runUp (exec_debugStep id s) hr (Mach.debugStep_halted (Mach.core_only hc) hh)
  · exact makes_runUp (exec_debugRegisterWrite id g v f s) hr (Mach.debugReg_plain hc hs hh hm)
  · exact makes_runUp (exec_debugRegisterWrite id g v f s) hr (Mach.debugReg_running (Mach.core_only hc) hh)
  · exact makes_runUp (exec_debugResume id s) hr (Mach.resumeCore_allowed hc hs hh hm)
  · exact makes_runUp (exec_debugHalt id s) hr (Mach.haltCore_checked hc hs hm hh hrun hf hk)
  · exact makes_runUp (exec_debugHalt id s) hr (Mach.haltCore_inReplay hc hs hf hk)
  · have fails : f.toNat ≠ 0 := fun h => hn (BitVec.eq_of_toNat_eq h)
    exact makes_runUp (exec_debugRegisterWrite id g v f s) hr (Mach.debugReg_replayFails hc hs hm hh hf fails)
  · exact makes_runUp (exec_debugRegisterWrite id g v f s) hr
      (Mach.debugReg_checked hc hs hm hh (h.imp_right fun h => congrArg BitVec.toNat h))
  · obtain ⟨world, drawn⟩ := Mach.dbgRequest_keeps (m := s.now.answer .done) v.toNat
    exact makes_does (makes_dbgRequest ht) ⟨rfl, by rw [world], by rw [world], by rw [world], by rw [world]; rfl, drawn⟩
  · intro hc w words good
    refine ⟨fun h => makes_runUp (exec_dbgCheckDone s) hr (Mach.dbgCheck_noKey hc h), fun k h hn h12 hg => ?_, fun k h hg => ?_⟩
    · have right : (s.now.world.nonce && !s.now.bit Rg.WORLD_DBG_STATUS 12 && s.now.dbgWords Rg.WORLD_DBG_RESP 8 == s.now.dbgGood k) = true := by
        exact Bool.and_eq_true_iff.2 ⟨Bool.and_eq_true_iff.2 ⟨hn, congrArg not h12⟩, beq_iff_eq.2 hg⟩
      exact makes_runUp (exec_dbgCheckDone s) hr ((Mach.dbgCheck_key hc h).trans (if_pos right))
    · have wrong : ¬ (s.now.world.nonce && !s.now.bit Rg.WORLD_DBG_STATUS 12 && s.now.dbgWords Rg.WORLD_DBG_RESP 8 == s.now.dbgGood k) = true :=
        fun h => hg (beq_iff_eq.1 (Bool.and_eq_true_iff.1 h).2)
      exact makes_runUp (exec_dbgCheckDone s) hr ((Mach.dbgCheck_key hc h).trans (if_neg wrong))
  · exact makes_runUp (exec_boundaryScanExtest s) hr ((Mach.extest_assigned hj).trans (if_pos (Bool.and_eq_true_iff.2 ⟨h1, h3⟩)))
  · exact makes_runUp (exec_boundaryScanExtest s) hr ((Mach.extest_assigned hj).trans (if_neg (Bool.not_eq_true _ ▸ Bool.and_eq_false_iff.2 h)))
  · exact makes_pegWindowEnable ht ((Mach.pegWrite_enable (m := s.now.answer .done) hd hb).trans (if_pos ok))
  · exact makes_pegWindowEnable ht ((Mach.pegWrite_enable (m := s.now.answer .done) hd hb).trans (if_neg (Bool.not_eq_true _ ▸ ok)))

end Sys2Proof.Machine
end


section
/-! SUPPORT. Re-division operations, late completions and events of slots of virtual devices (R428, R429, R433). -/

namespace Sys2Proof.Machine

variable {m : Mach}

theorem exec_lateCompletion (i : Fin 128) (g : BitVec 16) (s : State) :
    exec (.lateCompletion i g) s = runUp s (fun m => m.lateCompletion i g.toNat) := rfl
theorem exec_virtualEvent (i : Fin 128) (e : Fin 16) (b : Fin 4) (s : State) :
    exec (.virtualEvent i e b) s = runUp s (fun m => m.virtualEvent i e b) := rfl

/-! ### Re-division -/

/-- The operation that a written word and the amount register name. -/
def Mach.redivOf (m : Mach) (v : Nat) : Rediv := ⟨bitsOf v 31 30, bitsOf v 29 23, bitsOf v 22 16, bitsOf v 15 12, m.fld Rg.VDEV_REDIV_AMOUNT 23 0⟩

section operation
variable {v c d : Nat} (hop : bitsOf v 31 30 ≠ 0) (hcode : m.redivCode (m.vdev.rediv.foldl Mach.redivApply m.vdev.slots) (m.redivOf v) = (c, d))

include hop hcode

theorem Mach.redivCmd_passes (hc : c = 0) : m.redivCmd v = ((m.modVdev fun x => { x with rediv := x.rediv ++ [m.redivOf v] }).wr
    Rg.VDEV_REDIV_RESULT (1 <<< 31 ||| 0 <<< 30 ||| 0 <<< 8 ||| d)).showVdev := by
  simp only [Mach.redivOf] at hcode
  simp only [Mach.redivCmd, beq_iff_eq, hop, if_false, hcode, hc, bne_self_eq_false]
  rfl

theorem Mach.redivCmd_fails (hc : c ≠ 0) : m.redivCmd v = (m.wr Rg.VDEV_REDIV_RESULT (1 <<< 31 ||| 1 <<< 30 ||| c <<< 8 ||| d)).showVdev := by
  simp only [Mach.redivOf] at hcode
  simp only [Mach.redivCmd, beq_iff_eq, hop, if_false, hcode, hc, bne_iff_ne.2 hc]
  rfl

end operation

section write
variable {s : State} {init : InitId} {v : Word} {n : Mach} (ht : s.now.takes init.toNat Rg.VDEV_REDIV v.toNat .VDEV_REDIV [] = true)

include ht

theorem makes_redivCmd {x : Instr} (hc : exec x s = runMem s fun mem m => Mach.writeReg mem m init.toNat Rg.VDEV_REDIV 4 v.toNat)
    (h : (s.now.answer .done).redivCmd v.toNat = n) : Makes x s s.mem n := by
  refine makes_memTo hc (writeReg_acts ht fun hit e hn hi ha hv hinit => ?_)
  have low : ¬ 0x42000000 ≤ Rg.VDEV_REDIV := by decide
  rw [Mach.act, ha, if_neg low]
  simp only [Mach.actModule, Mach.actCompute, hn, hv, h]

/-- The three re-division commands write one register. -/
theorem makes_rediv {op : Nat} (hop : op = bitsOf v.toNat 31 30) (h : bitsOf v.toNat 31 30 ≠ 0 → (s.now.answer .done).redivCmd v.toNat = n) :
    (op = 1 → Makes (.redivSet init v) s s.mem n) ∧ (op = 2 → Makes (.redivMove init v) s s.mem n) ∧
      (op = 3 → Makes (.redivMoveAll init v) s s.mem n) := by
  refine ⟨fun h1 => ?_, fun h2 => ?_, fun h3 => ?_⟩
  · exact makes_redivCmd ht (x := .redivSet init v) rfl (h (by omega))
  · exact makes_redivCmd ht (x := .redivMove init v) rfl (h (by omega))
  · exact makes_redivCmd ht (x := .redivMoveAll init v) rfl (h (by omega))

end write

/-! ### Late completions and slot events -/

theorem Mach.lateCompletion_other {i g : Nat} (hd : m.instDefined i = true) (hg : m.instGen i ≠ g) :
    m.lateCompletion i g = (m.bump (Rg.VDEV_LATE_CNT i)).modInst i fun x => { x with late := true } := by
  simp [Mach.lateCompletion, Mach.lateDrop, hd, hg]

theorem Mach.lateCompletion_current {i g : Nat} (hg : m.instGen i = g) : m.lateCompletion i g = m := by
  simp [Mach.lateCompletion, hg]

/-- The events that a kind of slot has. -/
def slotEvents (k : Nat) : Nat :=
  if k == kRXQ || k == kTXQ then 2 else if k == kRING then 4 else if k == kLOAD || k == kBW then 1 else 0

theorem Mach.virtualEvent_slot {i e b : Nat} {x : VSlot} (h : m.instSlot i e = some x) :
    m.virtualEvent i e b = if b < slotEvents x.kind then m.slotEvent x b else m := by
  simp only [Mach.virtualEvent, h]
  rfl

theorem Mach.slotEvent_latched {x : VSlot} {b : Nat} (he : x.e < 16) : m.slotEvent x b =
    if m.instState x.inst = 1 then (m.setBit (Rg.VDEV_EVT x.inst x.e) b true).setVec (m.vecOf x.inst x.e)
    else m.setBit (Rg.VDEV_EVT x.inst x.e) b true := by
  have state : Rg.VDEV_INST_STATE x.inst ≠ Rg.VDEV_EVT x.inst x.e := by simp only [Rg.VDEV_INST_STATE, Rg.VDEV_EVT]; omega
  have cfg : Rg.VDEV_INST_CFG x.inst ≠ Rg.VDEV_EVT x.inst x.e := by simp only [Rg.VDEV_INST_CFG, Rg.VDEV_EVT]; omega
  simp only [Mach.slotEvent, Mach.instState, Mach.vecOf, Mach.fld, Mach.rd_setBit_other _ _ state, Mach.rd_setBit_other _ _ cfg, beq_iff_eq]
  rfl

/-- Settles O50: re-division waits for the commit, and a late completion or an event reaches its virtual device. -/
theorem redivision : Obligations.Redivision := by
  unfold Obligations.Redivision
  intro s hr m
  refine ⟨fun init v ht => ?_, fun i g hd => ⟨fun hg => ?_, fun hg => ?_⟩, fun i e b x hx => ⟨fun hk => ?_, fun hk => ?_⟩, ?_⟩
  · intro w r l
    exact ⟨fun d hcode => makes_rediv ht rfl fun op => Mach.redivCmd_passes (m := w) op hcode rfl,
      fun c d hcode hc => makes_rediv ht rfl fun op => Mach.redivCmd_fails (m := w) op hcode hc⟩
  · exact makes_runUp (exec_lateCompletion i g s) hr (Mach.lateCompletion_other hd hg)
  · exact makes_runUp (exec_lateCompletion i g s) hr (Mach.lateCompletion_current hg)
  · have has : b.val < slotEvents x.kind := by
      rcases hk with ⟨h | h, hb⟩ | h | ⟨h | h, hb⟩ <;> rw [h]
      · exact hb
      · exact hb
      · exact b.isLt
      · exact hb ▸ Nat.one_pos
      · exact hb ▸ Nat.one_pos
    exact makes_runUp (exec_virtualEvent i e b s) hr ((Mach.virtualEvent_slot hx).trans (if_pos has))
  · have none : slotEvents x.kind = 0 := by rcases hk with h | h <;> rw [h] <;> rfl
    exact makes_runUp (exec_virtualEvent i e b s) hr ((Mach.virtualEvent_slot hx).trans (if_neg (by rw [none]; exact Nat.not_lt_zero _)))
  · intro m x b _ he
    exact Mach.slotEvent_latched he

end Sys2Proof.Machine
end


section
/-! SUPPORT. The operations of the security engine, its identity, nonces and sessions (R443, R453, R454, R459, R460). -/

namespace Sys2Proof.Machine

variable {m : Mach}

theorem exec_keyOpUpdate (s : State) : exec .keyOpUpdate s = runUpMem s (fun mem m => Mach.opUpdate mem m) := rfl
theorem exec_keyOpMac (s : State) : exec .keyOpMac s = runUpMem s (fun mem m => Mach.opMac mem m) := rfl
theorem exec_keyOpExportId (s : State) : exec .keyOpExportId s = runUpMem s (fun mem m => Mach.exportOp mem m) := rfl
theorem exec_keyOpBuile (s : State) : exec .keyOpBuile s = runUpMem s (fun mem m => Mach.opBuile mem m) := rfl
theorem exec_identityReady (s : State) : exec .identityReady s = runUpMem s (fun mem m => Mach.identityStart mem m) := rfl
theorem exec_nonceExpiry (s : State) : exec .nonceExpiry s = runUp s (fun m => m.nonceExpires) := rfl
theorem exec_openLockoutExpiry (s : State) : exec .openLockoutExpiry s = runUp s (fun m => m.lockoutEnds) := rfl
theorem exec_sessionIdleTimeout (n : Fin 8) (s : State) : exec (.sessionIdleTimeout n) s = runUp s (fun m => m.closeSession n) := rfl

/-! ### What an engine may read -/

/-- A read rests on the cores, the image in force, the fitted memory and the registers of the units from WORLD on. -/
structure Mach.SameRights (m n : Mach) : Prop where
  fab : n.fab = m.fab
  truss : n.truss = m.truss
  memc : n.memc = m.memc
  rd : ∀ a, 0x40060000 ≤ a → n.rd a = m.rd a

namespace Mach.SameRights

variable {n : Mach} (h : m.SameRights n)

include h

theorem core (i : Nat) : n.core i = m.core i := by rw [Mach.core, Mach.core, h.fab]

theorem partOf (i : Nat) : n.partOf i = m.partOf i := by rw [Mach.partOf, Mach.partOf, h.core]

theorem isHeart (i : Nat) : n.isHeart i = m.isHeart i := by
  have enables : n.dbgEnables = m.dbgEnables := Mach.fld_of_rd (h.rd _ (by decide)) _ _
  rw [Mach.isHeart, Mach.isHeart, h.core, enables]

theorem instPart (i : Nat) : n.instPart i = m.instPart i := by
  have cfg : n.rd (Rg.VDEV_INST_CFG i) = m.rd (Rg.VDEV_INST_CFG i) := h.rd _ (by simp only [Rg.VDEV_INST_CFG]; omega)
  rw [Mach.instPart, Mach.instPart, Mach.bit_of_rd cfg, Mach.fld_of_rd cfg]

theorem dutyPart (d b : Nat) : n.dutyPart d b = m.dutyPart d b := by
  have duty : n.rd (Rg.BENT_DUTY d) = m.rd (Rg.BENT_DUTY d) := h.rd _ (by simp only [Rg.BENT_DUTY]; omega)
  simp only [Mach.dutyPart, Mach.fld, duty]

theorem inOwner (i own : Nat) : n.inOwner i own = m.inOwner i own := by
  have reaches (p : Nat) : n.partReaches p own = m.partReaches p own := by
    simp only [Mach.partReaches, h.instPart, h.dutyPart]
  simp only [Mach.inOwner, h.partOf, reaches]

theorem accessAllowed (i a k : Nat) (kind : MemKind) : n.accessAllowed i a k kind = m.accessAllowed i a k kind := by
  have regions (a : Nat) : n.regionsAt a = m.regionsAt a := by rw [Mach.regionsAt, Mach.regionsAt, h.truss]
  simp only [Mach.accessAllowed, Mach.memAllowed, h.isHeart, h.inOwner, regions]

theorem dmaRead (mem : Mem) (i a k : Nat) : n.dmaRead mem i a k = m.dmaRead mem i a k := by
  have index (a : Nat) : n.memIndex a = m.memIndex a := by rw [Mach.memIndex, Mach.memIndex, h.memc]
  have fits : n.memFits a k = m.memFits a k := by simp only [Mach.memFits, index]
  have poisoned : n.poisoned a k = m.poisoned a k := by rw [Mach.poisoned, Mach.poisoned, h.memc]
  rw [Mach.dmaRead, Mach.dmaRead, fits, h.accessAllowed, poisoned]

end Mach.SameRights

/-! ### Descriptors -/

theorem Mach.showKeyStatus_rd {a : Nat} (h : a ≠ Rg.KEY_STATUS) : m.showKeyStatus.rd a = m.rd a := Mach.rd_wr_other _ _ h

/-- The status of the engine gives no right. -/
theorem Mach.showKeyStatus_rights (f : KeySt → KeySt) : m.SameRights (m.modKey f).showKeyStatus where
  fab := Mach.wr_fab ..
  truss := Mach.wr_truss ..
  memc := Mach.wr_memc ..
  rd a ha := Mach.showKeyStatus_rd (by simp only [Rg.KEY_STATUS]; omega)

theorem makes_keySubmit {s : State} {init : InitId} {v : Word} {mem : Mem} {n : Mach}
    (ht : s.now.takes init.toNat Rg.KEY_SUBMIT v.toNat .KEY_SUBMIT [] = true)
    (h : (if ((s.now.answer .done).keySubmit init.toNat v.toNat).2 && s.now.key.cur.isNone then
      Mach.keyTake s.mem ((s.now.answer .done).keySubmit init.toNat v.toNat).1 9
      else (s.mem, ((s.now.answer .done).keySubmit init.toNat v.toNat).1)) = (mem, n)) : Makes (.keySubmit init v) s mem n := by
  refine makes_memTo
    (show exec (.keySubmit init v) s = runMem s fun mem m => Mach.writeReg mem m init.toNat Rg.KEY_SUBMIT 4 v.toNat from rfl)
    (writeReg_acts ht fun hit e hn hi ha hv hinit => ?_)
  have low : ¬ 0x42000000 ≤ Rg.KEY_SUBMIT := by decide
  rw [Mach.act, ha, if_neg low]
  simp only [Mach.actModule, Mach.actCompute, hn, hv, hinit]
  exact h

section submit
variable {init v : Nat}

theorem Mach.keySubmit_idle (h : m.key.cur = none) : m.keySubmit init v =
    ((m.modKey fun k => { k with cur := some (v &&& 0xFFFFFFE0, init), start := k.slots }).showKeyStatus, true) := by
  simp [Mach.keySubmit, h]

theorem Mach.keySubmit_queued (h : m.key.cur.isSome = true) (hq : m.key.queue.length < 8) : m.keySubmit init v =
    ((m.modKey fun k => { k with queue := k.queue ++ [(v &&& 0xFFFFFFE0, init)] }).showKeyStatus, true) := by
  simp [Mach.keySubmit, h, hq]

theorem Mach.keySubmit_full (h : m.key.cur.isSome = true) (hq : 8 ≤ m.key.queue.length) : m.keySubmit init v =
    ((m.fire Rg.KEY_IRQ_STATUS 1).answer .busError, false) := by
  simp [Mach.keySubmit, h, hq]

end submit

/-- A descriptor of a known operation runs. -/
theorem Mach.keyTake_runs {mem : Mem} {a i n : Nat} {d : List Byte} (hc : m.key.cur = some (a, i)) (hd : m.dmaRead mem i a 32 = some d)
    (ho : inSpan (leAt d 0 1) 1 4 = true) : Mach.keyTake mem m (n + 1) = (mem, m.chargeFab i 32) := by
  simp only [Mach.keyTake, hc, hd, ho, if_true]

/-! ### The running operation -/

section operation
variable {mem : Mem} {a i : Nat} {d : List Byte} (hk : m.keyRuns = true) (hc : m.key.cur = some (a, i)) (hd : m.dmaRead mem i a 32 = some d)

include hk hc hd in
/-- An operation answers its descriptor and makes room for the next. -/
theorem Mach.keyOp_answers {op : Nat} {f : Nat → List Byte → Mem × Mach × Nat × List Byte} (ho : leAt d 0 1 = op) : Mach.keyOp mem m op f =
    Mach.keyTake (Mach.keyAnswer mem m a i d (f i d)).1 (Mach.keyAnswer mem m a i d (f i d)).2.keyNext 9 := by
  simp only [Mach.keyOp, hk, hc, hd, ho, Bool.not_true, Bool.false_eq_true, if_false, bne_self_eq_false]

theorem Mach.macOp_slot {s : KSlot} {x : List Byte} (hs : m.startSlot (leAt d 1 1) = some s) (hu : bitOf s.usage 7 = true)
    (ho : m.admits i (m.keyOwner (leAt d 1 1)) = true) (hx : Mach.keyInput mem m i d = some x) :
    Mach.macOp mem m i d = (m.chargeFab i x.length, 0, Mach.kmac s.value "MZ4820-APP" x 32) := by
  simp only [Mach.macOp, hs, hu, ho, hx, Bool.not_true, Bool.false_eq_true, if_false]

theorem Mach.keyAnswer_fails {mem' : Mem} {t : Mach} {c : Nat} {o : List Byte} (h : c ≠ 0) :
    Mach.keyAnswer mem m a i d (mem', t, c, o) = Mach.descEnd mem' t a i c 0 := if_pos (bne_iff_ne.2 h)

theorem Mach.keyAnswer_short {mem' : Mem} {t : Mach} {o : List Byte} (h : leAt d 20 4 < o.length) :
    Mach.keyAnswer mem m a i d (mem', t, 0, o) = Mach.descEnd mem m a i 3 0 := by
  simp only [Mach.keyAnswer, bne_self_eq_false, Bool.false_eq_true, if_false, h, if_true]

end operation

/-! ### The identity -/

/-- The machine that shows its identity. -/
def Mach.withIdentity (m : Mach) : Mach := (m.forAll (List.range 8) fun m w =>
  m.wr (Rg.KEY_ID_HASH w) (leAt (leBytes 32 (Config.sha3x256 Mach.idPublic).toNat) (4 * w) 4)).setBit Rg.KEY_STATUS 16 true

theorem Mach.withIdentity_rst : m.withIdentity.rst = m.rst := by simp [Mach.withIdentity, Mach.forAll, List.range_succ]

theorem Mach.withIdentity_key : m.withIdentity.key = m.key := by simp [Mach.withIdentity, Mach.forAll, List.range_succ]

theorem Mach.withIdentity_stranded : m.withIdentity.isStranded = m.isStranded := by
  have mode : m.withIdentity.rd Rg.RSTC_MODE = m.rd Rg.RSTC_MODE := by
    refine (Mach.rd_setBit_other _ _ (by decide)).trans ?_
    exact Mach.rd_forAll_wr_other (fun w _ => by simp only [Rg.RSTC_MODE, Rg.KEY_ID_HASH]; omega) _
  simp only [Mach.isStranded, Mach.bit, mode]

theorem Mach.withIdentity_ready : m.withIdentity.bit Rg.KEY_STATUS 16 = true := Mach.bit_setBit_true _ _ (by decide)

theorem Mach.showStage_ready {n : Nat} : (m.showStage n).bit Rg.KEY_STATUS 16 = m.bit Rg.KEY_STATUS 16 :=
  congrArg (bitOf · 16) (Mach.rd_wr_other _ _ (show Rg.KEY_STATUS ≠ Rg.BIST_START_STATUS by decide))

section identity
variable (hr : m.rst.cReset = false) (hk : m.keyRuns = true) (hf : m.key.fuseBad = false)

include hr hk hf

theorem Mach.identityStep_cold (hw : m.rst.warmStart = false) (h7 : m.rst.step = 7) (hs : m.isStranded = false) :
    m.identityStep = m.withIdentity.showStage 8 := by
  have ready : m.identityReady = m.withIdentity := by simp [Mach.identityReady, hk, hf, Mach.withIdentity]
  simp [Mach.identityStep, ready, Mach.withIdentity_rst, Mach.withIdentity_stranded, hr, hw, h7, hs]

theorem Mach.identityStep_later (h : ¬ (m.rst.warmStart = false ∧ m.rst.step = 7 ∧ m.isStranded = false)) : m.identityStep = m.withIdentity := by
  have ready : m.identityReady = m.withIdentity := by simp [Mach.identityReady, hk, hf, Mach.withIdentity]
  have later : (m.rst.warmStart || m.rst.step != 7 || m.isStranded) = true := by
    refine Classical.byContradiction fun no => ?_
    simp only [Bool.or_eq_true, not_or, Bool.not_eq_true, bne_eq_false_iff_eq] at no
    exact h ⟨no.1.1, no.1.2, no.2⟩
  simp [Mach.identityStep, ready, Mach.withIdentity_rst, Mach.withIdentity_stranded, hr, later]

end identity

section waiters
variable {mem : Mem}

theorem Mach.identityStart_alone {n : Mach} (h : m.identityStep = n) (hb : n.bit Rg.KEY_STATUS 16 = true) (hw : n.key.waits = []) :
    Mach.identityStart mem m = (mem, n) := by
  have same : (n.modKey fun k => { k with waits := [] }) = n := by simp [Mach.modKey, ← hw]
  simp only [Mach.identityStart, h, hb, if_true, Mach.identityWaiters, hw, List.foldl_nil, same]

theorem Mach.identityStart_waiting {n : Mach} {fr : List Byte} (h : m.identityStep = n) (hb : n.bit Rg.KEY_STATUS 16 = true)
    (hw : n.key.waits = [(none, fr)]) : Mach.identityStart mem m =
      ((Mach.buile mem (n.modKey fun k => { k with waits := [] }) fr).1,
        (Mach.buile mem (n.modKey fun k => { k with waits := [] }) fr).2.1.modKey fun k =>
          { k with reply := (Mach.buile mem (n.modKey fun k => { k with waits := [] }) fr).2.2 }) := by
  simp only [Mach.identityStart, h, hb, if_true, Mach.identityWaiters, hw, List.foldl_cons, List.foldl_nil]

end waiters

/-- Settles O51: descriptors are taken, run and answered; the identity, nonces, the lockout and sessions follow their events. -/
theorem keyOperations : Obligations.KeyOperations := by
  unfold Obligations.KeyOperations
  intro s hr m
  refine ⟨fun init v ht => ?_, fun a i d hk hc hd => ?_, fun hk hf => ?_, makes_runUp (exec_nonceExpiry s) hr rfl,
    makes_runUp (exec_openLockoutExpiry s) hr rfl, fun n => ⟨fun h => ?_, fun h => ?_⟩⟩
  · intro a w
    refine ⟨fun d hc hd h1 h4 => ?_, fun hc hq => ?_, fun hc hq => ?_⟩
    · have read := ((s.now.answer .done).showKeyStatus_rights fun k => { k with cur := some (a, init.toNat), start := k.slots }).dmaRead
        s.mem init.toNat a 32
      have known : inSpan (leAt d 0 1) 1 4 = true := by simp [inSpan, h1, h4]
      refine makes_keySubmit ht ?_
      rw [Mach.keySubmit_idle (m := s.now.answer .done) hc, show s.now.key.cur = none from hc]
      exact Mach.keyTake_runs (congrArg KeySt.cur (Mach.wr_key ..)) (read.trans hd) known
    · have busy : s.now.key.cur.isNone = false := by simpa using hc
      refine makes_keySubmit ht ?_
      rw [Mach.keySubmit_queued (m := s.now.answer .done) hc hq, busy]
      rfl
    · refine makes_keySubmit ht ?_
      rw [Mach.keySubmit_full (m := s.now.answer .done) hc hq]
      rfl
  · intro gives
    refine ⟨fun ho => ?_, fun ho => ?_, fun ho hb => ?_, fun ho hh => ?_, fun hh => ?_, fun k x hs hu ha hx => Mach.macOp_slot hs hu ha hx,
      fun mem t c o h => Mach.keyAnswer_fails h, fun mem t o h => Mach.keyAnswer_short h⟩
    · exact makes_runUpMem (exec_keyOpUpdate s) hr (Mach.keyOp_answers hk hc hd ho)
    · exact makes_runUpMem (exec_keyOpMac s) hr (Mach.keyOp_answers hk hc hd ho)
    · exact makes_runUpMem (exec_keyOpExportId s) hr ((if_pos hb).trans (Mach.keyOp_answers hk hc hd ho))
    · exact makes_runUpMem (exec_keyOpBuile s) hr ((if_neg (Bool.not_eq_true _ ▸ hh)).trans (Mach.keyOp_answers hk hc hd ho))
    · exact makes_upMemTo (exec_keyOpBuile s) hr (if_pos hh)
  · intro t cold
    have shown : (t.showStage 8).key = s.now.key := (Mach.wr_key ..).trans Mach.withIdentity_key
    have waits : t.key.waits = s.now.key.waits := congrArg KeySt.waits Mach.withIdentity_key
    refine ⟨fun hcold hw => ?_, fun hcold hw => ?_, fun fr hcold hw => ?_⟩
    · obtain ⟨warm, step, stranded⟩ := hcold
      exact makes_upMemTo (exec_identityReady s) hr (Mach.identityStart_alone (Mach.identityStep_cold hr hk hf warm step stranded)
        (Mach.showStage_ready.trans Mach.withIdentity_ready) ((congrArg KeySt.waits shown).trans hw))
    · exact makes_upMemTo (exec_identityReady s) hr (Mach.identityStart_alone (Mach.identityStep_later hr hk hf hcold)
        Mach.withIdentity_ready (waits.trans hw))
    · exact makes_upMemTo (exec_identityReady s) hr (Mach.identityStart_waiting (Mach.identityStep_later hr hk hf hcold)
        Mach.withIdentity_ready (waits.trans hw))
  · exact makes_runUp (exec_sessionIdleTimeout n s) hr (if_pos h)
  · exact makes_runUp (exec_sessionIdleTimeout n s) hr (if_neg (by simp [show kget s.now.key.sess n = none from h]))

end Sys2Proof.Machine
end


section
/-! SUPPORT. The commands of the update service and the end of a verification (R467, R468, R470 to R472). -/

namespace Sys2Proof.Machine

variable {m : Mach} {mem : Mem}

/-! ### Commands -/

/-- The commands of the update service write one register. -/
theorem makes_updCmd {x : Instr} {s : State} {init : InitId} {v : Word} {mem : Mem} {n : Mach}
    (hc : exec x s = runMem s fun mem m => Mach.writeReg mem m init.toNat Rg.UPD_CMD 4 v.toNat)
    (ht : s.now.takes init.toNat Rg.UPD_CMD v.toNat .UPD_CMD [] = true) (h : Mach.updCmd s.mem (s.now.answer .done) v.toNat = (mem, n)) :
    Makes x s mem n := by
  refine makes_memTo hc (writeReg_acts ht fun hit e hn hi ha hv hinit => ?_)
  have low : ¬ 0x42000000 ≤ Rg.UPD_CMD := by decide
  rw [Mach.act, ha, if_neg low]
  simp only [Mach.actModule, Mach.actCompute, hn, hv, h]

section codes
variable {v : Nat}

theorem Mach.updCmd_begin (h : bitsOf v 31 28 = 1) : Mach.updCmd mem m v = Mach.updBegin mem m none := by simp only [Mach.updCmd, h]

theorem Mach.updCmd_write (h : bitsOf v 31 28 = 2) : Mach.updCmd mem m v =
    Mach.updWrite mem (m.chargeFab idLOADER (m.fld Rg.UPD_LEN 16 0)) none (m.rd Rg.UPD_OFFSET) (m.fld Rg.UPD_LEN 16 0)
      (m.dmaRead mem idLOADER (m.rd Rg.UPD_SRC_LO + 2 ^ 32 * m.fld Rg.UPD_SRC_HI 7 0) (m.fld Rg.UPD_LEN 16 0)) := by
  simp only [Mach.updCmd, h]

theorem Mach.updCmd_verify (h : bitsOf v 31 28 = 3) : Mach.updCmd mem m v = (mem, m.updVerify none) := by simp only [Mach.updCmd, h]

theorem Mach.updCmd_commit (h : bitsOf v 31 28 = 4) : Mach.updCmd mem m v = (mem, m.updCommit none (bitsOf v 15 0) (bitsOf v 24 24)) := by
  simp only [Mach.updCmd, h]

theorem Mach.updCmd_end (h : bitsOf v 31 28 = 5 ∨ bitsOf v 31 28 = 6) : Mach.updCmd mem m v = (mem, m.updEnd none) := by
  rcases h with h | h <;> simp only [Mach.updCmd, h]

end codes

/-! ### BEGIN -/

theorem Mach.updBegin_free {b : Nat} (hb : m.stagedBank = b) (hs : m.updState = 0 ∨ m.updState = 7) (hh : m.updHolder = 0) :
    Mach.updBegin mem m none = (memWrite (memWrite mem (bankBase b + imageArea) (List.replicate 4 0)) (bankBase b + truSlot)
      (List.replicate 4 0),
      (((((((m.modUpd fun u => { u with session := none, staged := [], stagedImage := none }).setFld Rg.UPD_STATUS 11 10 1).setFld
        Rg.UPD_STATUS 4 4 b).setUpd 1).setFld Rg.UPD_STATUS 9 8 0).journal 0x50 1 b 0).updResult 0 0xFF 0)) := by
  have free : ¬ (!(m.updState == 0 || m.updState == 7) || m.updHolder != 0) = true := by rcases hs with h | h <;> simp [h, hh]
  simp only [Mach.updBegin, if_neg free, hb]
  rfl

theorem Mach.updBegin_busy (h0 : m.updState ≠ 0) (h7 : m.updState ≠ 7) : Mach.updBegin mem m none = (mem, m.updRefuse 1) :=
  if_pos (by simp [h0, h7])

/-! ### Commands of the holder -/

section holder
variable (hh : m.updHolder = 1)

include hh

theorem Mach.updMine_heart : m.updMine none = true := beq_iff_eq.2 hh

section write
variable {o n : Nat} {data : Option (List Byte)}

theorem Mach.updWrite_stores {x : List Byte} (hs : m.updState = 1 ∨ m.updState = 3 ∨ m.updState = 4) (hn : inSpan n 32 65536 = true)
    (hn32 : n % 32 = 0) (ho : o % 32 = 0) (hend : o + n ≤ 0x1000000) : Mach.updWrite mem m none o n (some x) =
      (memWrite mem (bankBase (m.fld Rg.UPD_STATUS 4 4) + o) (sliceBytes x 0 n),
        ((m.unpoison (bankBase (m.fld Rg.UPD_STATUS 4 4) + o) n).setUpd 1).updResult 0 0xFF 0) := by
  have allowed : ¬ (!m.updMine none || !(m.updState == 1 || m.updState == 3 || m.updState == 4)) = true := by
    rcases hs with h | h | h <;> simp [Mach.updMine_heart hh, h]
  have fits : ¬ (!(inSpan n 32 65536 && n % 32 == 0 && o % 32 == 0 && o + n ≤ 0x1000000)) = true := by simp [hn, hn32, ho, hend]
  simp only [Mach.updWrite, if_neg allowed, if_neg fits]

theorem Mach.updWrite_outside (hs : m.updState = 1) (hend : 0x1000000 < o + n) : Mach.updWrite mem m none o n data = (mem, m.updRefuse 0x12) := by
  have allowed : ¬ (!m.updMine none || !(m.updState == 1 || m.updState == 3 || m.updState == 4)) = true := by
    simp [Mach.updMine_heart hh, hs]
  have outside : (!(inSpan n 32 65536 && n % 32 == 0 && o % 32 == 0 && o + n ≤ 0x1000000)) = true := by simp [Nat.not_le.2 hend]
  simp only [Mach.updWrite, if_neg allowed, if_pos outside]

end write

theorem Mach.updVerify_starts (hs : m.updState = 1) : m.updVerify none = (m.wr Rg.UPD_RESULT 0xFF00).setUpd 2 :=
  if_neg (by simp [Mach.updMine_heart hh, hs])

theorem Mach.updEnd_closes (hc : m.upd.commit = none) : m.updEnd none = m.updClose.updResult 0 0xFF 0 := by
  simp [Mach.updEnd, Mach.updMine_heart hh, hc]

section commit
variable {delay first : Nat} {i : Image} (hs : m.updState = 3) (hi : m.upd.stagedImage = some i)

include hs hi

theorem Mach.updCommit_restart (hm : m.mayHandOver i = false) : m.updCommit none delay first = ((m.modUpd fun u : UpdSt => { u with
    commit := some { restart := true, first := first, a := m.tickCount + 1, e1 := m.tickCount + 1 + max 2 delay } }
      ).wr Rg.UPD_RESULT 0xFF00).setUpd 5 := by
  have allowed : ¬ (!m.updMine none || m.updState != 3) = true := by simp [Mach.updMine_heart hh, hs]
  simp only [Mach.updCommit, if_neg allowed, hi, hm, Bool.false_eq_true, if_false]

theorem Mach.updCommit_lone (hm : m.mayHandOver i = true) (hb : m.bentState 0 ≠ 1 ∨ m.bentState 1 ≠ 1) :
    m.updCommit none delay first = m.updRefuse 0x10 := by
  have allowed : ¬ (!m.updMine none || m.updState != 3) = true := by simp [Mach.updMine_heart hh, hs]
  have lone : (m.bentState 0 != 1 || m.bentState 1 != 1) = true := by simpa using hb
  simp only [Mach.updCommit, if_neg allowed, hi, hm, lone, if_true]

/-- A partition of the bent that is handed over last. -/
def Mach.inLastBent (m : Mach) (first p : Nat) : Bool := m.partBent p == some (1 - first)

/-- The commit that hands over from one bent to the other. -/
def Mach.handover (m : Mach) (delay first : Nat) : UpdCommit where
  restart := false
  first := first
  a := m.tickCount + 1
  e1 := m.tickCount + 1 + max 2 delay
  early := m.updatedParts.filter (!m.inLastBent first ·)
  late := m.updatedParts.filter (m.inLastBent first)

theorem Mach.updCommit_handover (hm : m.mayHandOver i = true) (h0 : m.bentState 0 = 1) (h1 : m.bentState 1 = 1) :
    m.updCommit none delay first = (((m.clearParts.modUpd fun u : UpdSt => { u with commit := some (m.handover delay first) }).forAll
      m.updatedParts fun m p => m.wr (Rg.UPD_PART_STATUS p) 0x80000000).wr Rg.UPD_RESULT 0xFF00).setUpd 5 := by
  have allowed : ¬ (!m.updMine none || m.updState != 3) = true := by simp [Mach.updMine_heart hh, hs]
  have both : ¬ (m.bentState 0 != 1 || m.bentState 1 != 1) = true := by simp [h0, h1]
  simp only [Mach.updCommit, if_neg allowed, hi, hm, if_neg both, if_true]
  rfl

end commit

end holder

/-! ### Commands of another -/

section other
variable (hh : m.updHolder ≠ 1)

include hh

theorem Mach.updMine_other : m.updMine none = false := beq_eq_false_iff_ne.2 hh

theorem Mach.updVerify_refused : m.updVerify none = m.updRefuse 1 := if_pos (by simp [Mach.updMine_other hh])

theorem Mach.updCommit_refused {delay first : Nat} : m.updCommit none delay first = m.updRefuse 1 := if_pos (by simp [Mach.updMine_other hh])

theorem Mach.updEnd_refused : m.updEnd none = m.updRefuse 1 := if_pos (by simp [Mach.updMine_other hh])

end other

/-! ### The end of a verification -/

theorem exec_updVerifyDone (s : State) : exec .updVerifyDone s = runUpMem s (fun mem m => (mem, Mach.updVerified mem m)) := rfl

theorem Mach.updVerified_runs (h : m.updState = 2) : Mach.updVerified mem m =
    (m.detailed (Mach.bankVerify mem m (m.fld Rg.UPD_STATUS 4 4))).1.verifyEnds (m.fld Rg.UPD_STATUS 4 4)
      (m.detailed (Mach.bankVerify mem m (m.fld Rg.UPD_STATUS 4 4))).2 := by
  simp only [Mach.updVerified, h, bne_self_eq_false, Bool.false_eq_true, if_false]

theorem Mach.updVerified_idle (h : m.updState ≠ 2) : Mach.updVerified mem m = m := if_pos (bne_iff_ne.2 h)

theorem Mach.verifyEnds_image {b : Nat} {v : BankVerdict} {i : Image} (h : v.img = some i) : m.verifyEnds b v =
    (((m.modUpd fun u => { u with staged := v.digests, stagedImage := some i }).setUpd 3).journal 0x51 i.serial v.digests.length b
      ).updResult 0 0xFF 0 := by
  simp only [Mach.verifyEnds, h]

theorem Mach.verifyEnds_failed {b : Nat} {v : BankVerdict} (h : v.img = none) : m.verifyEnds b v =
    ((m.setUpd 4).journal 0x52 v.code v.detail v.entry).updResult v.code v.entry v.detail := by
  simp only [Mach.verifyEnds, h]

/-- Settles O54: the commands of the update service, in and out of their state and from holder and others. -/
theorem updateCommands : Obligations.UpdateCommands := by
  unfold Obligations.UpdateCommands
  intro s hr m
  refine ⟨fun init v ht => ?_, fun h2 => ?_, fun m b v => ⟨fun i => Mach.verifyEnds_image, Mach.verifyEnds_failed⟩, fun h2 => ?_⟩
  · intro w op b
    refine ⟨fun h hs hh => ?_, fun h h0 h7 => ?_,
      fun hh => ⟨fun x h hs => ?_, fun h hs hend => ?_, fun h hs => ?_, fun i h hs hi => ?_, fun hc => ⟨fun h => ?_, fun h => ?_⟩⟩,
      fun hh => ⟨fun h => ?_, fun h => ?_, fun h => ?_⟩⟩
    · have bank : w.stagedBank = b := rfl
      exact makes_updCmd (x := .updBegin init v) rfl ht ((Mach.updCmd_begin h).trans (Mach.updBegin_free bank hs hh))
    · exact makes_updCmd (x := .updBegin init v) rfl ht ((Mach.updCmd_begin h).trans (Mach.updBegin_busy (m := w) h0 h7))
    · intro n o a hn hn32 ho hend hx
      have read : w.dmaRead s.mem idLOADER (w.rd Rg.UPD_SRC_LO + 2 ^ 32 * w.fld Rg.UPD_SRC_HI 7 0) n = some x := hx
      refine makes_updCmd (x := .updWrite init v) rfl ht ((Mach.updCmd_write h).trans ?_)
      exact (congrArg (Mach.updWrite s.mem (w.chargeFab idLOADER n) none o n) read).trans
        (Mach.updWrite_stores (m := w.chargeFab idLOADER n) hh hs hn hn32 ho hend)
    · exact makes_updCmd (x := .updWrite init v) rfl ht ((Mach.updCmd_write h).trans
        (Mach.updWrite_outside (m := w.chargeFab idLOADER (m.fld Rg.UPD_LEN 16 0)) hh hs hend))
    · exact makes_updCmd (x := .updVerify init v) rfl ht ((Mach.updCmd_verify h).trans
        (congrArg (Prod.mk s.mem) (Mach.updVerify_starts (m := w) hh hs)))
    · intro e1
      have made {n : Mach} (hn : w.updCommit none (bitsOf v.toNat 15 0) (bitsOf v.toNat 24 24) = n) : Makes (.updCommit init v) s s.mem n :=
        makes_updCmd (x := .updCommit init v) rfl ht ((Mach.updCmd_commit h).trans (congrArg (Prod.mk s.mem) hn))
      exact ⟨fun hm => made (Mach.updCommit_restart (m := w) hh hs hi hm), fun hm hb => made (Mach.updCommit_lone (m := w) hh hs hi hm hb),
        fun hm h0 h1 => made (Mach.updCommit_handover (m := w) hh hs hi hm h0 h1)⟩
    · exact makes_updCmd (x := .updAbort init v) rfl ht ((Mach.updCmd_end (.inl h)).trans
        (congrArg (Prod.mk s.mem) (Mach.updEnd_closes (m := w) hh hc)))
    · exact makes_updCmd (x := .updEnd init v) rfl ht ((Mach.updCmd_end (.inr h)).trans
        (congrArg (Prod.mk s.mem) (Mach.updEnd_closes (m := w) hh hc)))
    · exact makes_updCmd (x := .updVerify init v) rfl ht ((Mach.updCmd_verify h).trans
        (congrArg (Prod.mk s.mem) (Mach.updVerify_refused (m := w) hh)))
    · exact makes_updCmd (x := .updCommit init v) rfl ht ((Mach.updCmd_commit h).trans
        (congrArg (Prod.mk s.mem) (Mach.updCommit_refused (m := w) hh)))
    · exact makes_updCmd (x := .updAbort init v) rfl ht ((Mach.updCmd_end (.inl h)).trans
        (congrArg (Prod.mk s.mem) (Mach.updEnd_refused (m := w) hh)))
  · exact makes_upMemTo (exec_updVerifyDone s) hr (congrArg (Prod.mk s.mem) (Mach.updVerified_runs h2))
  · exact makes_upMemTo (exec_updVerifyDone s) hr (congrArg (Prod.mk s.mem) (Mach.updVerified_idle h2))

end Sys2Proof.Machine
end
